-- ==== Sys2Proof/Word.lean ====
section
/-!
DEFINITION. The plain types that every other file is written in: bytes and words,
sparse tables, number formats and exact values.
-/
namespace Sys2Proof

abbrev Byte := BitVec 8
abbrev Half := BitVec 16
abbrev Word := BitVec 32
abbrev DWord := BitVec 64

/-- A sparse table by key.  Canonical form: keys strictly rising, and no entry equal
to the table's default (see `Machine.Tab.put`). -/
abbrev Tab (α : Type) := List (Nat × α)

/-- The 13 number formats of R32 (02_exact_arithmetic.md). -/
inductive Fmt where
  | binary64 | binary32 | binary16 | bfloat16
  | e4m3 | e5m2 | e3m2 | e2m3 | e2m1
  | int8 | int4 | anchored64 | cea256
  deriving DecidableEq, Repr

/-- An element read exactly: a NaN (signalling or not), an infinity, or
`(-1)^neg * mag * 2^exp` (R33; zero keeps its sign). -/
inductive Val where
  | nan (signalling : Bool)
  | inf (neg : Bool)
  | fin (neg : Bool) (mag : Nat) (exp : Int)
  deriving DecidableEq, Repr

/-- How a magnitude is rounded: RNE and SR of R58 and R65 (`sr u` carries the random
word), and the four directions of an IEEE operation (R71, IEEE_RM). -/
inductive Rnd where
  | rne
  | sr (u : Nat)
  | towardZero
  | towardPos
  | towardNeg
  deriving DecidableEq, Repr

/-- A CEA-256 accumulator with its anchor, sticky states, window flags and term
count (R44, R45, R48). -/
structure Cea where
  c : Int := 0
  anchor : Int := 0
  nan : Bool := false
  pinf : Bool := false
  ninf : Bool := false
  high : Bool := false
  low : Bool := false
  terms : Nat := 0
  deriving DecidableEq, Repr

end Sys2Proof
end

