-- ==== Sys2Proof/Types.lean ====
section
/-!
DEFINITION. The operand types of the commands: what arrives at a unit, and what is
measured there.
-/
namespace Sys2Proof

/-- The kind of a core (03_cores.md R69). -/
inductive CoreKind where
  | m | v
  deriving DecidableEq, Repr

/-- A unit with a confirmed-fault count (R145): a physical tile, or a physical core of it. -/
inductive UnitId where
  | tile (t : Nat)
  | mCore (t p : Nat)
  | vCore (t p : Nat)
  | sCore (t p : Nat)
  deriving DecidableEq, Repr

/-- A disturbance of a fetch: the byte at a tile address arrives XORed with a mask (R143). -/
structure Flip where
  addr : Nat
  mask : Byte
  deriving DecidableEq, Repr

/-- A DRAM row with disturbed stored bytes (R115, R116): positions 0 to 1,087 of the stored
row, each with the mask by which the byte read differs. -/
structure RowErr where
  tile : Nat
  die : Nat
  row : Nat
  errs : List Flip
  deriving DecidableEq, Repr

/-- A stitch cell that crosses the Seam beside its row (R137). -/
structure CellWord where
  stitch : DWord
  gen : BitVec 6
  state : BitVec 2
  deriving DecidableEq, Repr

/-- A request at a row port (R112): its initiator, and the initiators that present requests to the
port in the same cycle. -/
structure PortAsk where
  ini : Nat
  rivals : List Nat := []
  deriving DecidableEq, Repr

/-- How a residue check of one output block ends (R512): the repeat passes, a second
repeat passes, or the fault is permanent. -/
inductive Residue where
  | passAfterOne
  | passAfterTwo
  | permanent
  deriving DecidableEq, Repr

/-- A residue mismatch found at output block `blk` (counted from 0) of a descriptor. -/
structure ResidueEvent where
  blk : Nat
  kind : Residue
  deriving DecidableEq, Repr

/-- A record of the tables that the scrub covers (R514): by destination node; by record;
by group; by link * 16 + lane group; by plan slot; by schedule slot; by calendar position;
by flow slot; by station and tag; by tile and queue. -/
inductive TableRef where
  | route (node : Nat)
  | region (i : Nat)
  | group (i : Nat)
  | slices (key : Nat)
  | plan (p : Nat)
  | schedule (i : Nat)
  | calendar (key : Nat)
  | flow (i : Nat)
  | track (st tag : Nat)
  | queue (t q : Nat)
  deriving DecidableEq, Repr

/-- Who sends a VDP request (R345): a UDP source (IPv6 or mapped IPv4 address, port), an
MCTP endpoint, or the mailbox of a PCIe function. -/
inductive Party where
  | udp (addr port : Nat)
  | mctp (eid : Nat)
  | mailbox (fn : Nat)
  deriving DecidableEq, Repr

/-- A VDP request message (R347): the header's fields and the data that follow it. -/
structure VdpReq where
  src : Party
  version : Nat := 1
  opcode : Nat := 0
  flags : Nat := 0
  txid : Nat := 0
  index : Nat := 0
  sub : Nat := 0
  group : Nat := 0
  offset : Nat := 0
  total : Nat := 0
  dataLen : Nat := 0
  detail : Nat := 0
  data : List Byte := []
  /-- The persistent store cannot be written now (R344). -/
  nvFails : Bool := false
  /-- The standby Mantle fails to take its copy (R363). -/
  copyFails : Bool := false
  /-- The datagram is a fragment, is shorter than a header, or meets a full queue (R347, R352,
  R357). -/
  dropped : Bool := false
  deriving DecidableEq, Repr

/-- A packet (R247): the fields of its 32-byte header and its body.  For a multicast packet
`route` holds the group in [11:0] and the remaining hop count in [14:12].  `stamp` is the
epoch count of its entry at this module, which R332 measures. -/
structure Pkt where
  hops : Nat := 0
  next : Nat := 0
  mcast : Bool := false
  route : Nat := 0
  slice : Nat := 0
  kind : Nat := 0
  destNode : Nat := 0
  destStation : Nat := 0
  srcStation : Nat := 0
  srcNode : Nat := 0
  tag : Nat := 0
  stream : Nat := 0
  seq : Nat := 0
  sigSync : Nat := 0xFFFF
  sigCount : Nat := 0
  poison : Bool := false
  fabric : Bool := false
  body : List Byte := []
  stamp : Nat := 0
  deriving DecidableEq, Repr

/-- What discovery found at a guest site whose partner answered (R566): the site, modules that
trained, rate in GT/s, identity. -/
structure GuestSite where
  site : Nat
  modules : Nat
  rate : Nat
  identity : List Byte
  deriving DecidableEq, Repr

/-- What one pass of a calibration measures (R490, R493): reference arrival at the field and by SP1's
loop-back, in 10^-6 ps; the power that a ring drops at successive heater steps of 0.1 GHz from the
first on; a sum of samples, and the full swing; a sum of squares, and the target power; sums of
magnitudes over successive sampling phases of 0.1 ps, for I and for Q; the sum of products, and the
sums of squares of I and of Q; the map of the passing taps. -/
inductive Pass where
  | arrival (own loop : Int)
  | ring (first : Int) (power : List Nat)
  | bias (sum : Int) (swing : Nat)
  | gain (squares target : Nat)
  | skew (firstI : Int) (sumsI : List Nat) (firstQ : Int) (sumsQ : List Nat)
  | phase (cross : Int) (squaresI squaresQ : Nat)
  | taps (map : Nat)
  deriving DecidableEq, Repr

/-- The measurement of one quantity (R489 to R492): the channel ID of the line or Seam group (R558);
the quantity, by its row of R489; whether it is that of the quadrature component; the receiver's
path (R498), named by the physical station of the far end, or for a mesh bus line by receiving
station and group; three passes, of which the third counts only where it is made. -/
structure Measure where
  id : Nat
  quantity : Nat
  quad : Bool := false
  path : Nat := 0
  p1 : Pass
  p2 : Pass
  p3 : Pass := .taps 0
  deriving DecidableEq, Repr

/-- A mat that the pattern test marks (R559). -/
structure MatRef where
  tile : Nat
  die : Nat
  bank : Nat
  mat : Nat
  deriving DecidableEq, Repr

/-- The PLDM commands of R360; any other is answered as unsupported. -/
inductive PldmCmd where
  | getTid
  | getVersion
  | getTypes
  | getCommands
  | getPdrRepositoryInfo
  | getPdr
  | getSensorReading (id : Nat)
  | getStateSensorReadings (id : Nat)
  | setEventReceiver (eid : Nat)
  | getFruTableMetadata
  | getFruTable
  | other
  deriving DecidableEq, Repr

end Sys2Proof
end

