-- ==== Sys2Proof/Syntax.lean ====
section
/-!
DEFINITION. The commands of the block: one constructor per row of spec/opcode_table.json.
Each carries its row's operands: the unit concerned, what arrives, and what is measured.
-/
namespace Sys2Proof

/-- The commands, in the order of the opcode table: those with operands, then those without. -/
inductive Instr where
  /-- TD_ISSUE (R91): S-core `p` (physical) of tile `t` executes td.issue; `pmpDenied` says that PMP denies the descriptor read. -/
  | tdIssue (t p rd : Nat) (rs1 rs2 : DWord) (pmpDenied : Bool)
  /-- TD_ABORT (R91): S-core `p` executes td.abort. -/
  | tdAbort (t p rd : Nat) (rs1 rs2 : DWord)
  /-- TD_POLL (R91): S-core `p` executes td.poll. -/
  | tdPoll (t p rd : Nat) (rs1 : DWord)
  /-- TD_POP (R91): S-core `p` executes td.pop. -/
  | tdPop (t p : Nat) (rs1 : DWord)
  /-- SY_SIGNAL (R91): S-core `p` executes sy.signal. -/
  | sySignal (t p : Nat) (rs1 rs2 : DWord)
  /-- SY_WAIT (R91): S-core `p` executes sy.wait with `tdwait` in its CSR. -/
  | syWait (t p rd : Nat) (rs1 rs2 tdwait : DWord)
  /-- SY_WAIT_RELEASE (R92): The awaited count of S-core `p` is reached. -/
  | syWaitRelease (t p : Nat)
  /-- SY_WAIT_TIMEOUT (R91): The tdwait of S-core `p` runs out. -/
  | syWaitTimeout (t p : Nat)
  /-- TD_FENCE (R91): S-core `p` executes td.fence. -/
  | tdFence (t p : Nat)
  /-- TD_FENCE_RELEASE (R91): The last outstanding descriptor of S-core `p` has ended. -/
  | tdFenceRelease (t p : Nat)
  /-- TDCQ_WRITE (R93): S-core `p` writes CSR tdcq`q`. -/
  | tdcqWrite (t p q : Nat) (v : DWord)
  /-- S_CORE_CHECK_REPLAY (R513): A check of S-core `p` failed; `passes` says how the replay ends. -/
  | sCoreCheckReplay (t p : Nat) (passes : Bool)
  /-- DESCRIPTOR_START (R78): The head descriptor of a physical core may start; `flips` disturb the blocks that a STATS scan fetches. -/
  | descriptorStart (t : Nat) (kind : CoreKind) (p : Nat) (flips : List Flip)
  /-- DESCRIPTOR_COMPLETE (R79): The running descriptor ends; `flips` disturb its first fetches, `res` are residue mismatches, `wfail` output blocks whose write fails, `upTo` the output blocks written when an abort takes effect. -/
  | descriptorComplete (t : Nat) (kind : CoreKind) (p : Nat) (flips : List Flip) (res : List ResidueEvent) (wfail : List Nat) (upTo : Nat)
  /-- COMPLETION_RECORD_DEFERRED (R93): The oldest record held back for queue `q` of S-core `p` may be written. -/
  | completionRecordDeferred (t p q : Nat)
  /-- STITCH_REPEAT_FETCH (R143): The repeat fetch of a mismatched block, disturbed by `flips`. -/
  | stitchRepeatFetch (t : Nat) (kind : CoreKind) (p : Nat) (flips : List Flip)
  /-- SELF_TEST (R146): The self-test of a unit falls due. -/
  | selfTest (u : UnitId) (passes : Bool)
  /-- ROW_READ (R109): A row port of tile `t` reads a row for an initiator (R112); `errs` disturb the stored row, `fails` crossings fail. -/
  | rowRead (t die row : Nat) (ask : PortAsk) (errs : List Flip) (fails : Nat)
  /-- TILE_RESET_COMPLETE (R149): The tile reset of `t` ends. -/
  | tileResetComplete (t : Nat)
  /-- ROW_WRITE (R110): A full row is written, with a stitch cell where one crosses beside it. -/
  | rowWrite (t die row : Nat) (ask : PortAsk) (data : List Byte) (cell : Option CellWord) (fails : Nat)
  /-- MASKED_ROW_WRITE (R111): Part of a row is written: bit `w` of `mask` names 8-byte word `w`. -/
  | maskedRowWrite (t die row : Nat) (ask : PortAsk) (mask : Nat) (data : List Byte) (cell : Option CellWord) (errs : List Flip) (fails : Nat)
  /-- REFRESH (R121): The refresh sequencer turns to a bank: `due`, a further refresh falls due; `waiting`, requests wait for the bank. -/
  | refresh (t die bank : Nat) (due waiting : Bool)
  /-- PATROL_SCRUB_ROW (R124): Patrol scrub takes the next row of a die. -/
  | patrolScrubRow (t die : Nat) (errs : List Flip)
  /-- SELF_REFRESH_DRAIN_DONE (R122): The accepted requests of a die have drained. -/
  | selfRefreshDrainDone (t die : Nat)
  /-- SELF_REFRESH_EXIT (R122): A die leaves self-refresh; `fails` ports fail their pattern row. -/
  | selfRefreshExit (t die : Nat) (fails : Nat)
  /-- DEMAND_SCRUB (R126): A command at 0x6400:02. -/
  | demandScrub (r : VdpReq)
  /-- DEMAND_SCRUB_DONE (R126): The demand scrub ends; `errs` are the rows it found disturbed. -/
  | demandScrubDone (errs : List RowErr)
  /-- FILL (R127): A command at 0x6400:06. -/
  | fill (r : VdpReq)
  /-- ROW_RATE_STEP_ESCALATE (R129): Step 2 or 3 of tile `t` has held for 1 ms. -/
  | rowRateStepEscalate (t : Nat)
  /-- ROW_RATE_STEP_UP (R130): 10 ms have passed below the condition of the current step of tile `t`. -/
  | rowRateStepUp (t : Nat)
  /-- CLEAR_CONFIRMED_FAULTS (R154): A command at 0x6600+t:06. -/
  | clearConfirmedFaults (t : Nat) (r : VdpReq)
  /-- CODEWORD_RECEIVE (R157): Lane `line` of circuit port `port` (16 + x for the mesh bus of station x) of station `st` decodes a data codeword with `errs` symbol errors; `locked` is false where the lane has lost lock. -/
  | codewordReceive (st port line seq : Nat) (data : List Byte) (errs : Nat) (locked : Bool)
  /-- LANE_CONTROL_CODEWORD (R160): A lane-control codeword arrives at a circuit port with its Ack, Nak List, Credits and Line Map. -/
  | laneControlCodeword (st port line : Nat) (ack : Option Nat) (naks : List Nat) (credits : List Nat) (lineMap : Nat) (errs : Nat)
  /-- CODEWORD_RESEND (R161): A data position is free for a codeword named in a Nak List. -/
  | codewordResend (st port : Nat)
  /-- MESH_SLOT_ACK (R168): Receiver `dst` acknowledges or rejects slot `seq` of source `src`. -/
  | meshSlotAck (src seq dst : Nat) (ok : Bool)
  /-- PACKET_SEND (R183): The router of a station takes a packet that has reached it, or lets one go; `crossing`, the time in ps to its exit; `space`, it holds control space for a reply. -/
  | packetSend (st crossing : Nat) (space : Bool)
  /-- SHAPER_RELEASE (R316): The shaper of a flow lets its first waiting packet go. -/
  | shaperRelease (slot crossing : Nat) (space : Bool)
  /-- LOAD_PLAN (R176): A command at 0x7300:03. -/
  | loadPlan (r : VdpReq)
  /-- PLAN_BODY_WRITE (R189): A write of 0x7400+p:01. -/
  | planBodyWrite (p : Nat) (r : VdpReq)
  /-- SWITCH_REQUEST (R178): A command at 0x7300:02. -/
  | switchRequest (r : VdpReq)
  /-- PLAN_SWITCH_FIRST_DATA (R180): A changing port finishes training `ns` after its front: the lanes that failed to relock here, and those that the far end's Line Map leaves out. -/
  | planSwitchFirstData (st port ns failedLanes farLanes : Nat)
  /-- LOAD_SCHEDULE (R204): A command at 0x7500:0A. -/
  | loadSchedule (r : VdpReq)
  /-- SCHEDULE_BODY_WRITE (R224): A write of 0x7600+slot:01. -/
  | scheduleBodyWrite (slot : Nat) (r : VdpReq)
  /-- RUN_START (R206): The conditions of R206 for the next run of a schedule are looked at. -/
  | runStart (slot : Nat)
  /-- EXPONENT_SCAN_DONE (R207): Tile `t` has scanned its inputs. -/
  | exponentScanDone (slot t : Nat)
  /-- EXPONENT (R207): An EXPONENT packet arrives at tile `t`. -/
  | exponent (t : Nat) (p : Pkt)
  /-- ANCHOR (R207): An ANCHOR packet arrives at tile `t`. -/
  | anchor (t : Nat) (p : Pkt)
  /-- PHASE_BEGIN (R208): The next phase of a run begins. -/
  | phaseBegin (slot : Nat)
  /-- CONTRIBUTE_SEND (R202): A CONTRIBUTE step takes its next block; disturbances of the fetch and of its repeat. -/
  | contributeSend (slot step : Nat) (first again : List Flip)
  /-- PARTIAL (R202): A PARTIAL packet arrives at tile `t`; `dual`, the comparison of R193 (1 a transient, 2 a permanent disagreement); `err`, an element of the combine and the bits in which the engine errs. -/
  | partialBlock (t : Nat) (p : Pkt) (dual : Nat) (err : Option (Nat × DWord))
  /-- GRANT (R209): A GRANT packet arrives at tile `t`. -/
  | grant (t : Nat) (p : Pkt)
  /-- RESULT (R202): A RESULT packet arrives at tile `t`. -/
  | result (t : Nat) (p : Pkt)
  /-- REFETCH (R220): A REFETCH packet arrives at the root's tile. -/
  | refetch (t : Nat) (p : Pkt)
  /-- RESEND (R221): A RESEND packet arrives at tile `t`; disturbances of a contributor's fetch and of its repeat. -/
  | resend (t : Nat) (p : Pkt) (first again : List Flip)
  /-- PHASE_COMPLETE (R208): Every send of the phase has been acknowledged. -/
  | phaseComplete (slot : Nat)
  /-- RUN_END (R210): The conditions of R210 for the end of a run are looked at. -/
  | runEnd (slot : Nat)
  /-- RUN_TIMEOUT (R212): The Timeout of a run expires. -/
  | runTimeout (slot : Nat)
  /-- MULTICAST_COPY_RECEIVE (R215): A multicast copy arrives on a link. -/
  | multicastCopyReceive (link : Nat) (p : Pkt)
  /-- MULTICAST_GROUP_WRITE (R225): A write of 0x5400:02 for the group selected. -/
  | multicastGroupWrite (r : VdpReq)
  /-- HEM_FRAME_RECEIVE (R232): A frame of 2,570 bytes arrives on a line, at the position of FSEQ `seq`, with at most `errs` symbol errors in a codeword. -/
  | hemFrameReceive (link line seq : Nat) (frame : List Byte) (errs : Nat)
  /-- HEM_CONTROL_FRAME (R235): A control frame arrives on a line. -/
  | hemControlFrame (link line : Nat) (frame : List Byte) (errs : Nat)
  /-- HEM_FRAME_RESEND (R237): A frame is due to be sent again on a lane group. -/
  | hemFrameResend (link group : Nat)
  /-- HEM_LANE_FAILED (R241): A Hem lane is marked failed by the rule of R241. -/
  | hemLaneFailed (link line : Nat)
  /-- HEM_TRAINING_START (R243): Light has been present on every line of a lane group for 100 us; the measurements of its receivers (R501). -/
  | hemTrainingStart (link group : Nat) (ms : List Measure)
  /-- HEM_GROUP_UP (R243): The training of a lane group ends; its one-way latency is measured in ns. -/
  | hemGroupUp (link group latency : Nat)
  /-- LOSS_OF_LIGHT (R266): Every line of a lane group has been dark for 1 us; `space`, the router holds control space for replies. -/
  | lossOfLight (link group : Nat) (space : Bool)
  /-- HEM_PACKET_RECEIVE (R251): A packet's bytes come from a lane group; `space`, the router holds control space for a reply. -/
  | hemPacketReceive (link group : Nat) (data : List Byte) (space : Bool)
  /-- ROUTE_FAIL (R253): A ROUTE_FAIL packet arrives at its source's station. -/
  | routeFail (st : Nat) (p : Pkt)
  /-- SLICE_FAIL (R259): A SLICE_FAIL packet arrives at its source's station. -/
  | sliceFail (st : Nat) (p : Pkt)
  /-- CLEAR_QUARANTINE (R246): A command at 0x5000:02. -/
  | clearQuarantine (r : VdpReq)
  /-- NODE_NUMBER_WRITE (R268): A write of 0x5000:01. -/
  | nodeNumberWrite (r : VdpReq)
  /-- ROUTE_SET_WRITE (R250): A write of 0x5100:02 for the destination selected. -/
  | routeSetWrite (r : VdpReq)
  /-- ALLOWED_SLICES_WRITE (R259): A write of 0x5300:02 for the lane group selected. -/
  | allowedSlicesWrite (r : VdpReq)
  /-- START_SWEEP (R269): A command at 0x5500:02. -/
  | startSweep (r : VdpReq)
  /-- SWEEP (R269): A SWEEP packet arrives at this module on a lane group. -/
  | sweep (link group : Nat) (p : Pkt)
  /-- SWEEP_REPLY (R270): The SWEEP_REPLY arrives at the initiator. -/
  | sweepReply (p : Pkt)
  /-- FABRIC_QUEUE_ENABLE (R285): The enable of fabric queue `q` of tile `t` changes from 0 to 1. -/
  | fabricQueueEnable (t q : Nat)
  /-- FABRIC_QUEUE_DISABLED (R285): The enable of fabric queue `q` has been cleared and its last outstanding entry has ended. -/
  | fabricQueueDisabled (t q : Nat)
  /-- FABRIC_ENTRY_ISSUE (R287): The router takes the next posted entry; disturbances of the fetch of its block and of the repeat. -/
  | fabricEntryIssue (t q : Nat) (first again : List Flip)
  /-- LOAD (R292): A LOAD at the router of station `st`; disturbances of the read and of its repeat. -/
  | loadReq (st : Nat) (p : Pkt) (first again : List Flip)
  /-- STORE (R293): A STORE at station `st`; `fails`, the write fails (R107, R111). -/
  | storeReq (st : Nat) (p : Pkt) (fails : Bool)
  /-- ATOMIC (R294): An ATOMIC at station `st`; disturbances of the read, and whether the write fails. -/
  | atomicReq (st : Nat) (p : Pkt) (fl : List Flip) (fails : Bool)
  /-- REDUCE (R295): A REDUCE at station `st`; disturbances of the read and its repeat, and whether the write fails. -/
  | reduceReq (st : Nat) (p : Pkt) (first again : List Flip) (fails : Bool)
  /-- MSTORE (R296): A copy of an MSTORE at one destination station; `fails`, the write fails. -/
  | mstoreReq (st : Nat) (p : Pkt) (fails : Bool)
  /-- SYNC_ADD (R297): A SYNC_ADD packet at station `st`. -/
  | syncAdd (st : Nat) (p : Pkt)
  /-- SYNC_READ (R297): A SYNC_READ packet at station `st`. -/
  | syncRead (st : Nat) (p : Pkt)
  /-- ACQUIRE (R298): A LEASE packet with action 0 at station `st`. -/
  | acquire (st : Nat) (p : Pkt)
  /-- RENEW (R298): A LEASE packet with action 1 at station `st`. -/
  | renew (st : Nat) (p : Pkt)
  /-- RELEASE (R298): A LEASE packet with action 2 at station `st`. -/
  | release (st : Nat) (p : Pkt)
  /-- OWN_GIVE (R284): An OWN_GIVE packet at station `st`. -/
  | ownGive (st : Nat) (p : Pkt)
  /-- FENCE (R302): The router takes the next posted entry of queue `q`, a FENCE. -/
  | fence (t q : Nat)
  /-- FENCE_COMPLETE (R303): The first waiting fence of queue `q`, once its earlier entries have ended. -/
  | fenceComplete (t q : Nat)
  /-- COMPLETION (R290): A COMPLETION at station `st`; disturbances of the fetch for a second send of a block STORE, and of its repeat. -/
  | completion (st : Nat) (p : Pkt) (first again : List Flip)
  /-- REQUEST_TIMEOUT (R301): Tracker entry `tag` of station `st` reaches its deadline. -/
  | requestTimeout (st tag : Nat)
  /-- TAG_QUARANTINE_EXPIRY (R301): The quarantine of a tag of station `st` ends. -/
  | tagQuarantineExpiry (st tag : Nat)
  /-- LEASE_EXPIRY (R299): The lease of base sync object `i` reaches its end. -/
  | leaseExpiry (index : Nat)
  /-- REVOKE_LEASE (R299): A command at 0x5600:08. -/
  | revokeLease (r : VdpReq)
  /-- TEAR_DOWN_SLICE (R307): A command at 0x5600:09. -/
  | tearDownSlice (r : VdpReq)
  /-- SET_OWNER (R309): A command at 0x5200:03 for the region selected. -/
  | setOwner (r : VdpReq)
  /-- REGION_RECORD_WRITE (R281): A write of 0x5200:02 for the region selected. -/
  | regionRecordWrite (r : VdpReq)
  /-- VF_RESET (R308): A reset of virtual function `v` is requested. -/
  | vfReset (v : Nat)
  /-- VF_RESET_COMPLETE (R308): The wait of a function's reset ends. -/
  | vfResetComplete (fn : Nat)
  /-- ADMIT_SLICE (R311): A command at 0x7000:01. -/
  | admitSlice (r : VdpReq)
  /-- WITHDRAW_SLICE (R329): A command at 0x7000:02. -/
  | withdrawSlice (r : VdpReq)
  /-- FLOW_RECORD_WRITE (R327): A write of 0x7200:02 for the flow selected. -/
  | flowRecordWrite (r : VdpReq)
  /-- VDP_READ (R350): A READ message. -/
  | vdpRead (r : VdpReq)
  /-- VDP_WRITE (R346): A WRITE message. -/
  | vdpWrite (r : VdpReq)
  /-- GROUP_OPEN (R353): A GROUP_OPEN message. -/
  | groupOpen (r : VdpReq)
  /-- GROUP_COMMIT (R354): A GROUP_COMMIT message. -/
  | groupCommit (r : VdpReq)
  /-- GROUP_DISCARD (R353): A GROUP_DISCARD message. -/
  | groupDiscard (r : VdpReq)
  /-- GROUP_STATUS (R348): A GROUP_STATUS message. -/
  | groupStatus (r : VdpReq)
  /-- DESCRIBE (R348): A DESCRIBE message. -/
  | describe (r : VdpReq)
  /-- NOTIFY_ACK (R362): A NOTIFY_ACK message; its Transaction ID echoes the NOTIFY. -/
  | notifyAck (r : VdpReq)
  /-- NOTIFY_RESEND (R362): The resend of a NOTIFY falls due. -/
  | notifyResend (target seq : Nat)
  /-- SNAPSHOT_RELEASE (R350): Snapshot `id` has not been used for 2 s. -/
  | snapshotRelease (id : Nat)
  /-- PARTIAL_WRITE_DISCARD (R350): A partial value has had no segment for 10 s. -/
  | partialWriteDiscard (party : Party) (index sub group : Nat)
  /-- GROUP_EXPIRY (R353): Open group `n` has had no request for 10 s. -/
  | groupExpiry (n : Nat)
  /-- CONTEXT_RELEASE (R345): A context has been idle for 60 s. -/
  | contextRelease (party : Party)
  /-- HAND_OVER (R364): A command at 0x1200:0E. -/
  | handOver (r : VdpReq)
  /-- RESTART_STANDBY (R365): A command at 0x1200:0F. -/
  | restartStandby (r : VdpReq)
  /-- RESTORE_DEFAULTS (R344): A command at 0x1200:0B. -/
  | restoreDefaults (r : VdpReq)
  /-- PLDM_REQUEST (R360): A PLDM command from endpoint `eid`. -/
  | pldmRequest (eid : Nat) (cmd : PldmCmd)
  /-- SET_ENDPOINT_ID (R359): MCTP Set Endpoint ID. -/
  | setEndpointId (eid : Nat)
  /-- OPERATION_ABORT (R368): A command at 0xA000 + ID:08, when the operation has completed `units` rows or units. -/
  | operationAbort (id units : Nat) (r : VdpReq)
  /-- IMAGE_UPLOAD (R379): A segment written to 0x1100:05. -/
  | imageUpload (r : VdpReq)
  /-- RESTART_MODULE (R378): A command at 0x1100:07. -/
  | restartModule (r : VdpReq)
  /-- MODE_SELECT (R380): A write of 0x2000:01. -/
  | modeSelect (r : VdpReq)
  /-- POWER_CAP (R381): A write of 0x2100:01. -/
  | powerCap (r : VdpReq)
  /-- RELEASE_THERMAL_LATCH (R383): A command at 0x2300:07. -/
  | releaseThermalLatch (r : VdpReq)
  /-- TILE_CLOCK_LIMIT (R386): A write of 0x3200:01. -/
  | tileClockLimit (r : VdpReq)
  /-- START_CALIBRATION (R387): A command at 0x4000:02. -/
  | startCalibration (r : VdpReq)
  /-- SWITCH_LASER_GROUP (R388): A command at 0x4200:06. -/
  | switchLaserGroup (r : VdpReq)
  /-- RESTART_LASER_DIE (R531): A command at 0x4200:07. -/
  | restartLaserDie (r : VdpReq)
  /-- LASER_RESTART_CHECK_DONE (R531): The restart check of laser die `k` ends. -/
  | laserRestartCheckDone (k : Nat) (passes : Bool)
  /-- PORT_ROLES_WRITE (R391): A write of 0x4600+x:01. -/
  | portRolesWrite (x : Nat) (r : VdpReq)
  /-- CLEAR_THROUGH (R394): A command at 0x8000:04 (`k` 28 or more) or 0x8100+k:04. -/
  | clearThrough (k : Nat) (r : VdpReq)
  /-- START_SELF_TEST (R395): A command at 0x8200:01. -/
  | startSelfTest (r : VdpReq)
  /-- SLEEP_REQUEST (R540): A command at 0x9000:02. -/
  | sleepRequest (r : VdpReq)
  /-- DIAGNOSTIC_MODE (R398): A write of 0xF000:01. -/
  | diagnosticMode (r : VdpReq)
  /-- FAULT_INJECTION (R399): A write of 0xF000:02. -/
  | faultInjection (r : VdpReq)
  /-- SEAM_TAP_OVERRIDE (R399): A write of 0xF000:04. -/
  | seamTapOverride (r : VdpReq)
  /-- ERASE_PERSISTENT_STORE (R399): A command at 0xF000:09. -/
  | erasePersistentStore (r : VdpReq)
  /-- PCIE_LINK_TRAINING (R572): The link trains to `width` lanes at `rate` GT/s; 0 lanes, it does not train. -/
  | pcieLinkTraining (width rate : Nat) (flit : Bool)
  /-- REG_PLAIN_WRITE (R405): A write to BAR0's plain window or to BAR2. -/
  | regPlainWrite (fn bar off : Nat) (data : List Byte)
  /-- SET_ALIAS_WRITE (R407): A write through the SET alias at a register offset. -/
  | setAliasWrite (fn off : Nat) (data : List Byte)
  /-- CLEAR_ALIAS_WRITE (R407): A write through the CLEAR alias at a register offset. -/
  | clearAliasWrite (fn off : Nat) (data : List Byte)
  /-- TOGGLE_ALIAS_WRITE (R407): A write through the TOGGLE alias at a register offset. -/
  | toggleAliasWrite (fn off : Nat) (data : List Byte)
  /-- STATUS_REGISTER_WRITE (R412): A write to the status register at an offset. -/
  | statusRegisterWrite (fn off value : Nat)
  /-- DOMAIN_WRITE (R409): A write to a register of a domain; `window` 0 plain, 1 SET, 2 CLEAR, 3 TOGGLE. -/
  | domainWrite (fn window off value : Nat)
  /-- DOMAIN_WRITE_APPLIED (R409): Domain `d` applies its posted write. -/
  | domainWriteApplied (d : Nat)
  /-- DOMAIN_REGISTER_READ (R410): A read of the register at an offset. -/
  | domainRegisterRead (fn off : Nat)
  /-- DOMAIN_READ_RECOVERY (R410): A read has been held for 100 ms. -/
  | domainReadRecovery (d : Nat)
  /-- EPOCH_LO_READ (R414): A read of EPOCH_LO. -/
  | epochLoRead (fn : Nat)
  /-- MBOX_DOORBELL (R419): A write of MBOX_DOORBELL; whether the persistent store or the standby's copy fails. -/
  | mboxDoorbell (fn value : Nat) (nvFails copyFails : Bool)
  /-- MAILBOX_RESPONSE (R361): The response to a function's request comes back. -/
  | mailboxResponse (fn : Nat)
  /-- TILE_SYNC_ADD (R420): A write of TILE_SYNC_ADD of tile `t`. -/
  | tileSyncAdd (t value : Nat)
  /-- BASE_SYNC_ADD (R420): A write of BASE_SYNC_ADD. -/
  | baseSyncAdd (value : Nat)
  /-- FC_WAKE (R421): A write of FC_WAKE. -/
  | fcWake (value : Nat)
  /-- QUEUE_ENABLE (R427): A write of QCTRL of the function's queue `i` that sets ENABLE. -/
  | queueEnable (fn index value : Nat)
  /-- QUEUE_DISABLE (R427): A write of QCTRL that clears ENABLE. -/
  | queueDisable (fn index value : Nat)
  /-- QUEUE_DISABLED (R427): The outstanding count of global queue `q` reaches 0. -/
  | queueDisabled (q : Nat)
  /-- SQ_TAIL (R429): A write of SQ_TAIL. -/
  | sqTail (fn index value : Nat)
  /-- CQ_HEAD (R429): A write of CQ_HEAD. -/
  | cqHead (fn index value : Nat)
  /-- SQ_ENTRY_FETCH (R430): The next entry is read; `entry` is what host memory holds. -/
  | sqEntryFetch (q : Nat) (entry : List Byte)
  /-- WRITE (R431): The next piece of a WRITE is issued with the bytes that host memory returned; `fault`, the read fails. -/
  | write (q idx : Nat) (data : List Byte) (fault : Bool)
  /-- READ (R431): The next piece of a READ is issued. -/
  | read (q idx : Nat)
  /-- SIGNAL (R431): A SIGNAL is issued. -/
  | signal (q idx : Nat)
  /-- WAIT (R431): A WAIT is issued. -/
  | wait (q idx : Nat)
  /-- BARRIER (R431): A BARRIER is tested. -/
  | barrier (q idx : Nat)
  /-- CQ_RECORD_WRITE (R432): The record of an ended entry is due. -/
  | cqRecordWrite (q idx : Nat)
  /-- CQ_COALESCE_TIMER (R433): COAL_TIME has passed. -/
  | cqCoalesceTimer (q : Nat)
  /-- QUEUE_DMA_FAULT (R434): A read of the SQ fails, or a write of the CQ. -/
  | queueDmaFault (q : Nat) (cq : Bool)
  /-- WATCH (R436): A WATCH is at its home. -/
  | watch (st : Nat) (p : Pkt)
  /-- WATCH_FIRE (R436): A WATCH_FIRE is at the host bridge. -/
  | watchFire (p : Pkt)
  /-- WATCH_EXPIRY (R436): A watch of an object has expired. -/
  | watchExpiry (t name : Nat)
  /-- BAR4_WRITE (R438): A write TLP. -/
  | bar4Write (off : Nat) (data : List Byte)
  /-- BAR4_READ (R438): A read TLP. -/
  | bar4Read (off len : Nat)
  /-- FUNCTION_LEVEL_RESET (R440): An FLR of a function. -/
  | functionLevelReset (fn : Nat)
  /-- HOT_RESET (R440): A Hot Reset, or loss of the link. -/
  | hotReset (linkLost : Bool)
  /-- BUS_MASTER_DISABLE (R440): Bus Master Enable is cleared on a function. -/
  | busMasterDisable (fn : Nat)
  /-- D3HOT_ENTRY (R440): A function enters D3hot. -/
  | d3hotEntry (fn : Nat)
  /-- REFERENCE_FAILURE (R444): Source `src` (0 primary, 1 secondary) misses edges or drifts beyond its limit. -/
  | referenceFailure (src : Nat)
  /-- REFERENCE_QUALIFIED (R444): Source `src` has qualified for 10 s. -/
  | referenceQualified (src : Nat)
  /-- CLOCK_FRONT (R458): The epoch count reaches `front` (the next front where it names none ahead); `nvFails`, the persistent store cannot be written; a domain's replica differs by `replica` ps. -/
  | clockFront (front : Nat) (nvFails : Bool) (replica : Option Int)
  /-- FALL_BACK_REQUEST (R456): The droop monitor of tile `t` triggers. -/
  | fallBackRequest (t : Nat)
  /-- FALL_BACK_WITHDRAW (R456): The droop monitor of tile `t` has had no trigger for 10 ms. -/
  | fallBackWithdraw (t : Nat)
  /-- TILE_POWER_ESTIMATE (R470): Tile `t` estimates its total and its dynamic power, in W. -/
  | tilePowerEstimate (t total dyn : Nat)
  /-- PACKAGE_POWER_ESTIMATE (R470): The package estimate is formed; the fixed part is `fixed` W. -/
  | packagePowerEstimate (fixed : Nat)
  /-- HOUSEKEEPING_ROUND (R382): The 10 ms round measures the input voltage in mV and current in mA at J1. -/
  | housekeepingRound (mv ma : Nat)
  /-- TEMPERATURE_SAMPLE (R477): The diode of a die, by its index of R383, reads `temp` in 0.1 degree C. -/
  | temperatureSample (die : Nat) (temp : Int)
  /-- THROTTLE_CEILING_DROP (R481): Tile `t` has been a further 10 ms at throttle. -/
  | throttleCeilingDrop (t : Nat)
  /-- THROTTLE_RECOVERY_STEP (R481): Tile `t` has been a further 10 ms out of throttle. -/
  | throttleRecoveryStep (t : Nat)
  /-- RAIL_FAULT (R486): The core rail of tile `t` is low for 1 us. -/
  | railFault (t : Nat)
  /-- RAIL_RECOVERY (R486): The core rail of tile `t` has been good for 1 ms. -/
  | railRecovery (t : Nat)
  /-- CALIBRATION_STAGE_DONE (R494): The stage in progress ends in every field, with what its passes measured of the fields, of lines and of Seam groups. -/
  | calibrationStageDone (fields lines groups : List Measure)
  /-- ROTATION_STEP_END (R504): The rotation step ends, with what its passes measured of the package's own lines and of those of the Hem links. -/
  | rotationStepEnd (inner links : List Measure)
  /-- SEAM_TAP_SWEEP (R506): A shadow sampler sweeps the group of channel ID `id`; bit `n` of `low` says that tap `n` passes, of `high` that tap `32 + n` does. -/
  | seamTapSweep (id low high : Nat)
  /-- CHANNEL_RECALIBRATION (R507): The two-pass sweep of a DRAM die's crossings completes, with what it measured. -/
  | channelRecalibration (t die : Nat) (ms : List Measure)
  /-- TABLE_SCRUB (R514): The scrub rewrites every table: word addresses corrected, and records with a word beyond correction, each with its word address. -/
  | tableScrub (fixed : List Nat) (bad : List (TableRef × Nat))
  /-- CLOCK_LOCK_LOSS (R515): The lock detector of tile `t` finds loss of lock. -/
  | clockLockLoss (t : Nat)
  /-- ERROR_REPORT (R521): The logging engine takes the next report of handling queue `k`: a physical tile's, or 28 for the package's. -/
  | errorReport (k : Nat)
  /-- SQUALL_END (R522): 10 ms without a report of a class in squall. -/
  | squallEnd (cls : Nat)
  /-- LASER_MONITOR_SAMPLE (R526): The entry-field monitor of a group samples; `lowLines` are the lines more than 3 dB below calibrated power. -/
  | laserMonitorSample (g lowLines : Nat)
  /-- LASER_DRIVE_APPLY (R527): 16 counts into the gap of a group. -/
  | laserDriveApply (g : Nat)
  /-- LASER_LINE_CHECK (R527): The check window of a gap closes; `bad` are the lines out of tolerance. -/
  | laserLineCheck (g bad : Nat)
  /-- LASER_GAP_END (R527): 2,500 counts into the gap of a group. -/
  | laserGapEnd (g : Nat)
  /-- CHANNEL_SAMPLE (R537): Channel `ch` is sampled. -/
  | channelSample (ch : Nat) (x : Int)
  /-- MANTLE_BOOT_DONE (R552): Mantle `m` (0 A, 1 B) has verified its image; whether it finds copy 0 or 1 of the persistent store without a valid check. -/
  | mantleBootDone (m : Nat) (bad0 bad1 : Bool)
  /-- START_UP_STAGE_DONE (R555): The stage under way ends: the laser dies that pass R556; the channels that fail the pattern test, by channel ID, with fault code and, in bit 8, the factory flag; the mats it marks. -/
  | startUpStageDone (dies : Nat) (failed : List (Nat × Nat)) (mats : List MatRef)
  /-- GUEST_DISCOVERY (R566): Discovery ends with the sites whose partner answered. -/
  | guestDiscovery (sites : List GuestSite)
  /-- GUEST_LINK_FAILURE (R566): The link of guest site `g` fails in service. -/
  | guestLinkFailure (g : Nat)
  /-- MANTLE_RESTART_N (R553): The restart signal of Mantle `m` is pulsed. -/
  | mantleRestartN (m : Nat)
  /-- SPI_SEL (R552): SPI_SEL changes; where it goes low, the images that the BMC has written. -/
  | spiSel (high : Bool) (a b : Option (List Byte))
  /-- S_CORE_LOAD_STORE (R90): S-core `p` loads or stores `size` bytes; `flips` disturb a load, `fails` counts the crossings of the row that fail. -/
  | sCoreLoadStore (t p : Nat) (store : Bool) (addr size : Nat) (data : DWord) (rd : Nat) (signExt : Bool) (pmpDenied : Bool) (flips : List Flip) (fails : Nat)
  /-- REFERENCE_RETURN (R444): Source `src` is present again. -/
  | referenceReturn (src : Nat)
  /-- WAIT_TIMEOUT (R436): The Timeout of a WAIT has passed. -/
  | waitTimeout (q idx : Nat)
  /-- GUEST_LINK_RETRAINED (R566): The link of guest site `g` retrains. -/
  | guestLinkRetrained (g : Nat)
  /-- ENTDAA (R359): The BMC assigns the dynamic address. -/
  | entdaa (addr : Nat)
  /-- RENUMBERING (R27): Every pending retirement is applied. -/
  | renumbering
  /-- FILL_DONE (R127): The fill ends. -/
  | fillDone
  /-- MESH_SLOT (R167): The next mesh slot passes. -/
  | meshSlot
  /-- PLAN_LOAD_DONE (R176): The plan load ends. -/
  | planLoadDone
  /-- PLAN_SWITCH_DRAIN (R180): 800 ns before the earliest pending front. -/
  | planSwitchDrain
  /-- SCHEDULE_LOAD_DONE (R204): The schedule load ends. -/
  | scheduleLoadDone
  /-- SWEEP_LOST (R270): 10 ms have passed since the sweep left. -/
  | sweepLost
  /-- TEARDOWN_DONE (R307): The teardown under way completes. -/
  | teardownDone
  /-- ADMISSION_DONE (R323): The admission under way ends. -/
  | admissionDone
  /-- ADMISSION_RECOMPUTE (R333): A capacity input has changed while jobs are admitted. -/
  | admissionRecompute
  /-- MANTLE_REFRESH (R363): The active Mantle's service loop completes a cycle. -/
  | mantleRefresh
  /-- MANTLE_OWNERSHIP_EXPIRY (R364): 3 ms have passed since the last refresh. -/
  | mantleOwnershipExpiry
  /-- STANDBY_CLAIM (R364): A ready Mantle that is not active claims the free line. -/
  | standbyClaim
  /-- MANTLE_CLAIM_TIMEOUT (R532): The line has been free for 2 ms after a release. -/
  | mantleClaimTimeout
  /-- HAND_OVER_RECLAIM (R364): The line is still free 2 ms after a hand-over. -/
  | handOverReclaim
  /-- PERST_DEASSERT (R572): PERST# rises. -/
  | perstDeassert
  /-- BAR4_FENCE_READ (R439): A read of BAR4_FENCE. -/
  | bar4FenceRead
  /-- HOLDOVER_FAILURE (R533): The holdover oscillator fails while in force. -/
  | holdoverFailure
  /-- EPOCH_OFFSET_AVERAGE (R452): 1 ms of offset samples is averaged. -/
  | epochOffsetAverage
  /-- CAP_SKIP_END (R472): 100 us have passed since an out-of-turn iteration that left f unchanged. -/
  | capSkipEnd
  /-- CAP_LOOP_ITERATION (R471): The cap loop's 100 us window ends. -/
  | capLoopIteration
  /-- THAW (R483): Every diode has stayed cool for 60 s. -/
  | thaw
  /-- INPUT_FAULT (R487): The input stays outside 38 to 62 V for 100 us. -/
  | inputFault
  /-- INPUT_RECOVERY (R487): The input has been within 40 to 60 V for 1 s. -/
  | inputRecovery
  /-- CALIBRATION_DONE (R499): Full calibration ends. -/
  | calibrationDone
  /-- FORECAST_HEARTBEAT_MISS (R515): The active Mantle misses a second heartbeat of the Forecast unit. -/
  | forecastHeartbeatMiss
  /-- FORECAST_DECISION (R538): The millisecond's decision is made. -/
  | forecastDecision
  /-- WAKE_COMPLETE (R544): The wake under way ends. -/
  | wakeComplete
  /-- DOZE_STAGE_DONE (R541): The Doze stage of the entry under way ends. -/
  | dozeStageDone
  /-- NAP_STAGE_DONE (R541): The Nap stage of the entry under way ends. -/
  | napStageDone
  /-- HIBERNATE_STAGE_DONE (R541): The Hibernate stage of the entry under way ends. -/
  | hibernateStageDone
  /-- STANDBY_RAIL_UP (R550): The standby rail comes within tolerance. -/
  | standbyRailUp
  /-- MAIN_RAILS_START (R554): MAIN_ENABLE is high, and the main rails start once every other condition holds. -/
  | mainRailsStart
  /-- MAIN_ENABLE_DEASSERT (R573): MAIN_ENABLE goes low. -/
  | mainEnableDeassert
  /-- ORDERLY_SHUTDOWN_STEP (R573): The step of the orderly shutdown under way ends. -/
  | orderlyShutdownStep
  /-- MODULE_RESET_N (R548): MODULE_RESET_N is held low. -/
  | moduleResetN
  /-- J1_WITHDRAWAL (R578): PRESENT_N breaks. -/
  | j1Withdrawal
  /-- MODULE_RESET_N_RELEASE (R548): MODULE_RESET_N is released. -/
  | moduleResetNRelease
  /-- STANDBY_RAIL_LOSS (R547): The standby rail is lost. -/
  | standbyRailLoss
  deriving DecidableEq, Repr

end Sys2Proof
end

