-- ==== Sys2Proof/Decode.lean ====
section
/-!
DEFINITION. The command that a word spells.  No row of spec/opcode_table.json gives bits: commands
reach the block as messages, register accesses, packets and events, and no word spells one.
-/
namespace Sys2Proof

/-- No row has bits. -/
def decodeTableWord (_nbits _w : Nat) : Option Instr := none

end Sys2Proof
end

