-- ==== Sys2Proof/Machine/Flags.lean ====
section
/-!
DEFINITION. The flag bytes: the block flags of R56 and the IEEE exception flags of R79.
-/
namespace Sys2Proof.Machine

/-! ### Flags (R56) -/

def fWinHigh : Byte := 1#8
def fWinLow : Byte := 2#8
def fInvalid : Byte := 4#8
def fInfinite : Byte := 8#8
def fSaturated : Byte := 16#8

/-- A flag byte where the condition holds. -/
def when (c : Bool) (f : Byte) : Byte := if c then f else 0#8

/-! ### IEEE exception flags, byte 10 of a completion record (R79) -/

def xInvalid : Byte := 1#8
def xDivZero : Byte := 2#8
def xOverflow : Byte := 4#8
def xUnderflow : Byte := 8#8
def xInexact : Byte := 16#8

end Sys2Proof.Machine
end

