-- ==== Sys2Proof/Machine/Tab.lean ====
section
/-!
DEFINITION. The operations over sparse tables, byte strings and byte-addressed memory
that every unit shares.
-/
namespace Sys2Proof.Machine

/-- The value at `k`, or the default where nothing is listed. -/
def Tab.get {α : Type} (d : α) : Tab α → Nat → α
  | [], _ => d
  | (j, v) :: t, k => if j = k then v else Tab.get d t k

/-- Remove every entry of key `k`. -/
def Tab.erase {α : Type} : Tab α → Nat → Tab α
  | [], _ => []
  | (j, v) :: t, k => if j = k then Tab.erase t k else (j, v) :: Tab.erase t k

/-- Insert before the first larger key. -/
def Tab.insert {α : Type} : Tab α → Nat → α → Tab α
  | [], k, v => [(k, v)]
  | (j, w) :: t, k, v => if k < j then (k, v) :: (j, w) :: t else (j, w) :: Tab.insert t k v

/-- Write `v` at `k`, keeping the canonical form: a value equal to the default is not
listed. -/
def Tab.put {α : Type} [DecidableEq α] (d : α) (t : Tab α) (k : Nat) (v : α) : Tab α :=
  if v = d then Tab.erase t k else Tab.insert (Tab.erase t k) k v

/-- Change the value at `k` by `f`. -/
def Tab.mod {α : Type} [DecidableEq α] (d : α) (t : Tab α) (k : Nat) (f : α → α) : Tab α :=
  Tab.put d t k (f (Tab.get d t k))

/-- Forget every entry whose key lies in `[lo, hi)`. -/
def Tab.clear {α : Type} (t : Tab α) (lo hi : Nat) : Tab α :=
  t.filter (fun e => e.1 < lo || hi ≤ e.1)

/-- Keys strictly rising from `lo`. -/
def Tab.sortedFrom {α : Type} (lo : Nat) : Tab α → Bool
  | [] => true
  | (k, _) :: t => lo ≤ k && Tab.sortedFrom (k + 1) t

/-- The canonical form of a table with default `d`. -/
def Tab.wf {α : Type} [DecidableEq α] (d : α) (t : Tab α) : Bool :=
  Tab.sortedFrom 0 t && t.all (fun e => e.2 ≠ d)

/-! ### Lists -/

/-- Replace the element at `i`; a list that is too short stays. -/
def setAt {α : Type} (l : List α) (i : Nat) (v : α) : List α := l.set i v

/-- Change the first element that satisfies `p`. -/
def updFirst {α : Type} (p : α → Bool) (f : α → α) : List α → List α
  | [] => []
  | x :: t => if p x then f x :: t else x :: updFirst p f t

/-- Remove the first element that satisfies `p`. -/
def dropFirst {α : Type} (p : α → Bool) : List α → List α
  | [] => []
  | x :: t => if p x then t else x :: dropFirst p t

/-- Keep the last `n` elements. -/
def lastN {α : Type} (n : Nat) (l : List α) : List α := l.drop (l.length - n)

/-- How many elements satisfy `p`. -/
def countP {α : Type} (p : α → Bool) (l : List α) : Nat := (l.filter p).length

/-! ### Byte strings (little-endian, R10) -/

/-- `n` bytes of `v`, least significant first. -/
def leBytes : Nat → Nat → List Byte
  | 0, _ => []
  | n + 1, v => BitVec.ofNat 8 v :: leBytes n (v / 256)

/-- The number that bytes hold, least significant first. -/
def leNat : List Byte → Nat
  | [] => 0
  | b :: t => b.toNat + 256 * leNat t

/-- Bits `[lo + w - 1 : lo]` of `v`. -/
def bits (v lo w : Nat) : Nat := v / 2 ^ lo % 2 ^ w

/-- Bit `i` of `v`. -/
def bit (v i : Nat) : Bool := v.testBit i

/-- A Bool as 0 or 1. -/
def b2n (b : Bool) : Nat := if b then 1 else 0

/-- `v` with bit `i` set to `b`. -/
def setBit (v i : Nat) (b : Bool) : Nat :=
  (if v.testBit i then v - 2 ^ i else v) + (if b then 2 ^ i else 0)

/-- `w`-bit two's complement read as an integer. -/
def signed (w v : Nat) : Int :=
  let u := v % 2 ^ w
  if u < 2 ^ (w - 1) then Int.ofNat u else Int.ofNat u - Int.ofNat (2 ^ w)

/-- An integer as `w`-bit two's complement. -/
def unsigned (w : Nat) (x : Int) : Nat := (x % (2 ^ w : Int)).toNat

/-- The quotient rounded up. -/
def ceilDiv (a b : Nat) : Nat := (a + b - 1) / b

/-- The least `k` with `n ≤ 2^k` (0 for 0 and 1). -/
def ceilLog2 (n : Nat) : Nat := if n ≤ 1 then 0 else Nat.log2 (n - 1) + 1

/-- Bytes `[off, off + n)` of a string, zero past its end. -/
def slice (l : List Byte) (off n : Nat) : List Byte :=
  let p := (l.drop off).take n
  p ++ List.replicate (n - p.length) 0#8

/-- The little-endian field of `n` bytes at `off`. -/
def field (l : List Byte) (off n : Nat) : Nat := leNat ((l.drop off).take n)

/-- A string cut or zero-filled to `n` bytes. -/
def fit (n : Nat) (l : List Byte) : List Byte := slice l 0 n

/-- Overwrite a string from `off` on, zero-filling a gap; the length grows at need. -/
def patch (l : List Byte) (off : Nat) (d : List Byte) : List Byte :=
  slice l 0 off ++ d ++ l.drop (off + d.length)

/-! ### Byte-addressed memory: the canonical list of cells; an unlisted byte reads 0 -/

/-- One byte. -/
def rd8 (m : List Host.Cell) (a : Nat) : Byte := Tab.get 0#8 m a

/-- `n` bytes from `a`. -/
def rdBytes (m : List Host.Cell) (a : Nat) : Nat → List Byte
  | 0 => []
  | n + 1 => rd8 m a :: rdBytes m (a + 1) n

/-- Write one byte. -/
def wr8 (m : List Host.Cell) (a : Nat) (b : Byte) : List Host.Cell := Tab.put 0#8 m a b

/-- Write bytes from `a` on. -/
def wrBytes (m : List Host.Cell) (a : Nat) : List Byte → List Host.Cell
  | [] => m
  | b :: t => wrBytes (wr8 m a b) (a + 1) t

/-- Write the bytes whose mask is set. -/
def wrMasked (m : List Host.Cell) (a : Nat) : List (Byte × Bool) → List Host.Cell
  | [] => m
  | (b, e) :: t => wrMasked (if e then wr8 m a b else m) (a + 1) t

/-- The form of memory: addresses strictly rising, no listed byte 0. -/
abbrev Memory.wf (m : List Host.Cell) : Bool := Tab.wf 0#8 m

end Sys2Proof.Machine
end

