-- ==== Sys2Proof/Machine/Formats.lean ====
section
/-!
DEFINITION. Number formats, exact values and the conversions between them
(02_exact_arithmetic.md R32 to R65).
-/
namespace Sys2Proof.Machine

/-! ### Formats -/

/-- The format of a 4-bit code; 0x0, 0xE and 0xF are reserved (R32). -/
def fmtOfCode : Nat → Option Fmt
  | 1 => some .binary64 | 2 => some .binary32 | 3 => some .binary16 | 4 => some .bfloat16
  | 5 => some .e4m3 | 6 => some .e5m2 | 7 => some .e3m2 | 8 => some .e2m3 | 9 => some .e2m1
  | 10 => some .int8 | 11 => some .int4 | 12 => some .anchored64 | 13 => some .cea256
  | _ => none

/-- The code of a format (R32). -/
def fmtCode : Fmt → Nat
  | .binary64 => 1 | .binary32 => 2 | .binary16 => 3 | .bfloat16 => 4
  | .e4m3 => 5 | .e5m2 => 6 | .e3m2 => 7 | .e2m3 => 8 | .e2m1 => 9
  | .int8 => 10 | .int4 => 11 | .anchored64 => 12 | .cea256 => 13

/-- Width of an element in bits (R32); a CEA-256 element is stored as a 48-byte record. -/
def fmtWidth : Fmt → Nat
  | .binary64 => 64 | .binary32 => 32 | .binary16 => 16 | .bfloat16 => 16
  | .e4m3 => 8 | .e5m2 => 8 | .e3m2 => 6 | .e2m3 => 6 | .e2m1 => 4
  | .int8 => 8 | .int4 => 4 | .anchored64 => 64 | .cea256 => 384

/-- Elements per 4 KiB block (R32). -/
def fmtPerBlock : Fmt → Nat
  | .binary64 => 512 | .binary32 => 1024 | .binary16 => 2048 | .bfloat16 => 2048
  | .e4m3 => 4096 | .e5m2 => 4096 | .e3m2 => 5440 | .e2m3 => 5440 | .e2m1 => 8192
  | .int8 => 4096 | .int4 => 8192 | .anchored64 => 512 | .cea256 => 85

/-- Bits of stored significand, bias, largest finite magnitude code, and the exponent
field's width (R32, R35); 0 for the integer formats. -/
def fmtT : Fmt → Nat
  | .binary64 => 52 | .binary32 => 23 | .binary16 => 10 | .bfloat16 => 7
  | .e4m3 => 3 | .e5m2 => 2 | .e3m2 => 2 | .e2m3 => 3 | .e2m1 => 1 | _ => 0

def fmtBias : Fmt → Nat
  | .binary64 => 1023 | .binary32 => 127 | .binary16 => 15 | .bfloat16 => 127
  | .e4m3 => 7 | .e5m2 => 15 | .e3m2 => 3 | .e2m3 => 1 | .e2m1 => 1 | _ => 0

def fmtEbits : Fmt → Nat
  | .binary64 => 11 | .binary32 => 8 | .binary16 => 5 | .bfloat16 => 8
  | .e4m3 => 4 | .e5m2 => 5 | .e3m2 => 3 | .e2m3 => 2 | .e2m1 => 2 | _ => 0

/-- The largest finite magnitude code (R35). -/
def fmtMaxCode : Fmt → Nat
  | .binary64 => 0x7FEFFFFFFFFFFFFF | .binary32 => 0x7F7FFFFF | .binary16 => 0x7BFF
  | .bfloat16 => 0x7F7F | .e4m3 => 0x7E | .e5m2 => 0x7B | .e3m2 => 0x1F | .e2m3 => 0x1F
  | .e2m1 => 0x7 | .int8 => 127 | .int4 => 7 | _ => 0

/-- The four IEEE formats: binary64, binary32, binary16, bfloat16. -/
def isIeee : Fmt → Bool
  | .binary64 | .binary32 | .binary16 | .bfloat16 => true
  | _ => false

def isInt : Fmt → Bool
  | .int8 | .int4 => true
  | _ => false

/-- Formats 5 to 11, which may carry MX scaling (R39). -/
def isMxFmt (f : Fmt) : Bool := 5 ≤ fmtCode f && fmtCode f ≤ 11

/-- The formats that have an infinity (R35). -/
def hasInf (f : Fmt) : Bool := isIeee f || f = .e5m2

/-- The formats that have a NaN (R35). -/
def hasNan (f : Fmt) : Bool := hasInf f || f = .e4m3

/-- The infinity's magnitude code, for the formats that have one. -/
def infCode (f : Fmt) : Nat := (2 ^ fmtEbits f - 1) * 2 ^ fmtT f

/-- The canonical NaN (R37); 0 for a format without NaN (R59). -/
def nanCode (f : Fmt) : Nat :=
  if f = .e4m3 then 0x7F
  else if hasInf f then infCode f + 2 ^ (fmtT f - 1) else 0

/-- R33, R35, R36: an element code read exactly. -/
def decodeElem (f : Fmt) (code : Nat) : Val :=
  if isInt f then
    let v := signed (fmtWidth f) code
    .fin (v < 0) v.natAbs 0
  else
    let t := fmtT f
    let neg := bit code (fmtWidth f - 1)
    let mag := code % 2 ^ (fmtWidth f - 1)
    let e := mag / 2 ^ t
    let m := mag % 2 ^ t
    if f = .e4m3 && mag = 0x7F then .nan false
    else if hasInf f && mag = infCode f then .inf neg
    else if hasInf f && infCode f < mag then .nan (isIeee f && !bit mag (t - 1))
    else if e = 0 then .fin neg m (1 - (fmtBias f : Int) - t)
    else .fin neg (2 ^ t + m) ((e : Int) - fmtBias f - t)

/-! ### Rounding -/

/-- Floor of the base-2 logarithm of `mag * 2^exp`, for a non-zero magnitude. -/
def topExp (mag : Nat) (exp : Int) : Int := (Nat.log2 mag : Int) + exp

/-- The magnitude `mag * 2^exp` in units of `2^q`: quotient, remainder and unit. -/
def splitAt (mag : Nat) (exp q : Int) : Nat × Nat × Nat :=
  if exp ≥ q then (mag * 2 ^ (exp - q).toNat, 0, 1)
  else
    let d := (q - exp).toNat
    (mag / 2 ^ d, mag % 2 ^ d, 2 ^ d)

/-- R58, R65: the magnitude in units of `2^q`, rounded; `neg` is the value's sign. -/
def roundMag (rnd : Rnd) (neg : Bool) (mag : Nat) (exp q : Int) : Nat :=
  let (n, r, u) := splitAt mag exp q
  if r = 0 then n
  else match rnd with
    | .rne => if 2 * r > u || (2 * r = u && n % 2 = 1) then n + 1 else n
    | .sr w => if r * 2 ^ 32 / u + w ≥ 2 ^ 32 then n + 1 else n
    | .towardZero => n
    | .towardPos => if neg then n else n + 1
    | .towardNeg => if neg then n + 1 else n

/-- The exponent of the unit in the last place at a value's binade, subnormals kept
(R38, R65). -/
def ulpExp (f : Fmt) (mag : Nat) (exp : Int) : Int :=
  max (topExp mag exp) (1 - (fmtBias f : Int)) - fmtT f

/-- The magnitude code of `n * 2^q`, with `q` from `ulpExp` and `n ≤ 2^(t+1)`. -/
def magCode (f : Fmt) (n : Nat) (q : Int) : Nat :=
  let t := fmtT f
  let (n, q) := if n = 2 ^ (t + 1) then (2 ^ t, q + 1) else (n, q)
  if n < 2 ^ t then n
  else ((q + t + fmtBias f).toNat) * 2 ^ t + (n - 2 ^ t)

/-- A sign and a magnitude code as an element code. -/
def withSign (f : Fmt) (neg : Bool) (code : Nat) : Nat :=
  code + (if neg then 2 ^ (fmtWidth f - 1) else 0)

/-- R65: a signed integer rounded to an integer; SR of an integer format rounds on the
value, towards minus or plus infinity. -/
def roundInt (rnd : Rnd) (neg : Bool) (mag : Nat) (exp : Int) : Int :=
  match rnd, neg with
  | .sr w, true =>
    let (n, r, u) := splitAt mag exp 0
    if r = 0 then -(n : Int)
    else
      let lo : Int := -(n : Int) - 1
      if (u - r) * 2 ^ 32 / u + w ≥ 2 ^ 32 then lo + 1 else lo
  | _, _ =>
    let n : Int := roundMag rnd neg mag exp 0
    if neg then -n else n

/-- R59: a value converted to a plain format other than Anchored-64 and CEA-256, with
the saturate bit; the code and the flags. -/
def encodeElem (f : Fmt) (rnd : Rnd) (sat : Bool) : Val → Nat × Byte
  | .nan _ => (nanCode f, fInvalid)
  | .inf neg =>
    if hasInf f then (withSign f neg (infCode f), fInfinite)
    else if isInt f then
      (unsigned (fmtWidth f) (if neg then -(fmtMaxCode f : Int) - 1 else fmtMaxCode f),
        fInfinite ||| fSaturated)
    else (withSign f neg (fmtMaxCode f), fInfinite ||| fSaturated)
  | .fin neg mag exp =>
    if isInt f then
      let v := roundInt rnd neg mag exp
      let hi : Int := fmtMaxCode f
      if v > hi then (unsigned (fmtWidth f) hi, fSaturated)
      else if v < -hi - 1 then (unsigned (fmtWidth f) (-hi - 1), fSaturated)
      else (unsigned (fmtWidth f) v, 0#8)
    else if mag = 0 then (withSign f neg 0, 0#8)
    else
      let q := ulpExp f mag exp
      let c := magCode f (roundMag rnd neg mag exp q) q
      if c ≤ fmtMaxCode f then (withSign f neg c, 0#8)
      else if hasInf f && !sat then (withSign f neg (infCode f), fInfinite ||| fSaturated)
      else (withSign f neg (fmtMaxCode f), fSaturated)

/-! ### Packing (R34) -/

/-- The element code at position `i` of a block's bytes. -/
def elemAt (f : Fmt) (blk : List Byte) (i : Nat) : Nat :=
  match fmtWidth f with
  | 4 => bits (field blk (i / 2) 1) (4 * (i % 2)) 4
  | 6 => bits (field blk (3 * (i / 4)) 3) (6 * (i % 4)) 6
  | w => field blk (w / 8 * i) (w / 8)

/-- Codes of a narrow format packed `k` to a group of `n` bytes. -/
def packGroups (w k n : Nat) : Nat → List Nat → List Byte
  | 0, _ => []
  | g + 1, l =>
    leBytes n ((l.take k).foldr (fun c a => c + 2 ^ w * a) 0) ++ packGroups w k n g (l.drop k)

/-- Elements packed from the start of a block. -/
def packElems (f : Fmt) (l : List Nat) : List Byte :=
  match fmtWidth f with
  | 4 => packGroups 4 2 1 (ceilDiv l.length 2) l
  | 6 => packGroups 6 4 3 (ceilDiv l.length 4) l
  | w => l.flatMap (leBytes (w / 8))

/-! ### MX scaling (R39, R40, R60) -/

/-- An element under the E8M0 scale byte `x` (R39, R40). -/
def mxVal (f : Fmt) (x : Nat) (code : Nat) : Val :=
  if x = 0xFF then .nan false
  else match decodeElem f code with
    | .fin neg m e =>
      let adj : Int := if f = .int8 then -6 else if f = .int4 then -2 else 0
      .fin neg m (e + adj + (x : Int) - 127)
    | v => v

/-- emax_elem of the table under "Default anchors" (R60). -/
def emaxElem : Fmt → Int
  | .e4m3 => 8 | .e5m2 => 15 | .e3m2 => 4 | .e2m3 => 2 | .e2m1 => 2 | _ => 0

/-- The largest finite floor(log2) of a list of values, where one is not zero. -/
def maxTop : List Val → Option Int
  | [] => none
  | .fin _ m e :: t =>
    if m = 0 then maxTop t
    else match maxTop t with
      | none => some (topExp m e)
      | some x => some (max x (topExp m e))
  | _ :: t => maxTop t

/-- R60: the scale byte of a group of values, and whether it marks a NaN. -/
def mxScale (f : Fmt) (vs : List Val) : Nat :=
  if vs.any (fun v => match v with | .nan _ => true | _ => false) then 0xFF
  else match maxTop vs with
    | none => 0
    | some t => (max (-127) (min 127 (t - emaxElem f)) + 127).toNat

/-- R60 step 4: one element of a group under its scale byte.  An E5M2 element above the largest
finite value with SAT 0 is written as infinity, as the row of R59 for E5M2 says: R60's last sentence
speaks of saturation there (DEDUCED, log 91). -/
def mxElem (f : Fmt) (x : Nat) (rnd : Rnd) (sat : Bool) (v : Val) : Nat × Byte :=
  if x = 0xFF then (0, fInvalid)
  else match v with
    | .fin neg m e =>
      let adj : Int := if f = .int8 then 6 else if f = .int4 then 2 else 0
      encodeElem f rnd sat (.fin neg m (e + adj - (x : Int) + 127))
    | v => encodeElem f rnd sat v

/-! ### CEA-256 (R44 to R48) -/

/-- The low 256 bits of a sum, two's complement, and whether it left the range. -/
def wrap256 (x : Int) : Int × Bool :=
  let y := signed 256 (unsigned 256 x)
  (y, decide (y ≠ x))

/-- R45: a finite value added to an accumulator, truncated on its magnitude. -/
def ceaAdd (a : Cea) (neg : Bool) (mag : Nat) (exp : Int) : Cea :=
  if mag = 0 then a
  else
    let (n, r, _) := splitAt mag exp a.anchor
    let (c, past) := wrap256 (a.c + (if neg then -(n : Int) else n))
    { a with c := c, high := a.high || past, low := a.low || decide (r ≠ 0) }

/-- R46: a special value's sticky bits, or a finite value added. -/
def ceaEnter (a : Cea) : Val → Cea
  | .nan _ => { a with nan := true }
  | .inf true => { a with ninf := true }
  | .inf false => { a with pinf := true }
  | .fin neg m e => ceaAdd a neg m e

/-- The exact product of two elements (R43, R46). -/
def mulVal : Val → Val → Val
  | .nan s, .nan s' => .nan (s || s')
  | .nan s, _ => .nan s
  | _, .nan s => .nan s
  | .inf n, .inf n' => .inf (n != n')
  | .inf n, .fin n' m _ => if m = 0 then .nan false else .inf (n != n')
  | .fin n m _, .inf n' => if m = 0 then .nan false else .inf (n != n')
  | .fin n m e, .fin n' m' e' => .fin (n != n') (m * m') (e + e')

/-- R45, R46: one product enters, and the term count rises (R48). -/
def ceaMac (a : Cea) (x y : Val) : Cea :=
  let a := ceaEnter a (mulVal x y)
  { a with terms := a.terms + 1 }

/-- R46, R47: the value read out. -/
def ceaVal (a : Cea) : Val :=
  if a.nan || (a.pinf && a.ninf) then .nan false
  else if a.pinf then .inf false
  else if a.ninf then .inf true
  else .fin (a.c < 0) a.c.natAbs a.anchor

/-- The flags an accumulator gives its block (R55, R56), from its sticky states: an infinity whose
product is a NaN (infinity × zero, infinity × NaN) gives INVALID and no INFINITE (DEDUCED, log 92). -/
def ceaFlags (a : Cea) : Byte :=
  when a.high fWinHigh ||| when a.low fWinLow ||| when a.nan fInvalid
    ||| when (a.pinf || a.ninf) fInfinite

/-- R48: the 48-byte spill record; `pair` is byte 35. -/
def spillRecord (a : Cea) (pair : Nat) : List Byte :=
  leBytes 32 (unsigned 256 a.c) ++ leBytes 2 (unsigned 16 a.anchor)
    ++ leBytes 1 (b2n a.high + 2 * b2n a.low + 4 * b2n a.nan + 8 * b2n a.pinf + 16 * b2n a.ninf)
    ++ leBytes 1 pair ++ leBytes 4 0 ++ leBytes 8 a.terms

/-- R48: the accumulator that a record holds. -/
def readRecord (r : List Byte) : Cea :=
  let f := field r 34 1
  { c := signed 256 (field r 0 32), anchor := signed 16 (field r 32 2), high := bit f 0,
    low := bit f 1, nan := bit f 2, pinf := bit f 3, ninf := bit f 4, terms := field r 40 8 }

/-- R48: a record brought to the tensor's anchor. -/
def fillFrom (anchor : Int) (r : Cea) : Cea :=
  if r.anchor = anchor then r
  else
    let a := ceaAdd { anchor := anchor } (r.c < 0) r.c.natAbs r.anchor
    { a with nan := r.nan, pinf := r.pinf, ninf := r.ninf, high := a.high || r.high,
             low := a.low || r.low, terms := r.terms }

/-- An anchor held within -512 to 511. -/
def clampAnchor (l : Int) : Int := max (-512) (min 511 l)

/-! ### Anchors (R51, R53) -/

/-- Grid exponent of a plain format (table under "Default anchors"; binary32 and
binary64 as R86 gives them). -/
def lmin : Fmt → Int
  | .binary16 => -24 | .bfloat16 => -133 | .e4m3 => -9 | .e5m2 => -16 | .e3m2 => -4
  | .e2m3 => -3 | .e2m1 => -1 | .binary32 => -149 | .binary64 => -1074 | _ => 0

/-- Grid and bound exponents of an MX element. -/
def lminMx : Fmt → Int
  | .int8 => -6 | .int4 => -2 | f => lmin f

def emaxMx : Fmt → Int
  | .e4m3 => 9 | .e5m2 => 16 | .e3m2 => 5 | .e2m3 => 3 | .e2m1 => 3 | .int8 => 2 | .int4 => 2
  | _ => 0

/-- R51 and the MX rule under R53. -/
def defaultAnchor (fa fb : Fmt) (mx : Bool) : Int :=
  if mx then lminMx fa + lminMx fb
  else if fa = .bfloat16 && fb = .bfloat16 then -151 else lmin fa + lmin fb

/-- The bound and the grid of an operand in STATS (R53): `none` where no element is
finite and non-zero. -/
def plainStats (f : Fmt) (vs : List Val) : Option (Int × Int) :=
  (maxTop vs).map (fun t => (t + 1, lmin f))

/-- As `plainStats`, from the scale bytes of an MX operand; `nonzero` says that some
block whose scale is not 0xFF holds a non-zero element. -/
def mxStats (f : Fmt) (scales : List Nat) (nonzero : Bool) : Option (Int × Int) :=
  match nonzero, scales.filter (· ≠ 0xFF) with
  | true, x :: xs =>
    some (((xs.foldl max x : Nat) : Int) - 127 + emaxMx f,
      ((xs.foldl min x : Nat) : Int) - 127 + lminMx f)
  | _, _ => none

/-- R53: stats_anchor. -/
def statsAnchor (dflt : Int) (a b : Option (Int × Int)) (klog : Nat) : Int :=
  match a, b with
  | some (ba, ga), some (bb, gb) => clampAnchor (max (ga + gb) (ba + bb + klog - 255))
  | _, _ => dflt

/-! ### Anchored-64 (R61, R62) -/

/-- NaR. -/
def narCode : Nat := 0x8000000000000000

/-- R62: a finite value to Anchored-64 with anchor `A` and headroom `h`; `lo` and `hi`
say whether bits were discarded and whether the value saturated. -/
def anchoredOfFin (anchor : Int) (h : Nat) (neg : Bool) (mag : Nat) (exp : Int) : Nat × Byte :=
  let (_, r, _) := splitAt mag exp anchor
  let n := roundMag .rne neg mag exp anchor
  let lim := 2 ^ (63 - h) - 1
  let m := min n lim
  (unsigned 64 (if neg then -(m : Int) else m),
    when (r ≠ 0) fWinLow ||| when (lim < n) fWinHigh)

/-- R62: any value to Anchored-64. -/
def anchoredOfVal (anchor : Int) (h : Nat) : Val → Nat × Byte
  | .nan _ => (narCode, fInvalid)
  | .inf _ => (narCode, fInfinite)
  | .fin neg m e => anchoredOfFin anchor h neg m e

/-- R62: CEA-256 to Anchored-64; both infinities give NaR as a NaN does. -/
def anchoredOfCea (anchor : Int) (h : Nat) (a : Cea) : Nat × Byte :=
  let (v, f) := anchoredOfVal anchor h (ceaVal a)
  (v, f ||| ceaFlags a)

/-- R62: the value of an Anchored-64 code; NaR is treated as NaN. -/
def valOfAnchored (anchor : Int) (code : Nat) : Val :=
  if code = narCode then .nan false
  else
    let v := signed 64 code
    .fin (v < 0) v.natAbs anchor

/-- R62: Anchored-64 to another anchor and headroom; NaR stays and raises no flag. -/
def reanchor (anchor anchor' : Int) (h' : Nat) (code : Nat) : Nat × Byte :=
  if code = narCode then (narCode, 0#8)
  else
    let v := signed 64 code
    anchoredOfFin anchor' h' (v < 0) v.natAbs anchor

/-- R62: the sum of two Anchored-64 codes, and whether it left the range; NaR absorbs. -/
def anchoredAdd (x y : Nat) : Nat × Bool :=
  if x = narCode || y = narCode then (narCode, false)
  else
    let s := signed 64 x + signed 64 y
    if s < -(2 ^ 63 - 1) || s > 2 ^ 63 - 1 then (narCode, true) else (unsigned 64 s, false)

/-- R62: minimum or maximum; NaR absorbs. -/
def anchoredMin (x y : Nat) : Nat :=
  if x = narCode || y = narCode then narCode
  else if signed 64 x ≤ signed 64 y then x else y

def anchoredMax (x y : Nat) : Nat :=
  if x = narCode || y = narCode then narCode
  else if signed 64 x ≤ signed 64 y then y else x

/-! ### Stochastic rounding (R64) -/

/-- mix64 of R64. -/
def mix64 (z : DWord) : DWord :=
  let z := (z ^^^ (z >>> 30)) * 0xBF58476D1CE4E5B9#64
  let z := (z ^^^ (z >>> 27)) * 0x94D049BB133111EB#64
  z ^^^ (z >>> 31)

/-- sr_word of R64. -/
def srWord (seed : DWord) (tid blk elem : Nat) : Nat :=
  let t : DWord := BitVec.ofNat 64 (tid % 2 ^ 32 * 2 ^ 32 + blk % 2 ^ 32)
  let a := mix64 (seed ^^^ 0x9E3779B97F4A7C15#64)
  let b := mix64 (a ^^^ t)
  (mix64 (b ^^^ BitVec.ofNat 64 (elem % 2 ^ 32))).toNat / 2 ^ 32

/-! ### Stitch codes (R136) -/

/-- One bit of the reflected CRC-64 (polynomial ECMA-182). -/
def crc64Bit (c : DWord) : DWord :=
  if c.getLsbD 0 then (c >>> 1) ^^^ 0xC96C5795D7870F42#64 else c >>> 1

def crc64Byte (c : DWord) (b : Byte) : DWord :=
  let c := c ^^^ b.setWidth 64
  crc64Bit (crc64Bit (crc64Bit (crc64Bit (crc64Bit (crc64Bit (crc64Bit (crc64Bit c)))))))

/-- CRC-64 over bytes, init and final XOR all ones. -/
def crc64 (l : List Byte) : DWord := ~~~ (l.foldl crc64Byte (~~~ 0#64))

end Sys2Proof.Machine
end

