-- ==== Sys2Proof/Machine/Ieee.lean ====
section
/-!
DEFINITION. The IEEE 754-2019 operations of the V-cores, opcodes 0x20 to 0x39
(03_cores.md R87 to R89).  Every result is computed exactly, or exactly with a sticky
bit, and rounded once.
-/
namespace Sys2Proof.Machine

/-- A result element: its code, its block flags (R56) and its IEEE flags (R79). -/
structure FpRes where
  code : Nat
  flags : Byte
  ieee : Byte
  deriving DecidableEq, Repr

/-- IEEE_RM (R71). -/
def ieeeRm : Nat → Rnd
  | 0 => .rne | 1 => .towardZero | 2 => .towardPos | _ => .towardNeg

/-- R87 item 3: tiny after rounding: the value rounded with an unbounded exponent lies
below the smallest normal. -/
def tinyAfter (f : Fmt) (rm : Rnd) (neg : Bool) (mag : Nat) (exp : Int) : Bool :=
  let q := topExp mag exp - fmtT f
  let n := roundMag rm neg mag exp q
  decide (topExp n q < 1 - (fmtBias f : Int))

/-- R87: a finite non-zero value rounded once; a directed rounding overflows to the
infinity or to the largest finite value, as its direction requires. -/
def ieeeRound (f : Fmt) (rm : Rnd) (neg : Bool) (mag : Nat) (exp : Int) : FpRes :=
  let q := ulpExp f mag exp
  let (_, r, _) := splitAt mag exp q
  let c := magCode f (roundMag rm neg mag exp q) q
  if fmtMaxCode f < c then
    let toInf := match rm with
      | .towardZero => false
      | .towardPos => !neg
      | .towardNeg => neg
      | _ => true
    { code := withSign f neg (if toInf then infCode f else fmtMaxCode f),
      flags := fSaturated ||| when toInf fInfinite, ieee := xOverflow ||| xInexact }
  else
    { code := withSign f neg c, flags := 0#8,
      ieee := when (r ≠ 0) xInexact ||| when (r ≠ 0 && tinyAfter f rm neg mag exp) xUnderflow }

/-- A value, exact, as a result: zeros, infinities and NaNs raise no IEEE flag here. -/
def ieeeFinish (f : Fmt) (rm : Rnd) : Val → FpRes
  | .nan _ => { code := nanCode f, flags := fInvalid, ieee := 0#8 }
  | .inf neg => { code := withSign f neg (infCode f), flags := fInfinite, ieee := 0#8 }
  | .fin neg m e =>
    if m = 0 then { code := withSign f neg 0, flags := 0#8, ieee := 0#8 }
    else ieeeRound f rm neg m e

/-- The canonical NaN with the invalid flag. -/
def ieeeInvalid (f : Fmt) : FpRes := { code := nanCode f, flags := fInvalid, ieee := xInvalid }

def isNanVal : Val → Bool
  | .nan _ => true
  | _ => false

def isSnan : Val → Bool
  | .nan s => s
  | _ => false

def isInfVal : Val → Bool
  | .inf _ => true
  | _ => false

def isZeroVal : Val → Bool
  | .fin _ m _ => m = 0
  | _ => false

def negVal : Val → Val
  | .nan s => .nan s
  | .inf n => .inf !n
  | .fin n m e => .fin (!n) m e

def signOf : Val → Bool
  | .nan _ => false
  | .inf n => n
  | .fin n _ _ => n

/-- R37, R87 item 4: what the operands alone raise. -/
def enterFlags (vs : List Val) : Byte × Byte :=
  (when (vs.any isNanVal) fInvalid ||| when (vs.any isInfVal) fInfinite,
    when (vs.any isSnan) xInvalid)

/-- Add the operands' own flags to a result. -/
def withEntry (vs : List Val) (r : FpRes) : FpRes :=
  let (f, x) := enterFlags vs
  { r with flags := r.flags ||| f, ieee := r.ieee ||| x }

/-- The exact sum of two values; `none` for an invalid sum of infinities. -/
def addVal (rm : Rnd) : Val → Val → Option Val
  | .nan s, .nan s' => some (.nan (s || s'))
  | .nan s, _ => some (.nan s)
  | _, .nan s => some (.nan s)
  | .inf n, .inf n' => if n = n' then some (.inf n) else none
  | .inf n, _ => some (.inf n)
  | _, .inf n => some (.inf n)
  | .fin n m e, .fin n' m' e' =>
    let q := min e e'
    let x : Int := (m * 2 ^ (e - q).toNat : Nat)
    let y : Int := (m' * 2 ^ (e' - q).toNat : Nat)
    let s := (if n then -x else x) + (if n' then -y else y)
    if s = 0 then
      some (.fin (if n = n' then n else decide (rm = .towardNeg)) 0 q)
    else some (.fin (decide (s < 0)) s.natAbs q)

def ieeeAdd (f : Fmt) (rm : Rnd) (a b : Val) : FpRes :=
  withEntry [a, b] (match addVal rm a b with
    | some v => ieeeFinish f rm v
    | none => ieeeInvalid f)

/-- 0 times an infinity. -/
def invalidProduct (a b : Val) : Bool :=
  (isZeroVal a && isInfVal b) || (isInfVal a && isZeroVal b)

def ieeeMul (f : Fmt) (rm : Rnd) (a b : Val) : FpRes :=
  withEntry [a, b]
    (if invalidProduct a b then ieeeInvalid f else ieeeFinish f rm (mulVal a b))

/-- R87 item 7: an invalid product raises invalid whatever c is. -/
def ieeeFma (f : Fmt) (rm : Rnd) (a b c : Val) : FpRes :=
  withEntry [a, b, c]
    (if invalidProduct a b then ieeeInvalid f
     else match addVal rm (mulVal a b) c with
       | some v => ieeeFinish f rm v
       | none => ieeeInvalid f)

/-- Bits of a quotient or a root carried beyond the significand. -/
def fpGuard : Nat := 2300

/-- A magnitude `n * 2^e` with a sticky bit below it. -/
def stickyFin (neg : Bool) (n : Nat) (sticky : Bool) (e : Int) : Val :=
  .fin neg (2 * n + b2n sticky) (e - 1)

/-- The quotient of two finite non-zero values. -/
def quotVal (n : Bool) (m : Nat) (e : Int) (m' : Nat) (e' : Int) : Val :=
  stickyFin n (m * 2 ^ fpGuard / m') (m * 2 ^ fpGuard % m' ≠ 0) (e - e' - fpGuard)

def ieeeDiv (f : Fmt) (rm : Rnd) (a b : Val) : FpRes :=
  withEntry [a, b] (match a, b with
    | .nan s, _ => ieeeFinish f rm (.nan s)
    | _, .nan s => ieeeFinish f rm (.nan s)
    | .inf _, .inf _ => ieeeInvalid f
    | .inf n, .fin n' _ _ => ieeeFinish f rm (.inf (n != n'))
    | .fin n _ _, .inf n' => ieeeFinish f rm (.fin (n != n') 0 0)
    | .fin n m e, .fin n' m' e' =>
      if m' = 0 then
        if m = 0 then ieeeInvalid f
        else { ieeeFinish f rm (.inf (n != n')) with ieee := xDivZero }
      else if m = 0 then ieeeFinish f rm (.fin (n != n') 0 0)
      else ieeeFinish f rm (quotVal (n != n') m e m' e'))

/-- Integer square root by bits from `k` down. -/
def isqrtGo (x : Nat) : Nat → Nat → Nat
  | 0, r => r
  | k + 1, r =>
    let r' := r + 2 ^ k
    isqrtGo x k (if r' * r' ≤ x then r' else r)

/-- The floor of the square root. -/
def isqrt (x : Nat) : Nat := isqrtGo x (Nat.log2 x / 2 + 1) 0

/-- The square root of `m * 2^e`. -/
def sqrtVal (m : Nat) (e : Int) : Val :=
  let odd := e % 2 ≠ 0
  let x := m * 2 ^ (2 * 128 + (if odd then 1 else 0))
  let e := if odd then e - 1 else e
  let r := isqrt x
  stickyFin false r (r * r ≠ x) (e / 2 - 128)

def ieeeSqrt (f : Fmt) (rm : Rnd) (a : Val) : FpRes :=
  withEntry [a] (match a with
    | .nan s => ieeeFinish f rm (.nan s)
    | .inf n => if n then ieeeInvalid f else ieeeFinish f rm (.inf false)
    | .fin n m e =>
      if m = 0 then ieeeFinish f rm (.fin n 0 0)
      else if n then ieeeInvalid f
      else ieeeFinish f rm (sqrtVal m e))

/-! ### Minimum and maximum (R87 item 5) -/

/-- An order on non-NaN values with -0 below +0. -/
def valLt : Val → Val → Bool
  | .inf n, .inf n' => n && !n'
  | .inf n, _ => n
  | _, .inf n => !n
  | .fin n m e, .fin n' m' e' =>
    let q := min e e'
    let x : Int := (m * 2 ^ (e - q).toNat : Nat)
    let y : Int := (m' * 2 ^ (e' - q).toNat : Nat)
    let x := if n then -x else x
    let y := if n' then -y else y
    x < y || (x = 0 && y = 0 && n && !n')
  | _, _ => false

/-- The smaller or the larger of two codes; the Number forms pass over one NaN. -/
def ieeeMinMax (f : Fmt) (max num : Bool) (ca cb : Nat) : FpRes :=
  let a := decodeElem f ca
  let b := decodeElem f cb
  let pick (c : Nat) (v : Val) : FpRes :=
    { code := c, flags := when (isInfVal v) fInfinite, ieee := 0#8 }
  withEntry [a, b]
    (match isNanVal a, isNanVal b with
      | true, true => ieeeFinish f .rne (.nan false)
      | true, false => if num then pick cb b else ieeeFinish f .rne (.nan false)
      | false, true => if num then pick ca a else ieeeFinish f .rne (.nan false)
      | false, false =>
        if max then (if valLt a b then pick cb b else pick ca a)
        else (if valLt b a then pick cb b else pick ca a))

/-! ### Reciprocals, exponential and logarithm (R88) -/

def ieeeRecip (f : Fmt) (a : Val) : FpRes := ieeeDiv f .rne (.fin false 1 0) a

/-- 1/sqrt(m * 2^e). -/
def rsqrtVal (m : Nat) (e : Int) : Val :=
  let odd := e % 2 ≠ 0
  let m := if odd then 2 * m else m
  let e := if odd then e - 1 else e
  let k := Nat.log2 m + 512
  let x := 2 ^ (2 * k) / m
  let r := isqrt x
  stickyFin false r (r * r * m ≠ 2 ^ (2 * k)) (-(e / 2) - k)

def ieeeRsqrt (f : Fmt) (a : Val) : FpRes :=
  withEntry [a] (match a with
    | .nan s => ieeeFinish f .rne (.nan s)
    | .inf n => if n then ieeeInvalid f else ieeeFinish f .rne (.fin false 0 0)
    | .fin n m e =>
      if m = 0 then { ieeeFinish f .rne (.inf n) with ieee := xDivZero }
      else if n then ieeeInvalid f
      else ieeeFinish f .rne (rsqrtVal m e))

/-- Working precision of the exponential and the logarithm, in bits. -/
def fnBits : Nat := 512

/-- `2^(frac)` in units of `2^-fnBits`, by the binary digits of the fraction: `root` is
`2^(2^-i)`, `acc` the product so far. -/
def exp2Go (frac den : Nat) : Nat → Nat → Nat → Nat
  | 0, _, acc => acc
  | k + 1, root, acc =>
    let root := isqrt (root * 2 ^ fnBits)
    let d := 2 * frac / den
    exp2Go (2 * frac % den) den k root (if d = 1 then acc * root / 2 ^ fnBits else acc)

/-- 2^x for a finite non-zero x; exact for an integer, otherwise irrational. -/
def exp2Val (n : Bool) (m : Nat) (e : Int) : Val :=
  if topExp m e ≥ 12 then (if n then .fin false 1 (-40000) else .fin false 1 40000)
  else if topExp m e < -(fnBits : Int) / 2 then
    if n then .fin false (2 ^ fnBits - 1) (-(fnBits : Int)) else .fin false (2 ^ fnBits + 1) (-(fnBits : Int))
  else
    let den : Nat := if e ≥ 0 then 1 else 2 ^ e.natAbs
    let num : Int := if e ≥ 0 then (m * 2 ^ e.toNat : Nat) else (m : Nat)
    let num := if n then -num else num
    let ip := num / (den : Int)
    let fr := (num % (den : Int)).toNat
    if fr = 0 then .fin false 1 ip
    else stickyFin false (exp2Go fr den 400 (2 * 2 ^ fnBits) (2 ^ fnBits)) true (ip - fnBits)

def ieeeExp2 (f : Fmt) (a : Val) : FpRes :=
  withEntry [a] (match a with
    | .nan s => ieeeFinish f .rne (.nan s)
    | .inf n => if n then ieeeFinish f .rne (.fin false 0 0) else ieeeFinish f .rne (.inf false)
    | .fin n m e =>
      if m = 0 then ieeeFinish f .rne (.fin false 1 0) else ieeeFinish f .rne (exp2Val n m e))

/-- Binary digits of log2 of `x` in [1, 2), in units of `2^-w`, by repeated squaring. -/
def log2Go (w : Nat) : Nat → Nat → Nat → Nat
  | 0, _, acc => acc
  | k + 1, x, acc =>
    let x := x * x / 2 ^ w
    if 2 ^ (w + 1) ≤ x then log2Go w k (x / 2) (2 * acc + 1) else log2Go w k x (2 * acc)

/-- log2 of a positive value; exact for a power of two, otherwise irrational. -/
def log2Val (m : Nat) (e : Int) : Val :=
  let l := Nat.log2 m
  let ip : Int := (l : Int) + e
  if m = 2 ^ l then .fin (ip < 0) ip.natAbs 0
  else
    let w := 1200
    let fr := log2Go w 320 (m * 2 ^ w / 2 ^ l) 0
    let v : Int := ip * 2 ^ 320 + fr
    if v ≥ 0 then stickyFin false v.natAbs true (-320)
    else stickyFin true (v.natAbs - 1) true (-320)

def ieeeLog2 (f : Fmt) (a : Val) : FpRes :=
  withEntry [a] (match a with
    | .nan s => ieeeFinish f .rne (.nan s)
    | .inf n => if n then ieeeInvalid f else ieeeFinish f .rne (.inf false)
    | .fin n m e =>
      if m = 0 then { ieeeFinish f .rne (.inf true) with ieee := xDivZero }
      else if n then ieeeInvalid f
      else ieeeFinish f .rne (log2Val m e))

/-! ### Dispatch by opcode -/

/-- The result of an elementwise opcode 0x20 to 0x33 on element codes (R72). -/
def ieeeOp (op : Nat) (f : Fmt) (rm : Rnd) (ca cb cc : Nat) : FpRes :=
  let a := decodeElem f ca
  let b := decodeElem f cb
  let c := decodeElem f cc
  match op with
  | 0x20 => ieeeAdd f rm a b
  | 0x21 => ieeeAdd f rm a (negVal b)
  | 0x22 => ieeeMul f rm a b
  | 0x23 => ieeeFma f rm a b c
  | 0x24 => ieeeDiv f rm a b
  | 0x25 => ieeeSqrt f rm a
  | 0x26 => ieeeMinMax f false false ca cb
  | 0x27 => ieeeMinMax f true false ca cb
  | 0x28 => ieeeMinMax f false true ca cb
  | 0x29 => ieeeMinMax f true true ca cb
  | 0x2A => { code := ca % 2 ^ (fmtWidth f - 1), flags := 0#8, ieee := 0#8 }
  | 0x2B =>
    { code := withSign f (!bit ca (fmtWidth f - 1)) (ca % 2 ^ (fmtWidth f - 1)), flags := 0#8,
      ieee := 0#8 }
  | 0x30 => ieeeRecip f a
  | 0x31 => ieeeRsqrt f a
  | 0x32 => ieeeExp2 f a
  | _ => ieeeLog2 f a

/-- Operands of an opcode 0x20 to 0x39 (R72). -/
def ieeeArity (op : Nat) : Nat :=
  if op = 0x23 then 3
  else if op = 0x20 || op = 0x21 || op = 0x22 || op = 0x24 || (0x26 ≤ op && op ≤ 0x29) then 2
  else 1

/-! ### VSUM and VAMAX (R89) -/

/-- One combination of the fixed order: an addition, or a maximum of magnitudes. -/
def laneOp (amax : Bool) (f : Fmt) (rm : Rnd) (x y : Nat) : FpRes :=
  if amax then ieeeMinMax f true false x y
  else ieeeAdd f rm (decodeElem f x) (decodeElem f y)

/-- A lane (EMPTY is `none`) with the flags gathered so far. -/
abbrev LaneAcc := Option Nat × Byte × Byte

def laneStep (amax : Bool) (f : Fmt) (rm : Rnd) (acc : LaneAcc) (x : Option Nat) : LaneAcc :=
  match acc, x with
  | acc, none => acc
  | (none, fl, xf), some x => (some x, fl, xf)
  | (some y, fl, xf), some x =>
    let r := laneOp amax f rm y x
    (some r.code, fl ||| r.flags, xf ||| r.ieee)

/-- Every `w`-th element of a row from element `j`. -/
def laneRow (row : List Nat) (w j : Nat) : Nat → List Nat
  | 0 => []
  | n + 1 => match row[j]? with
    | none => []
    | some x => x :: laneRow row w (j + w) n

/-- The fixed pairwise tree over `2^k` lanes. -/
def laneTree (amax : Bool) (f : Fmt) (rm : Rnd) : Nat → List LaneAcc → LaneAcc
  | 0, l => l.headD (none, 0#8, 0#8)
  | k + 1, l =>
    let s := 2 ^ k
    laneTree amax f rm k
      ((l.take s).zip (l.drop s) |>.map (fun (p, q) =>
        let r := laneStep amax f rm p q.1
        (r.1, r.2.1 ||| q.2.1, r.2.2 ||| q.2.2)))

/-- R89: the sum or the largest magnitude of a row, in the fixed order; the entry flags
are those of every element. -/
def ieeeRow (amax : Bool) (f : Fmt) (rm : Rnd) (row : List Nat) : FpRes :=
  let row' := if amax then row.map (fun c => c % 2 ^ (fmtWidth f - 1)) else row
  let w := 2048 / fmtWidth f
  let lanes := (List.range w).map (fun j =>
    (laneRow row' w j row.length).foldl (fun a x => laneStep amax f rm a (some x)) (none, 0#8, 0#8))
  let (v, fl, xf) := laneTree amax f rm (Nat.log2 w) lanes
  let code := v.getD 0
  let (ef, ex) := enterFlags (row.map (decodeElem f))
  let code := if isNanVal (decodeElem f code) then nanCode f else code
  { code := code, flags := fl ||| ef, ieee := xf ||| ex }

end Sys2Proof.Machine
end

