-- ==== Sys2Proof/Config.lean ====
section
/-!
DEFINITION. What an implementation fixes and the values that the spec leaves open.  Each is
an opaque constant without a body: no proof can see its value, so a statement about it holds
for every value.  A constant over a counter is applied to the field `free` of the state,
which every use advances.
-/
namespace Sys2Proof.Config

/-- Tile clocks from a pool bank group to a core (R82 names the pool distance, no rule
gives it): kind * 128 + physical core, then pool offset. -/
opaque poolDistance : Nat → Nat → BitVec 16

/-- A byte of an output block past its last element (03_cores.md gives it no value). -/
opaque tailByte : Nat → Byte

/-- A byte that a decoder delivers beyond its detection limit (R116, R157, R231). -/
opaque miscorrected : Nat → Byte

/-- Whether a decoder beyond its detection limit still reports the fault (R116, R157,
R231). -/
opaque detectsBeyondLimit : Nat → Bool

/-- Station of a reduce node on another module, by module and node: R201 names the module and
the node of a destination, and R247 asks for a station. -/
opaque nodeStation : Nat → Nat → BitVec 5

/-- A field of a message or record to which the spec gives no value there: the counter, and the
place of the field among those that one step leaves open. -/
opaque openField : Nat → Nat → DWord

/-- Whether the signature of an image verifies under the key fused into the Mantle dies (R551):
the key digest is the part's. -/
opaque signatureOk : List Byte → Bool

/-- Counts from the finding of a laser fault to its gap, taken modulo 33 (R527 bounds them
by 32). -/
opaque gapLead : Nat → Byte

/-- Whether the write of a running descriptor to a block has begun when the second cell reading of
a concurrent fetch of that block falls (R78, R142): the counter, and the block's address. -/
opaque writeBegun : Nat → Nat → Bool

/-- Flits of a router's transmit queue for a class and level, by 4 * class + level - 1 (R252 gives no
size; a whole packet, 71 flits, always fits). -/
opaque transmitSpace : Nat → BitVec 16

/-- Replies for which a station has outbound response space (R257 gives no size; there is space for
one at least). -/
opaque responseSpace : Nat → BitVec 16

end Sys2Proof.Config
end

