-- ==== Sys2Proof/Machine/Entries.lean ====
section
/-!
DEFINITION. The entries of the Vexga dictionary (11_vexga_dictionary.md R340 to R343,
12_dictionary_reference.md R371, R372), transcribed from the spec's tables: index, number
of instances, subindex, type, access, whether between-jobs, and default.
-/
namespace Sys2Proof.Machine

/-- Entry types (R341). -/
inductive EType where
  | u8 | u16 | u32 | u64 | s32 | bool | enum | str | blob
  deriving DecidableEq, Repr

/-- Access rights (R342). -/
inductive EAccess where
  | ro | rw | wo | rwp | cmd
  deriving DecidableEq, Repr

/-- One entry, for `n` consecutive indices. -/
structure Entry where
  index : Nat
  n : Nat
  sub : Nat
  ty : EType
  acc : EAccess
  betweenJobs : Bool
  dflt : Nat
  deriving DecidableEq, Repr

/-- Entries of range 0x1000 (R372). -/
def entries1a : List Entry := [
  ⟨0x1000, 1, 0x00, .u8, .ro, false, 0xA⟩,  -- Number Of Entries
  ⟨0x1000, 1, 0x01, .str, .ro, false, 0x0⟩,  -- Vendor Name
  ⟨0x1000, 1, 0x02, .str, .ro, false, 0x0⟩,  -- Part Number
  ⟨0x1000, 1, 0x03, .str, .ro, false, 0x0⟩,  -- Stepping
  ⟨0x1000, 1, 0x04, .u64, .ro, false, 0x0⟩,  -- Module Serial
  ⟨0x1000, 1, 0x05, .str, .ro, false, 0x0⟩,  -- Carrier Serial
  ⟨0x1000, 1, 0x06, .u64, .ro, false, 0x0⟩,  -- MAC Address Base
  ⟨0x1000, 1, 0x07, .u32, .ro, false, 0x0⟩,  -- Manufacture Date
  ⟨0x1000, 1, 0x08, .u32, .ro, false, 0x0⟩,  -- Running Firmware
  ⟨0x1000, 1, 0x09, .enum, .ro, false, 0x0⟩,  -- Running Image
  ⟨0x1000, 1, 0x0A, .u16, .ro, false, 0x1⟩,  -- Dictionary Version
  ⟨0x1010, 1, 0x00, .u8, .ro, false, 0x6⟩,  -- Number Of Entries
  ⟨0x1010, 1, 0x01, .u32, .ro, false, 0xFFFFFFF⟩,  -- Built Tile Map
  ⟨0x1010, 1, 0x02, .u32, .ro, false, 0x0⟩,  -- Fused Tile Map
  ⟨0x1010, 1, 0x03, .u32, .ro, false, 0x0⟩,  -- Retired Tile Map
  ⟨0x1010, 1, 0x04, .u32, .ro, false, 0x0⟩,  -- Pending Retirement Map
  ⟨0x1010, 1, 0x05, .u32, .ro, false, 0x0⟩,  -- Guest Site Map
  ⟨0x1010, 1, 0x06, .u8, .ro, false, 0x0⟩,  -- Logical Tile Count
  ⟨0x1020, 1, 0x00, .u8, .ro, false, 0x9⟩,  -- Number Of Entries
  ⟨0x1020, 1, 0x01, .u32, .ro, false, 0x0⟩,  -- Feature Flags
  ⟨0x1020, 1, 0x02, .u16, .ro, false, 0x100⟩,  -- Plan Slots
  ⟨0x1020, 1, 0x03, .u8, .ro, false, 0x40⟩,  -- Schedule Slots
  ⟨0x1020, 1, 0x04, .u16, .ro, false, 0x1000⟩,  -- Flow Slots
  ⟨0x1020, 1, 0x05, .u16, .ro, false, 0x1000⟩,  -- Region Records
  ⟨0x1020, 1, 0x06, .u16, .ro, false, 0x1000⟩,  -- Multicast Groups
  ⟨0x1020, 1, 0x07, .u8, .ro, false, 0x40⟩,  -- Hem Links
  ⟨0x1020, 1, 0x08, .u16, .ro, false, 0x2000⟩,  -- Base Sync Objects
  ⟨0x1020, 1, 0x09, .u16, .ro, false, 0x1000⟩,  -- System Nodes
  ⟨0x1030, 1, 0x00, .u8, .ro, false, 0x7⟩,  -- Number Of Entries
  ⟨0x1030, 1, 0x01, .u8, .ro, false, 0x0⟩,  -- Link Width
  ⟨0x1030, 1, 0x02, .u8, .ro, false, 0x0⟩,  -- Link Rate
  ⟨0x1030, 1, 0x03, .bool, .ro, false, 0x0⟩,  -- FLIT Mode
  ⟨0x1030, 1, 0x04, .u8, .ro, false, 0x0⟩,  -- VFs Enabled
  ⟨0x1030, 1, 0x05, .u64, .ro, false, 0x0⟩,  -- Correctable Errors
  ⟨0x1030, 1, 0x06, .u64, .ro, false, 0x0⟩,  -- Uncorrectable Errors
  ⟨0x1030, 1, 0x07, .u32, .ro, false, 0x0⟩,  -- Link Recoveries
  ⟨0x1040, 4, 0x00, .u8, .ro, false, 0x6⟩,  -- Number Of Entries
  ⟨0x1040, 4, 0x01, .bool, .ro, false, 0x0⟩,  -- Guest Present
  ⟨0x1040, 4, 0x02, .u8, .ro, false, 0x0⟩,  -- Modules In Use
  ⟨0x1040, 4, 0x03, .u8, .ro, false, 0x0⟩,  -- Rate
  ⟨0x1040, 4, 0x04, .blob, .ro, false, 0x0⟩,  -- Guest Identity
  ⟨0x1040, 4, 0x05, .u32, .ro, false, 0x0⟩,  -- Link Retrains
  ⟨0x1040, 4, 0x06, .u64, .ro, false, 0x0⟩,  -- Guest Stitch Rejects
  ⟨0x1100, 1, 0x00, .u8, .ro, false, 0x7⟩,  -- Number Of Entries
  ⟨0x1100, 1, 0x01, .u32, .ro, false, 0x0⟩,  -- Image A Version
  ⟨0x1100, 1, 0x02, .u32, .ro, false, 0x0⟩,  -- Image B Version
  ⟨0x1100, 1, 0x03, .u16, .ro, false, 0x0⟩,  -- Image States
  ⟨0x1100, 1, 0x04, .enum, .rwp, false, 0x0⟩,  -- Boot Image
  ⟨0x1100, 1, 0x05, .blob, .wo, false, 0x0⟩,  -- Image Upload
  ⟨0x1100, 1, 0x06, .u32, .ro, false, 0x0⟩,  -- Last Boot Report
  ⟨0x1100, 1, 0x07, .u8, .cmd, true, 0x0⟩,  -- Restart Module
  ⟨0x1200, 1, 0x00, .u8, .ro, false, 0x10⟩,  -- Number Of Entries
  ⟨0x1200, 1, 0x01, .blob, .rwp, false, 0x0⟩,  -- Peer Table
  ⟨0x1200, 1, 0x02, .u8, .rwp, false, 0x2⟩,  -- PF Mailbox Rights
  ⟨0x1200, 1, 0x03, .blob, .rwp, false, 0x0⟩,  -- Notification Targets
  ⟨0x1200, 1, 0x04, .u64, .ro, false, 0x0⟩,  -- Notifications Lost
  ⟨0x1200, 1, 0x05, .blob, .rwp, false, 0x0⟩,  -- IPv4 Settings
  ⟨0x1200, 1, 0x06, .blob, .rwp, false, 0x0⟩,  -- IPv6 Settings
  ⟨0x1200, 1, 0x07, .u8, .ro, false, 0x0⟩,  -- MCTP Endpoint ID
  ⟨0x1200, 1, 0x08, .enum, .ro, false, 0x0⟩]  -- Active Mantle

/-- Entries of range 0x1000 (R372). -/
def entries1b : List Entry := [
  ⟨0x1200, 1, 0x09, .u16, .ro, false, 0x0⟩,  -- Mantle States
  ⟨0x1200, 1, 0x0A, .u32, .ro, false, 0x0⟩,  -- Switch-Overs
  ⟨0x1200, 1, 0x0B, .u8, .cmd, true, 0x0⟩,  -- Restore Defaults
  ⟨0x1200, 1, 0x0C, .u64, .ro, false, 0x0⟩,  -- Requests Dropped
  ⟨0x1200, 1, 0x0D, .blob, .ro, false, 0x0⟩,  -- Unpersisted Entries
  ⟨0x1200, 1, 0x0E, .u8, .cmd, false, 0x0⟩,  -- Hand Over
  ⟨0x1200, 1, 0x0F, .u8, .cmd, false, 0x0⟩,  -- Restart Standby
  ⟨0x1200, 1, 0x10, .u32, .rw, false, 0x0⟩]  -- BMC Notification Mask

/-- Entries of range 0x2000 (R372). -/
def entries2a : List Entry := [
  ⟨0x2000, 1, 0x00, .u8, .ro, false, 0x4⟩,  -- Number Of Entries
  ⟨0x2000, 1, 0x01, .enum, .rwp, false, 0x1⟩,  -- Mode Select
  ⟨0x2000, 1, 0x02, .enum, .ro, false, 0x1⟩,  -- Mode In Force
  ⟨0x2000, 1, 0x03, .u64, .ro, false, 0x0⟩,  -- Mode Front
  ⟨0x2000, 1, 0x04, .u32, .ro, false, 0x0⟩,  -- Mode Changes
  ⟨0x2100, 1, 0x00, .u8, .ro, false, 0x4⟩,  -- Number Of Entries
  ⟨0x2100, 1, 0x01, .u32, .rwp, false, 0x1F40⟩,  -- Power Cap
  ⟨0x2100, 1, 0x02, .u32, .ro, false, 0x0⟩,  -- Cap In Force
  ⟨0x2100, 1, 0x03, .u32, .ro, false, 0x0⟩,  -- Estimated Power
  ⟨0x2100, 1, 0x04, .u64, .ro, false, 0x0⟩,  -- Cap-Limited Time
  ⟨0x2200, 1, 0x00, .u8, .ro, false, 0x4⟩,  -- Number Of Entries
  ⟨0x2200, 1, 0x01, .u64, .ro, false, 0x0⟩,  -- Energy
  ⟨0x2200, 1, 0x02, .blob, .ro, false, 0x0⟩,  -- Energy Sample
  ⟨0x2200, 1, 0x03, .u32, .ro, false, 0x0⟩,  -- Input Voltage
  ⟨0x2200, 1, 0x04, .u32, .ro, false, 0x0⟩,  -- Input Current
  ⟨0x2300, 1, 0x00, .u8, .ro, false, 0x8⟩,  -- Number Of Entries
  ⟨0x2300, 1, 0x01, .enum, .ro, false, 0x0⟩,  -- Thermal Stage
  ⟨0x2300, 1, 0x02, .blob, .ro, false, 0x0⟩,  -- Die Temperatures
  ⟨0x2300, 1, 0x03, .blob, .ro, false, 0x0⟩,  -- Die Stages
  ⟨0x2300, 1, 0x04, .u32, .ro, false, 0x0⟩,  -- Thermal Shutdowns
  ⟨0x2300, 1, 0x05, .u8, .ro, false, 0x0⟩,  -- Shutdowns Last Hour
  ⟨0x2300, 1, 0x06, .bool, .ro, false, 0x0⟩,  -- Thermal Latch
  ⟨0x2300, 1, 0x07, .u8, .cmd, false, 0x0⟩,  -- Release Thermal Latch
  ⟨0x2300, 1, 0x08, .u64, .ro, false, 0x0⟩]  -- Throttled Time

/-- Entries of range 0x3000 (R372). -/
def entries3a : List Entry := [
  ⟨0x3000, 1, 0x00, .u8, .ro, false, 0x8⟩,  -- Number Of Entries
  ⟨0x3000, 1, 0x01, .enum, .ro, false, 0x0⟩,  -- Reference In Force
  ⟨0x3000, 1, 0x02, .u16, .ro, false, 0x0⟩,  -- Reference States
  ⟨0x3000, 1, 0x03, .u16, .rwp, true, 0xFFFF⟩,  -- Secondary Link
  ⟨0x3000, 1, 0x04, .bool, .rwp, true, 0x1⟩,  -- Offer Reference
  ⟨0x3000, 1, 0x05, .bool, .rwp, false, 0x1⟩,  -- Revertive
  ⟨0x3000, 1, 0x06, .u32, .ro, false, 0x0⟩,  -- Reference Switches
  ⟨0x3000, 1, 0x07, .u64, .ro, false, 0x0⟩,  -- Holdover Time
  ⟨0x3000, 1, 0x08, .enum, .rwp, false, 0x0⟩,  -- Reference Output
  ⟨0x3100, 1, 0x00, .u8, .ro, false, 0x5⟩,  -- Number Of Entries
  ⟨0x3100, 1, 0x01, .u64, .ro, false, 0x0⟩,  -- Epoch Count
  ⟨0x3100, 1, 0x02, .enum, .rwp, true, 0x0⟩,  -- Epoch Role
  ⟨0x3100, 1, 0x03, .u16, .ro, false, 0xFFFF⟩,  -- Epoch Source
  ⟨0x3100, 1, 0x04, .s32, .ro, false, 0x0⟩,  -- Epoch Offset
  ⟨0x3100, 1, 0x05, .u32, .ro, false, 0x0⟩,  -- Epoch Realignments
  ⟨0x3200, 1, 0x00, .u8, .ro, false, 0x6⟩,  -- Number Of Entries
  ⟨0x3200, 1, 0x01, .u16, .rwp, false, 0x7D0⟩,  -- Tile Clock Limit
  ⟨0x3200, 1, 0x02, .blob, .ro, false, 0x0⟩,  -- Tile Clocks
  ⟨0x3200, 1, 0x03, .u64, .ro, false, 0x0⟩,  -- Droop Slowdowns
  ⟨0x3200, 1, 0x04, .u64, .ro, false, 0x0⟩,  -- Fall-Back Requests
  ⟨0x3200, 1, 0x05, .u64, .ro, false, 0x0⟩,  -- Skipped Cycles
  ⟨0x3200, 1, 0x06, .u64, .ro, false, 0x0⟩]  -- Fronts Applied

/-- Entries of range 0x4000 (R372). -/
def entries4a : List Entry := [
  ⟨0x4000, 1, 0x00, .u8, .ro, false, 0xA⟩,  -- Number Of Entries
  ⟨0x4000, 1, 0x01, .enum, .ro, false, 0x0⟩,  -- Calibration State
  ⟨0x4000, 1, 0x02, .u8, .cmd, true, 0x0⟩,  -- Start Calibration
  ⟨0x4000, 1, 0x03, .bool, .rwp, false, 0x1⟩,  -- In-Service Recalibration
  ⟨0x4000, 1, 0x04, .u32, .ro, false, 0x0⟩,  -- Last Rotation
  ⟨0x4000, 1, 0x05, .u32, .ro, false, 0x0⟩,  -- Failed Lanes
  ⟨0x4000, 1, 0x06, .u32, .ro, false, 0x0⟩,  -- Failed Seam Channels
  ⟨0x4000, 1, 0x07, .u64, .ro, false, 0x0⟩,  -- Third Passes
  ⟨0x4000, 1, 0x08, .u32, .ro, false, 0x0⟩,  -- Last Duration
  ⟨0x4000, 1, 0x09, .blob, .ro, false, 0x0⟩,  -- Factory Test Record
  ⟨0x4000, 1, 0x0A, .blob, .ro, false, 0x0⟩,  -- Power-Up Pattern Test
  ⟨0x4100, 1, 0x00, .u8, .ro, false, 0x4⟩,  -- Number Of Entries
  ⟨0x4100, 1, 0x01, .u32, .ro, false, 0x1FFFF⟩,  -- Usable Line Map
  ⟨0x4100, 1, 0x02, .u8, .ro, false, 0x0⟩,  -- Lost Laser Groups
  ⟨0x4100, 1, 0x03, .u8, .ro, false, 0x10⟩,  -- Nominal Circuit Data Lanes
  ⟨0x4100, 1, 0x04, .u8, .ro, false, 0x8⟩,  -- Nominal Mesh Lanes
  ⟨0x4200, 1, 0x00, .u8, .ro, false, 0x7⟩,  -- Number Of Entries
  ⟨0x4200, 1, 0x01, .u8, .ro, false, 0x0⟩,  -- Laser Owners
  ⟨0x4200, 1, 0x02, .u16, .ro, false, 0x0⟩,  -- Laser Die States
  ⟨0x4200, 1, 0x03, .u32, .ro, false, 0x0⟩,  -- Laser Switch-Overs
  ⟨0x4200, 1, 0x04, .u32, .ro, false, 0x0⟩,  -- Failed Laser Switch-Overs
  ⟨0x4200, 1, 0x05, .blob, .ro, false, 0x0⟩,  -- Line Powers
  ⟨0x4200, 1, 0x06, .u8, .cmd, false, 0x0⟩,  -- Switch Laser Group
  ⟨0x4200, 1, 0x07, .u8, .cmd, false, 0x0⟩,  -- Restart Laser Die
  ⟨0x4300, 29, 0x00, .u8, .ro, false, 0xC⟩,  -- Number Of Entries
  ⟨0x4300, 29, 0x01, .blob, .ro, false, 0x0⟩,  -- Port Data Lanes
  ⟨0x4300, 29, 0x02, .u64, .ro, false, 0x0⟩,  -- Corrected Codewords
  ⟨0x4300, 29, 0x03, .u64, .ro, false, 0x0⟩,  -- Retried Codewords
  ⟨0x4300, 29, 0x04, .u64, .ro, false, 0x0⟩,  -- Dropped Codewords
  ⟨0x4300, 29, 0x05, .u32, .ro, false, 0x0⟩,  -- Spare Substitutions
  ⟨0x4300, 29, 0x06, .blob, .ro, false, 0x0⟩,  -- Failed Line Maps
  ⟨0x4300, 29, 0x07, .u64, .ro, false, 0x0⟩,  -- Mesh Slots Sent
  ⟨0x4300, 29, 0x08, .u64, .ro, false, 0x0⟩,  -- Mesh Bulk Fallback
  ⟨0x4300, 29, 0x09, .u64, .ro, false, 0x0⟩,  -- Mesh Slots Resent
  ⟨0x4300, 29, 0x0A, .u64, .ro, false, 0x0⟩,  -- Switch Drops
  ⟨0x4300, 29, 0x0B, .u32, .ro, false, 0x0⟩,  -- Delayed Switches
  ⟨0x4300, 29, 0x0C, .u64, .ro, false, 0x0⟩,  -- Mesh Lane Lines
  ⟨0x4400, 64, 0x00, .u8, .ro, false, 0xC⟩,  -- Number Of Entries
  ⟨0x4400, 64, 0x01, .u32, .ro, false, 0x0⟩,  -- Group States
  ⟨0x4400, 64, 0x02, .u8, .ro, false, 0x0⟩,  -- Split In Force
  ⟨0x4400, 64, 0x03, .u16, .ro, false, 0xFFFF⟩,  -- Attached Port
  ⟨0x4400, 64, 0x04, .blob, .ro, false, 0x0⟩,  -- Neighbours
  ⟨0x4400, 64, 0x05, .blob, .ro, false, 0x0⟩,  -- Group Data Lanes
  ⟨0x4400, 64, 0x06, .blob, .ro, false, 0x0⟩,  -- One-Way Latency
  ⟨0x4400, 64, 0x07, .u64, .ro, false, 0x0⟩,  -- Frames Sent
  ⟨0x4400, 64, 0x08, .u64, .ro, false, 0x0⟩,  -- Frames Lost
  ⟨0x4400, 64, 0x09, .u64, .ro, false, 0x0⟩,  -- Frames Resent
  ⟨0x4400, 64, 0x0A, .u64, .ro, false, 0x0⟩,  -- Frames Dropped
  ⟨0x4400, 64, 0x0B, .u32, .ro, false, 0x0⟩,  -- Loss Of Light Events
  ⟨0x4400, 64, 0x0C, .u32, .ro, false, 0x0⟩,  -- Failed Line Map
  ⟨0x4500, 64, 0x00, .u8, .ro, false, 0x2⟩,  -- Number Of Entries
  ⟨0x4500, 64, 0x01, .u8, .rwp, true, 0x0⟩,  -- Split
  ⟨0x4500, 64, 0x02, .blob, .rwp, true, 0x0⟩,  -- Partition Groups
  ⟨0x4600, 28, 0x00, .u8, .ro, false, 0x2⟩,  -- Number Of Entries
  ⟨0x4600, 28, 0x01, .blob, .rwp, true, 0x0⟩,  -- Port Roles
  ⟨0x4600, 28, 0x02, .blob, .ro, false, 0x0⟩]  -- Roles In Force

/-- Entries of range 0x5000 (R372). -/
def entries5a : List Entry := [
  ⟨0x5000, 1, 0x00, .u8, .ro, false, 0x4⟩,  -- Number Of Entries
  ⟨0x5000, 1, 0x01, .u16, .rwp, true, 0xFFFF⟩,  -- Node Number
  ⟨0x5000, 1, 0x02, .u16, .cmd, true, 0x0⟩,  -- Clear Quarantine
  ⟨0x5000, 1, 0x03, .u16, .ro, false, 0x0⟩,  -- Quarantined Groups
  ⟨0x5000, 1, 0x04, .u32, .ro, false, 0x0⟩,  -- Duplicate Node Events
  ⟨0x5100, 1, 0x00, .u8, .ro, false, 0x5⟩,  -- Number Of Entries
  ⟨0x5100, 1, 0x01, .u16, .rw, true, 0x0⟩,  -- Route Destination
  ⟨0x5100, 1, 0x02, .blob, .rw, true, 0x0⟩,  -- Route Set
  ⟨0x5100, 1, 0x03, .u64, .ro, false, 0x0⟩,  -- Unanswered Drops
  ⟨0x5100, 1, 0x04, .u64, .ro, false, 0x0⟩,  -- Unreported Fails
  ⟨0x5100, 1, 0x05, .u64, .ro, false, 0x0⟩,  -- Header Drops
  ⟨0x5200, 1, 0x00, .u8, .ro, false, 0x5⟩,  -- Number Of Entries
  ⟨0x5200, 1, 0x01, .u16, .rw, false, 0x0⟩,  -- Region Select
  ⟨0x5200, 1, 0x02, .blob, .rw, false, 0x0⟩,  -- Region Record
  ⟨0x5200, 1, 0x03, .u16, .cmd, false, 0x0⟩,  -- Set Owner
  ⟨0x5200, 1, 0x04, .u16, .ro, false, 0x0⟩,  -- Valid Regions
  ⟨0x5200, 1, 0x05, .u64, .ro, false, 0x0⟩,  -- Region Refusals
  ⟨0x5300, 1, 0x00, .u8, .ro, false, 0x3⟩,  -- Number Of Entries
  ⟨0x5300, 1, 0x01, .u16, .rw, true, 0x0⟩,  -- Slice Group Select
  ⟨0x5300, 1, 0x02, .blob, .rw, true, 0x0⟩,  -- Allowed Slices
  ⟨0x5300, 1, 0x03, .u64, .ro, false, 0x0⟩,  -- Slice Drops
  ⟨0x5400, 1, 0x00, .u8, .ro, false, 0x4⟩,  -- Number Of Entries
  ⟨0x5400, 1, 0x01, .u16, .rw, true, 0x0⟩,  -- Group Select
  ⟨0x5400, 1, 0x02, .blob, .rw, true, 0x0⟩,  -- Group Record
  ⟨0x5400, 1, 0x03, .u16, .ro, false, 0x0⟩,  -- Valid Groups
  ⟨0x5400, 1, 0x04, .u64, .ro, false, 0x0⟩,  -- Multicast Copies Failed
  ⟨0x5500, 1, 0x00, .u8, .ro, false, 0x4⟩,  -- Number Of Entries
  ⟨0x5500, 1, 0x01, .u64, .rw, false, 0x0⟩,  -- Sweep Route
  ⟨0x5500, 1, 0x02, .u8, .cmd, false, 0x0⟩,  -- Start Sweep
  ⟨0x5500, 1, 0x03, .blob, .ro, false, 0x0⟩,  -- Sweep Result
  ⟨0x5500, 1, 0x04, .enum, .ro, false, 0x0⟩,  -- Sweep Status
  ⟨0x5600, 1, 0x00, .u8, .ro, false, 0xB⟩,  -- Number Of Entries
  ⟨0x5600, 1, 0x01, .u32, .rwp, false, 0x14⟩,  -- Request Timeout
  ⟨0x5600, 1, 0x02, .u32, .ro, false, 0x0⟩,  -- Outstanding Transactions
  ⟨0x5600, 1, 0x03, .u64, .ro, false, 0x0⟩,  -- Timed-Out Requests
  ⟨0x5600, 1, 0x04, .u64, .ro, false, 0x0⟩,  -- Late Responses Absorbed
  ⟨0x5600, 1, 0x05, .u32, .ro, false, 0x0⟩,  -- Quarantined Tags
  ⟨0x5600, 1, 0x06, .u64, .ro, false, 0x0⟩,  -- Posted Failures
  ⟨0x5600, 1, 0x07, .u64, .ro, false, 0x0⟩,  -- Lease Expiries
  ⟨0x5600, 1, 0x08, .u16, .cmd, false, 0x0⟩,  -- Revoke Lease
  ⟨0x5600, 1, 0x09, .u8, .cmd, false, 0x0⟩,  -- Tear Down Slice
  ⟨0x5600, 1, 0x0A, .u16, .ro, false, 0x0⟩,  -- Teardown State
  ⟨0x5600, 1, 0x0B, .u32, .ro, false, 0x0⟩]  -- VF Reset Timeouts

/-- Entries of range 0x6000 (R372). -/
def entries6a : List Entry := [
  ⟨0x6000, 1, 0x00, .u8, .ro, false, 0x4⟩,  -- Number Of Entries
  ⟨0x6000, 1, 0x01, .blob, .ro, false, 0x0⟩,  -- Tile States
  ⟨0x6000, 1, 0x02, .bool, .ro, false, 0x0⟩,  -- Renumbering Pending
  ⟨0x6000, 1, 0x03, .u32, .ro, false, 0x0⟩,  -- Renumberings
  ⟨0x6000, 1, 0x04, .u64, .ro, false, 0x0⟩,  -- Last Renumbering
  ⟨0x6100, 24, 0x00, .u8, .ro, false, 0xA⟩,  -- Number Of Entries
  ⟨0x6100, 24, 0x01, .blob, .ro, false, 0x0⟩,  -- Fused M-Core Map
  ⟨0x6100, 24, 0x02, .blob, .ro, false, 0x0⟩,  -- Retired M-Core Map
  ⟨0x6100, 24, 0x03, .blob, .ro, false, 0x0⟩,  -- Pending M-Core Map
  ⟨0x6100, 24, 0x04, .u64, .ro, false, 0x0⟩,  -- Fused V-Core Map
  ⟨0x6100, 24, 0x05, .u64, .ro, false, 0x0⟩,  -- Retired V-Core Map
  ⟨0x6100, 24, 0x06, .u64, .ro, false, 0x0⟩,  -- Pending V-Core Map
  ⟨0x6100, 24, 0x07, .u16, .ro, false, 0x0⟩,  -- Fused S-Core Map
  ⟨0x6100, 24, 0x08, .u16, .ro, false, 0x0⟩,  -- Retired S-Core Map
  ⟨0x6100, 24, 0x09, .u16, .ro, false, 0x0⟩,  -- Pending S-Core Map
  ⟨0x6100, 24, 0x0A, .u32, .ro, false, 0x0⟩,  -- Logical Core Counts
  ⟨0x6200, 24, 0x00, .u8, .ro, false, 0x1⟩,  -- Number Of Entries
  ⟨0x6200, 24, 0x01, .blob, .ro, false, 0x0⟩,  -- Distance Table
  ⟨0x6300, 24, 0x00, .u8, .ro, false, 0xA⟩,  -- Number Of Entries
  ⟨0x6300, 24, 0x01, .u32, .ro, false, 0x0⟩,  -- DRAM Die States
  ⟨0x6300, 24, 0x02, .u64, .ro, false, 0x0⟩,  -- Corrected Symbols
  ⟨0x6300, 24, 0x03, .u64, .ro, false, 0x0⟩,  -- Corrected Rows
  ⟨0x6300, 24, 0x04, .u64, .ro, false, 0x0⟩,  -- Uncorrectable Rows
  ⟨0x6300, 24, 0x05, .u64, .ro, false, 0x0⟩,  -- Seam Resends
  ⟨0x6300, 24, 0x06, .blob, .ro, false, 0x0⟩,  -- Marked Mats
  ⟨0x6300, 24, 0x07, .u8, .ro, false, 0x0⟩,  -- Row Rate Step
  ⟨0x6300, 24, 0x08, .u64, .ro, false, 0x0⟩,  -- Throttled Seam Cycles
  ⟨0x6300, 24, 0x09, .u32, .ro, false, 0x0⟩,  -- Refresh Intervals
  ⟨0x6300, 24, 0x0A, .u32, .ro, false, 0x0⟩,  -- Bad-Data Rows
  ⟨0x6400, 1, 0x00, .u8, .ro, false, 0x6⟩,  -- Number Of Entries
  ⟨0x6400, 1, 0x01, .u32, .rwp, false, 0xE10⟩,  -- Patrol Scrub Period
  ⟨0x6400, 1, 0x02, .u32, .cmd, true, 0x0⟩,  -- Demand Scrub
  ⟨0x6400, 1, 0x03, .u64, .rw, true, 0x0⟩,  -- Fill Pattern
  ⟨0x6400, 1, 0x04, .u64, .rw, true, 0x0⟩,  -- Fill Start
  ⟨0x6400, 1, 0x05, .u64, .rw, true, 0x0⟩,  -- Fill Length
  ⟨0x6400, 1, 0x06, .u32, .cmd, true, 0x0⟩,  -- Fill
  ⟨0x6500, 1, 0x00, .u8, .ro, false, 0x8⟩,  -- Number Of Entries
  ⟨0x6500, 1, 0x01, .enum, .rwp, true, 0x0⟩,  -- Containment Mode
  ⟨0x6500, 1, 0x02, .u64, .ro, false, 0x0⟩,  -- Masked Stitch Faults
  ⟨0x6500, 1, 0x03, .u64, .ro, false, 0x0⟩,  -- Permanent Stitch Faults
  ⟨0x6500, 1, 0x04, .u64, .ro, false, 0x0⟩,  -- Unmasked Transient Stitch Faults
  ⟨0x6500, 1, 0x05, .u64, .ro, false, 0x0⟩,  -- Stitch Races
  ⟨0x6500, 1, 0x06, .u64, .ro, false, 0x0⟩,  -- Unstitched Consumptions
  ⟨0x6500, 1, 0x07, .u64, .ro, false, 0x0⟩,  -- Tile Resets
  ⟨0x6500, 1, 0x08, .u64, .ro, false, 0x0⟩,  -- Poison Consumptions
  ⟨0x6600, 24, 0x00, .u8, .ro, false, 0x6⟩,  -- Number Of Entries
  ⟨0x6600, 24, 0x01, .u8, .ro, false, 0x0⟩,  -- Tile Confirmed Faults
  ⟨0x6600, 24, 0x02, .blob, .ro, false, 0x0⟩,  -- M-Core Confirmed Faults
  ⟨0x6600, 24, 0x03, .blob, .ro, false, 0x0⟩,  -- V-Core Confirmed Faults
  ⟨0x6600, 24, 0x04, .blob, .ro, false, 0x0⟩,  -- S-Core Confirmed Faults
  ⟨0x6600, 24, 0x05, .u64, .ro, false, 0x0⟩,  -- Last Self-Test Failure
  ⟨0x6600, 24, 0x06, .u8, .cmd, true, 0x0⟩]  -- Clear Confirmed Faults

/-- Entries of range 0x7000 (R372). -/
def entries7a : List Entry := [
  ⟨0x7000, 1, 0x00, .u8, .ro, false, 0xC⟩,  -- Number Of Entries
  ⟨0x7000, 1, 0x01, .u8, .cmd, false, 0x0⟩,  -- Admit Slice
  ⟨0x7000, 1, 0x02, .u8, .cmd, false, 0x0⟩,  -- Withdraw Slice
  ⟨0x7000, 1, 0x03, .blob, .ro, false, 0x0⟩,  -- Admission Result
  ⟨0x7000, 1, 0x04, .blob, .ro, false, 0x0⟩,  -- Admitted Slices
  ⟨0x7000, 1, 0x05, .u16, .ro, false, 0x0⟩,  -- Admitted Flows
  ⟨0x7000, 1, 0x06, .u16, .ro, false, 0xFFFF⟩,  -- Collective Port Holder
  ⟨0x7000, 1, 0x07, .u64, .ro, false, 0x0⟩,  -- Refusals
  ⟨0x7000, 1, 0x08, .u16, .ro, false, 0x0⟩,  -- At-Risk Flows
  ⟨0x7000, 1, 0x09, .u64, .ro, false, 0x0⟩,  -- Segment Overruns
  ⟨0x7000, 1, 0x0A, .u16, .ro, false, 0x0⟩,  -- Computation Version
  ⟨0x7000, 1, 0x0B, .blob, .ro, false, 0x0⟩,  -- Admission Inputs
  ⟨0x7000, 1, 0x0C, .u64, .ro, false, 0x0⟩,  -- Recomputations
  ⟨0x7100, 1, 0x00, .u8, .ro, false, 0x8⟩,  -- Number Of Entries
  ⟨0x7100, 1, 0x01, .u8, .rw, false, 0x0⟩,  -- Staged Slice
  ⟨0x7100, 1, 0x02, .u64, .rw, false, 0x0⟩,  -- Job Seed
  ⟨0x7100, 1, 0x03, .u32, .rw, false, 0x0⟩,  -- Tile Map
  ⟨0x7100, 1, 0x04, .u16, .rw, false, 0x0⟩,  -- Base Sync First
  ⟨0x7100, 1, 0x05, .u16, .rw, false, 0x0⟩,  -- Base Sync Count
  ⟨0x7100, 1, 0x06, .u16, .rw, false, 0x0⟩,  -- Tile Sync First
  ⟨0x7100, 1, 0x07, .u16, .rw, false, 0x0⟩,  -- Tile Sync Count
  ⟨0x7100, 1, 0x08, .u8, .rw, false, 0x0⟩,  -- Options
  ⟨0x7200, 1, 0x00, .u8, .ro, false, 0x6⟩,  -- Number Of Entries
  ⟨0x7200, 1, 0x01, .u16, .rw, false, 0x0⟩,  -- Flow Select
  ⟨0x7200, 1, 0x02, .blob, .rw, false, 0x0⟩,  -- Flow Record
  ⟨0x7200, 1, 0x03, .enum, .ro, false, 0x0⟩,  -- Flow State
  ⟨0x7200, 1, 0x04, .u32, .ro, false, 0x0⟩,  -- Flow Bound
  ⟨0x7200, 1, 0x05, .u64, .ro, false, 0x0⟩,  -- Flow Overruns
  ⟨0x7200, 1, 0x06, .blob, .ro, false, 0x0⟩,  -- Offsets In Force
  ⟨0x7300, 1, 0x00, .u8, .ro, false, 0x7⟩,  -- Number Of Entries
  ⟨0x7300, 1, 0x01, .u16, .ro, false, 0x100⟩,  -- Active Plan
  ⟨0x7300, 1, 0x02, .u64, .cmd, false, 0x0⟩,  -- Switch Request
  ⟨0x7300, 1, 0x03, .u8, .cmd, true, 0x0⟩,  -- Load Plan
  ⟨0x7300, 1, 0x04, .u64, .ro, false, 0x0⟩,  -- Last Switch Front
  ⟨0x7300, 1, 0x05, .u64, .ro, false, 0x0⟩,  -- Switches Completed
  ⟨0x7300, 1, 0x06, .u32, .ro, false, 0x0⟩,  -- Worst Switch Time
  ⟨0x7300, 1, 0x07, .u8, .ro, false, 0x0⟩,  -- Pending Switches
  ⟨0x7400, 256, 0x00, .u8, .ro, false, 0x3⟩,  -- Number Of Entries
  ⟨0x7400, 256, 0x01, .blob, .rw, true, 0x0⟩,  -- Plan Body
  ⟨0x7400, 256, 0x02, .enum, .ro, false, 0x0⟩,  -- Plan State
  ⟨0x7400, 256, 0x03, .u32, .ro, false, 0x0⟩,  -- Load Result
  ⟨0x7500, 1, 0x00, .u8, .ro, false, 0xA⟩,  -- Number Of Entries
  ⟨0x7500, 1, 0x01, .u8, .ro, false, 0x0⟩,  -- Running Schedules
  ⟨0x7500, 1, 0x02, .u64, .ro, false, 0x0⟩,  -- Digest Checks
  ⟨0x7500, 1, 0x03, .u64, .ro, false, 0x0⟩,  -- Digest Mismatches
  ⟨0x7500, 1, 0x04, .u64, .ro, false, 0x0⟩,  -- Digest Faults Masked
  ⟨0x7500, 1, 0x05, .u64, .ro, false, 0x0⟩,  -- Dual-Path Transients
  ⟨0x7500, 1, 0x06, .u64, .ro, false, 0x0⟩,  -- Blocks Not Checked
  ⟨0x7500, 1, 0x07, .u64, .ro, false, 0x0⟩,  -- Packets Absorbed
  ⟨0x7500, 1, 0x08, .u64, .ro, false, 0x0⟩,  -- Runs Failed
  ⟨0x7500, 1, 0x09, .u64, .ro, false, 0x0⟩,  -- Switch Retries
  ⟨0x7500, 1, 0x0A, .u8, .cmd, true, 0x0⟩,  -- Load Schedule
  ⟨0x7600, 64, 0x00, .u8, .ro, false, 0x5⟩,  -- Number Of Entries
  ⟨0x7600, 64, 0x01, .blob, .rw, true, 0x0⟩,  -- Schedule Body
  ⟨0x7600, 64, 0x02, .enum, .ro, false, 0x0⟩,  -- Schedule State
  ⟨0x7600, 64, 0x03, .u32, .ro, false, 0x0⟩,  -- Load Result
  ⟨0x7600, 64, 0x04, .u32, .ro, false, 0x0⟩,  -- Runs Completed
  ⟨0x7600, 64, 0x05, .blob, .ro, false, 0x0⟩]  -- Last Run Record

/-- Entries of range 0x8000 (R372). -/
def entries8a : List Entry := [
  ⟨0x8000, 1, 0x00, .u8, .ro, false, 0x8⟩,  -- Number Of Entries
  ⟨0x8000, 1, 0x01, .u16, .ro, false, 0x0⟩,  -- Log Count
  ⟨0x8000, 1, 0x02, .blob, .ro, false, 0x0⟩,  -- Log Records
  ⟨0x8000, 1, 0x03, .u32, .ro, false, 0x0⟩,  -- Newest Sequence
  ⟨0x8000, 1, 0x04, .u32, .cmd, false, 0x0⟩,  -- Clear Through
  ⟨0x8000, 1, 0x05, .u64, .ro, false, 0x0⟩,  -- Log Overflows
  ⟨0x8000, 1, 0x06, .blob, .ro, false, 0x0⟩,  -- Squall Classes
  ⟨0x8000, 1, 0x07, .blob, .ro, false, 0x0⟩,  -- Squall Repeats
  ⟨0x8000, 1, 0x08, .u64, .ro, false, 0x0⟩,  -- Squalls Started
  ⟨0x8100, 24, 0x00, .u8, .ro, false, 0x5⟩,  -- Number Of Entries
  ⟨0x8100, 24, 0x01, .u8, .ro, false, 0x0⟩,  -- Log Count
  ⟨0x8100, 24, 0x02, .blob, .ro, false, 0x0⟩,  -- Log Records
  ⟨0x8100, 24, 0x03, .u32, .ro, false, 0x0⟩,  -- Newest Sequence
  ⟨0x8100, 24, 0x04, .u32, .cmd, false, 0x0⟩,  -- Clear Through
  ⟨0x8100, 24, 0x05, .u32, .ro, false, 0x0⟩,  -- Log Overflows
  ⟨0x8200, 1, 0x00, .u8, .ro, false, 0x4⟩,  -- Number Of Entries
  ⟨0x8200, 1, 0x01, .u32, .cmd, false, 0x0⟩,  -- Start Self-Test
  ⟨0x8200, 1, 0x02, .u64, .ro, false, 0x0⟩,  -- Self-Tests Run
  ⟨0x8200, 1, 0x03, .u64, .ro, false, 0x0⟩,  -- Self-Tests Failed
  ⟨0x8200, 1, 0x04, .u16, .ro, false, 0x0⟩,  -- Suspects
  ⟨0x8300, 1, 0x00, .u8, .ro, false, 0x3⟩,  -- Number Of Entries
  ⟨0x8300, 1, 0x01, .u32, .ro, false, 0x0⟩,  -- Degraded State
  ⟨0x8300, 1, 0x02, .u32, .ro, false, 0x0⟩,  -- Latent Faults Found
  ⟨0x8300, 1, 0x03, .enum, .ro, false, 0x0⟩]  -- Single-Fault Cover

/-- Entries of range 0x9000 (R372). -/
def entries9a : List Entry := [
  ⟨0x9000, 1, 0x00, .u8, .ro, false, 0xA⟩,  -- Number Of Entries
  ⟨0x9000, 1, 0x01, .enum, .ro, false, 0x0⟩,  -- Sleep State
  ⟨0x9000, 1, 0x02, .enum, .cmd, true, 0x0⟩,  -- Sleep Request
  ⟨0x9000, 1, 0x03, .u64, .rwp, false, 0x0⟩,  -- Wake Links
  ⟨0x9000, 1, 0x04, .blob, .ro, false, 0x0⟩,  -- Channel Readings
  ⟨0x9000, 1, 0x05, .blob, .rwp, false, 0x0⟩,  -- Channel Thresholds
  ⟨0x9000, 1, 0x06, .u64, .ro, false, 0x0⟩,  -- Wake Events
  ⟨0x9000, 1, 0x07, .u16, .ro, false, 0x0⟩,  -- Last Wake Cause
  ⟨0x9000, 1, 0x08, .u32, .ro, false, 0x0⟩,  -- Stopped-Domain Recoveries
  ⟨0x9000, 1, 0x09, .u32, .ro, false, 0x0⟩,  -- Mantle Power Cuts
  ⟨0x9000, 1, 0x0A, .u64, .ro, false, 0x0⟩]  -- ASLEEP Completions

/-- Entries of range 0xA000 (R372). -/
def entriesAa : List Entry := [
  ⟨0xA000, 1, 0x00, .u8, .ro, false, 0x7⟩,  -- Number Of Entries
  ⟨0xA001, 9, 0x00, .u8, .ro, false, 0x8⟩,  -- Number Of Entries
  ⟨0xA000, 10, 0x01, .u16, .ro, false, 0x0⟩,  -- Operation ID
  ⟨0xA000, 10, 0x02, .u16, .ro, false, 0x0⟩,  -- Progress
  ⟨0xA000, 10, 0x03, .u64, .ro, false, 0x0⟩,  -- Position
  ⟨0xA000, 10, 0x04, .enum, .ro, false, 0x0⟩,  -- State
  ⟨0xA000, 10, 0x05, .u32, .ro, false, 0x0⟩,  -- Result
  ⟨0xA000, 10, 0x06, .u64, .ro, false, 0x0⟩,  -- Started
  ⟨0xA000, 10, 0x07, .u64, .ro, false, 0x0⟩,  -- Ended
  ⟨0xA001, 9, 0x08, .u8, .cmd, false, 0x0⟩]  -- Abort

/-- Entries of range 0xF000 (R372). -/
def entriesFa : List Entry := [
  ⟨0xF000, 1, 0x00, .u8, .ro, false, 0xA⟩,  -- Number Of Entries
  ⟨0xF000, 1, 0x01, .bool, .rw, true, 0x0⟩,  -- Diagnostic Mode
  ⟨0xF000, 1, 0x02, .blob, .wo, false, 0x0⟩,  -- Fault Injection
  ⟨0xF000, 1, 0x03, .blob, .rw, true, 0x0⟩,  -- Laser Drive Override
  ⟨0xF000, 1, 0x04, .blob, .wo, true, 0x0⟩,  -- Seam Tap Override
  ⟨0xF000, 1, 0x05, .u64, .rw, false, 0x0⟩,  -- Raw Row Address
  ⟨0xF000, 1, 0x06, .blob, .ro, false, 0x0⟩,  -- Raw Row
  ⟨0xF000, 1, 0x07, .u32, .rw, true, 0x0⟩,  -- Line Squelch
  ⟨0xF000, 1, 0x08, .u16, .rw, true, 0x0⟩,  -- Clock Override
  ⟨0xF000, 1, 0x09, .u32, .cmd, true, 0x0⟩,  -- Erase Persistent Store
  ⟨0xF000, 1, 0x0A, .bool, .rw, true, 0x0⟩]  -- Patrol Scrub Off

/-- Every entry of the dictionary. -/
def entryTable : List Entry :=
  entries1a ++ entries1b ++ entries2a ++ entries3a ++ entries4a ++ entries5a ++ entries6a ++ entries7a ++ entries8a ++ entries9a ++ entriesAa ++ entriesFa

/-- The entry of an index and a subindex, by instance. -/
def findEntry (index sub : Nat) : Option Entry :=
  entryTable.find? (fun e => e.index ≤ index && index < e.index + e.n && e.sub = sub)

/-- R371: the index is implemented. -/
def indexExists (index : Nat) : Bool :=
  entryTable.any (fun e => e.index ≤ index && index < e.index + e.n)

/-- Bytes of a fixed-size type (R341); `none` for STR and BLOB. -/
def etypeSize : EType → Option Nat
  | .u8 | .bool | .enum => some 1
  | .u16 => some 2
  | .u32 | .s32 => some 4
  | .u64 => some 8
  | .str | .blob => none

/-- Type and access codes of DESCRIBE (R348). -/
def etypeCode : EType → Nat
  | .u8 => 0 | .u16 => 1 | .u32 => 2 | .u64 => 3 | .s32 => 4 | .bool => 5 | .enum => 6
  | .str => 8 | .blob => 9

def eaccessCode : EAccess → Nat
  | .ro => 0 | .rw => 1 | .wo => 2 | .rwp => 3 | .cmd => 4

/-- The key under which an entry's value is held. -/
def dictKey (index sub : Nat) : Nat := index * 256 + sub

/-- The default of the entry under a key (0 where none is listed). -/
def dictDefault (key : Nat) : Nat :=
  match findEntry (key / 256) (key % 256) with
  | some e => e.dflt
  | none => 0

end Sys2Proof.Machine
end

