-- ==== Sys2Proof/Machine/State.lean ====
section
/-!
DEFINITION. The state of the block as plain data: every register, table, queue, buffer,
counter and pin that the spec gives the module, the queue of waiting commands, and the
list of what has left the module.  The default value of every field is its value at reset.
-/
namespace Sys2Proof.Machine

/-! ### Reasons for a stop -/

/-- A step that ends the run.  There is none: every command has an effect on State, if only
a refusal sent to its sender, so nothing raises a fault (safe). -/
inductive Fault where
  deriving DecidableEq, Repr

/-- A command without a meaning. -/
inductive Refusal where
  /-- Raised by an arm of `exec` for a command that is not modelled; safe. -/
  | notModelled (mnemonic : String)
  deriving DecidableEq, Repr

/-! ### Tiles: cores (03_cores.md) -/

/-- A fetched block that failed its stitch check and waits for its repeat fetch (R143): its
address, tensor and block index, and the stitch of the first fetch. -/
structure Mismatch where
  addr : Nat
  tid : Nat
  blk : Nat
  first : DWord
  deriving DecidableEq, Repr

/-- A descriptor in a core's queue (R71, R77 to R79): its 1,024 bits, the issuing S-core
(physical) and its ticket, and how far it has run.  `verified` lists the block addresses
whose repeat fetch passed; `record` is a completion record that waits for a slot (R93),
`heldAt` the order in which it was produced. -/
structure QDesc where
  d : Nat
  ticket : Nat
  score : Nat
  started : Bool := false
  anchor : Int := 0
  abort : Bool := false
  verified : List Nat := []
  mismatch : Option Mismatch := none
  blocksDone : Nat := 0
  flags : Byte := 0#8
  ieee : Byte := 0#8
  extra : Nat := 0
  record : Option (List Byte) := none
  heldAt : Nat := 0
  deriving DecidableEq, Repr

/-- An exception raised on an S-core (R91, R94, R111, R513, R514). -/
inductive Exc where
  | illegalInstruction
  | loadAccess
  | storeAccess
  | machineCheck
  deriving DecidableEq, Repr

/-- What an S-core is stalled on (R91): a sync object (name, awaited value, destination
register, time limit), or the end of its descriptors. -/
inductive Stall where
  | sync (name : Nat) (value : Word) (rd : Nat) (deadline : Option Nat)
  | fence
  deriving DecidableEq, Repr

/-- One completion queue of an S-core (R93): the CSR, and the ring's next slot, oldest
unread slot and count of unread records. -/
structure CQueue where
  csr : DWord := 0#64
  next : Nat := 0
  oldest : Nat := 0
  count : Nat := 0
  deriving DecidableEq, Repr

/-- A PMP entry (R90): its configuration byte and its address register. -/
structure Pmp where
  cfg : Byte := 0#8
  addr : DWord := 0#64
  deriving DecidableEq, Repr

/-- An S-core (R90, R91, R93): integer and floating-point registers, fcsr, user mode, the 16 PMP
entries, ticket counter, the waits it is stalled
on (innermost first), completion queues, CSRs, the exception of its last instruction, and
whether the firmware has ended its user code (R513). -/
structure SCore where
  x : Tab DWord := []
  f : Tab DWord := []
  fcsr : Nat := 0
  user : Bool := false
  pmp : Tab Pmp := []
  ticket : Nat := 0
  stalls : List Stall := []
  cq : Tab CQueue := []
  tdwait : DWord := 0#64
  mie : DWord := 0#64
  exc : Option Exc := none
  userEnded : Bool := false
  deriving DecidableEq, Repr

/-! ### Tiles: DRAM and the Seam (04_tile_memory.md) -/

/-- A DRAM die (R101, R122, R124, R131): 0 Off, 1 Active, 2 Self-refresh, 3 Calibrating,
4 Failed; draining for self-refresh; the patrol's next row; the rows corrected in this pass
by bank and mat; refreshes owed by bank and each bank's next refresh row; refresh interval
in ms; thermal stage (0 below warning, 1 warning, 2 throttle, 3 shutdown). -/
structure DramDie where
  state : Nat := 0
  draining : Bool := false
  scrubPos : Nat := 0
  scrubCount : Tab (List Nat) := []
  owed : Tab Nat := []
  refreshNext : Tab Nat := []
  interval : Nat := 32
  deriving DecidableEq, Repr

/-- What a row port's scan keeps (R112, R129, R334): the initiator last accepted, the aligned window of
16 Seam cycles it is in, the rows it has issued in that window, and those of initiator 104. -/
structure PortScan where
  last : Nat := 104
  window : Nat := 0
  issued : Nat := 0
  fabric : Nat := 0
  deriving DecidableEq, Repr

/-- What a row port last answered (R109 to R111): the initiator, the data and whether it is
marked uncorrectable; for a write, whether it was acknowledged. -/
structure RowResp where
  initiator : Nat
  data : List Byte
  bad : Bool
  ok : Bool
  deriving DecidableEq, Repr

/-- A tile reset in progress (R149): its cause (R520) and when it began. -/
structure TileReset where
  cause : Nat
  since : Nat
  deriving DecidableEq, Repr

/-- A tile's throttle (R481): whether a governing die is at throttle, its ceiling, the skip
demand, a ceiling posted with its front and whether it is a further drop, and the time and temperature (0.1 degree C) from which
the next drop or rise is counted. -/
structure Throttle where
  on : Bool := false
  ceiling : Option Nat := none
  skip : Bool := false
  post : Option (Nat × Nat) := none
  drop : Bool := false
  since : Nat := 0
  temp : Int := 0
  deriving DecidableEq, Repr

/-- A physical tile: core maps (R97), cores by physical number, sync objects, DRAM dies,
row-rate step (R129), row ports, confirmed-fault counts (R154), self-test times (R146; key
0 the tile, 1 + p an M-core, 100 + p a V-core, 200 + p an S-core), reset, tile clock in
MHz, the marked mats (R117; key die * 256 + bank, value two mat numbers), and mip bit 17
(R307), throttle, the droop monitor's clock before its first request with the steps below it,
the fronts of requests posted, a withdrawal under way, and the time of the last trigger (R456). -/
structure Tile where
  fusedM : Nat := 0xF0000000000000000
  retiredM : Nat := 0
  pendingM : Nat := 0
  fusedV : Nat := 0x300000000
  retiredV : Nat := 0
  pendingV : Nat := 0
  fusedS : Nat := 0x300
  retiredS : Nat := 0
  pendingS : Nat := 0
  mQueue : Tab (List QDesc) := []
  vQueue : Tab (List QDesc) := []
  sCores : Tab SCore := []
  sync : Tab Word := []
  dies : Tab DramDie := []
  mats : Tab (List Nat) := []
  rowStep : Nat := 0
  rowStepSince : Nat := 0
  rowCalm : Nat := 0
  ports : Tab PortScan := []
  portResp : Tab RowResp := []
  confTile : Nat := 0
  confM : Tab Nat := []
  confV : Tab Nat := []
  confS : Tab Nat := []
  testDue : Tab Nat := []
  reset : Option TileReset := none
  mhz : Nat := 0
  railLow : Bool := false
  mip17 : Bool := false
  thr : Throttle := {}
  fall : Option (Nat × Nat) := none
  fallPost : List Nat := []
  fallUp : Bool := false
  fallLast : Nat := 0
  deriving DecidableEq, Repr

/-- A stitch cell (R138): STITCH, GEN, and STATE 0 RAW, 1 VALID, 2 POISON, 3 WRITING. -/
structure Cell where
  stitch : DWord := 0#64
  gen : BitVec 6 := 0#6
  state : BitVec 2 := 0#2
  deriving DecidableEq, Repr

/-! ### Error logs (12_dictionary_reference.md R393, 17_faults.md R518 to R522) -/

/-- A fault report on its way to the logging engine (R519, R521). -/
structure Report where
  cls : Nat
  kind : Nat := 0
  place : Nat := 0xFF
  unit : Nat := 0xFFFF
  logical : Option Nat := none
  slice : Option Nat := none
  detail : Nat := 0
  tag : Nat := 0
  stamp : Nat := 0
  diag : Bool := false
  masked : Bool := false
  deriving DecidableEq, Repr

/-- A log: the records held, oldest first, and the newest sequence number. -/
structure Log where
  records : List (List Byte) := []
  newest : Nat := 0
  deriving DecidableEq, Repr

/-- A class in squall (R522): the stamp of its last report, the stamp of the first of the
65 reports that started it, and the repeats counted since. -/
structure Squall where
  last : Nat
  first : Nat
  repeats : Nat
  deriving DecidableEq, Repr

/-- The logging engine: waiting reports by handling queue (physical tile, or 28 for the
package), the logs, the last stamps of each class, the classes in squall, the repeats
counted per class since power-up, and the end times of squalls not yet over. -/
structure LogState where
  queue : Tab (List Report) := []
  pkg : Log := {}
  tile : Tab Log := []
  stamps : Tab (List Nat) := []
  squall : Tab (Option Squall) := []
  repeats : Tab Nat := []
  deriving DecidableEq, Repr

/-! ### The Mantles and the dictionary (11_vexga_dictionary.md) -/

/-- A VDP response (R347). -/
structure VdpResp where
  opcode : Nat
  status : Nat
  txid : Nat
  index : Nat := 0
  sub : Nat := 0
  group : Nat := 0
  offset : Nat := 0
  total : Nat := 0
  detail : Nat := 0
  data : List Byte := []
  deriving DecidableEq, Repr

/-- A requester context (R345): its selects, last responses with their times, last use. -/
structure Context where
  party : Party
  sel : Tab Nat := []
  resp : List (VdpResp × Nat) := []
  last : Nat := 0
  deriving DecidableEq, Repr

/-- A read snapshot (R350). -/
structure Snapshot where
  id : Nat
  party : Party
  index : Nat
  sub : Nat
  value : List Byte
  last : Nat
  deriving DecidableEq, Repr

/-- A partial segmented write (R350). -/
structure PartialWrite where
  party : Party
  index : Nat
  sub : Nat
  group : Nat
  total : Nat
  segs : List (Nat × List Byte)
  last : Nat
  deriving DecidableEq, Repr

/-- A write staged into a commit group (R353), with the selects its context held at the
commit. -/
structure Staged where
  index : Nat
  sub : Nat
  value : List Byte
  sel : Tab Nat := []
  deriving DecidableEq, Repr

/-- A commit group (R353): 0 open, 1 committed, 2 applied, 3 discarded, 4 unknown; its place
in the order of commits that still wait (R459). -/
structure Group where
  state : Nat := 4
  party : Option Party := none
  staged : List Staged := []
  front : Nat := 0
  last : Nat := 0
  order : Nat := 0
  deriving DecidableEq, Repr

/-- A NOTIFY that awaits its acknowledgement (R362): sends made, and when the first was. -/
structure Notify where
  target : Nat
  seq : Nat
  record : List Byte
  sends : Nat
  first : Nat
  deriving DecidableEq, Repr

/-- A long operation (R368): 0 IDLE, 1 RUNNING, 2 DONE, 3 FAILED, 4 ABORTED, 5 REFUSED; `latched`
holds what its start took from other entries (R127). -/
structure LongOp where
  state : Nat := 0
  position : Nat := 0
  total : Nat := 0
  result : Nat := 0
  started : Nat := 0
  ended : Nat := 0
  arg : Nat := 0
  latched : List Nat := []
  deriving DecidableEq, Repr

/-- One copy of the persistent store (R344, R561). -/
structure NvCopy where
  valid : Bool := true
  gen : Nat := 0
  vals : Tab Nat := []
  blobs : Tab (List Byte) := []
  deriving DecidableEq, Repr

/-! ### The Basusk layer (06_basusk_layer.md) -/

/-- A data codeword in a retry buffer (R161): SEQ, its five flits, sends made, the time of
the last send, and whether a Nak List has named it. -/
structure TxCw where
  seq : Nat
  data : List Byte
  sends : Nat := 1
  last : Nat := 0
  nak : Bool := false
  deriving DecidableEq, Repr

/-- A packet that waits in a router (R183, R316): class (0 control, 1 response, 2 request,
3 bulk), bytes, tier (R317: 0 of an admitted flow, 1 unmatched), the replicator block it is a copy of
(R216; 0 none), the buffer it stands in (R184: the circuit port, 16 the mesh station's, 32 none: it has
not left this router), and the station it is to be sent to. -/
structure RPkt where
  cls : Nat
  data : List Byte
  tier : Nat := 1
  block : Nat := 0
  via : Nat := 32
  dst : Nat := 31
  deriving DecidableEq, Repr

/-- A circuit port (R170, R171; key station * 16 + port): role (0 Collective, 1 Memory,
2 Host-through, 3 Hem-through, 255 unused), far-end port or 512 + Hem link, up, in training, starting
no new packet before a switch, failed lines, the set I of lines in use (R173), the line in
recalibration, SEQ and retry buffer, flits sent and freed by class (R160), the next SEQ to
deliver, reorder buffer, SEQs to name in the next Nak List, flits freed here by class,
packets being assembled, codewords and uncorrectable codewords of each lane's window
(R162) with the run of uncorrectable ones it is in (R163), and packets waiting for credits or buffer.
The end of training, from which codeword positions are counted (R159); the next position for data and
for lane-control codewords by lane; symbols corrected on each line since its last lane-control codeword
(R160); what the last lane-control codeword told; whether a codeword has been delivered since
training; flits of each class that its receive buffer holds (R184).  The path whose settings the receiver has (R498): the far station; whether a plan switch
trains the port, and whether a laser gap meets that switch (R181). -/
structure Port where
  role : Nat := 255
  far : Option Nat := none
  up : Bool := false
  training : Bool := false
  draining : Bool := false
  failed : Nat := 0
  inUse : Nat := 0
  recal : Option Nat := none
  txSeq : Nat := 0
  retry : List TxCw := []
  sent : Tab Nat := []
  freed : Tab Nat := []
  rxNext : Nat := 0
  reorder : Tab (List Byte) := []
  naks : List Nat := []
  rxFreed : Tab Nat := []
  asm : Tab (List Byte) := []
  laneN : Tab Nat := []
  laneU : Tab Nat := []
  laneRun : Tab Nat := []
  waiting : List RPkt := []
  trainedAt : Nat := 0
  txPos : Tab Nat := []
  ctlPos : Tab Nat := []
  corr : Tab Nat := []
  told : List Byte := []
  heard : Bool := false
  rxHeld : Tab Nat := []
  path : Nat := 0
  switching : Bool := false
  delayed : Bool := false
  deriving DecidableEq, Repr

/-- A packet in a mesh source queue (R167): number, class, bytes in whole flits,
destinations with the flits already sent to each, the replicator block it is a copy of, and its tier. -/
structure MeshPkt where
  id : Nat
  cls : Nat
  data : List Byte
  dests : List (Nat × Nat)
  block : Nat := 0
  tier : Nat := 1
  deriving DecidableEq, Repr

/-- A slot not yet acknowledged by every receiver (R168). -/
structure MeshSlot where
  seq : Nat
  pkt : Nat
  cls : Nat
  data : List Byte
  waitAck : List Nat
  rejected : List Nat := []
  sends : Nat := 1
  deriving DecidableEq, Repr

/-- A mesh station (R164 to R168): source queue, slot sequence number, unacknowledged
slots, the destination last accepted, the line of each mesh lane (0x1F out), failed lines of
its bus, the window of each lane it receives by source * 32 + line (R162), the receiver of each
receive group that its spare stands in for (R166; lane + 1), the source each receive group last granted, the run of control and response grants
of each group while requests wait, flits held by class, packets being assembled by source
and class. -/
structure Station where
  queue : List MeshPkt := []
  seq : Nat := 0
  unacked : List MeshSlot := []
  lastAccept : Nat := 28
  lines : List Nat := [1, 3, 5, 7, 9, 11, 13, 15]
  failed : Nat := 0
  laneN : Tab Nat := []
  laneU : Tab Nat := []
  laneRun : Tab Nat := []
  rxSpare : Tab Nat := []
  lastGrant : Tab Nat := []
  streak : Tab Nat := []
  held : Tab Nat := []
  asm : Tab (List Byte) := []
  deriving DecidableEq, Repr

/-- A request on the arbitration network (R167): source, destination, class, packet, a slot
to resend, and whether it continues a packet already begun. -/
structure MeshReq where
  src : Nat
  dst : Nat
  cls : Nat
  pkt : Nat
  resend : Option Nat
  cont : Bool
  tier : Nat := 1
  deriving DecidableEq, Repr

/-- A slot that a receiver has granted and not yet delivered (R168), in grant order. -/
structure MeshRx where
  dst : Nat
  src : Nat
  seq : Nat
  data : List Byte
  ok : Bool := false
  deriving DecidableEq, Repr

/-- An accepted plan switch (R178). -/
structure Switch where
  front : Nat
  dark : Bool
  plan : Nat
  deriving DecidableEq, Repr

/-- A block in a replicator's buffer (R216): its number, its bytes, and the tracker entry of the MSTORE
that it carries. -/
structure ReplBlock where
  id : Nat
  size : Nat
  mstore : Option Nat := none
  deriving DecidableEq, Repr

/-- The planes: circuit ports, mesh stations, requests and grants of the slots under way,
slot number, calendar (R169; key station * 2048 + group * 1024 + entry, value source * 4 +
class + 1), pending switches, packets that have reached the router of a station, the
round robin of R183 by station * 32 + far station; the blocks of each station's replicator buffer with
their bytes, the last block number given, and the copies from links that wait for that buffer (R216). -/
structure Basusk where
  ports : Tab Port := []
  stations : Tab Station := []
  requests : List MeshReq := []
  grants : List MeshReq := []
  rx : List MeshRx := []
  slot : Nat := 0
  pktNext : Nat := 0
  calendar : Tab Nat := []
  switches : List Switch := []
  inbox : Tab (List RPkt) := []
  rr : Tab Nat := []
  repl : Tab (List ReplBlock) := []
  blockNext : Nat := 0
  copies : Tab (List (Nat × Pkt)) := []
  deriving DecidableEq, Repr

/-! ### Collectives (07_collectives.md) -/

/-- A wire block with its digests, flag byte and State (R197, R203). -/
structure WireBlk where
  data : List Byte
  d0 : Nat := 0
  d1 : Nat := 0
  flags : Byte := 0#8
  poison : Bool := false
  deriving DecidableEq, Repr

/-- A block that a reduce node is combining (R202): the slots that have arrived and the
combine of their blocks. -/
structure NodeBlk where
  slots : List Nat
  blk : WireBlk
  deriving DecidableEq, Repr

/-- A reduce node (R202, R207, R209, R221): lowest incomplete block, blocks under way, output
blocks held in the window, the source (node, station) of each slot, exponents that arrived
by slot, the anchor, the first block of the last grant sent, slot and block asked for
again after a failed stitch with the stitch computed, blocks that run in checked mode,
blocks complete above the lowest incomplete one, and the slots whose first block has arrived (R209). -/
structure RNode where
  low : Nat := 0
  parts : Tab (Option NodeBlk) := []
  outs : Tab (Option WireBlk) := []
  srcs : List (Nat × Nat × Nat) := []
  exps : List (Nat × Int) := []
  anchor : Option Int := none
  granted : Nat := 0
  again : List (Nat × Nat × DWord) := []
  checked : List Nat := []
  done : List Nat := []
  seen : List Nat := []
  deriving DecidableEq, Repr

/-- A result block at a deliverer (R219 to R221): 0 not arrived, 2 refetched, 3 in repeat, 4 passed and
held until its output block is complete, 5 written; the digests computed from the first copy; and the
stitch computed from a copy that failed its own and has been asked for again. -/
structure Deliv where
  state : Nat := 0
  c0 : Nat := 0
  c1 : Nat := 0
  bad : Option Nat := none
  blk : Option WireBlk := none
  deriving DecidableEq, Repr

/-- A run in progress (R206 to R212): its number, epoch count and time of start, status so
far, flags, lowest flagged block, blocks repaired, anchor reported; the tiles that have still
to scan; the phase, whether it has begun, the fronts posted for phases; by step: the
anchor, the number of blocks sent, and the grants by target; nodes by number; deliveries by
step and block; the first anchor of each contributing tile; the phases whose switch was answered LATE or
QUEUE_FULL; the tiles whose engine a reset has taken out of the run (R190). -/
structure CRun where
  run : Nat
  start : Nat
  startPs : Nat
  status : Nat := 0
  flags : Byte := 0#8
  firstFlag : Nat := 0xFFFFFFFF
  repaired : Nat := 0
  anchor : Int := 0
  scanning : List Nat := []
  exponents : Bool := false
  phase : Nat := 0
  begun : Bool := false
  posted : Tab Nat := []
  anchors : Tab (Option Int) := []
  sent : Tab Nat := []
  grants : Tab (List (Nat × Nat)) := []
  nodes : Tab RNode := []
  deliv : Tab Deliv := []
  tileAnchor : Tab (Option Int) := []
  tried : List Nat := []
  lost : List Nat := []
  deriving DecidableEq, Repr

/-- The collective units: the run of each slot; multicast group records (R214). -/
structure Collect where
  runs : Tab (Option CRun) := []
  groups : Tab (List Byte) := []
  deriving DecidableEq, Repr

/-! ### Hem links (08_hem_links.md) -/

/-- A data frame in a retry buffer (R237, R238): FSEQ, flits, sends made, time and line of
the last send, and whether a Nak List has named it. -/
structure TxFrame where
  seq : Nat
  data : List Byte
  sends : Nat := 1
  last : Nat := 0
  line : Nat := 0
  nak : Bool := false
  deriving DecidableEq, Repr

/-- A packet that waits for a lane group: level (R239) and content. -/
structure HemWait where
  level : Nat
  pkt : Pkt
  block : Nat := 0
  tier : Nat := 1
  deriving DecidableEq, Repr

/-- Frames of a lane and those of them lost, in its present 1 ms window, with that window's number, and
the windows in a row before it that lost more than 1 in 1,000 (R241). -/
structure LossWindow where
  number : Nat := 0
  n : Nat := 0
  lost : Nat := 0
  run : Nat := 0
  deriving DecidableEq, Repr

/-- A lane group (R243): 0 DOWN, 1 TRAINING, 2 UP, 3 QUARANTINED; when its training
started; transmit and receive state of R237 with credits by 4 * class + level - 1 (R239);
packets whose flits stand in the retry buffer, by FSEQ of their last frame; the identity
announced by the far end (R235), whether it has announced itself since training started, or ever; lines
in use at the far end; the measured one-way latency in ns; frames resent, and the times of frames lost
in the last second (R269); packets that wait for credits.  Flits in the receive buffers by class and
level (R239); loss windows by line (R241); whether light has been lost since it last trained, and
whether training has ended.  The frame position at the end of training (R235), the next free position
of each line for data and for control frames; symbols corrected on each line since its last control
frame; what the last control frame told, the freed flits told by class and level and the pair that
CREDIT takes next (R234); whether a frame has been delivered since training; how often the group has
come to offer a reference (R384). -/
structure HemGroup where
  state : Nat := 0
  since : Nat := 0
  txSeq : Nat := 0
  retry : List TxFrame := []
  inFlight : List (Nat × Pkt) := []
  sent : Tab Nat := []
  freed : Tab Nat := []
  rxNext : Nat := 0
  reorder : Tab (List Byte) := []
  naks : List Nat := []
  rxFreed : Tab Nat := []
  asm : Tab (List Byte) := []
  known : Bool := false
  farNode : Nat := 0
  farLink : Nat := 0
  farGroup : Nat := 0
  farPart : Nat := 0
  farSerial : Nat := 0
  checkedAs : Nat := 0xFFFF
  farMap : Nat := 0x1FFFF
  farStatus : Nat := 0
  latency : Nat := 0
  resent : Nat := 0
  lost : List Nat := []
  waiting : List HemWait := []
  rxHeld : Tab Nat := []
  wins : Tab LossWindow := []
  announced : Bool := false
  dark : Bool := true
  trained : Bool := false
  base : Nat := 0
  txPos : Tab Nat := []
  ctlPos : Tab Nat := []
  corr : Tab Nat := []
  told : List Byte := []
  credTold : Tab Nat := []
  turn : Nat := 0
  heard : Bool := false
  offers : Nat := 0
  deriving DecidableEq, Repr

/-- The Hem: lane groups by link * 16 + group; failed lines of each link; split code and partition
groups in force (R228, R244); flits reserved in the transmit queue of each router by station * 16 +
4 * class + level - 1 (R252); route sets by destination node (R250) and the weighted round robin's current
weights by destination * 4 + class; allowed-slice maps by link * 16 + group (R259); the
sweep under way: its start and route. -/
structure Hem where
  groups : Tab HemGroup := []
  failed : Tab Nat := []
  split : Tab Nat := []
  parts : Tab (List Byte) := []
  txHeld : Tab Nat := []
  routes : Tab (List Byte) := []
  swrr : Tab (List Int) := []
  slices : Tab (List Byte) := []
  sweepStart : Nat := 0
  sweepPs : Nat := 0
  deriving DecidableEq, Repr

/-! ### Global memory (09_memory_fabric.md) -/

/-- A fence that waits (R302): its entry index and User Tag. -/
structure Fence where
  index : Nat
  user : Nat
  deriving DecidableEq, Repr

/-- An entry that ended other than OK (R303): its index, whether it was posted, status, User
Tag, global address. -/
structure Failure where
  index : Nat
  posted : Bool
  status : Nat
  user : Nat
  addr : Nat
  deriving DecidableEq, Repr

/-- A fabric queue (R285 to R288, R303): enabled, being disabled; the control block read at
the enable; entries read; entries outstanding; completion records written; failures in the
order recorded and flags collected since they were last taken by a fence; waiting fences. -/
structure FQueue where
  enabled : Bool := false
  closing : Bool := false
  reqRing : Nat := 0
  compRing : Nat := 0
  reqEntries : Nat := 16
  compEntries : Nat := 16
  slice : Nat := 0
  read : Nat := 0
  out : List Nat := []
  written : Nat := 0
  fails : List Failure := []
  flags : Nat := 0
  fences : List Fence := []
  deriving DecidableEq, Repr

/-- A tracker entry in use (R300, R301): the queue (or host function, for station 28), the
entry's position and its 64 bytes, nonce, when it ends unanswered, slice, and whether the
block was already sent twice (R293). -/
structure Track where
  queue : Nat
  index : Nat
  entry : List Byte
  nonce : Nat
  deadline : Nat
  slice : Nat
  twice : Bool := false
  first : DWord := 0#64
  deriving DecidableEq, Repr

/-- A lease (R298): holder (node, tile, queue), generation, and the epoch time in ps at
which it was last renewed. -/
structure Lease where
  holder : Option (Nat × Nat × Nat) := none
  gen : Nat := 0
  since : Nat := 0
  deriving DecidableEq, Repr

/-- A bridge request that has ended (R308): its tracker entry, status, detail, value, data. -/
structure BridgeEnd where
  track : Track
  status : Nat
  detail : Nat
  value : Nat
  data : List Byte := []
  poison : Bool := false
  deriving DecidableEq, Repr

/-- A WATCH held at its home (R436): the awaited count, slice, expiry count, station that
answers, and the answer without its Value. -/
structure Watch where
  value : Word
  slice : Nat
  expiry : Nat
  station : Nat
  reply : Pkt
  deriving DecidableEq, Repr

/-- The memory fabric: packets that wait at the router of each station; fabric queues by
tile * 8 + queue; trackers by station * 16384 + tag; quarantined tags with the time at which
they are free; each tracker's issue count; region records (R280); leases by base sync
object; replies for which each station holds response space (R257); slices under teardown, whose requests are answered ABORTED (R307); requests of the host bridge that have ended and
whose engine has not taken the answer; watches by object (tile * 1024 + object; from 2^20 the
base objects). -/
structure Fab where
  routers : Tab (List Pkt) := []
  respHeld : Tab Nat := []
  queues : Tab FQueue := []
  tracks : Tab (Option Track) := []
  quar : Tab Nat := []
  issues : Tab Nat := []
  regions : Tab (List Byte) := []
  leases : Tab Lease := []
  torn : List Nat := []
  ended : List BridgeEnd := []
  tearAt : Nat := 0
  watches : Tab (List Watch) := []
  deriving DecidableEq, Repr

/-! ### Admission (10_admission.md) -/

/-- A job of a slice (R311 to R313): seed, logical tile map, ranges of base and tile sync
objects, CLAIM; 1 accepted and waiting for its front, 2 admitted, 3 admitted with a
withdrawal posted; the front concerned. -/
structure Job where
  state : Nat
  seed : Nat := 0
  tiles : Nat := 0
  baseFirst : Nat := 0
  baseCount : Nat := 0
  syncFirst : Nat := 0
  syncCount : Nat := 0
  claim : Bool := false
  front : Nat := 0
  deriving DecidableEq, Repr

/-- A flow's shaper (R316): tokens in millionths of a bit, the time they were counted, and
the packets that wait. -/
structure Shaper where
  tokens : Nat
  since : Nat
  queue : List Pkt := []
  deriving DecidableEq, Repr

/-- The admission engine: jobs by slice; by flow slot: flow records (R314) and their states
(R339), shapers, overruns (R332), the last bound computed, the offsets in use (R322), and
the calendar entries held (R321); by physical tile the rate charged to its ROW_BUDGET, in Mb/s
(R319, R334). -/
structure Admission where
  jobs : Tab (Option Job) := []
  flows : Tab (List Byte) := []
  fstate : Tab Nat := []
  shapers : Tab (Option Shaper) := []
  overruns : Tab Nat := []
  bounds : Tab Nat := []
  offsets : Tab (List Nat) := []
  places : Tab (List Nat) := []
  rowCharge : Tab Nat := []
  deriving DecidableEq, Repr

/-- The control plane (R345, R353, R362 to R365): each Mantle's state (R370: 0 Off,
1 Booting, 2 Standby, 3 Active, 4 Cut, 5 Failed), the holder of MANTLE_OWN (0 A, 1 B), its
last refresh, when the line became free, the Mantle that released it by a hand-over, when
since when none has been active, when each was ready; contexts, snapshots, partial writes, groups and the last
group number; pending NOTIFYs with each target's sequence number; answers that wait for
their mailbox; the event receiver of PLDM (R360); the dynamic address
(R359); the operation last started; both persistent copies; SP NOR held by the BMC. -/
structure Mantle where
  dieA : Nat := 0
  dieB : Nat := 0
  owner : Option Nat := none
  refreshed : Nat := 0
  freeSince : Option Nat := none
  handOver : Option Nat := none
  idle : Option Nat := none
  readyAt : Tab Nat := []
  contexts : List Context := []
  snapshots : List Snapshot := []
  snapNext : Nat := 1
  partials : List PartialWrite := []
  groups : Tab Group := []
  groupLast : Nat := 0
  notifies : List Notify := []
  notifySeq : Tab Nat := []
  unsent : List (Nat × List Byte) := []
  mbox : List (Nat × VdpResp) := []
  pldmReceiver : Option Nat := none
  i3cAddr : Option Nat := none
  lastOp : Nat := 0
  unpersisted : List (Nat × Nat) := []
  copy0 : NvCopy := {}
  copy1 : NvCopy := {}
  deriving DecidableEq, Repr

/-! ### Diagnostics (12_dictionary_reference.md R398, R399) -/

/-- A pending fault-injection record (R399); `left` is none until diagnostic mode ends. -/
structure Injection where
  target : Nat
  fault : Nat
  place : Nat
  unit : Nat
  left : Option Nat
  bitOff : Nat
  deriving DecidableEq, Repr

/-! ### The host interface (13_host_interface.md) -/

/-- A status register (R412): SEQ, and its bits [23:0]. -/
structure StatReg where
  seq : Nat := 0
  ev : Nat := 0
  deriving DecidableEq, Repr

/-- A PCIe function (R404, R415): HB_STAT, HB_IRQ_MASK, the latched epoch count (R414);
MBOX_STAT, a request outstanding, one held while
MANTLE_OWN is free (R364), MBOX_REQ and MBOX_RSP; the MSI-X table by word, and its pending
bits; a reset under way (R308): when it was requested. -/
structure HFunc where
  stat : StatReg := {}
  mask : Nat := 0
  latch : Nat := 0
  mbox : StatReg := {}
  outstanding : Bool := false
  held : Option VdpReq := none
  req : List Host.Cell := []
  rsp : List Byte := []
  msix : Tab Nat := []
  pba : Nat := 0
  reset : Option Nat := none
  deriving DecidableEq, Repr

/-- An SQ entry taken and not yet completed (R430 to R432): its SQ index and 64 bytes; pieces
sent; pieces failed, and the lowest of them with status and detail; pieces answered; the final
SYNC_ADD (0 not due, 1 sent, 2 ended); the count of a SIGNAL or WAIT; when a WAIT times out;
the status once it has ended; blocks to send again after a first stitch mismatch. -/
structure HEntry where
  idx : Nat
  data : List Byte
  sent : Nat := 0
  again : List (Nat × DWord) := []
  failed : Nat := 0
  first : Option (Nat × Nat × Nat) := none
  answered : Nat := 0
  signal : Nat := 0
  value : Nat := 0
  deadline : Nat := 0
  ended : Option (Nat × Nat) := none
  deriving DecidableEq, Repr

/-- A host queue (R426 to R433): its registers, QSTAT, running, SQ head and tail, CQ tail and
head, the phase of the next record; the SQ window of BAR2; entries taken; records written since the last
interrupt, and when the first of them was. -/
structure HQueue where
  ctrl : Nat := 0
  size : Nat := 0
  sqBase : Nat := 0
  cqBase : Nat := 0
  qslice : Nat := 0
  stat : StatReg := {}
  running : Bool := false
  sqHead : Nat := 0
  sqTail : Nat := 0
  cqTail : Nat := 0
  cqHead : Nat := 0
  phase : Bool := true
  fullRaised : Bool := false
  window : List Host.Cell := []
  ents : List HEntry := []
  unsignalled : Nat := 0
  coalSince : Nat := 0
  deriving DecidableEq, Repr

/-- A posted write to a register domain (R407, R409): offset, value, and its window
(0 plain, 1 SET, 2 CLEAR, 3 TOGGLE). -/
structure PostedWrite where
  off : Nat
  value : Nat
  window : Nat
  deriving DecidableEq, Repr

/-- A register domain (R408 to R411): DOMAIN_STAT's events, the posted write, reads held (by
function and offset) with the arrival of the first, and the select register. -/
structure HDomain where
  stat : StatReg := {}
  write : Option PostedWrite := none
  reads : List (Nat × Nat) := []
  since : Nat := 0
  sel : Nat := 0
  deriving DecidableEq, Repr

/-- A BAR4 access that waits for answers (R437 to R439): its number, a write, BAR4 offset,
bytes returned so far by piece, pieces, answers, failed. -/
structure BarOp where
  id : Nat
  write : Bool
  off : Nat
  len : Nat
  pieces : Nat
  answered : Nat := 0
  failed : Bool := false
  data : Tab (List Byte) := []
  deriving DecidableEq, Repr

/-- The host bridge: functions, queues by global number, domains; BAR4 registers, BAR4_STAT,
failed writes since the last fence read, the first failure (status, offset), accesses waiting,
the next number, fence reads waiting (each for the writes numbered below it); link up, PERST#
released, when each came about. -/
structure HostIf where
  funcs : Tab HFunc := []
  queues : Tab HQueue := []
  domains : Tab HDomain := []
  barCtrl : Nat := 0
  barKey : Nat := 0
  barBase : Nat := 0
  barLog : Nat := 34
  barStat : StatReg := {}
  barFailed : Nat := 0
  barFirst : Option (Nat × Nat) := none
  barOps : List BarOp := []
  barNext : Nat := 0
  fences : List Nat := []
  linkUp : Bool := false
  perst : Bool := false
  perstAt : Nat := 0
  deriving DecidableEq, Repr

/-! ### Clocks (14_clocks_crossings.md) -/

/-- Clock units.  Epoch: the phase in ps by which slews have moved the count (R452), what is
left to slew, the last correction, whether a first alignment has been made, the front of a
step, the step in counts, whether an offset beyond 64 ns is logged; sum and number of the
offset samples of the running 1 ms (R451), in ps.  Reference: the source in force
(0 primary, 1 secondary, 2 holdover) and since when; by source its state (R384) and since when it
qualifies; the group and its offer for which the state of the secondary holds; a reversion posted (source, front); a free-running synthesiser (R533).  Changes
posted for fronts: mode, tile clock limit, ceiling; the limit and ceiling in force, and the
front of the ceiling's last change. -/
structure Clock where
  phase : Int := 0
  slewLeft : Int := 0
  slewStep : Int := 0
  aligned : Bool := false
  stepAt : Option Nat := none
  stepBy : Int := 0
  offLogged : Bool := false
  offSum : Int := 0
  offN : Nat := 0
  inForce : Nat := 2
  changed : Nat := 0
  refs : Tab Nat := []
  refSince : Tab Nat := []
  refMark : Nat × Nat := (0xFFFF, 0)
  revert : Option (Nat × Nat) := none
  freeRun : Bool := false
  modeAt : Option (Nat × Nat) := none
  limitAt : Option (Nat × Nat) := none
  limit : Nat := 2000
  ceilAt : Option (Nat × Nat) := none
  ceiling : Nat := 1800
  ceilFront : Nat := 0
  deriving DecidableEq, Repr

/-! ### Power and temperature (15_power_thermal.md) -/

/-- Power and thermal units.  By the die index of R383: the stage (0 normal, 1 warning,
2 throttle, 3 shutdown), the last sample in 0.1 degree C, the stage that the last sample
reached, whether the last sample was suspect, failed sensors.  Estimates (total and dynamic
W): the last five of each tile, those of the package in the running 100 us, the offset, sum
and number since the last round, the count at which the window began, the cap it uses.  Skips of
the cap paths (0 none, 1 one in four, 2 one in two), whether a front ends them, else when; how
often in turn the cap was unreachable.  The part of the energy below 1 mJ, in units of
0.01 uJ; since when a clock is held by the cap, by a throttle.  Times of the shutdowns of the
last hour; the main rails held off by thermal shutdown, by the input; when the input came back;
the last note of an input excursion; since when every diode has been cool. -/
structure Power where
  stages : Tab Nat := []
  temps : Tab (Option Int) := []
  reached : Tab Nat := []
  suspect : Tab Bool := []
  failed : Tab Bool := []
  tileEst : Tab (List (Nat × Nat)) := []
  pkgEst : List (Nat × Nat) := []
  offset : Int := 0
  estSum : Nat := 0
  estN : Nat := 0
  iterAt : Nat := 0
  capUsed : Option Nat := none
  skip : Nat := 0
  skipFront : Bool := false
  skipEnd : Nat := 0
  unreachable : Nat := 0
  energyRest : Nat := 0
  limitedSince : Option Nat := none
  heldSince : Option Nat := none
  shutdowns : List Nat := []
  thermalOff : Bool := false
  inputOff : Bool := false
  inputGood : Option Nat := none
  noted : Option Nat := none
  cool : Option Nat := none
  deriving DecidableEq, Repr

/-! ### Calibration (16_calibration.md) -/

/-- A line under recalibration (R504): circuit port, mesh bus or link by its key, and the
line. -/
structure RecalStep where
  line : Nat
  start : Nat
  deriving DecidableEq, Repr

/-- Calibration: the stage in progress; when it started; whether a failure that ends it FAILED
occurred; lines and channels marked failed (R558 IDs), and those of the pattern test; the settings of each line (by channel ID, then by quantity,
component and path, R498, R502), Seam taps (by channel ID), the last sweep of each that gave a result
(its centre + 1), and the taps overridden; the rotation step under way, and the start of the
rotation. -/
structure Calib where
  stage : Nat := 0
  since : Nat := 0
  fatal : Bool := false
  marked : List Nat := []
  pattern : List Nat := []
  settings : Tab (Tab Int) := []
  taps : Tab Nat := []
  sweeps : Tab Nat := []
  overrides : Tab Nat := []
  step : Option RecalStep := none
  rotation : Nat := 0
  deriving DecidableEq, Repr

/-! ### Laser groups (17_faults.md) -/

/-- A switch-over gap (R527): G0, the new die (0 a, 1 b), commanded, whether the old die was
active, lines that failed the check, a further cause in the gap (R530), drive applied, check
made. -/
structure Gap where
  g0 : Nat
  die : Nat
  commanded : Bool
  old : Bool
  failed : Nat := 0
  hit : Bool := false
  drive : Bool := false
  checked : Bool := false
  deriving DecidableEq, Repr

/-- The laser groups: owner bits, state of each die (0 off, 1 active, 2 standby, 3 failed),
gaps by group, groups lost, switch-overs that wait for a gap to end (R530; group, + 4 if
commanded), restart checks under way, groups whose last monitor sample was low, the owners kept for the next start (R556). -/
structure Lasers where
  own : Nat := 0
  dies : Tab Nat := []
  gaps : Tab (Option Gap) := []
  lost : Nat := 0
  waiting : List Nat := []
  checks : Tab Bool := []
  low : Nat := 0
  stored : Nat := 0
  deriving DecidableEq, Repr

/-! ### The Forecast unit (18_forecast.md) -/

/-- The Forecast unit: sleep state (0 Active, 1 Doze, 2 Nap, 3 Hibernate), whether the tiles
are closed, the state being entered and its front, a state to enter once awake, whether the
module is waking and since when, a wake request that waits for its decision (kind and station of R397); the last five samples
of each channel, the channels' flags, those newly set, and whether the last decision was STAY; until when its
logic restarts (R515). -/
structure Forecast where
  sleep : Nat := 0
  closed : Bool := false
  entry : Option Nat := none
  front : Nat := 0
  next : Option Nat := none
  waking : Bool := false
  wakePs : Nat := 0
  held : Option Nat := none
  samples : Tab (List Int) := []
  flags : Nat := 0
  fresh : Nat := 0
  stay : Bool := false
  restartAt : Nat := 0
  deriving DecidableEq, Repr

/-! ### Start-up (19_bringup.md) -/

/-- An image on the carrier's SPI NOR (R378): 0 EMPTY, 1 VALID, 2 BAD_SIGNATURE, 3 WRITING;
version, content. -/
structure Image where
  state : Nat := 0
  version : Nat := 0
  data : List Byte := []
  deriving DecidableEq, Repr

/-- Bring-up: whether the tiles have been started; the time at which READY was set (R567); the
standby rail, the main rails and when they started; the next cause, cause and form of the
start under way, its last stage, units failed; the fallback and defaults bits of the report;
MAIN_ENABLE, MODULE_RESET_N and SPI_SEL as driven; the alert (R548); the step of an orderly
shutdown under way (R573), and a restart after it; both images; the image that runs. -/
structure Boot where
  tilesOn : Bool := false
  readyAt : Option Nat := none
  standby : Bool := false
  mainOn : Bool := false
  mainAt : Nat := 0
  cause : Nat := 0
  warm : Bool := false
  stage : Nat := 0
  result : Nat := 0
  degraded : Bool := false
  other : Bool := false
  defaults : Bool := false
  mainEnable : Bool := true
  resetHigh : Bool := true
  spiSel : Bool := false
  alert : Bool := false
  shutdown : Option Nat := none
  restart : Bool := false
  imageA : Image := { state := 1 }
  imageB : Image := {}
  running : Nat := 0
  deriving DecidableEq, Repr

/-! ### What leaves the module -/

/-- A message or signal that has left a unit towards its receiver, in order of departure.  A codeword
and a frame stand with the line and the codeword or frame position they leave at, and with the bits on
the lane, scrambled; the codewords of a mesh slot stand before scrambling. -/
inductive Output where
  | vdp (dst : Party) (r : VdpResp)
  | notify (target seq : Nat) (record : List Byte)
  | codeword (station port line pos header : Nat) (data : List Byte) (wire : Nat)
  | meshSlot (station seq : Nat) (dsts : List Nat) (data : List Byte) (words : List Nat)
  | frame (link group line pos : Nat) (data : List Byte) (wire : Nat)
  | hemPacket (link group : Nat) (data : List Byte)
  | arrived (station : Nat) (p : Pkt)
  | msix (fn vector addr data : Nat)
  | hostWrite (fn addr : Nat) (data : List Byte)
  | readDone (fn off value : Nat)
  | barRead (off : Nat) (data : List Byte)
  | pldm (dst : Nat) (data : List Byte)
  deriving DecidableEq, Repr

/-! ### The block -/

/-- The state of the module.  `now` is the time in ps, and
the epoch count is `now / 6400 + epochOff` modulo 2^64 (R449); `part` is 0 CX24-B0-N,
1 CX24-B0-U, 2 CX22-B0-N (R4); `free` counts the uses of free values; `tested` lists the units (tile, key)
that the commanded self-test under way has run (R395); `dict` holds the
scalar entries and counters of the dictionary that have no field of their own, by
`dictKey`, and `blobs` its strings and byte strings. -/
structure State where
  pending : List Instr := []
  now : Nat := 0
  epochOff : Nat := 0
  part : Nat := 0
  out : List Output := []
  free : Nat := 0
  mem : List Host.Cell := []
  cells : Tab Cell := []
  badRows : Tab Bool := []
  fusedTiles : Nat := 0
  retiredTiles : Nat := 0
  pendingTiles : Nat := 0
  guestSites : Nat := 0
  tiles : Tab Tile := []
  baseSync : Tab Word := []
  dict : Tab Nat := []
  blobs : Tab (List Byte) := []
  injections : List Injection := []
  tested : List (Nat × Nat) := []
  log : LogState := {}
  ops : Tab LongOp := []
  mantle : Mantle := {}
  bas : Basusk := {}
  col : Collect := {}
  hem : Hem := {}
  fab : Fab := {}
  adm : Admission := {}
  clk : Clock := {}
  pow : Power := {}
  cal : Calib := {}
  las : Lasers := {}
  fc : Forecast := {}
  boot : Boot := {}
  host : HostIf := {}
  deriving DecidableEq, Repr

/-- The module right after reset: unpowered, every field at its default. -/
def State.reset : State := {}

end Sys2Proof.Machine
end

