-- ==== Sys2Proof/Machine/Ops.lean ====
section
/-!
DEFINITION. The operations that several commands share: time, dictionary values, numbering,
tile addresses, stitch cells, sync objects, fault reports, confirmed faults, tile reset.
-/
namespace Sys2Proof.Machine

abbrev Out := Host.Outcome State Fault Refusal

/-! ### Time (R9, R449) -/

/-- One epoch count, in ps (R9). -/
def countPs : Nat := 6400

/-- The epoch count: slews move it by a phase (R452). -/
def epoch (s : State) : Nat := (((s.now : Int) + s.clk.phase).toNat / countPs + s.epochOff) % 2 ^ 64

/-- Time runs on to `t`, and never back. -/
def advanceTo (s : State) (t : Nat) : State := { s with now := max s.now t }

/-- The time at which the count next reaches `e`, from now on. -/
def timeOfCount (s : State) (e : Nat) : Nat :=
  let left := (e + 2 ^ 64 - epoch s) % 2 ^ 64
  if left = 0 then s.now else s.now + left * countPs - ((s.now : Int) + s.clk.phase).toNat % countPs

/-- Time runs on to a count; a count already passed moves nothing. -/
def atCount (s : State) (e : Nat) : State :=
  if 2 ^ 63 ≤ (e + 2 ^ 64 - epoch s) % 2 ^ 64 then s else advanceTo s (timeOfCount s e)

def usPs : Nat := 1000000
def msPs : Nat := 1000000000
def secPs : Nat := 1000000000000

/-- The first front (multiple of 4,096 counts, R458) at or after a count. -/
def frontAt (e : Nat) : Nat := ceilDiv e 4096 * 4096

/-! ### Dictionary values (R340) -/

/-- The value of a scalar entry. -/
def rdE (s : State) (index sub : Nat) : Nat :=
  let k := dictKey index sub
  Tab.get (dictDefault k) s.dict k

/-- Set a scalar entry. -/
def wrE (s : State) (index sub v : Nat) : State :=
  let k := dictKey index sub
  { s with dict := Tab.put (dictDefault k) s.dict k v }

/-- A byte-string entry. -/
def rdB (s : State) (index sub : Nat) : List Byte := Tab.get [] s.blobs (dictKey index sub)

/-- Set a byte-string entry. -/
def wrB (s : State) (index sub : Nat) (v : List Byte) : State :=
  { s with blobs := Tab.put [] s.blobs (dictKey index sub) v }

/-- A counter rises by `n`, modulo 2^64. -/
def bumpN (s : State) (index sub n : Nat) : State :=
  wrE s index sub ((rdE s index sub + n) % 2 ^ 64)

/-- A counter rises by 1. -/
def bump (s : State) (index sub : Nat) : State := bumpN s index sub 1

/-- Diagnostic mode (R398). -/
def diagMode (s : State) : Bool := rdE s 0xF000 1 = 1

/-- A message leaves the module. -/
def emit (s : State) (o : Output) : State := { s with out := s.out ++ [o] }

/-- Take the next free value's number. -/
def nextFree (s : State) : State := { s with free := s.free + 1 }

/-- A value that the spec leaves open. -/
def openValue (s : State) : Nat := (Config.openField s.free 0).toNat

/-- Another value that the spec leaves open in the same step. -/
def openNth (s : State) (i : Nat) : Nat := (Config.openField s.free i).toNat

/-- The symbols that a decoder counts: the errors of a corrected word; of one that it delivers wrong
(`v` = 2) a free number below `n` (log 111). -/
def countedErrs (s : State) (v errs n : Nat) : Nat := if v = 2 then openNth s 0 % n else errs

/-! ### Tiles and numbering (R26, R29, R31, R97) -/

def getTile (s : State) (t : Nat) : Tile := Tab.get {} s.tiles t

def modTile (s : State) (t : Nat) (f : Tile → Tile) : State :=
  { s with tiles := Tab.mod {} s.tiles t f }

/-- The number of set bits of `m` below position `n`. -/
def popBelow (m : Nat) : Nat → Nat
  | 0 => 0
  | n + 1 => popBelow m n + b2n (bit m n)

/-- The position of the `k`th set bit of `m` among the first `n`. -/
def nthSet (m k : Nat) : Nat → Option Nat
  | 0 => none
  | n + 1 =>
    match nthSet m k n with
    | some i => some i
    | none => if bit m n && popBelow m n = k then some n else none

/-- The mask of the positions below `n` that satisfy `p`. -/
def maskOf (p : Nat → Bool) : Nat → Nat
  | 0 => 0
  | n + 1 => maskOf p n + (if p n then 2 ^ n else 0)

/-- Physical compute tiles that hold a logical number: enabled and not retired (R26). -/
def usableTiles (s : State) : Nat :=
  maskOf (fun i => !bit s.fusedTiles i && !bit s.retiredTiles i) 24

/-- Logical number of a physical compute tile or guest site (R26, R29). -/
def logicalTile (s : State) (t : Nat) : Option Nat :=
  if t < 24 then (if bit (usableTiles s) t then some (popBelow (usableTiles s) t) else none)
  else if t < 28 && bit s.guestSites t then some (24 + (popBelow s.guestSites t - popBelow s.guestSites 24))
  else none

/-- Physical tile or guest site of a logical number. -/
def physTile (s : State) (n : Nat) : Option Nat :=
  if n < 24 then nthSet (usableTiles s) n 24
  else (List.range 28).find? (fun t => 24 ≤ t && logicalTile s t = some n)

/-- Logical compute tile mask to physical mask (R29). -/
def physMask (s : State) (m : Nat) : Nat :=
  maskOf (fun t => match logicalTile s t with | some n => bit m n | none => false) 28

/-- Core kinds by the code of R91 and R79: 0 M-core, 1 V-core, 2 S-core. -/
def coreCount (kind : Nat) : Nat := if kind = 0 then 68 else if kind = 1 then 34 else 10

/-- Physical cores of a kind that hold a logical number (R97). -/
def usableCores (tl : Tile) (kind : Nat) : Nat :=
  let f := if kind = 0 then tl.fusedM else if kind = 1 then tl.fusedV else tl.fusedS
  let r := if kind = 0 then tl.retiredM else if kind = 1 then tl.retiredV else tl.retiredS
  maskOf (fun i => !bit f i && !bit r i) (coreCount kind)

def pendingCores (tl : Tile) (kind : Nat) : Nat :=
  if kind = 0 then tl.pendingM else if kind = 1 then tl.pendingV else tl.pendingS

/-- Logical core count of a kind. -/
def logicalCores (tl : Tile) (kind : Nat) : Nat := popBelow (usableCores tl kind) (coreCount kind)

def physCore (tl : Tile) (kind n : Nat) : Option Nat := nthSet (usableCores tl kind) n (coreCount kind)

def logicalCore (tl : Tile) (kind p : Nat) : Option Nat :=
  if bit (usableCores tl kind) p then some (popBelow (usableCores tl kind) p) else none

/-- Logical Core Counts, 0x6100+t:0A (R97). -/
def coreCounts (s : State) (t : Nat) : Nat :=
  if bit (usableTiles s) t then
    logicalCores (getTile s t) 2 * 65536 + logicalCores (getTile s t) 1 * 256 + logicalCores (getTile s t) 0
  else 0

/-- The tile runs: it holds a logical number, is not in tile reset, its rails are up, and
the module is not in a sleep state that closes it (R149, R541). -/
def tileOpen (s : State) (t : Nat) : Bool :=
  t < 24 && bit (usableTiles s) t && (getTile s t).reset.isNone && s.boot.tilesOn && !s.fc.closed

/-- The tile has power, holds a logical number and is not in reset: it is open, or closed by a
sleep entry (R541). -/
def tileRuns (s : State) (t : Nat) : Bool :=
  t < 24 && bit (usableTiles s) t && (getTile s t).reset.isNone && s.boot.tilesOn

/-- The tile's running descriptors go on: it is open, or closed and not yet in Doze (R541). -/
def tileWorks (s : State) (t : Nat) : Bool := tileRuns s t && (!s.fc.closed || s.fc.sleep = 0)

/-- A job counts as admitted (R312), one waiting for its front included. -/
def jobs (s : State) : List (Nat × Job) :=
  s.adm.jobs.filterMap (fun e => e.2.map (fun j => (e.1, j)))

/-- Between-jobs entries may be written (R312): no job admitted, no admission running. -/
def noJobs (s : State) : Bool :=
  (jobs s).isEmpty && (Tab.get {} s.ops 8).state ≠ 1

/-- The job with work on a physical tile (R313): the lowest slice. -/
def jobOfTile (s : State) (t : Nat) : Option (Nat × Job) :=
  (jobs s).find? (fun e => 2 ≤ e.2.state &&
    (match logicalTile s t with | some n => bit e.2.tiles n | none => false))

/-- The seed that keys stochastic rounding on a tile (R64, R313); 0 without a job. -/
def seedOfTile (s : State) (t : Nat) : DWord :=
  match jobOfTile s t with
  | some (_, j) => BitVec.ofNat 64 j.seed
  | none => 0#64

/-! ### Tile addresses (R94, R102, R103) -/

/-- Where a byte of a tile lies: a DRAM row and byte, or an offset of the on-die SRAM by
physical core. -/
inductive Loc where
  | dram (die row off : Nat)
  | sram (off : Nat)
  deriving DecidableEq, Repr

def gib : Nat := 2 ^ 30
def onDieBase : Nat := 0x1000000000
def poolBytes : Nat := 96 * 2 ^ 20

/-- R94: an on-die offset to an offset by physical core; M-core p at 0x800_0000 +
p * 2 MiB, V-core p at 0x1400_0000 + p * 1 MiB.  `none` where nothing exists. -/
def onDieLoc (tl : Tile) (x : Nat) : Option Nat :=
  if x < poolBytes then some x
  else if 0x8000000 ≤ x && x < 0x10000000 then
    (physCore tl 0 ((x - 0x8000000) / 0x200000)).map (fun p => 0x8000000 + p * 0x200000 + x % 0x200000)
  else if 0x10000000 ≤ x && x < 0x12000000 then
    (physCore tl 1 ((x - 0x10000000) / 0x100000)).map (fun p => 0x14000000 + p * 0x100000 + x % 0x100000)
  else none

/-- R102, R103: a tile address. -/
def locOf (tl : Tile) (a : Nat) : Option Loc :=
  if a < 24 * gib then
    let g := a / 1024
    some (.dram (g % 3) (g / 3) (a % 1024))
  else if 0x800000000 ≤ a && a < 0xE00000000 then
    let b := a - 0x800000000
    some (.dram (b / (8 * gib)) (b % (8 * gib) / 1024) (a % 1024))
  else if onDieBase ≤ a && a < onDieBase + 2 ^ 29 then
    (onDieLoc tl (a - onDieBase)).map .sram
  else none

/-- The key of a DRAM row (R103). -/
def rowKey (t die row : Nat) : Nat := (t * 4 + die) * 2 ^ 23 + row

/-- The key of a byte in `mem`. -/
def byteKey (t : Nat) : Loc → Nat
  | .dram d r o => rowKey t d r * 1024 + o
  | .sram x => 2 ^ 50 + t * 2 ^ 29 + x

/-- The key of a stitch cell (R137). -/
def cellKey (t : Nat) : Loc → Nat
  | .dram d r _ => rowKey t d r
  | .sram x => 2 ^ 40 + t * 2 ^ 17 + x / 4096

/-- The row-port mapping (R103). -/
def portOf (die row : Nat) : Nat := 6 * die + row % 6

/-- One byte at a tile address; an address that does not exist reads 0 and is refused by
every caller. -/
def byteAt (s : State) (t a : Nat) : Byte :=
  match locOf (getTile s t) a with
  | some l => rd8 s.mem (byteKey t l)
  | none => 0#8

def bytesAt (s : State) (t a : Nat) : Nat → List Byte
  | 0 => []
  | n + 1 => byteAt s t a :: bytesAt s t (a + 1) n

/-- Write bytes from a tile address on. -/
def putBytes (s : State) (t a : Nat) : List Byte → State
  | [] => s
  | b :: l =>
    let s' := match locOf (getTile s t) a with
      | some loc => { s with mem := wr8 s.mem (byteKey t loc) b }
      | none => s
    putBytes s' t (a + 1) l

/-- The regions of the tile address map that exist, ascending: start and end. -/
def regionsOf (tl : Tile) : List (Nat × Nat) :=
  [(0, 24 * gib), (0x800000000, 0xE00000000), (onDieBase, onDieBase + poolBytes),
   (onDieBase + 0x8000000, onDieBase + 0x8000000 + logicalCores tl 0 * 0x200000),
   (onDieBase + 0x10000000, onDieBase + 0x10000000 + logicalCores tl 1 * 0x100000)]

def covered (a e : Nat) : List (Nat × Nat) → Bool
  | [] => decide (e ≤ a)
  | (lo, hi) :: rs =>
    if e ≤ a then true
    else if lo ≤ a && a < hi then covered (min e hi) e rs
    else covered a e rs

/-- Every byte of `[a, a + n)` exists (R94, R102). -/
def rangeExists (tl : Tile) (a n : Nat) : Bool := covered a (a + n) (regionsOf tl)

/-- The DRAM rows that `[a, a + n)` touches, by key. -/
def rowsOf (tl : Tile) (t a n : Nat) : List Nat :=
  (List.range ((a + n - 1) / 1024 - a / 1024 + 1)).filterMap (fun i =>
    match locOf tl ((a / 1024 + i) * 1024) with
    | some (.dram d r _) => some (rowKey t d r)
    | _ => none)

/-- Some row of the range carries its bad-data mark (R118). -/
def anyBadRow (s : State) (t a n : Nat) : Bool :=
  n ≠ 0 && (rowsOf (getTile s t) t a n).any (fun k => Tab.get false s.badRows k)

/-- The rows that `[a, a + n)` covers whole, and those that it covers in part, by key. -/
def splitRows (tl : Tile) (t a n : Nat) (whole : Bool) : List Nat :=
  (List.range ((a + n - 1) / 1024 - a / 1024 + 1)).filterMap (fun i =>
    let lo := (a / 1024 + i) * 1024
    if decide (a ≤ lo && lo + 1024 ≤ a + n) != whole then none
    else match locOf tl lo with
      | some (.dram d r _) => some (rowKey t d r)
      | _ => none)

/-- A write of the range meets a marked row that it covers in part: the masked write of that row is
refused (R111, R118). -/
def writeRefused (s : State) (t a n : Nat) : Bool :=
  n ≠ 0 && (splitRows (getTile s t) t a n false).any (fun k => Tab.get false s.badRows k)

def setBadRow (s : State) (k : Nat) (b : Bool) : State :=
  { s with badRows := Tab.put false s.badRows k b }

/-- A full write of rows clears their marks (R118). -/
def clearBadRows (s : State) (ks : List Nat) : State :=
  ks.foldl (fun s k => setBadRow s k false) s

/-- The die of a DRAM address, and whether it takes requests (R122, R123). -/
def dieOpen (tl : Tile) (d : Nat) : Bool :=
  let x := Tab.get {} tl.dies d
  x.state = 1 && !x.draining

/-- The DRAM dies that `[a, a + n)` touches. -/
def diesOf (tl : Tile) (a n : Nat) : List Nat :=
  if n = 0 then []
  else ((List.range (min 3 ((a + n - 1) / 1024 - a / 1024 + 1))).filterMap (fun i =>
      match locOf tl ((a / 1024 + i) * 1024) with
      | some (.dram d _ _) => some d
      | _ => none)) ++
    (match locOf tl (a + n - 1) with | some (.dram d _ _) => [d] | _ => [])

/-- Every DRAM die that the range touches takes requests. -/
def rangeAwake (tl : Tile) (a n : Nat) : Bool := (diesOf tl a n).all (dieOpen tl)

/-! ### Stitch cells (R136 to R140) -/

/-- R135: raw tensor IDs. -/
def isRaw (tid : Nat) : Bool := tid = 0 || tid = 0x80000000

/-- R136: the stitch of a block. -/
def stitchOf (data : List Byte) (tid blk : Nat) : DWord :=
  crc64 (data ++ leBytes 4 blk ++ leBytes 4 tid)

/-- R134: the block tag. -/
def blockTag (tid blk : Nat) : Nat := tid % 2 ^ 32 * 2 ^ 32 + blk % 2 ^ 32

def cellAt (s : State) (t a : Nat) : Cell :=
  match locOf (getTile s t) (a / 4096 * 4096) with
  | some l => Tab.get {} s.cells (cellKey t l)
  | none => {}

def modCell (s : State) (t a : Nat) (f : Cell → Cell) : State :=
  match locOf (getTile s t) (a / 4096 * 4096) with
  | some l => { s with cells := Tab.mod {} s.cells (cellKey t l) f }
  | none => s

/-- R140: a raw write makes the cell RAW and begins a new generation. -/
def rawCell (c : Cell) : Cell := { c with gen := c.gen + 1, state := 0#2 }

/-- R139 step 1: a producer begins a block. -/
def beginCell (c : Cell) : Cell := { c with gen := c.gen + 1, state := 3#2 }

/-- Raw cells for every block that `[a, a + n)` touches (R140). -/
def rawCells (s : State) (t a n : Nat) : State :=
  if n = 0 then s
  else (List.range ((a + n - 1) / 4096 - a / 4096 + 1)).foldl
    (fun s i => modCell s t ((a / 4096 + i) * 4096) rawCell) s

/-- A raw write of bytes at a tile address (R140); rows written whole lose their bad-data marks
(R118). -/
def rawWrite (s : State) (t a : Nat) (l : List Byte) : State :=
  let s := if l.isEmpty then s else clearBadRows s (splitRows (getTile s t) t a l.length true)
  rawCells (putBytes s t a l) t a l.length

/-- The cells of the blocks that `[a, a + n)` touches become POISON, each with a stitch formed over the
bytes as they now stand (R151). -/
def poisonCells (s : State) (t a n tid blk : Nat) : State :=
  if n = 0 then s
  else (List.range ((a + n - 1) / 4096 - a / 4096 + 1)).foldl
    (fun s i =>
      let b := (a / 4096 + i) * 4096
      let x := stitchOf (bytesAt s t b 4096) tid blk
      modCell s t b (fun c => { c with stitch := x, state := 2#2 })) s

/-- A raw write of data that may carry the poison mark (R151, R292). -/
def rawWriteMarked (s : State) (t a tid blk : Nat) (data : List Byte) (poison : Bool) : State :=
  let s := rawWrite s t a data
  if poison then poisonCells s t a data.length tid blk else s

/-- R139, R151: a producer writes a whole block under a tag, as POISON where its data is
poisoned; under a raw ID the block gets no stitch (R135) unless it is poisoned.  The write of whole
rows clears their marks. -/
def writeBlock (s : State) (t a tid blk : Nat) (data : List Byte) (poison : Bool) : State :=
  let s := clearBadRows s (rowsOf (getTile s t) t a 4096)
  if isRaw tid then rawWriteMarked s t a tid blk data poison
  else
    let s := putBytes s t a data
    modCell s t a (fun c =>
      { stitch := stitchOf data tid blk, gen := c.gen + 1, state := if poison then 2#2 else 1#2 })

/-! ### Status registers and interrupts of the host interface (R412, R413, R433) -/

/-- An event of a status register: SEQ advances, and its bit is set. -/
def raiseStat (x : StatReg) (b : Nat) : StatReg := { seq := (x.seq + 1) % 256, ev := setBit x.ev b true }

def getFunc (s : State) (f : Nat) : HFunc := Tab.get {} s.host.funcs f

def modFunc (s : State) (f : Nat) (g : HFunc → HFunc) : State :=
  { s with host := { s.host with funcs := Tab.mod {} s.host.funcs f g } }

/-- A word of a function's MSI-X table; at reset every vector is masked. -/
def msixWord (x : HFunc) (i : Nat) : Nat := Tab.get (if i % 4 = 3 then 1 else 0) x.msix i

/-- A function raises a vector: a masked one stays pending. -/
def raiseVector (s : State) (f v : Nat) : State :=
  let x := getFunc s f
  if !s.host.linkUp then s
  else if bit (msixWord x (4 * v + 3)) 0 then modFunc s f (fun x => { x with pba := setBit x.pba v true })
  else emit s (.msix f v (msixWord x (4 * v) + msixWord x (4 * v + 1) * 2 ^ 32) (msixWord x (4 * v + 2)))

/-- The bits of HB_STAT that only the physical function has (R417). -/
def pfOnly (b : Nat) : Bool := b ≤ 2 || b = 6

/-- An event of a function's HB_STAT. -/
def raiseHb (s : State) (f b : Nat) : State :=
  if !s.host.linkUp || (f ≠ 0 && pfOnly b) then s
  else
    let s := modFunc s f (fun x => { x with stat := raiseStat x.stat b })
    if bit (getFunc s f).mask b then raiseVector s f 0 else s

/-- An event of HB_STAT of every enabled function. -/
def raiseAllHb (s : State) (b : Nat) : State :=
  (List.range (1 + min 63 (rdE s 0x1030 4))).foldl (fun s f => raiseHb s f b) s

/-! ### Fault reports (R518 to R522) -/

/-- R518, R521: the handling queue of a unit: its tile's, or the package's (28). -/
def queueOf (kind place : Nat) : Nat :=
  if place < 24 && ((1 ≤ kind && kind ≤ 7) || kind = 14) then place else 28

/-- A unit reports a fault (R521): counted only while its class is in squall (R522) or its
handling queue is full, else queued. -/
def report (s : State) (r : Report) : State :=
  match Tab.get none s.log.squall r.cls with
  | some q =>
    let q := { q with last := epoch s, repeats := q.repeats + 1 }
    { s with log := { s.log with squall := Tab.put none s.log.squall r.cls (some q), repeats := Tab.mod 0 s.log.repeats r.cls (fun n => (n + 1) % 2 ^ 32) } }
  | none =>
    let k := queueOf r.kind r.place
    let q := Tab.get [] s.log.queue k
    if (if k = 28 then 256 else 32) ≤ q.length then
      let s := bump s 0x8000 5
      if k < 24 then wrE s (0x8100 + k) 5 ((rdE s (0x8100 + k) 5 + 1) % 2 ^ 32) else s
    else
      let r := { r with stamp := epoch s, diag := diagMode s }
      { s with log := { s.log with queue := Tab.put [] s.log.queue k (q ++ [r]) } }

/-- Unit kinds of R519. -/
def kindOf (k : Nat) : Nat := 2 + k

/-- A report about a core. -/
def coreReport (s : State) (cls t kind p detail tag : Nat) : State :=
  report s { cls := cls, kind := kindOf kind, place := t, unit := p,
             logical := logicalCore (getTile s t) kind p, detail := detail, tag := tag }

/-- A report about a tile. -/
def tileReport (s : State) (cls t detail tag : Nat) : State :=
  report s { cls := cls, kind := 1, place := t, logical := logicalTile s t, detail := detail, tag := tag }

/-! ### Tile reset (R149, R150) -/

/-- The circuits of a tile in reset go down and wait to train (R181). -/
def portsDown (s : State) (t : Nat) : State :=
  let down : Port → Port := fun p =>
    { role := p.role, far := p.far, training := p.role ≠ 3, up := p.role = 3, failed := p.failed, waiting := p.waiting, path := p.path }
  let hit := fun (e : Nat × Port) => e.2.far.isSome && (e.1 / 16 = t || (match e.2.far with
    | some f => f < 512 && decide (f / 16 = t)
    | none => false))
  { s with bas := { s.bas with ports := s.bas.ports.map (fun e => if hit e then (e.1, down e.2) else e) } }

/-- A tile in reset issues nothing (R304): its tracker entries end without records, their
tags are quarantined (R301), and its fabric queues are disabled. -/
def tracksDrop (s : State) (t : Nat) : State :=
  let mine := s.fab.tracks.filter (fun e => e.1 / 16384 = t)
  let quar := mine.foldl (fun q e => Tab.put 0 q e.1 (s.now + 100 * msPs)) s.fab.quar
  { s with fab := { s.fab with
      tracks := s.fab.tracks.filter (fun e => e.1 / 16384 ≠ t), quar := quar, queues := s.fab.queues.filter (fun e => e.1 / 8 ≠ t) } }

/-- The reduction engine of a tile in reset takes part in no run under way (R190). -/
def enginesDrop (s : State) (t : Nat) : State :=
  { s with col := { s.col with runs := s.col.runs.map (fun e => (e.1, e.2.map (fun r => { r with lost := t :: r.lost }))) } }

/-- TILE_RESET_ENTER (R149): the tile refuses new work; its queued and running descriptors
end without records, its S-cores stop, its requests end, and its circuits go down.  A tile
already in reset starts no second one. -/
def tileReset (s : State) (t cause addr : Nat) : State :=
  if (getTile s t).reset.isSome then s
  else
    let s := bump s 0x6500 7
    let s := tileReport s 0x18 t (cause * 2 ^ 24) addr
    let r : TileReset := { cause := cause, since := s.now }
    portsDown (tracksDrop (modTile (enginesDrop s t) t (fun tl => { tl with reset := some r, mQueue := [], vQueue := [], sCores := [] })) t) t

/-- The interleaved-view address of a DRAM row (R103), as logged in a Tag. -/
def rowAddress (die row : Nat) : Nat := (row * 3 + die) * 1024

/-- UNCORRECTABLE_DELIVERY (R148): a marked row of tile `t` is delivered; in TILE_RESET mode
the tile that holds it enters tile reset. -/
def contain (s : State) (t die row : Nat) : State :=
  if rdE s 0x6500 1 = 0 then tileReset s t 0 (rowAddress die row) else s

/-- Containment for the first marked row of a range that was delivered. -/
def containRange (s : State) (t a n : Nat) : State :=
  match (rowsOf (getTile s t) t a n).find? (fun k => Tab.get false s.badRows k) with
  | some k => contain s t (k / 2 ^ 23 % 4) (k % 2 ^ 23)
  | none => s

/-- POISON mode (R148). -/
def poisonMode (s : State) : Bool := rdE s 0x6500 1 = 1

/-- R119, R118: a row is found uncorrectable: counted, marked, and logged the first time. -/
def foundBad (s : State) (t die row : Nat) : State :=
  let k := rowKey t die row
  let s := bump s (0x6300 + t) 4
  if Tab.get false s.badRows k then s
  else
    let s := setBadRow s k true
    report s { cls := 0x10, kind := 5, place := t, unit := die, detail := row, tag := rowAddress die row }

/-- Reads of a range that carry bad-data marks are counted again, row by row (R119). -/
def readBadRows (s : State) (t a n : Nat) : State :=
  ((rowsOf (getTile s t) t a n).filter (fun k => Tab.get false s.badRows k)).foldl
    (fun s k => foundBad s t (k / 2 ^ 23 % 4) (k % 2 ^ 23)) s

/-- A refused write of marked rows reads them first, which is counted (R111, R119). -/
def countRefused (s : State) (t a n : Nat) : State :=
  ((splitRows (getTile s t) t a n false).filter (fun k => Tab.get false s.badRows k)).foldl
    (fun s k => foundBad s t (k / 2 ^ 23 % 4) (k % 2 ^ 23)) s

/-! ### Fault injection (R399) -/

/-- One injected event on a block, row, codeword or element: a bit flipped, or stuck at 1 or 0. -/
def injectBit (j : Injection) (data : List Byte) : List Byte :=
  let i := j.bitOff / 8
  let m := BitVec.ofNat 8 (2 ^ (j.bitOff % 8))
  let b := data.getD i 0#8
  data.set i (if j.fault = 0 then b ^^^ m else if j.fault = 1 then b ||| m else if j.fault = 2 then b &&& ~~~m else b)

/-- The record names this point; the pool, the reduction engine and the mesh of a tile have one unit. -/
def injectsAt (target place unit : Nat) (j : Injection) : Bool :=
  j.target = target && j.place = place && (j.unit = unit || target = 3 || target = 7 || target = 8)

/-- Pending records that name a point. -/
def pendingAt (s : State) (target place unit : Nat) : List Injection := s.injections.filter (injectsAt target place unit)

/-- Records that name this point are used up by one event each. -/
def useInjections (s : State) (target place unit : Nat) : State :=
  { s with injections := s.injections.filterMap (fun j =>
      if injectsAt target place unit j then
        match j.left with
        | none => some j
        | some n => if n ≤ 1 then none else some { j with left := some (n - 1) }
      else some j) }

/-- An event drops the codeword or frame. -/
def injectDrops (js : List Injection) : Bool := js.any (fun j => j.fault = 3)

/-- Symbols of a codeword or frame that events put in error: one each, where a bit of the data changes or
the bit lies in what follows it. -/
def injectErrs (js : List Injection) (data : List Byte) : Nat :=
  countP (fun j => j.fault ≠ 3 && (injectBit j data ≠ data || 8 * data.length ≤ j.bitOff)) js

/-- A DRAM row or block is read under the pending injections of its die: each bit that they change is a
symbol that the row code corrects and counts (R399; log 26). -/
def rowInjections (s : State) (t die : Nat) (data : List Byte) : State :=
  let n := injectErrs (pendingAt s 4 t die) (data.take 1024)
  let s := useInjections s 4 t die
  if n = 0 then s else bump (bumpN s (0x6300 + t) 2 n) (0x6300 + t) 3

/-! ### Sync objects (R71, R92) -/

/-- R71: a valid sync-object name. -/
def syncNameOk (v : Nat) : Bool :=
  if bit v 15 then v < 2 ^ 16 && bits v 13 2 = 0 else v < 2 ^ 16 && bits v 10 5 = 0

/-- The count of a named sync object, seen from tile `t`. -/
def syncGet (s : State) (t name : Nat) : Word :=
  if bit name 15 then Tab.get 0#32 s.baseSync (name % 8192)
  else Tab.get 0#32 (getTile s t).sync (name % 1024)

/-- R92: a count reaches a value. -/
def reaches (c v : Word) : Bool := (c - v).toNat < 2 ^ 31

/-- The key of an object's watches. -/
def watchKey (t name : Nat) : Nat := if bit name 15 then 2 ^ 20 + name % 8192 else t * 1024 + name % 1024

/-- A held watch answers with the count that qualifies (R436). -/
def fireWatch (c : Word) (s : State) (w : Watch) : State :=
  if epoch s < w.expiry then
    let p := { w.reply with body := w.reply.body.take 8 ++ leBytes 8 c.toNat, stamp := epoch s }
    { s with fab := { s.fab with routers := Tab.mod [] s.fab.routers w.station (fun l => l ++ [p]) } }
  else s

/-- Every watch that the count of an object satisfies answers; the others stay. -/
def fireWatches (s : State) (key : Nat) (c : Word) : State :=
  let ws := Tab.get [] s.fab.watches key
  let s := { s with fab := { s.fab with watches := Tab.put [] s.fab.watches key (ws.filter (fun w => !reaches c w.value)) } }
  (ws.filter (fun w => reaches c w.value)).foldl (fireWatch c) s

/-- Set the count of a named sync object. -/
def syncPut (s : State) (t name : Nat) (v : Word) : State :=
  let s := if bit name 15 then { s with baseSync := Tab.put 0#32 s.baseSync (name % 8192) v }
    else modTile s t (fun tl => { tl with sync := Tab.put 0#32 tl.sync (name % 1024) v })
  if (Tab.get [] s.fab.watches (watchKey t name)).isEmpty then s else fireWatches s (watchKey t name) v

/-- Add to the count of a named sync object, modulo 2^32. -/
def syncAdd (s : State) (t name : Nat) (v : Word) : State :=
  syncPut s t name (syncGet s t name + v)

/-! ### Completion queues and records (R79, R93) -/

def getSCore (s : State) (t p : Nat) : SCore := Tab.get {} (getTile s t).sCores p

def modSCore (s : State) (t p : Nat) (f : SCore → SCore) : State :=
  modTile s t (fun tl => { tl with sCores := Tab.mod {} tl.sCores p f })

/-- Write an integer register of an S-core; x0 discards. -/
def setX (c : SCore) (rd : Nat) (v : DWord) : SCore :=
  if rd % 32 = 0 then c else { c with x := Tab.put 0#64 c.x (rd % 32) v }

def setRd (s : State) (t p rd : Nat) (v : DWord) : State :=
  modSCore s t p (fun c => { setX c rd v with exc := none })

/-- An exception is raised: the S-core goes on in machine mode, in its tile firmware (R90, R513). -/
def raiseExc (s : State) (t p : Nat) (e : Exc) : State :=
  modSCore s t p (fun c => { c with exc := some e, user := false })

def clearExc (s : State) (t p : Nat) : State :=
  modSCore s t p (fun c => { c with exc := none })

def cqEnabled (q : CQueue) : Bool := q.csr.toNat % 2 = 1

/-- The pool offset of a completion ring (R93). -/
def cqBase (q : CQueue) : Nat := q.csr.toNat / 8192 * 8192

/-- The record fits now: the queue is enabled and has a free slot. -/
def cqOpen (s : State) (t p cq : Nat) : Bool :=
  let q := Tab.get {} (getSCore s t p).cq cq
  cqEnabled q && q.count < 256

/-- Write a record at the ring's next slot (a raw write into the pool, R140). -/
def cqPush (s : State) (t p cq : Nat) (r : List Byte) : State :=
  let q := Tab.get {} (getSCore s t p).cq cq
  let s := rawWrite s t (onDieBase + cqBase q + 32 * q.next) r
  modSCore s t p (fun c => { c with cq := Tab.mod {} c.cq cq (fun q =>
    { q with next := (q.next + 1) % 256, count := q.count + 1 }) })

/-! ### Descriptor fields (R71) -/

/-- Field `[lo + w - 1 : lo]` of word Wi. -/
def dw (d i lo w : Nat) : Nat := bits d (64 * i + lo) w

def dOpcode (d : Nat) : Nat := dw d 0 56 8
def dCq (d : Nat) : Nat := dw d 15 32 2
def dSignal (d : Nat) : Nat := dw d 14 48 16
def dWaitSync (d : Nat) : Nat := dw d 14 0 16
def dWaitValue (d : Nat) : Nat := dw d 14 16 32

/-! ### Core queues (R77 to R79) -/

def coreQueue (s : State) (t kind p : Nat) : List QDesc :=
  if kind = 0 then Tab.get [] (getTile s t).mQueue p else Tab.get [] (getTile s t).vQueue p

def setCoreQueue (s : State) (t kind p : Nat) (q : List QDesc) : State :=
  modTile s t (fun tl => if kind = 0 then { tl with mQueue := Tab.put [] tl.mQueue p q }
    else { tl with vQueue := Tab.put [] tl.vQueue p q })

/-- SIGNAL_SYNC of a descriptor that ended DONE (R78). -/
def signalDone (s : State) (t d status : Nat) : State :=
  if status = 0 && dSignal d ≠ 0xFFFF then syncAdd s t (dSignal d) 1#32 else s

/-- The 32-byte completion record (R79). -/
def completionRecord (e : QDesc) (kind logical status anchor cycles badBlk : Nat) : List Byte :=
  leBytes 4 (dw e.d 15 0 32) ++ leBytes 4 e.ticket ++ leBytes 1 status ++ [e.flags, e.ieee]
    ++ leBytes 1 (kind * 64 + logical) ++ leBytes 2 anchor ++ leBytes 2 0 ++ leBytes 8 cycles
    ++ leBytes 4 e.blocksDone ++ leBytes 4 badBlk

/-- A record held back for a queue of an S-core: core kind, physical core, descriptor. -/
def heldFor (s : State) (t p q : Nat) : List (Nat × Nat × QDesc) :=
  let tl := getTile s t
  let pick := fun (kind : Nat) (tb : Tab (List QDesc)) => tb.flatMap (fun e => e.2.filterMap (fun x =>
    if x.record.isSome && x.score = p && dCq x.d = q then some (kind, e.1, x) else none))
  pick 0 tl.mQueue ++ pick 1 tl.vQueue

/-- End the descriptor with a ticket on a core: its record is written, and the descriptor
leaves the queue; or the record is kept while the completion queue is full or disabled, or holds
back an earlier one (R93: records are written in the order they were produced). -/
def endDescriptor (s : State) (t kind p : Nat) (e : QDesc) (status : Nat) (anchor cycles badBlk : Nat) : State :=
  let lg := (logicalCore (getTile s t) kind p).getD 0
  let r := completionRecord e kind lg status anchor cycles badBlk
  let same := fun (x : QDesc) => x.ticket = e.ticket && x.score = e.score
  if cqOpen s t e.score (dCq e.d) && (heldFor s t e.score (dCq e.d)).isEmpty then
    let s := setCoreQueue s t kind p (dropFirst same (coreQueue s t kind p))
    signalDone (cqPush s t e.score (dCq e.d) r) t e.d status
  else
    let s := setCoreQueue s t kind p
      (updFirst same (fun _ => { e with record := some r, heldAt := s.free }) (coreQueue s t kind p))
    nextFree s

/-- End a descriptor that never started as ABORTED, with nothing more written (R91, R147).  No anchor
came into force: its Anchor Used is 0 even with ANCHOR_MODE FIXED, and so are its Cycles (DEDUCED,
log 95). -/
def abortDescriptor (s : State) (t kind p : Nat) (e : QDesc) : State :=
  endDescriptor s t kind p e 3 0 0 0xFFFFFFFF

/-- R147: every descriptor of a core is aborted: a queued one at once, the running one at
its next output-block boundary. -/
def abortCore (s : State) (t kind p : Nat) : State :=
  (coreQueue s t kind p).foldl (fun s e =>
    if e.record.isSome then s
    else if e.started then
      setCoreQueue s t kind p (updFirst (fun x => x.ticket = e.ticket && x.score = e.score)
        (fun x => { x with abort := true }) (coreQueue s t kind p))
    else abortDescriptor s t kind p e) s

/-! ### Confirmed faults and retirement (R145 to R147, R27, R28) -/

/-- The physical tile of a unit. -/
def unitTile : UnitId → Nat
  | .tile t | .mCore t _ | .vCore t _ | .sCore t _ => t

/-- The key of a unit in `testDue`. -/
def unitKey : UnitId → Nat
  | .tile _ => 0
  | .mCore _ p => 1 + p
  | .vCore _ p => 100 + p
  | .sCore _ p => 200 + p

/-- The confirmed-fault count of a unit (R145). -/
def confCount (s : State) : UnitId → Nat
  | .tile t => (getTile s t).confTile
  | .mCore t p => Tab.get 0 (getTile s t).confM p
  | .vCore t p => Tab.get 0 (getTile s t).confV p
  | .sCore t p => Tab.get 0 (getTile s t).confS p

def setConf (s : State) (u : UnitId) (n : Nat) : State :=
  modTile s (unitTile u) (fun tl => match u with
    | .tile _ => { tl with confTile := n }
    | .mCore _ p => { tl with confM := Tab.put 0 tl.confM p n }
    | .vCore _ p => { tl with confV := Tab.put 0 tl.confV p n }
    | .sCore _ p => { tl with confS := Tab.put 0 tl.confS p n })

/-- The tile's retirement becomes pending (R28, R147): its bit is set and it enters tile
reset. -/
def tilePending (s : State) (t : Nat) : State :=
  if bit s.pendingTiles t || bit s.retiredTiles t then s
  else
    let s := { s with pendingTiles := setBit s.pendingTiles t true }
    let s := tileReport s 0x25 t 0 0
    tileReset s t 1 0

/-- A core's retirement becomes pending (R147); the tile's with its last S-core (R28). -/
def corePending (s : State) (t kind p : Nat) : State :=
  let tl := getTile s t
  if bit (pendingCores tl kind) p || !bit (usableCores tl kind) p then s
  else
    let s := modTile s t (fun tl =>
      if kind = 0 then { tl with pendingM := setBit tl.pendingM p true }
      else if kind = 1 then { tl with pendingV := setBit tl.pendingV p true }
      else { tl with pendingS := setBit tl.pendingS p true })
    let s := coreReport s 0x25 t kind p 0 0
    if kind = 2 then
      let tl := getTile s t
      if maskOf (fun i => bit (usableCores tl 2) i && !bit tl.pendingS i) 10 = 0 then tilePending s t else s
    else abortCore s t kind p

/-- RETIREMENT_PENDING (R147). -/
def retirePending (s : State) : UnitId → State
  | .tile t => tilePending s t
  | .mCore t p => corePending s t 0 p
  | .vCore t p => corePending s t 1 p
  | .sCore t p => corePending s t 2 p

/-- CONFIRMED_FAULT (R145 to R147): the unit's count rises by 1; a suspect's next self-test
falls within 10 s; at 3 its retirement becomes pending.  Diagnostic mode adds none (R601). -/
def confirmedFault (s : State) (u : UnitId) : State :=
  if diagMode s then s
  else
    let n := min 255 (confCount s u + 1)
    let s := setConf s u n
    let due := s.now + 10 * secPs
    let sooner := fun x => if x = 0 then due else min x due
    let s := modTile s (unitTile u) (fun tl => { tl with testDue := Tab.mod 0 tl.testDue (unitKey u) sooner })
    if n = 3 then retirePending s u else s

/-- The unit that a core is. -/
def coreUnit (t kind p : Nat) : UnitId :=
  if kind = 0 then .mCore t p else if kind = 1 then .vCore t p else .sCore t p

end Sys2Proof.Machine
end

