-- ==== Sys2Proof/Machine/Operands.lean ====
section
/-!
DEFINITION. The operands of a tensor descriptor (03_cores.md R71 to R76, R599) and the
checks of its issue (R77).
-/
namespace Sys2Proof.Machine

/-! ### Fields of the descriptor (R71) -/

def dFmtA (d : Nat) : Nat := dw d 0 52 4
def dFmtB (d : Nat) : Nat := dw d 0 48 4
def dFmtOut (d : Nat) : Nat := dw d 0 44 4
def dAnchorMode (d : Nat) : Nat := dw d 0 42 2
def dRnd (d : Nat) : Nat := dw d 0 40 2
def dSat (d : Nat) : Bool := dw d 0 39 1 = 1
def dMxA (d : Nat) : Bool := dw d 0 38 1 = 1
def dMxB (d : Nat) : Bool := dw d 0 37 1 = 1
def dMxOut (d : Nat) : Bool := dw d 0 36 1 = 1
def dFill (d : Nat) : Bool := dw d 0 35 1 = 1
def dSpill (d : Nat) : Bool := dw d 0 34 1 = 1
def dFlagMap (d : Nat) : Bool := dw d 0 33 1 = 1
def dAnchor (d : Nat) : Int := signed 16 (dw d 0 16 16)
def dFmtAcc (d : Nat) : Nat := dw d 0 12 4
def dIeeeRm (d : Nat) : Nat := dw d 0 6 2
def dAIn (d : Nat) : Int := signed 16 (dw d 1 48 16)
def dN (d : Nat) : Nat := dw d 1 24 24
def dM (d : Nat) : Nat := dw d 1 0 24
def dAOut (d : Nat) : Int := signed 16 (dw d 2 48 16)
def dHOut (d : Nat) : Nat := dw d 2 40 8
def dKlog (d : Nat) : Nat := dw d 2 32 6
def dK (d : Nat) : Nat := dw d 2 0 32
/-- Address words W3 to W9. -/
def dAddr (d i : Nat) : Nat := dw d i 0 64
/-- Tensor ID and block index of words W10 to W13. -/
def dTid (d i : Nat) : Nat := dw d i 32 32
def dBlk (d i : Nat) : Nat := dw d i 0 32

/-! ### Opcodes (R72) -/

def isIeeeOp (op : Nat) : Bool := 0x20 ≤ op && op ≤ 0x2B || 0x30 ≤ op && op ≤ 0x33 || op = 0x38 || op = 0x39
def isRowOp (op : Nat) : Bool := op = 0x38 || op = 0x39
def isAccum (op : Nat) : Bool := op = 0x01 || op = 0x11
def knownOp (op : Nat) : Bool := isAccum op || op = 0x02 || op = 0x10 || isIeeeOp op

/-- The opcode runs on the core type (R72): 0 M-core, 1 V-core. -/
def runsOn (op kind : Nat) : Bool :=
  if op = 0x01 then kind = 0 else if op = 0x02 then kind ≤ 1 else kind = 1

/-- The opcode reads operand B. -/
def usesB (op : Nat) : Bool := isAccum op || (isIeeeOp op && !isRowOp op && 2 ≤ ieeeArity op)

/-- The opcode reads W8 and W13: FILL, or operand C of VFMA. -/
def usesAcc (d : Nat) : Bool :=
  (isAccum (dOpcode d) && dFill d) || dOpcode d = 0x23

/-! ### Layout (R34, R73, R74) -/

/-- Elements per 4 KiB block of a format code (R32). -/
def perBlock (code : Nat) : Nat :=
  match fmtOfCode code with
  | some f => fmtPerBlock f
  | none => 1

/-- An operand or output: format code, tensor ID, first block index, address, elements. -/
structure TOp where
  fmt : Nat
  tid : Nat
  blk : Nat
  addr : Nat
  n : Nat
  deriving DecidableEq, Repr

def TOp_blocks (o : TOp) : Nat := ceilDiv o.n (perBlock o.fmt)

/-- Elements of the operands and of the output (R73). -/
def nA (d : Nat) : Nat := dM d * (if isAccum (dOpcode d) then dK d else dN d)
def nB (d : Nat) : Nat :=
  if dOpcode d = 0x01 then dN d * dK d
  else if dOpcode d = 0x11 then (if dN d = 1 then 1 else dM d) * dK d else dM d * dN d
def nOut (d : Nat) : Nat :=
  if dOpcode d = 0x11 || isRowOp (dOpcode d) then dM d else dM d * dN d

def opA (d : Nat) : TOp := ⟨dFmtA d, dTid d 10, dBlk d 10, dAddr d 3, nA d⟩
def opB (d : Nat) : TOp := ⟨if isIeeeOp (dOpcode d) then dFmtA d else dFmtB d, dTid d 11, dBlk d 11, dAddr d 4, nB d⟩
def opAcc (d : Nat) : TOp :=
  ⟨if isIeeeOp (dOpcode d) then dFmtA d else dFmtAcc d, dTid d 13, dBlk d 13, dAddr d 8, nOut d⟩
/-- The output; MOVE copies blocks of FMT_A (R599). -/
def opOut (d : Nat) : TOp :=
  ⟨if dOpcode d = 0x02 then dFmtA d else dFmtOut d, dTid d 12, dBlk d 12, dAddr d 5, nOut d⟩

def outBlocks (d : Nat) : Nat := TOp_blocks (opOut d)

/-- The scale tensor of an operand (R74): one byte per 32 elements from `saddr` on.  The
address's block holds the block of the scale tensor in which the first byte lies. -/
structure SOp where
  tid : Nat
  blk : Nat
  addr : Nat
  n : Nat
  deriving DecidableEq, Repr

def scaleOf (o : TOp) (saddr : Nat) : SOp :=
  ⟨o.tid + 0x80000000, o.blk * perBlock o.fmt / 32 / 4096, saddr, ceilDiv o.n 32⟩

/-- Address ranges of a descriptor: start, bytes, whether 4 KiB alignment is required. -/
def ranges (d : Nat) : List (Nat × Nat × Bool) :=
  [((opA d).addr, TOp_blocks (opA d) * 4096, true)]
  ++ (if usesB (dOpcode d) then [((opB d).addr, TOp_blocks (opB d) * 4096, true)] else [])
  ++ [((opOut d).addr, outBlocks d * 4096, true)]
  ++ (if dMxA d then [(dAddr d 6, ceilDiv (nA d) 32, false)] else [])
  ++ (if dMxB d then [(dAddr d 7, ceilDiv (nB d) 32, false)] else [])
  ++ (if dMxOut d then [(dAddr d 7, ceilDiv (nOut d) 32, false)] else [])
  ++ (if usesAcc d then [((opAcc d).addr, TOp_blocks (opAcc d) * 4096, true)] else [])
  ++ (if dFlagMap d then [(dAddr d 9, outBlocks d, false)] else [])

/-! ### Unused fields (R71, R599) -/

/-- A mask of one field. -/
def fm (i lo w : Nat) : Nat := (2 ^ w - 1) * 2 ^ (64 * i + lo)

def fmIf (c : Bool) (m : Nat) : Nat := if c then m else 0

/-- The fields that the descriptor uses, as a mask of its 1,024 bits (disjoint terms).  The sync
fields are used by every opcode, with no condition (R599 lists them so).  ANCHOR is unused unless
ANCHOR_MODE is FIXED, and KLOG is used by MMA and VDOT in every mode (DEDUCED, log 94). -/
def usedMask (d : Nat) : Nat :=
  let op := dOpcode d
  let cea := dFmtOut d = 0xD
  let anch := isAccum op || (op = 0x10 && cea)
  let alu := op ≠ 0x02
  fm 0 56 8 + fm 0 52 4 + fm 1 24 24 + fm 1 0 24 + fm 3 0 64 + fm 5 0 64 + fm 10 0 64 + fm 12 0 64
  + fm 14 0 64 + fm 15 32 2 + fm 15 0 32
  + fmIf alu (fm 0 44 4 + fm 0 33 1)
  + fmIf (alu && dFlagMap d) (fm 9 0 64)
  + fmIf (usesB op) (fm 0 48 4 + fm 4 0 64 + fm 11 0 64)
  + fmIf (isAccum op || op = 0x10) (fm 0 40 2 + fm 0 39 1 + fm 0 38 1 + fm 0 36 1)
  + fmIf (isAccum op) (fm 0 37 1 + fm 0 35 1 + fm 2 0 32 + fm 2 32 6)
  + fmIf anch (fm 0 42 2 + fm 0 34 1)
  + fmIf (anch && dAnchorMode d = 2) (fm 0 16 16)
  + fmIf (isAccum op && dFill d) (fm 0 12 4)
  + fmIf (usesAcc d) (fm 8 0 64 + fm 13 0 64)
  + fmIf ((isAccum op && dFill d && dFmtAcc d = 0xC) || (op = 0x10 && dFmtA d = 0xC)) (fm 1 48 16)
  + fmIf ((isAccum op || op = 0x10) && dFmtOut d = 0xC) (fm 2 48 16 + fm 2 40 8)
  + fmIf ((isAccum op || op = 0x10) && dMxA d) (fm 6 0 64)
  + fmIf ((isAccum op || op = 0x10) && (dMxB d || dMxOut d)) (fm 7 0 64)
  + fmIf (0x20 ≤ op && op ≤ 0x2B || op = 0x38) (fm 0 6 2)

/-! ### Issue checks (R77) -/

/-- R42: the permitted product pairs. -/
def pairOk (a b : Nat) : Bool :=
  (a = 3 && b = 3) || (a = 4 && b = 4) || (5 ≤ a && a ≤ 9 && 5 ≤ b && b ≤ 9)
    || ((a = 0xA || a = 0xB) && (b = 0xA || b = 0xB))

def fmtValid (c : Nat) : Bool := 1 ≤ c && c ≤ 0xD

def badFormat (d : Nat) : Bool :=
  let op := dOpcode d
  let a := dFmtA d
  (if isIeeeOp op then
      !(1 ≤ a && a ≤ 4) || dFmtOut d ≠ a
        || (if usesB op then dFmtB d ≠ a else dFmtB d ≠ 0 && dFmtB d ≠ a)
   else if op = 0x02 then !fmtValid a
   else !fmtValid a || !fmtValid (dFmtOut d) || (isAccum op && !fmtValid (dFmtB d)))
  || (dFill d && !(dFmtAcc d = 0xC || dFmtAcc d = 0xD))
  || (dSpill d != decide (dFmtOut d = 0xD))

def mxCode (c : Nat) : Bool := 5 ≤ c && c ≤ 11

def badMx (d : Nat) : Bool :=
  let op := dOpcode d
  (dMxA d && !mxCode (dFmtA d)) || (dMxB d && !mxCode (dFmtB d)) || (dMxOut d && !mxCode (dFmtOut d))
  || (dMxB d && dMxOut d)
  || (isAccum op && (dMxA d != dMxB d || (dMxA d && dK d % 32 ≠ 0)))

def anchorOk (x : Int) : Bool := -512 ≤ x && x ≤ 511

def badAnchor (d : Nat) : Bool :=
  dAnchorMode d = 3 || (dAnchorMode d = 2 && !anchorOk (dAnchor d)) || !anchorOk (dAIn d) || !anchorOk (dAOut d)
  || ((isAccum (dOpcode d) || dOpcode d = 0x10) && dFmtOut d = 0xC && !(1 ≤ dHOut d && dHOut d ≤ 24))

def badRound (d : Nat) : Bool :=
  let op := dOpcode d
  2 ≤ dRnd d || (isIeeeOp op && dRnd d ≠ 0)
  || (dIeeeRm d ≠ 0 && !(0x20 ≤ op && op ≤ 0x2B || op = 0x38))

def badShape (d : Nat) : Bool :=
  let op := dOpcode d
  dM d = 0 || dN d = 0 || (isAccum op && dK d = 0) || (op = 0x11 && dN d ≠ 1 && dN d ≠ dM d)

def badTag (d : Nat) : Bool :=
  [10, 11, 12, 13].any (fun i => 0x80000000 ≤ dTid d i)

def badAddress (tl : Tile) (d : Nat) : Bool :=
  (ranges d).any (fun r => (r.2.2 && r.1 % 4096 ≠ 0) || !rangeExists tl r.1 r.2.1)

def badSync (d : Nat) : Bool :=
  [dWaitSync d, dSignal d].any (fun v => v ≠ 0xFFFF && !syncNameOk v)

def badField (d : Nat) : Bool := d &&& usedMask d ≠ d

/-- R77: the code of the first rule that fails, as a positive number; 0 when accepted.
`queued` descriptors are in the target's queue; `core` is none where it does not exist. -/
def issueCode (tl : Tile) (d kind : Nat) (core : Option Nat) (queued : Nat) : Nat :=
  let op := dOpcode d
  if core.isSome && 32 ≤ queued then 1
  else if core.isNone || (knownOp op && !runsOn op kind) then 2
  else if !knownOp op then 3
  else if badFormat d then 4
  else if isAccum op && !pairOk (dFmtA d) (dFmtB d) then 5
  else if badMx d then 6
  else if badAnchor d then 7
  else if badRound d then 8
  else if badShape d then 9
  else if badTag d then 10
  else if badAddress tl d then 11
  else if badSync d then 12
  else if badField d then 13
  else 0

end Sys2Proof.Machine
end

