-- ==== Sys2Proof/Machine/Tensor.lean ====
section
/-!
DEFINITION. What a descriptor computes: fetching and checking its input blocks (R142, R148,
R151, R514), the elements of its output (R43 to R65, R80 to R89, R599), its anchor (R48 to
R53, R86), and its clocks (R82, R83, R99, R113, R600).
-/
namespace Sys2Proof.Machine

/-! ### Fetching a block (R141, R142) -/

/-- How the fetch of a block ends. -/
inductive Fetch where
  | ok (data : List Byte) (poison : Bool)
  | race
  | unstitched
  | parity
  | mismatch (c : DWord)
  | badRow
  deriving DecidableEq, Repr

/-- XOR the disturbances that fall in the block at `a`. -/
def applyFlips (a : Nat) (data : List Byte) (fl : List Flip) : List Byte :=
  fl.foldl (fun l f =>
    if a ≤ f.addr && f.addr < a + l.length then l.set (f.addr - a) (l.getD (f.addr - a) 0#8 ^^^ f.mask) else l) data

/-- The set bits of a byte. -/
def ones (b : Byte) : Nat := popBelow b.toNat 8

/-- R514: one parity bit per 64 bits: the words of two strings that differ in an odd number
of bits. -/
def parityError (x y : List Byte) : Bool :=
  (List.range (x.length / 8)).any (fun i =>
    ((List.range 8).foldl (fun n j => n + ones (x.getD (8 * i + j) 0#8 ^^^ y.getD (8 * i + j) 0#8)) 0) % 2 = 1)

/-- The injection target and unit that a fetch meets (R399): local SRAM of an M-core or
V-core, the pool, or a DRAM row. -/
def injectPoint : Loc → Nat × Nat
  | .dram d _ _ => (4, d)
  | .sram x => if x < poolBytes then (3, 0) else if x < 0x14000000 then (1, (x - 0x8000000) / 0x200000)
    else (2, (x - 0x14000000) / 0x100000)

/-- R399: pending injections act on a block read: on SRAM they change the bits read; on a
DRAM row the row code corrects the one symbol, which is counted (R119). -/
def inject (s : State) (t : Nat) (l : Loc) (data : List Byte) : State × List Byte :=
  let (target, unit) := injectPoint l
  let js := pendingAt s target t unit
  if js.isEmpty then (s, data)
  else if target = 4 then (rowInjections s t unit data, data)
  else (useInjections s target t unit, js.foldl (fun l j => injectBit j l) data)

/-- Another core's running descriptor has the block among the output blocks that it has still to
write (R78: nothing orders descriptors on different cores but sync objects). -/
def beingWritten (s : State) (t a : Nat) : Bool :=
  let tl := getTile s t
  let covers := fun (e : QDesc) =>
    let o := opOut e.d
    e.started && e.record.isNone && !isRaw o.tid
      && o.addr + 4096 * e.blocksDone ≤ a && a < o.addr + 4096 * TOp_blocks o
  let any := fun (q : Tab (List QDesc)) => q.any (fun x => x.2.any covers)
  any tl.mQueue || any tl.vQueue

/-- The second reading of a block's cell, after its last data line (R142): where a running
descriptor is about to write the block, whether that write has begun by now is a free value. -/
def cellAfter (s : State) (t a : Nat) : Cell :=
  let c := cellAt s t a
  if beingWritten s t a && Config.writeBegun s.free a then beginCell c else c

/-- R142: fetch the block at `a` under a tag.  `fl` are the disturbances of this fetch; a
block listed in `verified` has passed its repeat fetch (R143).  Rows that carry their bad-data mark
are counted again (R119); in POISON they are delivered with a poison mark under every ID, and so is a
POISON block (R151, R152). -/
def fetch (s : State) (t a tid blk : Nat) (fl : List Flip) (verified : List Nat) : State × Fetch :=
  let c := cellAt s t a
  let raw := isRaw tid
  if !raw && c.state = 3#2 then (s, .race)
  else if anyBadRow s t a 4096 then
    let s := readBadRows s t a 4096
    if poisonMode s then (s, .ok (bytesAt s t a 4096) true) else (s, .badRow)
  else
    let clean := bytesAt s t a 4096
    match locOf (getTile s t) a with
    | none => (s, .ok clean false)
    | some l =>
      let c1 := cellAfter s t a
      let s := if beingWritten s t a then nextFree s else s
      let (s, data) := if verified.contains a then (s, clean)
        else
          let (s, d) := inject s t l clean
          (s, applyFlips a d fl)
      let onDie := match l with | .sram _ => true | .dram _ _ _ => false
      if raw then
        if onDie && data ≠ clean && parityError clean data then (s, .parity) else (s, .ok data (poisonMode s && c.state = 2#2))
      else if c1.gen ≠ c.gen || c1.state = 3#2 then (s, .race)
      else if c1.state = 0#2 then (s, .unstitched)
      else
        let x := stitchOf data tid blk
        if x ≠ c1.stitch then (s, .mismatch x) else (s, .ok data (c1.state = 2#2))

/-! ### The input blocks of an output block (R73, R74) -/

/-- An input block: address, tensor ID, block index. -/
abbrev InBlk := Nat × Nat × Nat

/-- Blocks of an operand that hold positions `[lo, hi]`. -/
def blocksOf (o : TOp) (lo hi : Nat) : List InBlk :=
  let e := perBlock o.fmt
  (List.range (hi / e - lo / e + 1)).map (fun i =>
    (o.addr + 4096 * (lo / e + i), o.tid, (o.blk + lo / e + i) % 2 ^ 32))

/-- Scale blocks of positions `[lo, hi]` (R74). -/
def scaleBlocks (o : SOp) (lo hi : Nat) : List InBlk :=
  let a0 := (o.addr + lo / 32) / 4096
  let a1 := (o.addr + hi / 32) / 4096
  (List.range (a1 - a0 + 1)).map (fun i =>
    ((a0 + i) * 4096, o.tid, (o.blk + (a0 + i - o.addr / 4096)) % 2 ^ 32))

/-- Operand A, with its scales. -/
def needA (d lo hi : Nat) : List InBlk :=
  blocksOf (opA d) lo hi ++ (if dMxA d then scaleBlocks (scaleOf (opA d) (dAddr d 6)) lo hi else [])

def needB (d lo hi : Nat) : List InBlk :=
  blocksOf (opB d) lo hi ++ (if dMxB d then scaleBlocks (scaleOf (opB d) (dAddr d 7)) lo hi else [])

/-- The columns of B that output positions `[p0, p1]` use, as ranges. -/
def colRanges (n p0 p1 : Nat) : List (Nat × Nat) :=
  if p0 / n = p1 / n then [(p0 % n, p1 % n)]
  else if p0 / n + 1 = p1 / n && p1 % n + 1 < p0 % n then [(0, p1 % n), (p0 % n, n - 1)]
  else [(0, n - 1)]

/-- The input blocks of output positions `[p0, p1]`, in the order they are taken. -/
def needs (d p0 p1 : Nat) : List InBlk :=
  let op := dOpcode d
  let k := dK d
  let acc := if usesAcc d then blocksOf (opAcc d) p0 p1 else []
  if op = 0x01 then
    needA d (p0 / dN d * k) ((p1 / dN d + 1) * k - 1)
      ++ (colRanges (dN d) p0 p1).flatMap (fun r => needB d (r.1 * k) ((r.2 + 1) * k - 1)) ++ acc
  else if op = 0x11 then
    needA d (p0 * k) ((p1 + 1) * k - 1)
      ++ (if dN d = 1 then needB d 0 (k - 1) else needB d (p0 * k) ((p1 + 1) * k - 1)) ++ acc
  else if isRowOp op then needA d (p0 * dN d) ((p1 + 1) * dN d - 1)
  else needA d p0 p1 ++ (if usesB op then needB d p0 p1 else []) ++ acc

/-! ### Elements -/

/-- Blocks loaded, by address. -/
abbrev Loaded := List (Nat × List Byte)

def loadedAt (l : Loaded) (a : Nat) : List Byte :=
  match l.find? (fun e => e.1 = a) with
  | some e => e.2
  | none => []

/-- The code of the element at a position. -/
def codeAt (l : Loaded) (o : TOp) (p : Nat) : Nat :=
  match fmtOfCode o.fmt with
  | some f => elemAt f (loadedAt l (o.addr + 4096 * (p / fmtPerBlock f))) (p % fmtPerBlock f)
  | none => 0

/-- The spill record at a position of a CEA-256 tensor. -/
def recordAt (l : Loaded) (o : TOp) (p : Nat) : Cea :=
  readRecord (slice (loadedAt l (o.addr + 4096 * (p / 85))) (48 * (p % 85)) 48)

/-- The scale byte of a position (R74). -/
def scaleAt (l : Loaded) (o : SOp) (p : Nat) : Nat :=
  let a := o.addr + p / 32
  ((loadedAt l (a / 4096 * 4096)).getD (a % 4096) 0#8).toNat

/-- The value of an element of an operand under its scaling and anchor (R33, R39, R61). -/
def valAt (l : Loaded) (o : TOp) (scale : Option SOp) (aIn : Int) (p : Nat) : Val :=
  match fmtOfCode o.fmt with
  | none => .fin false 0 0
  | some .anchored64 => valOfAnchored aIn (codeAt l o p)
  | some .cea256 => ceaVal (recordAt l o p)
  | some f =>
    match scale with
    | some so => mxVal f (scaleAt l so p) (codeAt l o p)
    | none => decodeElem f (codeAt l o p)

def scaleA (d : Nat) : Option SOp := if dMxA d then some (scaleOf (opA d) (dAddr d 6)) else none
def scaleB (d : Nat) : Option SOp := if dMxB d then some (scaleOf (opB d) (dAddr d 7)) else none

def aAt (l : Loaded) (d p : Nat) : Val := valAt l (opA d) (scaleA d) (dAIn d) p
def bAt (l : Loaded) (d p : Nat) : Val := valAt l (opB d) (scaleB d) 0 p

/-- R48, R62: the accumulator of output position `p` before its first product. -/
def accStart (l : Loaded) (d : Nat) (anchor : Int) (p : Nat) : Cea :=
  if dFill d then
    if dFmtAcc d = 0xD then fillFrom anchor (recordAt l (opAcc d) p)
    else ceaEnter { anchor := anchor } (valOfAnchored (dAIn d) (codeAt l (opAcc d) p))
  else { anchor := anchor }

/-- The products of output position `p`, in increasing contraction index (R45, R81). -/
def dotAt (l : Loaded) (d : Nat) (anchor : Int) (p : Nat) : Cea :=
  let k := dK d
  let (ra, rb) := if dOpcode d = 0x01 then (p / dN d, p % dN d) else (p, if dN d = 1 then 0 else p)
  (List.range k).foldl (fun c i => ceaMac c (aAt l d (ra * k + i)) (bAt l d (rb * k + i)))
    (accStart l d anchor p)

/-- An output element: a code, or a spill record. -/
inductive Elem where
  | code (c : Nat)
  | record (r : List Byte)
  deriving DecidableEq, Repr

/-- The rounding of a conversion (R58, R64). -/
def rndAt (d : Nat) (seed : DWord) (b e : Nat) : Rnd :=
  if dRnd d = 1 then .sr (srWord seed (dTid d 12) ((dBlk d 12 + b) % 2 ^ 32) e) else .rne

/-- The result of an accumulation converted to the output (R59, R61, R62), or spilled. -/
def outOfCea (d : Nat) (rnd : Rnd) (pair : Nat) (c : Cea) : Elem × Byte :=
  match fmtOfCode (dFmtOut d) with
  | some .cea256 => (.record (spillRecord c pair), ceaFlags c)
  | some .anchored64 => let (x, f) := anchoredOfCea (dAOut d) (dHOut d) c; (.code x, f)
  | some f => let (x, g) := encodeElem f rnd (dSat d) (ceaVal c); (.code x, g ||| ceaFlags c)
  | none => (.code 0, 0#8)

/-- R86: the CEA-256 record of a converted element under anchor `anchor`. -/
def convertToCea (l : Loaded) (d : Nat) (anchor : Int) (p : Nat) : Cea :=
  if dFmtA d = 0xD then
    let r := recordAt l (opA d) p
    if r.anchor = anchor then r else { fillFrom anchor r with terms := 0 }
  else ceaEnter { anchor := anchor } (aAt l d p)

/-- The flags of an element that CONVERT copies exactly (R86, R56): a NaN or an infinity enters the
conversion. -/
def copyFlags (v : Val) : Byte :=
  match v with
  | .nan _ => fInvalid
  | .inf _ => fInfinite
  | .fin .. => 0#8

/-- R86: one element converted, plain output. -/
def convertAt (l : Loaded) (d : Nat) (anchor : Int) (rnd : Rnd) (p : Nat) : Elem × Byte :=
  if dFmtOut d = 0xD then
    let c := convertToCea l d anchor p
    let keep := dFmtA d = 0xD && (recordAt l (opA d) p).anchor = anchor
    (.record (if keep then slice (loadedAt l ((opA d).addr + 4096 * (p / 85))) (48 * (p % 85)) 48
              else spillRecord c 0), ceaFlags c)
  else if dFmtA d = 0xD then outOfCea d rnd 0 (recordAt l (opA d) p)
  else if dFmtOut d = 0xC then
    if dFmtA d = 0xC then
      let x := codeAt l (opA d) p
      if dAIn d = dAOut d then (.code x, 0#8)
      else let (y, f) := reanchor (dAIn d) (dAOut d) (dHOut d) x; (.code y, f)
    else let (y, f) := anchoredOfVal (dAOut d) (dHOut d) (aAt l d p); (.code y, f)
  else if dFmtA d = dFmtOut d && !dMxA d then (.code (codeAt l (opA d) p), copyFlags (aAt l d p))
  else
    match fmtOfCode (dFmtOut d) with
    | some f => let (x, g) := encodeElem f rnd (dSat d) (aAt l d p); (.code x, g)
    | none => (.code 0, 0#8)

/-- One output block as it leaves the core: elements, its flag byte (R56), its IEEE flags,
and the scale bytes of an MX output. -/
structure OutBlk where
  elems : List Elem := []
  flags : Byte := 0#8
  ieee : Byte := 0#8
  scales : List Nat := []
  deriving DecidableEq, Repr

def OutBlk_add (o : OutBlk) (x : Elem × Byte) : OutBlk :=
  { o with elems := o.elems ++ [x.1], flags := o.flags ||| x.2 }

/-- R60: a group of values to MX; group `g` of the block starts at element `32 g`. -/
def mxGroup (d : Nat) (seed : DWord) (b e0 : Nat) (vs : List Val) (o : OutBlk) : OutBlk :=
  match fmtOfCode (dFmtOut d) with
  | none => o
  | some f =>
    let x := mxScale f vs
    let r := vs.foldl (fun (acc : OutBlk × Nat) v =>
      if x = 0xFF then (OutBlk_add acc.1 (.code 0, fInvalid), acc.2 + 1)
      else
        let (c, g) := mxElem f x (rndAt d seed b acc.2) (dSat d) v
        (OutBlk_add acc.1 (.code c, g), acc.2 + 1)) (o, e0)
    { r.1 with scales := r.1.scales ++ [x] }

/-- Values in groups of 32 to MX. -/
def mxGroups (d : Nat) (seed : DWord) (b : Nat) : Nat → Nat → List Val → OutBlk → OutBlk
  | 0, _, _, o => o
  | n + 1, e0, vs, o =>
    if vs.isEmpty then o
    else mxGroups d seed b n (e0 + 32) (vs.drop 32) (mxGroup d seed b e0 (vs.take 32) o)

/-- CONVERT copies exactly where FMT_A equals FMT_OUT (R86): an MX operand to an MX output. -/
def mxCopies (d : Nat) : Bool := dMxA d && dMxOut d && dFmtA d = dFmtOut d

/-- The codes and scale bytes of positions `[p0, p1]` of an MX operand, copied. -/
def copyMx (l : Loaded) (d p0 p1 : Nat) : OutBlk :=
  let ps := (List.range (p1 - p0 + 1)).map (· + p0)
  let o := ps.foldl (fun o p => OutBlk_add o (.code (codeAt l (opA d) p), copyFlags (aAt l d p))) {}
  { o with scales := (List.range ((p1 - p0) / 32 + 1)).map (fun g =>
      scaleAt l (scaleOf (opA d) (dAddr d 6)) (p0 + 32 * g)) }

/-- The elements of output block `b`, positions `[p0, p1]`. -/
def computeBlock (l : Loaded) (d : Nat) (seed : DWord) (anchor : Int) (b p0 p1 : Nat) : OutBlk :=
  let op := dOpcode d
  let ps := (List.range (p1 - p0 + 1)).map (· + p0)
  let pair := dFmtA d * 16 + dFmtB d
  if isAccum op then
    if dMxOut d then
      let cs := ps.map (dotAt l d anchor)
      let fl := cs.foldl (fun x c => x ||| ceaFlags c) 0#8
      mxGroups d seed b cs.length 0 (cs.map ceaVal) { flags := fl }
    else ps.foldl (fun o p =>
      OutBlk_add o (outOfCea d (rndAt d seed b (p - p0)) pair (dotAt l d anchor p))) {}
  else if op = 0x10 then
    if mxCopies d then copyMx l d p0 p1
    else if dMxOut d then
      let fl := if dFmtA d = 0xD then ps.foldl (fun x p => x ||| ceaFlags (recordAt l (opA d) p)) 0#8 else 0#8
      mxGroups d seed b ps.length 0 (ps.map (aAt l d)) { flags := fl }
    else ps.foldl (fun o p => OutBlk_add o (convertAt l d anchor (rndAt d seed b (p - p0)) p)) {}
  else
    match fmtOfCode (dFmtA d) with
    | none => {}
    | some f =>
      let rm := ieeeRm (dIeeeRm d)
      ps.foldl (fun o p =>
        let r := if isRowOp op then
            ieeeRow (op = 0x39) f rm ((List.range (dN d)).map (fun j => codeAt l (opA d) (p * dN d + j)))
          else ieeeOp op f rm (codeAt l (opA d) p) (if usesB op then codeAt l (opB d) p else 0)
            (if usesAcc d then codeAt l (opAcc d) p else 0)
        { OutBlk_add o (.code r.code, r.flags) with ieee := o.ieee ||| r.ieee }) {}

/-- A free code for an element past the end of the output (no rule gives its value). -/
def tailCode (free w i : Nat) : Nat :=
  leNat ((List.range (ceilDiv w 8)).map (fun j => Config.tailByte (free * 65536 + i * 64 + j))) % 2 ^ w

/-- The 4,096 bytes of an output block (R34); `free` numbers the free bytes past the last
element of the output. -/
def blockBytes (code : Nat) (o : OutBlk) (free : Nat) : List Byte :=
  match fmtOfCode code with
  | none => fit 4096 []
  | some .cea256 =>
    let n := o.elems.length
    fit 4096 (o.elems.flatMap (fun e => match e with | .record r => fit 48 r | .code _ => fit 48 [])
      ++ (List.range (85 - n)).flatMap (fun i => leBytes 48 (tailCode free 384 (n + i))))
  | some f =>
    let cs := o.elems.map (fun e => match e with | .code c => c | .record _ => 0)
    fit 4096 (packElems f (cs ++ (List.range (fmtPerBlock f - cs.length)).map
      (fun i => tailCode free (fmtWidth f) (cs.length + i))))

/-! ### Anchors (R48 to R53, R86) -/

/-- Every element value of an operand, from memory. -/
def allVals (s : State) (t : Nat) (o : TOp) (aIn : Int) : List Val :=
  match fmtOfCode o.fmt with
  | none => []
  | some f =>
    let l : Loaded := (List.range (TOp_blocks o)).map (fun i => (o.addr + 4096 * i, bytesAt s t (o.addr + 4096 * i) 4096))
    (List.range o.n).map (fun p =>
      if f = .anchored64 then valOfAnchored aIn (codeAt l o p)
      else if f = .cea256 then ceaVal (recordAt l o p) else decodeElem f (codeAt l o p))

/-- An element that keeps an MX operand from the first branch of `stats_anchor` (R53): a NaN or an
infinity counts as non-zero, as R53's prose names only zero elements (DEDUCED, log 93). -/
def isNonzero : Val → Bool
  | .fin _ m _ => m ≠ 0
  | _ => true

/-- The STATS bound and grid of an operand (R53). -/
def statsOf (s : State) (t : Nat) (o : TOp) (scale : Option SOp) (aIn : Int) : Option (Int × Int) :=
  match fmtOfCode o.fmt with
  | none => none
  | some f =>
    match scale with
    | none => (plainStats f (allVals s t o aIn)).map (fun bg =>
        if f = .anchored64 then (bg.1, aIn)
        else if f = .cea256 then (bg.1, (readRecord (bytesAt s t o.addr 48)).anchor) else bg)
    | some so =>
      let xs := (bytesAt s t so.addr so.n).map BitVec.toNat
      let vs := allVals s t o aIn
      let nz := (List.range vs.length).any (fun p =>
        xs.getD (p / 32) 0xFF ≠ 0xFF && isNonzero (vs.getD p (.fin false 0 0)))
      mxStats f xs nz

/-- The descriptor scans its operands (R49, R53, R86). -/
def scans (d : Nat) : Bool :=
  let mx := dMxA d || dMxB d
  (isAccum (dOpcode d) && !(dFill d && dFmtAcc d = 0xD) || (dOpcode d = 0x10 && dFmtOut d = 0xD))
    && (dAnchorMode d = 1 || (dAnchorMode d = 0 && mx))

/-- The anchor of the output tensor (R48 to R53, R86), clamped to -512 to 511. -/
def anchorOf (s : State) (t d : Nat) : Int :=
  let op := dOpcode d
  if isAccum op then
    if dFill d && dFmtAcc d = 0xD then clampAnchor (readRecord (bytesAt s t (opAcc d).addr 48)).anchor
    else if dAnchorMode d = 2 then clampAnchor (dAnchor d)
    else
      match fmtOfCode (dFmtA d), fmtOfCode (dFmtB d) with
      | some fa, some fb =>
        let df := defaultAnchor fa fb (dMxA d)
        if scans d then
          statsAnchor df (statsOf s t (opA d) (scaleA d) 0) (statsOf s t (opB d) (scaleB d) 0)
            (if dKlog d = 0 then ceilLog2 (dK d) else dKlog d)
        else clampAnchor df
      | _, _ => 0
  else if op = 0x10 && dFmtOut d = 0xD then
    if dAnchorMode d = 2 then clampAnchor (dAnchor d)
    else
      match fmtOfCode (dFmtA d) with
      | none => 0
      | some f =>
        let grid := if f = .anchored64 then dAIn d
          else if f = .cea256 then (readRecord (bytesAt s t (opA d).addr 48)).anchor else lmin f
        if scans d then
          match statsOf s t (opA d) (scaleA d) (dAIn d) with
          | some (b, g) => clampAnchor (max g (b - 255))
          | none => clampAnchor grid
        else clampAnchor grid
  else 0

/-- Anchor Used, as S16 (R79): 0 for opcodes without accumulation. -/
def anchorUsed (d : Nat) (a : Int) : Nat :=
  if isAccum (dOpcode d) || (dOpcode d = 0x10 && dFmtOut d = 0xD) then unsigned 16 a else 0

/-! ### Distances (R69, R70, R99) -/

/-- Column and row of a physical core, in eighteenths. -/
def coreSite (kind p : Nat) : Nat × Nat :=
  if kind = 0 then (18 * (p % 17), 18 * ([0, 1, 4, 5].getD (p / 17) 0))
  else if kind = 1 then (18 * (p % 17), 18 * (2 + p / 17))
  else (32 * p, 45)

/-- Column and row of a port: 0 to 17 row ports, 18 to 33 circuit ports, 34 the mesh port. -/
def portSite (k : Nat) : Nat × Nat :=
  if k < 18 then (18 * ([1, 4, 7, 9, 12, 15].getD (k % 6) 0), if k / 6 = 0 then 18 else if k / 6 = 1 then 72 else 45)
  else if k < 34 then (18 * (2 * ((k - 18) % 8) + 1), if k - 18 < 8 then 0 else 90)
  else (144, 45)

def absDiff (a b : Nat) : Nat := (a - b) + (b - a)

/-- R99: d = 2 + ceil((|dcol| + 3 |drow|) / 4). -/
def distance (kind p k : Nat) : Nat :=
  let c := coreSite kind p
  let q := portSite k
  2 + ceilDiv (absDiff c.1 q.1 + 3 * absDiff c.2 q.2) 72

/-! ### Clocks (R82, R83, R113, R600) -/

/-- Kc of an operand pair (R80). -/
def kc (a b : Nat) : Nat :=
  let four := fun c => c = 9 || c = 11
  if a = 3 || a = 4 then 64 else if four a && four b then 256 else 128

/-- Products per clock of VDOT (R85). -/
def vdotRate (a b : Nat) : Nat :=
  let four := fun c => c = 9 || c = 11
  if a = 3 || a = 4 then 128 else if four a && four b then 512 else 256

/-- Rate and latency of an IEEE opcode (R84): rate for binary64; doubled for each halving. -/
def vRate (op code : Nat) : Nat × Nat :=
  let w := if code = 1 then 64 else if code = 2 then 32 else 16
  let q := 64 / w
  if op = 0x24 || op = 0x25 then (4 * q, 24)
  else if op = 0x30 || op = 0x31 then (8 * q, 14)
  else if op = 0x32 || op = 0x33 then (8 * q, 18)
  else if isRowOp op then (32 * q, 6 + 6 * Nat.log2 (2048 / w))
  else (32 * q, 6)

/-- Bytes of an operand. -/
def bytesOf (o : TOp) : Nat :=
  match fmtOfCode o.fmt with
  | some .cea256 => o.n * 48
  | some f => ceilDiv (o.n * fmtWidth f) 8
  | none => 0

/-- R82, R113: the wait for the first block of an operand.  The pool distance depends on the core's
kind and number and on the address alone, so it is the same in every tile (DESIGN CHOICE, log 8). -/
def firstWait (s : State) (t kind p a : Nat) : Nat :=
  match locOf (getTile s t) a with
  | some (.sram x) => if x < poolBytes then 30 + (Config.poolDistance (kind * 128 + p) x).toNat else 0
  | some (.dram _ _ _) =>
    let ds := (List.range 4).map (fun i =>
      match locOf (getTile s t) (a / 4096 * 4096 + 1024 * i) with
      | some (.dram d r _) => distance kind p (portOf d r)
      | _ => 0)
    ceilDiv ((2 * ds.foldl max 0 + 18) * (getTile s t).mhz) 1000
  | none => 0

/-- The array clocks of the output tile or vector of block `b` (R80, R84, R512). -/
def arrayClocks (d b : Nat) : Nat :=
  let op := dOpcode d
  if op = 0x01 then
    let row := b * perBlock (dFmtOut d) / dN d
    let mb := min 64 (dM d - row / 64 * 64)
    ceilDiv (dK d) (kc (dFmtA d) (dFmtB d)) * max mb 8
  else if op = 0x11 then ceilDiv (dK d) (vdotRate (dFmtA d) (dFmtB d))
  else if isRowOp op then ceilDiv (dN d) (vRate op (dFmtA d)).1
  else if isIeeeOp op then
    let w := if dFmtA d = 1 then 64 else if dFmtA d = 2 then 32 else 16
    ceilDiv (2048 / w) (vRate op (dFmtA d)).1
  else 1

/-- The clocks of the STATS scan (R83, R85, R86). -/
def scanClocks (d : Nat) : Nat :=
  if !scans d then 0
  else
    let rate := if dOpcode d = 0x11 then 2048 else 1024
    let mx := dMxA d || dMxB d
    let one := fun (o : TOp) (m : Bool) => if m then ceilDiv o.n 32 else bytesOf o
    let n := one (opA d) (dMxA d) + (if usesB (dOpcode d) then one (opB d) (dMxB d) else 0)
    ceilDiv n rate + (if mx then 8 else 0)

/-- The rate of a MOVE at an address, as bytes per 16,000 tile clocks at `mhz` (R95, R129). -/
def moveRate (s : State) (t a : Nat) : Nat :=
  match locOf (getTile s t) a with
  | some (.sram x) => 16000 * (if x < poolBytes then 12288 else if x < 0x14000000 then 1024 else 2048)
  | some (.dram _ _ _) =>
    let ports := if a < 24 * gib then 18 else 6
    let rows := [16, 12, 8, 4, 2].getD (getTile s t).rowStep 16
    ports * rows * 1024 * 1000 * 1000 / max 1 (getTile s t).mhz
  | none => 0

/-- Cycles of a descriptor that ran to its end (R79, R82, R83, R600, R512).  The SPILL adjustment of
R82 stands in R600's formula of VDOT as it does in R82's, for the rows of the last group of 64
(DEDUCED, log 16).  Scale tensors add no first wait (DEDUCED, log 16). -/
def cyclesOf (s : State) (t kind p d extra : Nat) : Nat :=
  let op := dOpcode d
  let m := dM d
  let base :=
    if op = 0x01 then
      let nm := ceilDiv m 64
      let last := m - 64 * (nm - 1)
      let sum := ceilDiv (dN d) 64 * ceilDiv (dK d) (kc (dFmtA d) (dFmtB d)) * ((nm - 1) * 64 + max last 8)
      40 + sum + 16 + (if dSpill d then ceilDiv (last * 64 * 48) 1024 else last) + 12 + 20
    else if op = 0x11 then
      let last := m - 64 * (ceilDiv m 64 - 1)
      40 + m * ceilDiv (dK d) (vdotRate (dFmtA d) (dFmtB d)) + 16 + (if dSpill d then ceilDiv (last * 64 * 48) 1024 else 0) + 12 + 20
    else if op = 0x10 then
      40 + max (ceilDiv (bytesOf (opOut d)) 256) (ceilDiv (nOut d) 128) + 12 + 20 + (if dMxOut d then 8 else 0)
    else if op = 0x02 then
      let n := TOp_blocks (opOut d) * 4096
      let own := if kind = 0 then 1024 else 2048
      let rate := min (own * 16000) (min (moveRate s t (opA d).addr) (moveRate s t (opOut d).addr))
      40 + ceilDiv (n * 16000) (max 1 rate) + 20
    else
      let (r, lat) := vRate op (dFmtA d)
      if isRowOp op then 40 + m * ceilDiv (dN d) r + lat + 20 else 40 + ceilDiv (m * dN d) r + lat + 20
  let fill := if isAccum op && dFill d then ceilDiv (bytesOf (opAcc d)) 1024 else 0
  let waits := [firstWait s t kind p (opA d).addr]
    ++ (if usesB op then [firstWait s t kind p (opB d).addr] else [])
    ++ (if usesAcc d then [firstWait s t kind p (opAcc d).addr] else [])
  base + fill + scanClocks d + waits.foldl max 0 + extra

end Sys2Proof.Machine
end

