-- ==== Sys2Proof/Machine/Cores.lean ====
section
/-!
DEFINITION. The commands of the cores (03_cores.md): the Xmtd instructions of an S-core
(R91), completion queues (R93), and the running of descriptors (R78, R79, R142 to R144).
-/
namespace Sys2Proof.Machine

def kindNat : CoreKind → Nat
  | .m => 0
  | .v => 1

/-- An S-core executes instructions: its tile is open, and it is neither retired nor
pending retirement (R147). -/
def sCoreRuns (s : State) (t p : Nat) : Bool :=
  tileOpen s t && bit (usableCores (getTile s t) 2) p && !bit (getTile s t).pendingS p

/-! ### Physical memory protection (R90)

R90 gives an S-core 16 PMP entries and leaves their layout to the RISC-V specification: the
configuration byte (R, W, X in [2:0], the match in [4:3], the lock in [7]) and the address register
in units of 4 bytes are that specification's (PRESUMED, log 96). -/

def pmpEntry (c : SCore) (i : Nat) : Pmp := Tab.get {} c.pmp i

/-- The number of low set bits of an address register, of 64 at most. -/
def lowOnes (v : Nat) : Nat → Nat
  | 0 => 0
  | n + 1 => if v % 2 = 1 then 1 + lowOnes (v / 2) n else 0

/-- The range that an entry matches: start and end, in bytes. -/
def pmpRange (c : SCore) (i : Nat) : Option (Nat × Nat) :=
  let e := pmpEntry c i
  let v := e.addr.toNat % 2 ^ 54
  match bits e.cfg.toNat 3 2 with
  | 0 => none
  | 1 => some (if i = 0 then 0 else (pmpEntry c (i - 1)).addr.toNat % 2 ^ 54 * 4, v * 4)
  | 2 => some (v * 4, v * 4 + 4)
  | _ =>
    let k := lowOnes v 54
    some (v / 2 ^ k * 2 ^ k * 4, (v / 2 ^ k * 2 ^ k + 2 ^ (k + 1)) * 4)

/-- PMP denies a load or a store of `n` bytes: the lowest entry that matches one of the bytes
decides and must match them all; machine mode passes an entry that is not locked, and no match
denies user mode only. -/
def pmpDenies (c : SCore) (a n : Nat) (store : Bool) : Bool :=
  let hit := (List.range 16).find? (fun i => match pmpRange c i with
    | some (lo, hi) => decide (a < hi && lo < a + n)
    | none => false)
  match hit with
  | none => c.user
  | some i =>
    let cfg := (pmpEntry c i).cfg.toNat
    let whole := match pmpRange c i with | some (lo, hi) => decide (lo ≤ a && a + n ≤ hi) | none => false
    !whole || ((c.user || bit cfg 7) && !bit cfg (b2n store))

/-! ### CSRs (R93) -/

/-- tdid (R93): physical tile, physical S-core, logical tile, logical S-core. -/
def tdid (s : State) (t p : Nat) : Nat :=
  t * 2 ^ 24 + p * 2 ^ 16 + (logicalTile s t).getD 0 * 2 ^ 8 + (logicalCore (getTile s t) 2 p).getD 0

/-- Bit 16 of mip (R93): an enabled queue of the S-core holds an unread record; bit 17 is the tile's
job-end bit (R307). -/
def mip (s : State) (t p : Nat) : Nat :=
  b2n ([0, 1, 2, 3].any (fun q => let x := Tab.get {} (getSCore s t p).cq q; cqEnabled x && 0 < x.count)) * 2 ^ 16
    + b2n (getTile s t).mip17 * 2 ^ 17

/-- The completion-queue interrupt is taken: pending, and enabled by mie bit 16 (R93). -/
def cqInterrupt (s : State) (t p : Nat) : Bool := bit (mip s t p) 16 && bit (getSCore s t p).mie.toNat 16

/-- The CSRs of R93 and R90 as the S-core reads them: none for a number that is not one of them, or
that user mode may not read. -/
def csrRead (s : State) (t p n : Nat) : Option DWord :=
  let c := getSCore s t p
  if n = 0x800 then some c.tdwait
  else if n = 0xCC0 then some (BitVec.ofNat 64 (tdid s t p))
  else if n = 1 then some (BitVec.ofNat 64 (c.fcsr % 32))
  else if n = 2 then some (BitVec.ofNat 64 (c.fcsr / 32 % 8))
  else if n = 3 then some (BitVec.ofNat 64 c.fcsr)
  else if c.user then none
  else if 0x7C0 ≤ n && n ≤ 0x7C3 then some (Tab.get {} c.cq (n - 0x7C0)).csr
  else if n = 0x304 then some c.mie
  else if n = 0x344 then some (BitVec.ofNat 64 (mip s t p))
  else if n = 0x3A0 || n = 0x3A2 then
    some (BitVec.ofNat 64 (leNat ((List.range 8).map (fun i => (pmpEntry c ((n - 0x3A0) * 4 + i)).cfg))))
  else if 0x3B0 ≤ n && n < 0x3C0 then some (pmpEntry c (n - 0x3B0)).addr
  else none

/-- A write of a CSR other than tdcq0 to tdcq3: none where it does not exist, is read-only, or is
machine mode's and the S-core is in user mode.  A locked PMP entry keeps its value. -/
def csrWrite (c : SCore) (n : Nat) (v : DWord) : Option SCore :=
  let setPmp := fun (c : SCore) (i : Nat) (g : Pmp → Pmp) =>
    if bit (pmpEntry c i).cfg.toNat 7 then c else { c with pmp := Tab.mod {} c.pmp i g }
  if n = 0x800 then some { c with tdwait := v }
  else if n = 1 then some { c with fcsr := c.fcsr / 32 * 32 + v.toNat % 32 }
  else if n = 2 then some { c with fcsr := c.fcsr % 32 + v.toNat % 8 * 32 }
  else if n = 3 then some { c with fcsr := v.toNat % 256 }
  else if c.user then none
  else if n = 0x304 then some { c with mie := v }
  else if n = 0x3A0 || n = 0x3A2 then
    some ((List.range 8).foldl (fun c i => setPmp c ((n - 0x3A0) * 4 + i) (fun e =>
      { e with cfg := BitVec.ofNat 8 (v.toNat / 2 ^ (8 * i)) })) c)
  else if 0x3B0 ≤ n && n < 0x3C0 then some (setPmp c (n - 0x3B0) (fun e => { e with addr := v }))
  else none

/-- A negative code of R77 in a register. -/
def negCode (n : Nat) : DWord := 0#64 - BitVec.ofNat 64 n

/-- TD_ISSUE (R77, R91). -/
def execTdIssue (t p rd : Nat) (rs1 rs2 : DWord) (pmpDenied : Bool) (s : State) : Out :=
  if !sCoreRuns s t p then .next s
  else
    let a := rs1.toNat
    if a % 128 ≠ 0 || a < onDieBase || onDieBase + poolBytes < a + 128 then .next (setRd s t p rd (negCode 11))
    else if pmpDenied || pmpDenies (getSCore s t p) a 128 false then .next (raiseExc s t p .loadAccess)
    else
      let tl := getTile s t
      let d := leNat (bytesAt s t a 128)
      let kind := bits rs2.toNat 8 2
      let core := if kind ≤ 1 then physCore tl kind (bits rs2.toNat 0 8) else none
      let q := match core with | some c => coreQueue s t kind c | none => []
      let code := issueCode tl d kind core (countP (fun e => e.record.isNone) q)
      match code, core with
      | 0, some c =>
        let tk := (getSCore s t p).ticket
        let e : QDesc := { d := d, ticket := tk, score := p }
        let s := setCoreQueue s t kind c (q ++ [e])
        let s := modSCore s t p (fun x => { x with ticket := (tk + 1) % 2 ^ 31 })
        let s := setRd s t p rd (BitVec.ofNat 64 tk)
        .next (if bit (pendingCores tl kind) c then abortDescriptor s t kind c e else s)
      | n, _ => .next (setRd s t p rd (negCode n))

/-- TD_ABORT (R91): 0 if the ticket was queued or running, 1 otherwise. -/
def execTdAbort (t p rd : Nat) (rs1 rs2 : DWord) (s : State) : Out :=
  if !sCoreRuns s t p then .next s
  else
    let kind := bits rs2.toNat 8 2
    match (if kind ≤ 1 then physCore (getTile s t) kind (bits rs2.toNat 0 8) else none) with
    | none => .next (setRd s t p rd 1#64)
    | some c =>
      let mine := fun (e : QDesc) => e.ticket = rs1.toNat && e.score = p && e.record.isNone
      match (coreQueue s t kind c).find? mine with
      | none => .next (setRd s t p rd 1#64)
      | some e =>
        let s := setRd s t p rd 0#64
        if e.started then
          .next (setCoreQueue s t kind c (updFirst mine (fun x => { x with abort := true }) (coreQueue s t kind c)))
        else .next (abortDescriptor s t kind c e)

/-- TD_POLL (R91). -/
def execTdPoll (t p rd : Nat) (rs1 : DWord) (s : State) : Out :=
  if !sCoreRuns s t p then .next s
  else if 3 < rs1.toNat then .next (raiseExc s t p .illegalInstruction)
  else
    let q := Tab.get {} (getSCore s t p).cq rs1.toNat
    .next (setRd s t p rd (if cqEnabled q && 0 < q.count then
      BitVec.ofNat 64 (onDieBase + cqBase q + 32 * q.oldest) else 0#64))

/-- TD_POP (R91). -/
def execTdPop (t p : Nat) (rs1 : DWord) (s : State) : Out :=
  if !sCoreRuns s t p then .next s
  else if 3 < rs1.toNat then .next (raiseExc s t p .illegalInstruction)
  else
    let s := clearExc s t p
    let q := Tab.get {} (getSCore s t p).cq rs1.toNat
    if cqEnabled q && 0 < q.count then
      let q := { q with oldest := (q.oldest + 1) % 256, count := q.count - 1 }
      .next (modSCore s t p (fun c => { c with cq := Tab.put {} c.cq rs1.toNat q }))
    else .next s

/-- SY_SIGNAL (R91, R92). -/
def execSySignal (t p : Nat) (rs1 rs2 : DWord) (s : State) : Out :=
  if !sCoreRuns s t p then .next s
  else if !syncNameOk rs1.toNat then .next (raiseExc s t p .illegalInstruction)
  else .next (syncAdd (clearExc s t p) t rs1.toNat (rs2.setWidth 32))

/-- SY_WAIT (R91, R92): the count at once where it is reached; else the S-core stalls, for
at most tdwait tile clocks. -/
def execSyWait (t p rd : Nat) (rs1 rs2 tdwait : DWord) (s : State) : Out :=
  if !sCoreRuns s t p then .next s
  else if !syncNameOk rs1.toNat then .next (raiseExc s t p .illegalInstruction)
  else
    let s := modSCore s t p (fun c => { c with tdwait := tdwait, exc := none })
    let v : Word := rs2.setWidth 32
    let c := syncGet s t rs1.toNat
    if reaches c v then .next (setRd s t p rd (c.setWidth 64))
    else
      let limit := if tdwait = 0#64 then none
        else some (s.now + ceilDiv (tdwait.toNat * 1000000) (max 1 (getTile s t).mhz))
      .next (modSCore s t p (fun c => { c with stalls := .sync rs1.toNat v rd limit :: c.stalls }))

/-- SY_WAIT_RELEASE (R92). -/
def execSyWaitRelease (t p : Nat) (s : State) : Out :=
  if !sCoreRuns s t p then .next s
  else
    match (getSCore s t p).stalls with
    | .sync name v rd _ :: rest =>
      let c := syncGet s t name
      if reaches c v then
        .next (setRd (modSCore s t p (fun x => { x with stalls := rest })) t p rd (c.setWidth 64))
      else .next s
    | _ => .next s

/-- SY_WAIT_TIMEOUT (R91): rd = -1. -/
def execSyWaitTimeout (t p : Nat) (s : State) : Out :=
  if !sCoreRuns s t p then .next s
  else
    match (getSCore s t p).stalls with
    | .sync name v rd (some limit) :: rest =>
      if reaches (syncGet s t name) v then .next s
      else
        let s := advanceTo s limit
        .next (setRd (modSCore s t p (fun x => { x with stalls := rest })) t p rd (negCode 1))
    | _ => .next s

/-- Descriptors of an S-core that have neither completed nor been aborted (R91).  A descriptor
whose record is held back for a full or disabled queue has not completed for td.fence, while td.abort
finds it neither queued nor running and answers 1 (DEDUCED, log 20). -/
def outstanding (s : State) (t p : Nat) : Nat :=
  let tl := getTile s t
  let n := fun (q : Tab (List QDesc)) => (q.map (fun e => countP (fun (x : QDesc) =>
    x.score = p && !(match x.record with | some r => field r 8 1 = 3 | none => false)) e.2)).sum
  n tl.mQueue + n tl.vQueue

/-- TD_FENCE (R91). -/
def execTdFence (t p : Nat) (s : State) : Out :=
  if !sCoreRuns s t p then .next s
  else
    let s := clearExc s t p
    if outstanding s t p = 0 then .next s
    else .next (modSCore s t p (fun c => { c with stalls := .fence :: c.stalls }))

/-- TD_FENCE_RELEASE (R91). -/
def execTdFenceRelease (t p : Nat) (s : State) : Out :=
  if !sCoreRuns s t p then .next s
  else
    match (getSCore s t p).stalls with
    | .fence :: rest =>
      if outstanding s t p = 0 then .next (modSCore s t p (fun x => { x with stalls := rest })) else .next s
    | _ => .next s

/-- The held record that was produced first (R93). -/
def oldestHeld : List (Nat × Nat × QDesc) → Option (Nat × Nat × QDesc)
  | [] => none
  | x :: l =>
    match oldestHeld l with
    | none => some x
    | some y => if x.2.2.heldAt ≤ y.2.2.heldAt then some x else some y

/-- Write the oldest held record of a queue, where there is a slot (R93); the SIGNAL_SYNC of
its descriptor follows (R78). -/
def writeHeld (s : State) (t p q : Nat) : State :=
  if !cqOpen s t p q then s
  else
    match oldestHeld (heldFor s t p q) with
    | none => s
    | some (kind, c, e) =>
      match e.record with
      | none => s
      | some r =>
        let s := setCoreQueue s t kind c (dropFirst (fun x => x.ticket = e.ticket && x.score = p) (coreQueue s t kind c))
        signalDone (cqPush s t p q r) t e.d (field r 8 1)

/-- Write held records until none is left or the ring is full. -/
def writeHeldAll (t p q : Nat) : Nat → State → State
  | 0, s => s
  | n + 1, s => writeHeldAll t p q n (writeHeld s t p q)

/-- TDCQ_WRITE (R93): an enabled result starts the ring empty and takes the records held
back; an enable of a ring that leaves the pool is held at 0.  A number from 4 on is that of another
CSR (DESIGN CHOICE, log 96).  A CSR that the mode may not write raises an illegal-instruction
exception. -/
def execTdcqWrite (t p q : Nat) (v : DWord) (s : State) : Out :=
  if !sCoreRuns s t p then .next s
  else if 3 < q then
    match csrWrite (getSCore s t p) q v with
    | some c => .next (clearExc (modSCore s t p (fun _ => c)) t p)
    | none => .next (raiseExc s t p .illegalInstruction)
  else if (getSCore s t p).user then .next (raiseExc s t p .illegalInstruction)
  else
    let base := v.toNat / 8192 * 8192
    let en := v.toNat % 2 = 1 && base + 8192 ≤ poolBytes
    let csr := BitVec.ofNat 64 (base + b2n en)
    let s := clearExc s t p
    let s := modSCore s t p (fun c => { c with cq := Tab.put {} c.cq q { csr := csr } })
    .next (if en then writeHeldAll t p q (heldFor s t p q).length s else s)

/-- COMPLETION_RECORD_DEFERRED (R93). -/
def execCompletionRecordDeferred (t p q : Nat) (s : State) : Out :=
  if !tileOpen s t then .next s else .next (writeHeld s t p q)

/-- S_CORE_CHECK_REPLAY (R513). -/
def execSCoreCheckReplay (t p : Nat) (passes : Bool) (s : State) : Out :=
  if !sCoreRuns s t p then .next s
  else if passes then .next (coreReport s 0x22 t 2 p 0 0)
  else
    let s := coreReport s 0x23 t 2 p 0 0
    let s := modSCore s t p (fun c => { c with exc := some .machineCheck, user := false, userEnded := true })
    .next (confirmedFault s (.sCore t p))

/-! ### Running a descriptor -/

/-- Why a run of a descriptor stops before its last output block. -/
inductive Stop where
  | status (st badBlk : Nat)
  | wait (m : Mismatch)
  | reset (addr : Nat)
  | residue (b : Nat)
  deriving DecidableEq, Repr

/-- A descriptor in progress. -/
structure Run where
  s : State
  e : QDesc
  stop : Option Stop := none
  loaded : Loaded := []
  poison : Bool := false
  deriving DecidableEq, Repr

/-- R142: RACE and UNSTITCHED are counted and logged. -/
def programError (s : State) (t kind p : Nat) (race : Bool) (tid blk : Nat) : State :=
  let s := bump s 0x6500 (if race then 5 else 6)
  coreReport s (if race then 0x00 else 0x01) t kind p blk (blockTag tid blk)

/-- POISON_CONSUMPTION (R152): counted, and logged with the consuming job's slice. -/
def consumePoison (s : State) (t kind p a : Nat) : State :=
  let sl := (jobOfTile s t).map (·.1)
  report (bump s 0x6500 8) { cls := 0x19, kind := kindOf kind, place := t, unit := p, logical := logicalCore (getTile s t) kind p, slice := sl, tag := a }

/-- Take one input block of a run (R142, R148, R152).  `copies` says that the descriptor
copies and does not consume poison (MOVE). -/
def takeBlock (t kind p : Nat) (copies : Bool) (fl : List Flip) (r : Run) (b : InBlk) : Run :=
  if r.stop.isSome || r.loaded.any (fun x => x.1 = b.1) then r
  else
    let (s, f) := fetch r.s t b.1 b.2.1 b.2.2 fl r.e.verified
    match f with
    | .ok data poison =>
      if poison && !copies then
        { r with s := consumePoison s t kind p b.1, stop := some (.status 2 b.2.2) }
      else { r with s := s, loaded := (b.1, data) :: r.loaded, poison := r.poison || poison }
    | .race => { r with s := programError s t kind p true b.2.1 b.2.2, stop := some (.status 1 b.2.2) }
    | .unstitched => { r with s := programError s t kind p false b.2.1 b.2.2, stop := some (.status 1 b.2.2) }
    | .parity =>
      let s := coreReport s 0x15 t kind p 0 b.1
      { r with s := s, stop := some (.status 1 b.2.2) }
    | .mismatch c => { r with s := s, stop := some (.wait { addr := b.1, tid := b.2.1, blk := b.2.2, first := c }) }
    | .badRow => { r with s := s, stop := some (.reset b.1) }

def takeBlocks (t kind p : Nat) (copies : Bool) (fl : List Flip) (bs : List InBlk) (r : Run) : Run :=
  bs.foldl (takeBlock t kind p copies fl) r

/-- A DRAM die that a range touches takes no request: it is not Active, or, for work that has not
begun, it drains (R122, R123). -/
def shutRange (tl : Tile) (started : Bool) (a n : Nat) : Bool :=
  n ≠ 0 && !((diesOf tl a n).all (fun d => let x := Tab.get {} tl.dies d; x.state = 1 && (started || !x.draining)))

/-- The first of `n` blocks from `a` on that lies in a closed die, as a block index from `blk` on. -/
def firstShut (tl : Tile) (started : Bool) (a n blk : Nat) : Option Nat :=
  if shutRange tl started a (4096 * n) then
    (((List.range n).find? (fun i => shutRange tl started (a + 4096 * i) 4096)).map (fun i => (blk + i) % 2 ^ 32))
  else none

/-- The first input block of a descriptor that lies in a closed DRAM die (R79, R123); 0xFFFF_FFFF
where only its output or its flag map does. -/
def asleepOperand (s : State) (t : Nat) (started : Bool) (d : Nat) : Option Nat :=
  let tl := getTile s t
  let o := fun (c : Bool) (x : TOp) => if c then firstShut tl started x.addr (TOp_blocks x) x.blk else none
  let sc := fun (c : Bool) (x : TOp) (a : Nat) =>
    let so := scaleOf x a
    if c then firstShut tl started (a / 4096 * 4096) (ceilDiv (a % 4096 + so.n) 4096) so.blk else none
  let ins := [o true (opA d), o (usesB (dOpcode d)) (opB d), o (usesAcc d) (opAcc d),
    sc (dMxA d) (opA d) (dAddr d 6), sc (dMxB d) (opB d) (dAddr d 7)]
  match ins.findSome? id with
  | some b => some b
  | none => if (ranges d).any (fun r => shutRange tl started r.1 r.2.1) then some 0xFFFFFFFF else none

/-- Write the scale bytes of an MX output block (R74, R75): each scale block touched is
merged and stitched again. -/
def mergeScales (s : State) (t d b : Nat) (loaded : Loaded) (xs : List Nat) : State :=
  let so := scaleOf (opOut d) (dAddr d 7)
  let first := so.addr + b * perBlock (dFmtOut d) / 32
  let bs := scaleBlocks so (b * perBlock (dFmtOut d)) (b * perBlock (dFmtOut d) + 32 * xs.length - 1)
  bs.foldl (fun s k =>
    let old := if (cellAt s t k.1).state = 0#2 && !isRaw so.tid then fit 4096 [] else
      (if loaded.any (fun x => x.1 = k.1) then loadedAt loaded k.1 else bytesAt s t k.1 4096)
    let new := (List.range 4096).map (fun i =>
      if first ≤ k.1 + i && k.1 + i < first + xs.length then BitVec.ofNat 8 (xs.getD (k.1 + i - first) 0)
      else old.getD i 0#8)
    writeBlock s t k.1 k.2.1 k.2.2 new false) s

/-- The scale blocks of an MX output block that must pass a check before the merge. -/
def scaleMergeReads (s : State) (t d b n : Nat) : List InBlk :=
  if dMxOut d && 0 < n then
    let so := scaleOf (opOut d) (dAddr d 7)
    (scaleBlocks so (b * perBlock (dFmtOut d)) (b * perBlock (dFmtOut d) + n - 1)).filter
      (fun k => isRaw so.tid || (cellAt s t k.1).state ≠ 0#2)
  else []

/-- The write of output block `b` fails: a row is refused (operand), or its flag-map byte
lies in a row that carries its bad-data mark (R79, R111). -/
def writeFails (s : State) (t d b : Nat) (wfail : List Nat) : Bool :=
  wfail.contains b || (dFlagMap d && anyBadRow s t (dAddr d 9 + b) 1)

/-- The next output block of a run (R78, R79, R81, R512). -/
def runBlock (t kind p : Nat) (fl : List Flip) (res : List ResidueEvent) (wfail : List Nat) (upTo : Nat)
    (r : Run) : Run :=
  let d := r.e.d
  let b := r.e.blocksDone
  let o := opOut d
  if r.stop.isSome || outBlocks d ≤ b then r
  else if r.e.abort && upTo ≤ b then { r with stop := some (.status 3 0xFFFFFFFF) }
  else
    let copy := dOpcode d = 0x02
    let per := perBlock o.fmt
    let p0 := b * per
    let p1 := min o.n (p0 + per) - 1
    let r := { r with loaded := [], poison := false }
    let ins := if copy then [((opA d).addr + 4096 * b, (opA d).tid, ((opA d).blk + b) % 2 ^ 32)] else needs d p0 p1
    let r := takeBlocks t kind p copy fl (ins ++ scaleMergeReads r.s t d b (p1 - p0 + 1)) r
    if r.stop.isSome then r
    else
      let evs := if copy then [] else res.filter (fun x => x.blk = b)
      let again := evs.foldl (fun n x => n + (match x.kind with
        | .passAfterOne => 1 | .passAfterTwo => 2 | .permanent => 1)) 0
      let r := { r with e := { r.e with extra := r.e.extra + again * arrayClocks d b } }
      if evs.any (fun x => x.kind = .permanent) then { r with stop := some (.residue b) }
      else
        let tag := b * 2 ^ 32 + r.e.ticket
        let s := if evs.isEmpty then r.s else coreReport r.s 0x20 t kind p (dw d 15 0 32) tag
        let a := o.addr + 4096 * b
        let blk := (o.blk + b) % 2 ^ 32
        if writeFails s t d b wfail then
          let s := if isRaw o.tid then s else modCell s t a beginCell
          { r with s := s, stop := some (.status 5 blk) }
        else if copy then
          let data := loadedAt r.loaded ((opA d).addr + 4096 * b)
          { r with s := writeBlock s t a o.tid blk data r.poison, e := { r.e with blocksDone := b + 1 } }
        else
          let ob := computeBlock r.loaded d (seedOfTile s t) r.e.anchor b p0 p1
          let s := writeBlock s t a o.tid blk (blockBytes o.fmt ob s.free) false
          let s := if p1 + 1 - p0 < per then nextFree s else s
          let s := if dMxOut d then mergeScales s t d b r.loaded ob.scales else s
          let s := if dFlagMap d then rawWrite s t (dAddr d 9 + b) [ob.flags] else s
          let e := { r.e with blocksDone := b + 1, flags := r.e.flags ||| ob.flags, ieee := r.e.ieee ||| ob.ieee }
          { r with s := s, e := e }

/-- Run output blocks until one stops or all are written. -/
def runBlocks (t kind p : Nat) (fl : List Flip) (res : List ResidueEvent) (wfail : List Nat) (upTo : Nat) :
    Nat → Run → Run
  | 0, r => r
  | n + 1, r =>
    if r.stop.isSome then r else runBlocks t kind p fl res wfail upTo n (runBlock t kind p fl res wfail upTo r)

/-- Write back how far a descriptor has run. -/
def keepDesc (s : State) (t kind p : Nat) (e : QDesc) : State :=
  setCoreQueue s t kind p (updFirst (fun x => x.ticket = e.ticket && x.score = e.score) (fun _ => e) (coreQueue s t kind p))

/-- End a descriptor that started and did not reach its end: its Cycles run from its start until
its record is ready (R79), and no rule gives the time of an early end. -/
def endEarly (s : State) (t kind p : Nat) (e : QDesc) (status badBlk : Nat) : State :=
  endDescriptor (nextFree s) t kind p e status (anchorUsed e.d e.anchor) (openValue s) badBlk

/-- End a run as it stopped (R79, R143, R149, R512). -/
def settle (t kind p : Nat) (r : Run) : State :=
  let d := r.e.d
  match r.stop with
  | none => endDescriptor r.s t kind p r.e 0 (anchorUsed d r.e.anchor) (cyclesOf r.s t kind p d r.e.extra) 0xFFFFFFFF
  | some (.status st bad) => endEarly r.s t kind p r.e st bad
  | some (.wait m) => keepDesc r.s t kind p { r.e with mismatch := some m }
  | some (.reset a) => containRange r.s t a 4096
  | some (.residue b) =>
    let s := coreReport r.s 0x21 t kind p (dw d 15 0 32) (b * 2 ^ 32 + r.e.ticket)
    let s := endEarly s t kind p r.e 3 0xFFFFFFFF
    confirmedFault s (coreUnit t kind p)

/-- A record of the core is held back: it starts nothing further (R93). -/
def holdsRecord (s : State) (t kind p : Nat) : Bool := (coreQueue s t kind p).any (fun e => e.record.isSome)

/-- The head of a core's queue that may act: no record waits before it (R78, R93). -/
def headOf (s : State) (t kind p : Nat) : Option QDesc :=
  match coreQueue s t kind p with
  | e :: _ => if e.record.isSome || e.mismatch.isSome then none else some e
  | [] => none

/-- The blocks that a STATS scan reads (R53, R83). -/
def scanBlocks (d : Nat) : List InBlk :=
  let one := fun (o : TOp) (sc : Option SOp) => match sc with
    | some so => scaleBlocks so 0 (o.n - 1)
    | none => blocksOf o 0 (o.n - 1)
  one (opA d) (scaleA d) ++ (if usesB (dOpcode d) then one (opB d) (scaleB d) else [])

/-- End a descriptor that never started with a status (R79, R123): no anchor came into force. -/
def abortOrSleep (s : State) (t kind p : Nat) (e : QDesc) (status badBlk : Nat) : State :=
  endDescriptor s t kind p e status 0 0 badBlk

/-- DESCRIPTOR_START (R78, R123, R53).  In a tile that a sleep entry has closed (R541), a descriptor
with an operand in a die that drains or sleeps ends ASLEEP, and any other stays queued. -/
def execDescriptorStart (t : Nat) (kind : CoreKind) (p : Nat) (flips : List Flip) (s : State) : Out :=
  let k := kindNat kind
  if !tileRuns s t || holdsRecord s t k p then .next s
  else
    match headOf s t k p with
    | none => .next s
    | some e =>
      let ready := dWaitSync e.d = 0xFFFF
        || reaches (syncGet s t (dWaitSync e.d)) (BitVec.ofNat 32 (dWaitValue e.d))
      if e.started || !ready then .next s
      else
        match asleepOperand s t false e.d with
        | some bad => .next (abortOrSleep s t k p e 4 bad)
        | none =>
          if s.fc.closed then .next s else
          let r : Run := { s := s, e := e }
          let r := if scans e.d then takeBlocks t k p false flips (scanBlocks e.d) r else r
          if r.stop.isSome then .next (settle t k p r)
          else .next (keepDesc r.s t k p { e with started := true, anchor := anchorOf r.s t e.d })

/-- DESCRIPTOR_COMPLETE (R78, R79). -/
def execDescriptorComplete (t : Nat) (kind : CoreKind) (p : Nat) (flips : List Flip) (res : List ResidueEvent)
    (wfail : List Nat) (upTo : Nat) (s : State) : Out :=
  let k := kindNat kind
  if !tileWorks s t then .next s
  else
    match headOf s t k p with
    | none => .next s
    | some e =>
      if !e.started then .next s
      else
        match asleepOperand s t true e.d with
        | some bad => .next (settle t k p { s := s, e := e, stop := some (.status 4 bad) })
        | none =>
          let r := runBlocks t k p flips res wfail upTo (outBlocks e.d - e.blocksDone) { s := s, e := e }
          let r := if r.stop.isNone && e.abort then { r with stop := some (.status 3 0xFFFFFFFF) } else r
          .next (settle t k p r)

/-- R144: the unit charged for a mismatch, by the source of the block. -/
def chargedUnit (s : State) (t kind p a : Nat) : UnitId :=
  match locOf (getTile s t) a with
  | some (.sram x) => if injectPoint (.sram x) = (1 + kind, p) then coreUnit t kind p else .tile t
  | _ => .tile t

/-- STITCH_REPEAT_FETCH (R143, R144). -/
def execStitchRepeatFetch (t : Nat) (kind : CoreKind) (p : Nat) (flips : List Flip) (s : State) : Out :=
  let k := kindNat kind
  if !tileWorks s t then .next s
  else
    match coreQueue s t k p with
    | e :: _ =>
      match e.mismatch with
      | none => .next s
      | some m =>
        let e := { e with mismatch := none }
        let (s, f) := fetch s t m.addr m.tid m.blk flips []
        let charge := fun (s : State) => confirmedFault s (chargedUnit s t k p m.addr)
        let rep := fun (s : State) (cls : Nat) => coreReport s cls t k p m.blk (blockTag m.tid m.blk)
        let fin := fun (s : State) => endEarly s t k p e 1 m.blk
        match f with
        | .ok _ _ => .next (charge (rep (bump (keepDesc s t k p { e with verified := m.addr :: e.verified }) 0x6500 2) 0x08))
        | .mismatch c =>
          if c = m.first then .next (charge (rep (bump (fin s) 0x6500 3) 0x09))
          else .next (charge (rep (bump (fin s) 0x6500 4) 0x0A))
        | .race => .next (programError (fin s) t k p true m.tid m.blk)
        | .unstitched => .next (programError (fin s) t k p false m.tid m.blk)
        | .parity => .next (fin s)
        | .badRow => .next (containRange s t m.addr 4096)
    | [] => .next s

/-! ### S-core loads and stores (R90, R94, R111, R140, R514) -/

/-- A byte range lies in one mapped piece of the tile address map. -/
def sCoreRange (s : State) (t a n : Nat) : Bool := rangeExists (getTile s t) a n

/-- A POISON cell covers a byte of the range (R152). -/
def touchesPoison (s : State) (t a n : Nat) : Bool :=
  (cellAt s t a).state = 2#2 || (cellAt s t (a + n - 1)).state = 2#2

/-- Write a register: 0 to 31 an integer register, 32 to 63 a floating-point one; a load of 4 bytes to
one of those is NaN-boxed (R90: RV64GC; PRESUMED, log 96). -/
def setLoaded (s : State) (t p rd size : Nat) (v : DWord) : State :=
  if rd / 32 % 2 = 0 then setRd s t p rd v
  else
    let w : DWord := if size = 4 then v ||| 0xFFFFFFFF00000000#64 else v
    modSCore s t p (fun c => { c with f := Tab.put 0#64 c.f (rd % 32) w, exc := none })

/-- S_CORE_LOAD_STORE.  A store of 1, 2 or 4 bytes to DRAM changes just its bytes: R111 writes whole
8-byte words, and the S-core's word holds the other bytes as they were (DEDUCED, log 97).  A read of
a marked row, and the read that a refused store begins with, are counted (R119). -/
def execSCoreLoadStore (t p : Nat) (store : Bool) (addr size : Nat) (data : DWord) (rd : Nat) (signExt : Bool)
    (pmpDenied : Bool) (flips : List Flip) (fails : Nat) (s : State) : Out :=
  if !sCoreRuns s t p || !(size = 1 || size = 2 || size = 4 || size = 8) then .next s
  else
    let bad := if store then Exc.storeAccess else Exc.loadAccess
    let tl := getTile s t
    if pmpDenied || pmpDenies (getSCore s t p) addr size store || !sCoreRange s t addr size || !rangeAwake tl addr size then
      .next (raiseExc s t p bad)
    else
      let dram := !(diesOf tl addr size).isEmpty
      let channel := fun (s : State) =>
        let s := bumpN s (0x6300 + t) 5 (min fails 2)
        if 3 ≤ fails then
          match locOf tl addr with
          | some (.dram d r _) =>
            report s { cls := 0x13, kind := 5, place := t, unit := d, detail := r, tag := addr }
          | _ => s
        else s
      let s := if dram then channel s else s
      if store then
        if dram && (3 ≤ fails || anyBadRow s t addr size) then .next (raiseExc (countRefused s t addr size) t p .storeAccess)
        else .next (clearExc (rawWrite s t addr (leBytes size data.toNat)) t p)
      else
        let clean := bytesAt s t addr size
        let got := applyFlips addr clean flips
        if dram && (3 ≤ fails || anyBadRow s t addr size) then
          let s := raiseExc (readBadRows s t addr size) t p .loadAccess
          let s := if poisonMode s then
              consumePoison s t 2 p addr
            else s
          .next (if 3 ≤ fails && !anyBadRow s t addr size then
              (match locOf tl addr with | some (.dram d r _) => contain s t d r | _ => s)
            else containRange s t addr size)
        else if poisonMode s && touchesPoison s t addr size then
          let s := raiseExc s t p .loadAccess
          .next (consumePoison s t 2 p addr)
        else if !dram && got ≠ clean && parityError (fit 8 clean) (fit 8 got) then
          .next (raiseExc (coreReport s 0x15 t 2 p 0 addr) t p .loadAccess)
        else
          let v := leNat got
          let w := if signExt then unsigned 64 (signed (8 * size) v) else v
          .next (setLoaded s t p rd size (BitVec.ofNat 64 w))

/-! ### Xmtd encodings (R91) -/

/-- The fields of an instruction word in R-type layout. -/
def xFunct7 (w : Word) : Nat := bits w.toNat 25 7
def xRs2 (w : Word) : Nat := bits w.toNat 20 5
def xRs1 (w : Word) : Nat := bits w.toNat 15 5
def xFunct3 (w : Word) : Nat := bits w.toNat 12 3
def xRd (w : Word) : Nat := bits w.toNat 7 5

/-- An Xmtd instruction that an S-core executes. -/
inductive Xmtd where
  | issue (rd rs1 rs2 : Nat)
  | abort (rd rs1 rs2 : Nat)
  | poll (rd rs1 : Nat)
  | pop (rs1 : Nat)
  | signal (rs1 rs2 : Nat)
  | wait (rd rs1 rs2 : Nat)
  | fence
  deriving DecidableEq, Repr

/-- R91: the custom-0 major opcode 0b0001011 by funct7 and funct3; register fields that an
instruction does not name are not looked at (DEDUCED, log 96). -/
def xmtdOf (w : Word) : Option Xmtd :=
  if w.toNat % 128 ≠ 0b0001011 then none
  else match xFunct7 w, xFunct3 w with
    | 0, 0 => some (.issue (xRd w) (xRs1 w) (xRs2 w))
    | 1, 0 => some (.abort (xRd w) (xRs1 w) (xRs2 w))
    | 0, 1 => some (.poll (xRd w) (xRs1 w))
    | 1, 1 => some (.pop (xRs1 w))
    | 0, 2 => some (.signal (xRs1 w) (xRs2 w))
    | 0, 3 => some (.wait (xRd w) (xRs1 w) (xRs2 w))
    | 0, 4 => some .fence
    | _, _ => none

/-- The word of an Xmtd instruction. -/
def xmtdWord : Xmtd → Word
  | .issue rd a b => BitVec.ofNat 32 (b % 32 * 2 ^ 20 + a % 32 * 2 ^ 15 + rd % 32 * 2 ^ 7 + 0b0001011)
  | .abort rd a b => BitVec.ofNat 32 (2 ^ 25 + b % 32 * 2 ^ 20 + a % 32 * 2 ^ 15 + rd % 32 * 2 ^ 7 + 0b0001011)
  | .poll rd a => BitVec.ofNat 32 (a % 32 * 2 ^ 15 + 2 ^ 12 + rd % 32 * 2 ^ 7 + 0b0001011)
  | .pop a => BitVec.ofNat 32 (2 ^ 25 + a % 32 * 2 ^ 15 + 2 ^ 12 + 0b0001011)
  | .signal a b => BitVec.ofNat 32 (b % 32 * 2 ^ 20 + a % 32 * 2 ^ 15 + 2 * 2 ^ 12 + 0b0001011)
  | .wait rd a b => BitVec.ofNat 32 (b % 32 * 2 ^ 20 + a % 32 * 2 ^ 15 + 3 * 2 ^ 12 + rd % 32 * 2 ^ 7 + 0b0001011)
  | .fence => BitVec.ofNat 32 (4 * 2 ^ 12 + 0b0001011)

/-- An integer register; x0 reads 0. -/
def xReg (s : State) (t p i : Nat) : DWord := if i % 32 = 0 then 0#64 else Tab.get 0#64 (getSCore s t p).x (i % 32)

/-- A custom-0 word at an S-core: the instruction that R91's table gives it, on the S-core's
registers; an encoding that the table does not define raises an illegal-instruction exception. -/
def execXmtdWord (t p : Nat) (w : Word) (s : State) : Out :=
  let x := xReg s t p
  match xmtdOf w with
  | some (.issue rd a b) => execTdIssue t p rd (x a) (x b) false s
  | some (.abort rd a b) => execTdAbort t p rd (x a) (x b) s
  | some (.poll rd a) => execTdPoll t p rd (x a) s
  | some (.pop a) => execTdPop t p (x a) s
  | some (.signal a b) => execSySignal t p (x a) (x b) s
  | some (.wait rd a b) => execSyWait t p rd (x a) (x b) (getSCore s t p).tdwait s
  | some .fence => execTdFence t p s
  | none => if !sCoreRuns s t p then .next s else .next (raiseExc s t p .illegalInstruction)

end Sys2Proof.Machine
end

