-- ==== Sys2Proof/Machine/Measure.lean ====
section
/-!
DEFINITION. What calibration computes from what is measured (16_calibration.md R489 to R493): the
result of a pass, the agreement of passes, and the setting decided.  Results are whole millionths
of the quantity's unit (ps, GHz, % of full swing, dB, degree, tap).
-/
namespace Sys2Proof.Machine

/-! ### Fixed-point arithmetic -/

/-- The symbols of a pass (R490). -/
def passSymbols : Nat := 2 ^ 20

/-- The integer square root, by `n` further bits. -/
def sqrtBits (x : Nat) : Nat → Nat → Nat
  | 0, r => r
  | n + 1, r => let y := r + 2 ^ n; sqrtBits x n (if y * y ≤ x then y else r)

/-- The integer square root of a number below 2^256. -/
def sqrtNat (x : Nat) : Nat := sqrtBits x 128 0

/-- Binary places of log2 of a mantissa in [2^63, 2^64), by repeated squaring. -/
def log2Frac (mant : Nat) : Nat → Nat
  | 0 => 0
  | n + 1 =>
    let sq := mant * mant / 2 ^ 63
    if 2 ^ 64 ≤ sq then 2 ^ n + log2Frac (sq / 2) n else log2Frac sq n

/-- 2^40 times log2 of a positive number. -/
def log2Fix (x : Nat) : Nat :=
  let e := Nat.log2 x
  e * 2 ^ 40 + log2Frac (x * 2 ^ 63 / 2 ^ e) 40

/-- 10 log10 (a / b), in millionths of a dB. -/
def dbOf (a b : Nat) : Int :=
  ((log2Fix a : Int) - log2Fix b) * 30102999566398 / (10 ^ 7 * 2 ^ 40)

/-- The terms of the arcsine series from x * c on, for `n` terms, at 2^40. -/
def asinSeries (x2 : Nat) : Nat → Nat → Nat → Nat
  | 0, _, _ => 0
  | n + 1, k, term =>
    term / (2 * k + 1) + asinSeries x2 n (k + 1) (term * x2 / 2 ^ 40 * (2 * k + 1) / (2 * k + 2))

/-- asin of x / 2^40 in 2^40ths of a radian, for x up to 2^40. -/
def asinFix (x : Nat) : Nat :=
  if 2 * x ≤ 2 ^ 40 then asinSeries (x * x / 2 ^ 40) 40 0 x
  else
    let y := sqrtNat ((2 ^ 40 - min x (2 ^ 40)) * 2 ^ 40 / 2)
    1727108826179 - 2 * asinSeries (y * y / 2 ^ 40) 40 0 y

/-- asin (a / b) in millionths of a degree. -/
def degOf (a : Int) (b : Nat) : Int :=
  let x : Nat := asinFix (min (2 ^ 40) (a.natAbs * 2 ^ 40 / max 1 b)) * 57295779513 / (1000 * 2 ^ 40)
  if a < 0 then -(x : Int) else (x : Int)

/-- The index of the greatest number of a list; of equals, the first. -/
def argMax (l : List Nat) : Nat :=
  (l.foldl (fun (a : Nat × Nat × Nat) x => if a.2.2 < x then (a.1 + 1, a.1, x) else (a.1 + 1, a.2)) (0, 0, 0)).2.1

/-! ### Seam windows (R493) -/

/-- The length of the cyclic run of passing taps that starts at `a`. -/
def runFrom (map a : Nat) : Nat → Nat
  | 0 => 0
  | n + 1 => if bit map (a % 64) then 1 + runFrom map (a + 1) n else 0

/-- The longest cyclic run of passing taps: start and length; of equals, the one that starts at the
lowest tap. -/
def tapWindow (map : Nat) : Nat × Nat :=
  (List.range 64).foldl (fun w a => if w.2 < runFrom map a 64 then (a, runFrom map a 64) else w) (0, 0)

/-- The centre of the window, rounded down; a window shorter than 20 taps gives no result. -/
def tapCentre (map : Nat) : Option Nat :=
  let w := tapWindow map
  if w.2 < 20 then none else some ((w.1 + (w.2 - 1) / 2) % 64)

/-- The distance of two taps on the cycle of 64. -/
def tapGap (a b : Nat) : Nat := min ((a + 64 - b) % 64) ((b + 64 - a) % 64)

/-- The lower of two agreeing taps. -/
def tapMean (a b : Nat) : Nat := if (a + 1) % 64 = b then a else b

/-! ### Passes (R490) -/

/-- The result of a pass; none where it has none. -/
def measured : Pass → Option Int
  | .arrival own loop => some (own - loop)
  | .ring first power => if power.isEmpty then none else some ((first + argMax power) * 100000)
  | .bias sum swing => some (sum * 100000000 / ((passSymbols * max 1 swing : Nat) : Int))
  | .gain squares target => if squares = 0 || target = 0 then none else some (dbOf squares (passSymbols * target))
  | .skew fi si fq sq =>
    if si.isEmpty || sq.isEmpty then none else some ((fi + argMax si - (fq + argMax sq)) * 100000)
  | .phase cross ii qq => if ii = 0 || qq = 0 then none else some (degOf cross (sqrtNat (ii * qq)))
  | .taps map => (tapCentre map).map (fun c => (c : Int) * 1000000)

/-- The pass measures the quantity: 0 reference arrival, 1 ring resonance, 2 modulator bias, 3
receiver gain, 4 skew, 5 quadrature phase, 6 Seam tap, by the rows of R489. -/
def passFits (q : Nat) : Pass → Bool
  | .arrival _ _ => q = 0
  | .ring _ _ => q = 1
  | .bias _ _ => q = 2
  | .gain _ _ => q = 3
  | .skew _ _ _ _ => q = 4
  | .phase _ _ _ => q = 5
  | .taps _ => q = 6

/-! ### Decisions (R489, R491, R492) -/

/-- The agreement of a quantity. -/
def agreement (q : Nat) : Nat := [1000000, 2000000, 500000, 200000, 500000, 1000000, 1000000].getD q 0

/-- The control step of a quantity. -/
def controlStep (q : Nat) : Nat := [500000, 100000, 50000, 10000, 50000, 50000, 1000000].getD q 1

/-- The largest in-service correction of a quantity; reference arrival has none. -/
def largestCorrection (q : Nat) : Nat := [0, 10000000, 1000000, 1500000, 2000000, 5000000, 4000000].getD q 0

/-- How far two results lie apart; taps on their cycle. -/
def resultGap (q : Nat) (a b : Int) : Nat :=
  if q = 6 then tapGap (a / 1000000).toNat (b / 1000000).toNat * 1000000 else (a - b).natAbs

/-- Two results agree; a pass without a result agrees with nothing. -/
def agree (q : Nat) : Option Int → Option Int → Bool
  | some a, some b => resultGap q a b ≤ agreement q
  | _, _ => false

/-- The mean of two results, rounded to the nearest control step, a tie to the lower value. -/
def meanSetting (q : Nat) (a b : Int) : Int :=
  if q = 6 then (tapMean (a / 1000000).toNat (b / 1000000).toNat : Int) * 1000000
  else -((controlStep q - (a + b)) / (2 * controlStep q : Int)) * controlStep q

/-- The setting of two agreeing results. -/
def pairSetting (q : Nat) (a b : Option Int) : Option Int :=
  match a, b with
  | some a, some b => some (meanSetting q a b)
  | _, _ => none

/-- The third pass is as near to the first as to the second, or nearer. -/
def nearFirst (q : Nat) (a b c : Option Int) : Bool :=
  match a, b, c with
  | some a, some b, some c => resultGap q c a ≤ resultGap q c b
  | _, _, _ => true

/-- The setting that two passes, or three, decide; none where they decide the failure of the unit. -/
def decideSetting (q : Nat) (a b c : Option Int) : Option Int :=
  if agree q a b then pairSetting q a b
  else if agree q c a && (!agree q c b || nearFirst q a b c) then pairSetting q a c
  else if agree q c b then pairSetting q b c
  else none

def result1 (m : Measure) : Option Int := if passFits m.quantity m.p1 then measured m.p1 else none
def result2 (m : Measure) : Option Int := if passFits m.quantity m.p2 then measured m.p2 else none
def result3 (m : Measure) : Option Int := if passFits m.quantity m.p3 then measured m.p3 else none

/-- A third pass is made. -/
def needsThird (m : Measure) : Bool := !agree m.quantity (result1 m) (result2 m)

/-- The setting that a measurement decides. -/
def settingOf (m : Measure) : Option Int := decideSetting m.quantity (result1 m) (result2 m) (result3 m)

/-- Third passes of measurements. -/
def thirdPasses (ms : List Measure) : Nat := countP needsThird ms

/-! ### Settings (R498, R502, R558) -/

def idKind (id : Nat) : Nat := id / 2 ^ 28
def idPlace (id : Nat) : Nat := id / 2 ^ 20 % 256
def idUnit (id : Nat) : Nat := id / 2 ^ 12 % 256
def idDetail (id : Nat) : Nat := id % 4096

/-- The key of a setting of a line: quantity, component and path. -/
def settingKey (q : Nat) (quad : Bool) (path : Nat) : Nat := (q * 2 + b2n quad) * 64 + path % 64

/-- A setting of a line, by its channel ID, on a path. -/
def lineSetting (s : State) (id q : Nat) (quad : Bool) (path : Nat) : Int :=
  Tab.get 0 (Tab.get [] s.cal.settings id) (settingKey q quad path)

/-- The tap that a Seam group runs on: its override, else the tap that calibration or tracking last
applied. -/
def tapInForce (s : State) (id : Nat) : Nat :=
  if Tab.get 0 s.cal.overrides id = 0 then Tab.get 0 s.cal.taps id else Tab.get 0 s.cal.overrides id - 1

/-- The setting that a measurement corrects. -/
def settingNow (s : State) (m : Measure) : Int :=
  if m.quantity = 6 then (tapInForce s m.id : Int) * 1000000 else lineSetting s m.id m.quantity m.quad m.path

/-- A setting is applied and stored; a tap ends its override. -/
def applySetting (s : State) (m : Measure) (v : Int) : State :=
  let c := s.cal
  if m.quantity = 6 then
    { s with cal := { c with taps := Tab.put 0 c.taps m.id (v / 1000000).toNat, overrides := Tab.erase c.overrides m.id } }
  else
    let own := Tab.put 0 (Tab.get [] c.settings m.id) (settingKey m.quantity m.quad m.path) v
    { s with cal := { c with settings := Tab.put [] c.settings m.id own } }

/-- The setting of a measurement is applied where it decides one. -/
def applyDecided (s : State) (m : Measure) : State :=
  match settingOf m with
  | some v => applySetting s m v
  | none => s

end Sys2Proof.Machine
end

