-- ==== Sys2Proof/Machine/Codes.lean ====
section
/-!
DEFINITION. The error-correcting codes and scramblers: Reed–Solomon codes over GF(2^8) and GF(2^10)
(04_tile_memory.md R115, 06_basusk_layer.md R157, 08_hem_links.md R231), and the additive PRBS31
scrambler (R156).
-/
namespace Sys2Proof.Machine

/-! ### Finite fields -/

/-- A product in GF(2^w) with field polynomial `poly` (its top bit included), by `n` bits of `b`. -/
def gfMulBits (w poly a b : Nat) : Nat → Nat
  | 0 => 0
  | n + 1 =>
    let hi := gfMulBits w poly a (b / 2) n * 2
    let hi := if hi.testBit w then hi ^^^ poly else hi
    if b % 2 = 1 then hi ^^^ a else hi

/-- A product of two field elements. -/
def gfMul (w poly a b : Nat) : Nat := gfMulBits w poly a b w

/-- The field of the row code: x^8 + x^4 + x^3 + x^2 + 1 (R115). -/
def mul8 : Nat → Nat → Nat := gfMul 8 0x11D

/-- The field of the lane codes: x^10 + x^3 + 1 (R157). -/
def mul10 : Nat → Nat → Nat := gfMul 10 0x409

/-- α^i, with α = 2. -/
def gfPow (mul : Nat → Nat → Nat) : Nat → Nat
  | 0 => 1
  | n + 1 => mul 2 (gfPow mul n)

/-- A polynomial, lowest coefficient first, times (x + r). -/
def polyTimes (mul : Nat → Nat → Nat) (r : Nat) (p : List Nat) : List Nat :=
  (List.range (p.length + 1)).map (fun i =>
    (if i = 0 then 0 else p.getD (i - 1) 0) ^^^ mul r (p.getD i 0))

/-- The product of (x − α^i) for i below `n`, lowest coefficient first. -/
def rsGenerator (mul : Nat → Nat → Nat) : Nat → List Nat
  | 0 => [1]
  | n + 1 => polyTimes mul (gfPow mul n) (rsGenerator mul n)

/-- One data symbol enters the division by the generator; the remainder stands highest coefficient
first. -/
def rsShift (mul : Nat → Nat → Nat) (low : List Nat) (rem : List Nat) (sym : Nat) : List Nat :=
  let f := rem.headD 0 ^^^ sym
  (List.range rem.length).map (fun i => rem.getD (i + 1) 0 ^^^ mul f (low.getD i 0))

/-- The check symbols of data symbols under a systematic code with `n` check symbols: the remainder
of the data polynomial, first symbol highest, times x^n. -/
def rsCheck (mul : Nat → Nat → Nat) (n : Nat) (data : List Nat) : List Nat :=
  let low := ((rsGenerator mul n).take n).reverse
  data.foldl (rsShift mul low) (List.replicate n 0)

/-! ### The row code (R115) -/

/-- The 64 check bytes of a row: check symbol j of codeword c is stored byte 1,024 + 4j + c. -/
def rowCheck (data : List Byte) : List Byte :=
  let ck := fun (c : Nat) => rsCheck mul8 16 ((List.range 256).map (fun i => (data.getD (4 * i + c) 0#8).toNat))
  let cs := (List.range 4).map ck
  (List.range 64).map (fun k => BitVec.ofNat 8 ((cs.getD (k % 4) []).getD (k / 4) 0))

/-! ### Lane codewords (R157, R231) -/

/-- Bytes as 10-bit symbols, bits least significant first. -/
def symbolsOf (data : List Byte) (n : Nat) : List Nat :=
  let v := leNat data
  (List.range n).map (fun i => v / 2 ^ (10 * i) % 1024)

/-- The 272 symbols of a codeword of a lane: header, 256 symbols of 320 bytes, 15 check symbols. -/
def laneCodeword (header : Nat) (data : List Byte) : List Nat :=
  let d := header % 1024 :: symbolsOf data 256
  d ++ rsCheck mul10 15 d

/-- The four codewords of a Hem frame: codeword c carries frame bits 5,140c to 5,140c + 5,139 (R232). -/
def frameCodewords (frame : List Byte) : List (List Nat) :=
  let all := symbolsOf frame 2056
  (List.range 4).map (fun c =>
    let d := (all.drop (514 * c)).take 514
    d ++ rsCheck mul10 30 d)

/-- The bits of symbols, least significant first, as a number. -/
def symbolBits : List Nat → Nat
  | [] => 0
  | x :: l => x % 1024 + 1024 * symbolBits l

/-! ### The scrambler (R156) -/

/-- The seed of all ones. -/
def prbsSeed : Nat := 2 ^ 31 - 1

/-- One step of x^31 + x^28 + 1: the bit sent is the sum of the bits sent 31 and 28 steps before;
the newest bit is the lowest. -/
def prbsStep (x : Nat) : Nat := x * 2 % 2 ^ 31 + b2n (x.testBit 30 != x.testBit 27)

/-- `n` steps: the next state, and the `n` bits in order of sending, lowest first. -/
def prbsRun : Nat → Nat → Nat × Nat
  | 0, x => (x, 0)
  | n + 1, x =>
    let y := prbsStep x
    let r := prbsRun n y
    (r.1, y % 2 + 2 * r.2)

/-- Scrambling of `n` bits, and the scrambler after them; descrambling is the same. -/
def scramble (state n word : Nat) : Nat × Nat :=
  let r := prbsRun n state
  (r.1, (word % 2 ^ n) ^^^ r.2)

/-- The pairs of bits of a word as signs (R156): the first bit the in-phase sign, the second the
quadrature sign, true for negative. -/
def qpskSigns (word : Nat) (n : Nat) : List (Bool × Bool) :=
  (List.range n).map (fun i => (word.testBit (2 * i), word.testBit (2 * i + 1)))

/-! ### The scrambler at any point of its sequence -/

/-- x^n modulo x^31 + x^3 + 1, by `f` bits of `n`: the shift of the sequence by n steps. -/
def prbsShift : Nat → Nat → Nat
  | 0, _ => 1
  | f + 1, n =>
    let h := prbsShift f (n / 2)
    let sq := gfMul 31 0x80000009 h h
    if n % 2 = 1 then gfMul 31 0x80000009 sq 2 else sq

/-- The parity of the lowest `n` bits. -/
def parity (x : Nat) : Nat → Bool
  | 0 => false
  | n + 1 => x.testBit n != parity x n

/-- The sequence from its `n`th bit after the seed on, by the shifts for bits n - 30 to n. -/
def prbsWindow (q : Nat) : Nat → Nat
  | 0 => 0
  | n + 1 => prbsWindow (gfMul 31 0x80000009 q 2) n + 2 ^ n * b2n (parity q 31)

/-- The scrambler `n` bits after its restart. -/
def scramblerAt (n : Nat) : Nat := prbsWindow (prbsShift 64 n) 31

/-- A codeword of 2,720 bits on a lane at a codeword position: scrambled from the restart of its lane
on (R156, R157, R159). -/
def laneWire (pos header : Nat) (data : List Byte) : Nat :=
  (scramble (scramblerAt (2720 * pos)) 2720 (symbolBits (laneCodeword header data))).2

/-- The four codewords of a Hem frame on its lane, 544 symbols each, at a frame position (R227, R231,
R232). -/
def frameWire (pos : Nat) (frame : List Byte) : Nat :=
  (scramble (scramblerAt (21760 * pos)) 21760 (symbolBits (frameCodewords frame).flatten)).2

end Sys2Proof.Machine
end

