-- ==== Sys2Proof/Machine/Vdp.lean ====
section
/-!
DEFINITION. The Vexga Dictionary Protocol (11_vexga_dictionary.md): contexts and rights, the
checks of R349, duplicates, staging and segments, responses, the persistent store, and long
operations.  Every command that names a dictionary entry goes through `vdpEntry`.
-/
namespace Sys2Proof.Machine

/-! ### Status values (R349) -/

def stOk : Nat := 0
def stNoObject : Nat := 1
def stNoSubindex : Nat := 2
def stAccess : Nat := 3
def stLength : Nat := 4
def stRange : Nat := 5
def stBetweenJobs : Nat := 6
def stBusy : Nat := 8
def stGroup : Nat := 9
def stPermission : Nat := 10
def stStale : Nat := 11
def stPersist : Nat := 12
def stRefused : Nat := 13
def stVersion : Nat := 14
def stBadOpcode : Nat := 15
def stNoControl : Nat := 16
def stConflict : Nat := 17
def stLate : Nat := 18

/-! ### Rights (R358) -/

/-- The first `n` bits of two 128-bit addresses agree. -/
def samePrefix (n a b : Nat) : Bool := a / 2 ^ (128 - n) = b / 2 ^ (128 - n)

/-- A network address as 16 bytes, most significant first. -/
def addrOf (l : List Byte) : Nat := l.foldl (fun n b => n * 256 + b.toNat) 0

/-- Record `i` of the Peer Table (R370): address, prefix length, level, valid. -/
def peerRecord (s : State) (i : Nat) : Nat × Nat × Nat × Bool :=
  let r := slice (rdB s 0x1200 1) (20 * i) 20
  (addrOf (r.take 16), (r.getD 16 0#8).toNat, (r.getD 17 0#8).toNat, bit (r.getD 18 0#8).toNat 0)

/-- The rights level of a context (R358). -/
def rightsOf (s : State) : Party → Nat
  | .mctp _ => 3
  | .mailbox fn => if fn = 0 then rdE s 0x1200 2 else 1
  | .udp addr _ =>
    let rs := ((List.range 8).map (peerRecord s)).filter (fun r => r.2.2.2)
    if rs.isEmpty then 1
    else
      match rs.find? (fun r => samePrefix (min 128 r.2.1) r.1 addr) with
      | some r => r.2.2.1
      | none => 0

/-- The level that an opcode on an index needs (R358). -/
def levelNeeded (op index : Nat) : Nat :=
  if 0xF000 ≤ index then 3 else if op = 1 || op = 7 || op = 8 || op = 10 then 1 else 2

/-! ### Contexts (R345) -/

def findContext (s : State) (p : Party) : Option Context :=
  s.mantle.contexts.find? (fun c => c.party = p)

def contextOf (s : State) (p : Party) : Context := (findContext s p).getD { party := p }

/-- Store a context, in place or as a new one. -/
def putContext (s : State) (c : Context) : State :=
  let m := s.mantle
  let cs := if m.contexts.any (fun x => x.party = c.party) then
      updFirst (fun x => x.party = c.party) (fun _ => c) m.contexts
    else m.contexts ++ [c]
  { s with mantle := { m with contexts := cs } }

/-- A context is held or can be created (R345). -/
def contextFree (s : State) (p : Party) : Bool :=
  (findContext s p).isSome || s.mantle.contexts.length < 64

/-- The entries that a context selects with (R345). -/
def isSelect (index sub : Nat) : Bool :=
  sub = 1 && (index = 0x5100 || index = 0x5200 || index = 0x5300 || index = 0x5400 || index = 0x7200)

/-- A context's value of a select entry. -/
def selOf (c : Tab Nat) (index sub : Nat) : Nat :=
  let k := dictKey index sub
  Tab.get (dictDefault k) c k

/-! ### Responses (R347, R351, R361) -/

/-- The Mantle that is active. -/
def mantleActive (s : State) : Bool := s.mantle.owner.isSome

/-- Send a response to its requester: over UDP or MCTP, or to the mailbox (R361). -/
def sendResp (s : State) (p : Party) (r : VdpResp) : State :=
  match p with
  | .mailbox fn => { s with mantle := { s.mantle with mbox := s.mantle.mbox ++ [(fn, r)] } }
  | _ => emit s (.vdp p r)

/-- A response to a request, with the request's fields echoed; one without data keeps Total
Length, the length that a write carries. -/
def respOf (r : VdpReq) (status detail : Nat) (data : List Byte) : VdpResp :=
  { opcode := r.opcode, status := status, txid := r.txid, index := r.index, sub := r.sub,
    group := r.group, offset := r.offset, total := if data.isEmpty then r.total else data.length, detail := detail, data := data }

/-- Answer a request: the response is stored with the context, then sent.  A context that
does not exist is created while there is room (R345, R351). -/
def answer (s : State) (r : VdpReq) (x : VdpResp) : State :=
  let s := if contextFree s r.src && rightsOf s r.src ≠ 0 then
      let c := contextOf s r.src
      let l := if r.txid = 0 then c.resp else lastN 16 (c.resp ++ [(x, s.now)])
      putContext s { c with resp := l, last := s.now }
    else s
  sendResp s r.src x

/-- R351: the stored response of a repeated request. -/
def duplicateOf (s : State) (r : VdpReq) : Option VdpResp :=
  if r.txid = 0 then none
  else ((contextOf s r.src).resp.find? (fun x => x.1.txid = r.txid && s.now ≤ x.2 + 2 * secPs)).map (·.1)

/-! ### The checks of R349 -/

def knownVdpOp (op : Nat) : Bool := (1 ≤ op && op ≤ 8) || op = 10

/-- Steps 1 to 4: 0 when they pass. -/
def checkHead (s : State) (r : VdpReq) (index : Nat) : Nat :=
  if r.version ≠ 1 then stVersion
  else if !knownVdpOp r.opcode || r.flags ≠ 0 || (r.detail ≠ 0 && r.opcode ≠ 1) then stBadOpcode
  else if !mantleActive s then stNoControl
  else if rightsOf s r.src < levelNeeded r.opcode index then stPermission
  else 0

/-- Step 7: access permits the opcode (R342). -/
def accessOk (op : Nat) : EAccess → Bool
  | .ro => op = 1 || op = 8
  | .rw | .rwp => op = 1 || op = 2 || op = 8
  | .wo => op = 2 || op = 8
  | .cmd => op = 3 || op = 8

/-- The largest length of an entry (R341). -/
def maxLen (e : Entry) : Nat :=
  match etypeSize e.ty with
  | some n => n
  | none => if e.ty = .str then 255 else 16777216

/-- Step 8: Data Length, Offset and Total Length suit the type (R341, R347, R350). -/
def lengthOk (r : VdpReq) (e : Entry) : Bool :=
  r.data.length = r.dataLen && r.dataLen ≤ 1024 &&
  (if r.opcode = 2 || r.opcode = 3 then
    match etypeSize e.ty with
    | some n => r.dataLen = n && r.offset = 0 && (r.total = n || r.total = 0)
    | none => r.offset + r.dataLen ≤ r.total && r.total ≤ maxLen e
   else r.dataLen = 0)

/-- Steps 1 to 8 for an opcode on an entry. -/
def checkEntry (s : State) (r : VdpReq) : Nat :=
  let h := checkHead s r r.index
  if h ≠ 0 then h
  else if !indexExists r.index then stNoObject
  else
    match findEntry r.index r.sub with
    | none => stNoSubindex
    | some e =>
      if !accessOk r.opcode e.acc then stAccess
      else if !lengthOk r e then stLength
      else 0

/-- BOOL values are 0 or 1 (R341). -/
def typeRange (e : Entry) (v : List Byte) : Bool := e.ty ≠ .bool || leNat v ≤ 1

/-- The entry is held by a committed group (R355). -/
def heldByGroup (s : State) (index sub : Nat) : Bool :=
  s.mantle.groups.any (fun g => g.2.state = 1 && g.2.staged.any (fun x => x.index = index && x.sub = sub))

/-- A group holds a between-jobs entry (R343). -/
def groupBetweenJobs (g : Group) : Bool :=
  g.staged.any (fun x => match findEntry x.index x.sub with | some e => e.betweenJobs | none => false)

/-- What an entry's own rules answer to a written value: the new state, and a status with
its detail and result data (R349 step 15, R348). -/
structure Effect where
  s : State
  status : Nat := 0
  detail : Nat := 0
  data : List Byte := []
  deriving DecidableEq, Repr

/-! ### The persistent store (R344, R356) -/

/-- Both copies take a value of the live dictionary. -/
def persist (s : State) (index sub : Nat) : State :=
  let k := dictKey index sub
  let f := fun (c : NvCopy) =>
    { c with vals := Tab.put (dictDefault k) c.vals k (rdE s index sub), blobs := Tab.put [] c.blobs k (rdB s index sub), gen := c.gen + 1 }
  let m := s.mantle
  { s with mantle := { m with copy0 := f m.copy0, copy1 := f m.copy1, unpersisted := m.unpersisted.filter (fun x => x ≠ (index, sub)) } }

/-- The entry is RWP. -/
def isPersistent (index sub : Nat) : Bool :=
  match findEntry index sub with
  | some e => e.acc = .rwp
  | none => false

/-! ### Performing -/

/-- R363: the standby takes a copy before the response leaves; a standby that fails to is
marked Failed and logged. -/
def standbyCopy (s : State) (fails : Bool) : State :=
  if !fails then s
  else
    let m := s.mantle
    let states := fun (m : Mantle) => m.dieB * 256 + m.dieA
    if m.owner = some 0 && m.dieB = 2 then
      let s := { s with mantle := { m with dieB := 5 } }
      report s { cls := 0x52, kind := 11, place := 134, detail := states s.mantle, tag := m.refreshed / countPs }
    else if m.owner = some 1 && m.dieA = 2 then
      let s := { s with mantle := { m with dieA := 5 } }
      report s { cls := 0x52, kind := 11, place := 133, detail := states s.mantle, tag := m.refreshed / countPs }
    else s

/-- Refuse a request with a status. -/
def refuse (s : State) (r : VdpReq) (status detail : Nat) : State :=
  answer s r (respOf r status detail [])

/-- An answer is given at all: a Mantle is active, or the path is a mailbox (R349, R366). -/
def answersNow (s : State) (r : VdpReq) : Bool :=
  !r.dropped && (mantleActive s || (match r.src with | .mailbox _ => true | _ => false))

/-- A message that has no answer; a UDP datagram that the device drops is counted. -/
def unanswered (s : State) (r : VdpReq) : State :=
  match r.src with
  | .udp _ _ => if r.dropped && mantleActive s then bump s 0x1200 0xC else s
  | _ => s

/-- Steps 9, 10, 12, 14 and 15 on a whole value, and the response. -/
def perform (s : State) (r : VdpReq) (value : List Byte) (rangeOk : State → Tab Nat → List Byte → Bool)
    (effect : State → Tab Nat → List Byte → Effect) : State :=
  match findEntry r.index r.sub with
  | none => refuse s r stNoSubindex 0
  | some e =>
    let sel := (contextOf s r.src).sel
    if !typeRange e value || !rangeOk s sel value then refuse s r stRange 0
    else if e.betweenJobs && !noJobs s then refuse s r stBetweenJobs 0
    else if r.group ≠ 0 then refuse s r stGroup 0
    else if heldByGroup s r.index r.sub || !contextFree s r.src then refuse s r stBusy 0
    else if e.acc = .rwp && r.nvFails then refuse s r stPersist 0
    else
      let x := effect s sel value
      if x.status ≠ 0 then answer x.s r (respOf r x.status x.detail x.data)
      else
        let s := if e.acc = .rwp then persist x.s r.index r.sub else x.s
        answer (standbyCopy s r.copyFails) r (respOf r 0 x.detail x.data)

/-- Bytes of a partial value present from 0 to `total`. -/
def assemble (total : Nat) (segs : List (Nat × List Byte)) : Option (List Byte) :=
  let present := fun i => segs.any (fun g => g.1 ≤ i && i < g.1 + g.2.length)
  if (List.range total).all present then some (segs.foldl (fun v g => patch v g.1 g.2) (fit total [])) else none

/-- A whole value, or the response to a segment that does not complete it (R350): the state
to go on from, and the value. -/
def takeSegment (s : State) (r : VdpReq) : State × Option (List Byte) × Nat :=
  match (findEntry r.index r.sub).bind (fun e => etypeSize e.ty) with
  | some _ => (s, some r.data, 0)
  | none =>
    if r.offset = 0 && r.dataLen = r.total then (s, some r.data, 0)
    else
      let same := fun (w : PartialWrite) => w.party = r.src && w.index = r.index && w.sub = r.sub && w.group = r.group
      let m := s.mantle
      let old := (m.partials.find? same).getD
        { party := r.src, index := r.index, sub := r.sub, group := r.group, total := r.total, segs := [], last := s.now }
      if old.total ≠ r.total then
        ({ s with mantle := { m with partials := m.partials.filter (fun w => !same w) } }, none, stLength)
      else
        let segs := old.segs ++ [(r.offset, r.data)]
        match assemble r.total segs with
        | some v => ({ s with mantle := { m with partials := m.partials.filter (fun w => !same w) } }, some v, 0)
        | none =>
          let w := { old with segs := segs, last := s.now }
          ({ s with mantle := { m with partials := m.partials.filter (fun w => !same w) ++ [w] } }, none, 0)

/-- The open group of a request's own context (R353). -/
def ownGroup (s : State) (r : VdpReq) : Bool :=
  let g := Tab.get {} s.mantle.groups r.group
  r.group ≠ 0 && g.state = 0 && g.party = some r.src

/-- The staged data of a group, in bytes, without one entry. -/
def stagedBytes (g : Group) (index sub : Nat) : Nat :=
  ((g.staged.filter (fun x => !(x.index = index && x.sub = sub))).map (fun x => x.value.length)).sum

/-- Stage a value into a commit group (R353). -/
def stage (s : State) (r : VdpReq) (value : List Byte) (rangeOk : State → Tab Nat → List Byte → Bool) : State :=
  let g := Tab.get {} s.mantle.groups r.group
  match findEntry r.index r.sub with
  | none => refuse s r stNoSubindex 0
  | some e =>
    let rest := g.staged.filter (fun x => !(x.index = r.index && x.sub = r.sub))
    if !typeRange e value || !rangeOk s (contextOf s r.src).sel value then refuse s r stRange 0
    else if e.acc = .cmd || !ownGroup s r || 64 ≤ rest.length
        || 65536 < stagedBytes g r.index r.sub + value.length then refuse s r stGroup 0
    else
      let x : Staged := { index := r.index, sub := r.sub, value := value }
      let g := { g with staged := rest ++ [x], last := s.now }
      let s := { s with mantle := { s.mantle with groups := Tab.put {} s.mantle.groups r.group g } }
      answer s r (respOf r 0 0 [])

/-- A segment that completes no value is held; into a group, while the group is open. -/
def holdSegment (s0 s : State) (r : VdpReq) : State :=
  if r.group = 0 then (if contextFree s0 r.src then answer s r (respOf r 0 0 []) else refuse s0 r stBusy 0)
  else if !ownGroup s0 r then refuse s0 r stGroup 0
  else
    let g := { (Tab.get {} s.mantle.groups r.group) with last := s.now }
    answer { s with mantle := { s.mantle with groups := Tab.put {} s.mantle.groups r.group g } } r (respOf r 0 0 [])

/-- A WRITE or COMMAND of one entry, from its message to its answer (R346 to R353). -/
def vdpEntry (s : State) (r : VdpReq) (rangeOk : State → Tab Nat → List Byte → Bool)
    (effect : State → Tab Nat → List Byte → Effect) : State :=
  if !answersNow s r then unanswered s r
  else
    match duplicateOf s r with
    | some x => sendResp s r.src x
    | none =>
      let c := checkEntry s r
      if c ≠ 0 then refuse s r c 0
      else if r.opcode ≠ 2 && r.opcode ≠ 3 then refuse s r stAccess 0
      else
        match takeSegment s r with
        | (s', none, 0) => holdSegment s s' r
        | (s', none, st) => refuse s' r st 0
        | (s', some v, _) =>
          if r.group ≠ 0 && r.opcode ≠ 3 then stage s' r v rangeOk else perform s' r v rangeOk effect

/-- No range of its own. -/
def anyValue : State → Tab Nat → List Byte → Bool := fun _ _ _ => true

/-- The command is for the entry `index`:`sub`. -/
def atEntry (r : VdpReq) (index sub : Nat) : VdpReq := { r with index := index, sub := sub }

/-- The index of instance `i` of an entry with `n` instances; an index that does not exist
where there is none. -/
def instIndex (base n i : Nat) : Nat := if i < n then base + i else 0xFFFF

/-! ### Long operations (R367 to R369) -/

def getOp (s : State) (id : Nat) : LongOp := Tab.get {} s.ops id

def opRunning (s : State) (id : Nat) : Bool := (getOp s id).state = 1

def putOp (s : State) (id : Nat) (o : LongOp) : State := { s with ops := Tab.put {} s.ops id o }

/-- Start an operation; the counts restart (R368). -/
def startOp (s : State) (id total arg : Nat) : State :=
  let s := putOp s id { state := 1, total := total, started := epoch s, arg := arg }
  { s with mantle := { s.mantle with lastOp := id } }

/-- End an operation in a state with a result and a final Position. -/
def endOp (s : State) (id state result position : Nat) : State :=
  let o := getOp s id
  putOp s id { o with state := state, result := result, position := position, ended := epoch s }

/-- Progress in hundredths of a percent (R369). -/
def progressOf (o : LongOp) : Nat :=
  if o.state = 2 then 10000 else if o.total = 0 then 0 else min 9999 (o.position * 10000 / o.total)

end Sys2Proof.Machine
end

