-- ==== Sys2Proof/Machine/Basusk.lean ====
section
/-!
DEFINITION. The Basusk layer (06_basusk_layer.md): codewords and retry on circuit ports, the
slotted mesh, circuit plans and switches, and port roles (12_dictionary_reference.md R389 to
R391).
-/
namespace Sys2Proof.Machine

/-! ### Ports and lines -/

def portKey (st k : Nat) : Nat := st * 16 + k

def getPort (s : State) (key : Nat) : Port := Tab.get {} s.bas.ports key

def modPort (s : State) (key : Nat) (f : Port → Port) : State :=
  { s with bas := { s.bas with ports := Tab.mod {} s.bas.ports key f } }

def getStation (s : State) (st : Nat) : Station := Tab.get {} s.bas.stations st

def modStation (s : State) (st : Nat) (f : Station → Station) : State :=
  { s with bas := { s.bas with stations := Tab.mod {} s.bas.stations st f } }

/-- Circuit ports of a station (R170). -/
def portCount (st : Nat) : Nat := if st < 24 then 16 else if st < 28 then 4 else 8

/-- A station is not silent (R164). -/
def stationLive (s : State) (st : Nat) : Bool :=
  if st < 24 then !bit s.fusedTiles st else if st < 28 then bit s.guestSites st else st = 28

/-- The bits of `a` that are not in `b`, over 17 lines. -/
def linesWithout (a b : Nat) : Nat := maskOf (fun i => bit a i && !bit b i) 17

/-- Lines supplied by a working laser group (0x4100:01) and not squelched on every lane
(0xF000:07, R399). -/
def usableLines (s : State) : Nat := linesWithout (rdE s 0x4100 1) (rdE s 0xF000 7)

/-- Data lanes of a set I (R173). -/
def dataLanes (i : Nat) : Nat := min 16 (popBelow i 17 - 1)

/-- The lines of a set, ascending. -/
def linesOf (i : Nat) : List Nat := (List.range 17).filter (fun l => bit i l)

/-- The spare of a circuit: the highest line of I (R173). -/
def spareLine (i : Nat) : Option Nat := (linesOf i).getLast?

/-- The line of data lane `n` of a circuit: the nth lowest of I beside the spare (R173). -/
def dataLine (i n : Nat) : Option Nat := if n < dataLanes i then (linesOf i)[n]? else none

/-- The laser group of a line (R21): LG0 lines 0 to 4, then four lines each. -/
def lineGroup (l : Nat) : Nat := if l < 5 then 0 else (l - 1) / 4

/-- R184: flits that a circuit port's receiver holds of each class. -/
def circuitDepth (c : Nat) : Nat := [64, 1024, 512, 2048].getD c 0

/-- R184: flits that a mesh station holds of each class. -/
def meshDepth (c : Nat) : Nat := [256, 2048, 1024, 1024].getD c 0

/-- Credits of a class at a port: flits its far end has room for. -/
def creditOf (p : Port) (c : Nat) : Nat :=
  circuitDepth c - (Tab.get 0 p.sent c + 65536 - Tab.get 0 p.freed c) % 65536

/-- The log place of a station is its number; a report about a circuit port. -/
def portReport (s : State) (cls st k detail : Nat) : State :=
  report s { cls := cls, kind := 6, place := st, unit := k, detail := detail }

/-! ### Flits (R158) -/

/-- One flit: class, position, 62 payload bytes. -/
def flit (cls pos : Nat) (l : List Byte) : List Byte := leBytes 2 (cls * 16384 + pos * 2048) ++ fit 62 l

def flitsFrom (cls : Nat) (first : Bool) : Nat → List Byte → List (List Byte)
  | 0, _ => []
  | n + 1, l =>
    let last := l.length ≤ 62
    let pos := if first then (if last then 1 else 2) else if last then 4 else 3
    if last then [flit cls pos l] else flit cls pos (l.take 62) :: flitsFrom cls false n (l.drop 62)

/-- A packet in whole flits. -/
def flitsOf (cls : Nat) (data : List Byte) : List (List Byte) := flitsFrom cls true (data.length + 1) data

/-- The flits of a codeword's 320 bytes. -/
def codewordFlits (data : List Byte) : List (List Byte) := (List.range 5).map (fun i => slice data (64 * i) 64)

/-- Class and position of a flit. -/
def flitHeader (f : List Byte) : Nat × Nat := (field f 0 2 / 16384, field f 0 2 / 2048 % 8)

/-- Deliver one flit: packets are put together per class, and a whole packet is handed to
the router of the station; returns the assembly buffers and packets delivered. -/
def takeFlit (acc : Tab (List Byte) × List (Nat × List Byte)) (f : List Byte) : Tab (List Byte) × List (Nat × List Byte) :=
  let (c, pos) := flitHeader f
  let body := f.drop 2
  let asm := acc.1
  if pos = 1 then (asm, acc.2 ++ [(c, body)])
  else if pos = 2 then (Tab.put [] asm c body, acc.2)
  else if pos = 3 then (Tab.put [] asm c (Tab.get [] asm c ++ body), acc.2)
  else if pos = 4 then (Tab.put [] asm c [], acc.2 ++ [(c, Tab.get [] asm c ++ body)])
  else acc

/-- Flits of each class among some flits. -/
def countFlits (fs : List (List Byte)) (c : Nat) : Nat :=
  countP (fun f => (flitHeader f).1 = c && (flitHeader f).2 ≠ 0) fs

/-- A packet waits at the router of a station. -/
def toRouter (s : State) (st : Nat) (x : RPkt) : State :=
  { s with bas := { s.bas with inbox := Tab.mod [] s.bas.inbox st (fun l => l ++ [x]) } }

/-- Packets that a port or a mesh bus had not begun to send go back to the router of their station. -/
def returnWaiting (s : State) (st : Nat) (l : List RPkt) : State :=
  l.foldl (fun s w => toRouter s st { w with via := 32 }) s

/-- A counter for each class, changed by a number for each. -/
def eachClass (t : Tab Nat) (f : Nat → Nat → Nat) : Tab Nat :=
  [0, 1, 2, 3].foldl (fun t c => Tab.mod 0 t c (f c)) t

/-- Flits of whole packets of a class. -/
def packetFlits (pk : List (Nat × List Byte)) (c : Nat) : Nat :=
  ((pk.filter (fun x => x.1 = c)).map (fun x => x.2.length / 62)).sum

/-- Flits of a class given up when some flits are put together: those of a packet that lost its end. -/
def lostFlits (old new : Tab (List Byte)) (fs : List (List Byte)) (pk : List (Nat × List Byte)) (c : Nat) : Nat :=
  (Tab.get [] old c).length / 62 + countFlits fs c - packetFlits pk c - (Tab.get [] new c).length / 62

/-- Deliver the flits of a codeword at a port (R161): they stand in its buffer until the router takes
their packet (R184). -/
def deliverCodeword (s : State) (st k : Nat) (data : List Byte) : State :=
  let key := portKey st k
  let p := getPort s key
  let fs := codewordFlits data
  let (asm, pk) := fs.foldl takeFlit (p.asm, [])
  let lost := lostFlits p.asm asm fs pk
  let s := modPort s key (fun p => { p with
    asm := asm, rxFreed := eachClass p.rxFreed (fun c n => (n + lost c) % 65536)
    rxHeld := eachClass p.rxHeld (fun c n => n + countFlits fs c - lost c) })
  pk.foldl (fun s x => toRouter s st { cls := x.1, data := x.2, via := k }) s

/-- Deliver codewords in SEQ order from the reorder buffer. -/
def deliverInOrder (st k : Nat) : Nat → State → State
  | 0, s => s
  | n + 1, s =>
    let key := portKey st k
    let p := getPort s key
    match p.reorder.find? (fun e => e.1 = p.rxNext) with
    | none => s
    | some e =>
      let s := modPort s key (fun p => { p with reorder := Tab.erase p.reorder e.1, rxNext := (p.rxNext + 1) % 1024, heard := true })
      deliverInOrder st k n (deliverCodeword s st k e.2)

/-! ### Codeword positions (R157, R159, R160) -/

/-- Lines of laser groups in a switch-over gap, whose transmitters are squelched (R174, R527). -/
def gapLines (s : State) : Nat := maskOf (fun l => (Tab.get none s.las.gaps (lineGroup l)).isSome) 17

/-- The time of a codeword position of a port: a codeword takes 170/7 ns. -/
def laneTime (p : Port) (pos : Nat) : Nat := p.trainedAt + pos * 170000 / 7

/-- The first codeword position from now on. -/
def posNow (s : State) (p : Port) : Nat := ceilDiv ((s.now - p.trainedAt) * 7) 170000

/-- Position `pos` of lane `l` carries a lane-control codeword (R159). -/
def controlPos (l pos : Nat) : Bool := pos % 49 = 3 * l % 49

/-- The first data position of a lane from `pos` on. -/
def dataFrom (l pos : Nat) : Nat := if controlPos l pos then pos + 1 else pos

/-- The first lane-control position of a lane from `pos` on. -/
def controlFrom (l pos : Nat) : Nat := pos + (3 * l % 49 + 49 - pos % 49) % 49

/-- The lines that data goes on: the data lanes, the spare in place of a line under recalibration
(R504), without the lines in a laser gap while others remain. -/
def sendLines (s : State) (p : Port) : List Nat :=
  let spare := (spareLine p.inUse).getD 16
  let ls := ((List.range (dataLanes p.inUse)).filterMap (dataLine p.inUse)).map (fun l => if p.recal = some l then spare else l)
  let live := ls.filter (fun l => !bit (gapLines s) l)
  if live.isEmpty then ls else live

/-- The lane of a line: its place among the lines in use. -/
def laneOf (p : Port) (line : Nat) : Nat := popBelow p.inUse line

/-- The earliest of some places (position, line). -/
def firstPlace (l : List (Nat × Nat)) : Option (Nat × Nat) :=
  l.foldl (fun b x => match b with
    | none => some x
    | some y => if x.1 < y.1 then some x else b) none

/-- Where the next data codeword goes: position and line. -/
def dataPlace (s : State) (p : Port) : Nat × Nat :=
  (firstPlace ((sendLines s p).map (fun l =>
    (dataFrom (laneOf p l) (max (posNow s p) (Tab.get 0 p.txPos (laneOf p l))), l)))).getD (posNow s p, 0)

/-- Where the next lane-control codeword goes. -/
def controlPlace (s : State) (p : Port) : Nat × Nat :=
  (firstPlace (((linesOf p.inUse).filter (fun l => p.recal ≠ some l && !bit (gapLines s) l)).map (fun l =>
    (controlFrom (laneOf p l) (max (posNow s p) (Tab.get 0 p.ctlPos (laneOf p l))), l)))).getD (posNow s p, 0)

/-- A data codeword leaves in the next data position of any lane. -/
def placeCodeword (s : State) (st k seq : Nat) (data : List Byte) : State :=
  let p := getPort s (portKey st k)
  let x := dataPlace s p
  let s := modPort s (portKey st k) (fun p => { p with txPos := Tab.put 0 p.txPos (laneOf p x.2) (x.1 + 1) })
  emit s (.codeword st k x.2 x.1 seq data (laneWire x.1 seq data))

/-- What a port has to tell: Ack, freed flits and lines in use (R160, R161). -/
def portNews (p : Port) : List Byte :=
  leBytes 2 (if p.heard then (p.rxNext + 1023) % 1024 + 2 ^ 15 else 0)
    ++ [0, 1, 2, 3].flatMap (fun c => leBytes 2 (Tab.get 0 p.rxFreed c)) ++ leBytes 4 p.inUse

/-- The 320 bytes of a lane-control codeword on a line (R160). -/
def controlBytes (s : State) (p : Port) (line : Nat) : List Byte :=
  let role := if p.recal = some line then 2 else if spareLine p.inUse = some line && p.recal.isNone then 1 else 0
  let naks := (List.range 8).flatMap (fun i => leBytes 2 (match p.naks[i]? with | some q => q % 1024 + 2 ^ 15 | none => 0))
  fit 320 (leBytes 1 0xC1 ++ leBytes 1 (role * 32 + line) ++ (portNews p).take 2 ++ naks ++ slice (portNews p) 2 8
    ++ slice (portNews p) 10 4 ++ leBytes 2 (min 65535 (Tab.get 0 p.corr line)) ++ leBytes 6 0 ++ leBytes 8 (epoch s))

/-- One lane-control codeword leaves; the SEQs it names have been told. -/
def sendControl (s : State) (st k : Nat) : State :=
  let key := portKey st k
  let p := getPort s key
  let x := controlPlace s p
  let data := controlBytes s p x.2
  let header := 0x3E0 + laneOf p x.2
  let s := modPort s key (fun p => { p with
    naks := p.naks.drop 8, told := portNews p, corr := Tab.put 0 p.corr x.2 0, ctlPos := Tab.put 0 p.ctlPos (laneOf p x.2) (x.1 + 1) })
  emit s (.codeword st k x.2 x.1 header data (laneWire x.1 header data))

/-- Lane-control codewords leave while the port has something new to tell; those that would tell
nothing new are left out (DESIGN CHOICE, log 99). -/
def tell (st k : Nat) : Nat → State → State
  | 0, s => s
  | n + 1, s =>
    let p := getPort s (portKey st k)
    if p.up && (!p.naks.isEmpty || p.told ≠ portNews p) then tell st k n (sendControl s st k) else s

/-! ### Sending on a circuit port (R160, R161) -/

/-- Send one codeword: it takes the next SEQ and stays in the retry buffer. -/
def sendCodeword (s : State) (st k : Nat) (fs : List (List Byte)) : State :=
  let key := portKey st k
  let p := getPort s key
  let data := fit 320 fs.flatten
  let cw : TxCw := { seq := p.txSeq, data := data, last := max s.now (laneTime p (dataPlace s p).1) }
  let sent := [0, 1, 2, 3].foldl (fun t c => Tab.mod 0 t c (fun n => (n + countFlits fs c) % 65536)) p.sent
  let s := modPort s key (fun p => { p with txSeq := (p.txSeq + 1) % 1024, retry := p.retry ++ [cw], sent := sent })
  placeCodeword s st k cw.seq data

/-- Codewords of a packet, five flits each. -/
def sendFlits (st k : Nat) : Nat → List (List Byte) → State → State
  | 0, _, s => s
  | n + 1, fs, s => if fs.isEmpty then s else sendFlits st k n (fs.drop 5) (sendCodeword s st k (fs.take 5))

/-- The port may start a packet of a class and length in flits (R161, R180, R184). -/
def portReady (p : Port) (cls n : Nat) : Bool :=
  p.up && !p.draining && p.retry.length + ceilDiv n 5 ≤ 512 && n ≤ creditOf p cls

/-- Send a packet on a circuit port, or let it wait for credits or buffer there (R308): a packet of
the second tier also behind every one of the first that waits (R317). -/
def circuitSend (s : State) (st k : Nat) (x : RPkt) : State :=
  let fs := flitsOf x.cls x.data
  let p := getPort s (portKey st k)
  if portReady p x.cls fs.length && p.waiting.all (fun y => x.tier < y.tier || (y.tier = x.tier && y.cls ≠ x.cls)) then sendFlits st k fs.length fs s
  else modPort s (portKey st k) (fun p => { p with waiting := p.waiting ++ [x] })

/-- Send the waiting packets of a tier and class that can go now, in order. -/
def pumpClass (st k tier cls : Nat) : Nat → State → State
  | 0, s => s
  | n + 1, s =>
    let p := getPort s (portKey st k)
    match p.waiting.find? (fun x => x.tier = tier && x.cls = cls) with
    | none => s
    | some x =>
      let fs := flitsOf cls x.data
      if portReady p cls fs.length then
        let s := modPort s (portKey st k) (fun p => { p with waiting := dropFirst (fun y => y.tier = tier && y.cls = cls) p.waiting })
        pumpClass st k tier cls n (sendFlits st k fs.length fs s)
      else s

/-- Send the waiting packets that can go now: admitted ones ahead of unmatched ones, and within a
tier the classes in the order of R158, response ahead of request and bulk (R185, R317). -/
def pump (s : State) (st k : Nat) : State :=
  let n := (getPort s (portKey st k)).waiting.length
  [(0, 0), (0, 1), (0, 2), (0, 3), (1, 0), (1, 1), (1, 2), (1, 3)].foldl (fun s c => pumpClass st k c.1 c.2 n s) s

/-- The router takes a packet from the buffer it stands in (R184). -/
def takeIn (s : State) (st : Nat) (x : RPkt) : State :=
  let n := x.data.length / 62
  if x.via < 16 then
    let m := min n (Tab.get 0 (getPort s (portKey st x.via)).rxHeld x.cls)
    tell st x.via 64 (modPort s (portKey st x.via) (fun p => { p with
      rxHeld := Tab.mod 0 p.rxHeld x.cls (· - m), rxFreed := Tab.mod 0 p.rxFreed x.cls (fun f => (f + m) % 65536) }))
  else if x.via = 16 then modStation s st (fun y => { y with held := Tab.mod 0 y.held x.cls (· - n) })
  else s

/-! ### Lanes lost (R162, R165, R173, R174) -/

/-- CIRCUIT_TAKEDOWN (R173): the port is down; its unacknowledged codewords are dropped and
counted. -/
def takeDown (s : State) (key : Nat) (lines : Nat) : State :=
  let p := getPort s key
  if !p.up && !p.training then s
  else
    let st := key / 16
    let s := returnWaiting (bumpN s (0x4300 + st) 4 p.retry.length) st p.waiting
    let s := modPort s key (fun p => { p with up := false, training := false, retry := [], waiting := [], inUse := 0 })
    portReport s 0x32 st (key % 16) lines

/-- I of a circuit after a change, at both ends (R173); below 4 data lanes it is taken down. -/
def reagree (s : State) (key lines : Nat) : State :=
  let p := getPort s key
  let other := match p.far with | some f => if f < 512 then getPort s f else {} | none => {}
  let i := linesWithout (linesWithout (usableLines s) p.failed) other.failed
  let ends := key :: (match p.far with | some f => if f < 512 then [f] else [] | none => [])
  ends.foldl (fun s e =>
    if !(getPort s e).up then s
    else if dataLanes i < 4 then takeDown s e lines
    else modPort s e (fun p => { p with inUse := i })) s

/-- LANE_FAILED on a circuit port (R162, R174). -/
def failCircuitLane (s : State) (st k line : Nat) : State :=
  let key := portKey st k
  let p := getPort s key
  if bit p.failed line then s
  else
    let before := dataLanes p.inUse
    let s := modPort s key (fun p => { p with failed := setBit p.failed line true })
    let kept := fun (s : State) => (getPort s key).up && dataLanes (getPort s key).inUse = before
    let s := report s { cls := 0x30, kind := 6, place := st, unit := k, detail := 2 ^ line, masked := kept (reagree s key (2 ^ line)) }
    let s := reagree s key (2 ^ line)
    if kept s then
      wrE s (0x4300 + st) 5 ((rdE s (0x4300 + st) 5 + 1) % 2 ^ 32)
    else s

/-- MESH_LANE_MOVE (R165): the lane moves to the lowest healthy spare line of its laser
group, or is out. -/
def moveMeshLane (s : State) (st line : Nat) : State :=
  let x := getStation s st
  match x.lines.findIdx? (· = line) with
  | none => s
  | some i =>
    let spare := (List.range 17).find? (fun l =>
      lineGroup l = lineGroup line && l ≠ line && !x.lines.contains l && !bit x.failed l && bit (usableLines s) l)
    let s := modStation s st (fun x => { x with lines := x.lines.set i (spare.getD 0x1F) })
    if spare.isSome then wrE s (0x4300 + st) 5 ((rdE s (0x4300 + st) 5 + 1) % 2 ^ 32) else s

/-- Mesh lanes of a station that carry data. -/
def meshLanes (x : Station) : Nat := countP (· ≠ 0x1F) x.lines

/-- LANE_FAILED on a mesh bus. -/
def failMeshLane (s : State) (st line : Nat) : State :=
  if bit (getStation s st).failed line then s
  else
    let s := modStation s st (fun x => { x with failed := setBit x.failed line true })
    let same := meshLanes (getStation (moveMeshLane s st line) st) = meshLanes (getStation s st)
    let s := report s { cls := 0x30, kind := 7, place := st, detail := 2 ^ line, masked := same }
    moveMeshLane s st line

/-- A lane's window of R162: codewords, uncorrectable ones, and the run of uncorrectable ones. -/
structure LaneWindow where
  n : Tab Nat
  u : Tab Nat
  run : Tab Nat
  deriving DecidableEq, Repr

/-- R162: one codeword in a lane's window of 10,000; the lane fails beyond 1 in 1,000.  A run of up to
41 uncorrectable codewords, a disturbance of at most 1.0 us, counts as one, so that it loses no data
(R163; DEDUCED, log 101). -/
def laneWindow (w : LaneWindow) (key : Nat) (bad : Bool) : LaneWindow × Bool :=
  let run := if bad then Tab.get 0 w.run key + 1 else 0
  let cn := Tab.get 0 w.n key + 1
  let cu := Tab.get 0 w.u key + b2n (run = 1 || 41 < run)
  let out := fun (a b : Nat) => { n := Tab.put 0 w.n key a, u := Tab.put 0 w.u key b, run := Tab.put 0 w.run key run : LaneWindow }
  if 10 < cu then (out 0 0, true)
  else if 10000 ≤ cn then (out 0 0, false)
  else (out cn cu, false)

/-- A codeword of a lane of a circuit port enters its window; in a laser gap of the line it does not
(R174). -/
def portWindow' (s : State) (st k line : Nat) (bad : Bool) : State :=
  let key := portKey st k
  let p := getPort s key
  if bit (gapLines s) line then s
  else
    let w := laneWindow { n := p.laneN, u := p.laneU, run := p.laneRun } line bad
    let s := modPort s key (fun p => { p with laneN := w.1.n, laneU := w.1.u, laneRun := w.1.run })
    if w.2 then failCircuitLane s st k line else s

/-- A codeword of the bus of station `src` enters the window of its lane at receiving station `st`. -/
def meshWindow (s : State) (st src line : Nat) (bad : Bool) : State :=
  let x := getStation s st
  if bit (gapLines s) line then s
  else
    let w := laneWindow { n := x.laneN, u := x.laneU, run := x.laneRun } (src * 32 + line) bad
    let s := modStation s st (fun x => { x with laneN := w.1.n, laneU := w.1.u, laneRun := w.1.run })
    if w.2 then failMeshLane s src line else s

/-- Symbols corrected in a codeword of a line are counted for the lane's next control codeword, and
the codeword in 0x4300+s:02. -/
def noteCorrected (s : State) (st k line errs : Nat) : State :=
  if errs = 0 then s
  else bump (modPort s (portKey st k) (fun p => { p with corr := Tab.mod 0 p.corr line (fun n => n + errs) })) (0x4300 + st) 2

/-- How a codeword decodes (R157): 0 good, 1 uncorrectable, 2 miscorrected. -/
def codewordDecode (errs free : Nat) : Nat :=
  if errs ≤ 6 then 0 else if errs ≤ 9 || Config.detectsBeyondLimit free then 1 else 2

/-- CODEWORD_RECEIVE (R157, R161, R162, R399). -/
def execCodewordReceive (st port line seq : Nat) (data : List Byte) (errs : Nat) (locked : Bool) (s : State) : Out :=
  if 28 < st || !stationLive s st || 16 < line then .next s
  else if 16 ≤ port then
    let src := port - 16
    if 28 < src || src = st then .next s
    else if !locked then .next (if bit (gapLines s) line then s else failMeshLane s src line)
    else
      let bad := codewordDecode errs s.free = 1
      let s := if 9 < errs then nextFree s else s
      let s := if 1 ≤ errs && !bad then bump s (0x4300 + st) 2 else s
      .next (meshWindow s st src line bad)
  else
    let key := portKey st port
    let p := getPort s key
    if portCount st ≤ port || !p.up then .next s
    else if !locked then .next (if bit (gapLines s) line then s else failCircuitLane s st port line)
    else
      let js := pendingAt s 5 st line
      let errs := errs + injectErrs js data
      let s := useInjections s 5 st line
      let v := if injectDrops js then 1 else codewordDecode errs s.free
      let n := countedErrs s v errs 7
      let s := if 9 < errs then nextFree s else s
      let s := if v ≠ 1 then noteCorrected s st port line n else s
      let body := if v = 2 then (List.range 320).map (fun i => Config.miscorrected (s.free * 4096 + i)) else fit 320 data
      let sq := seq % 1024
      let old := (sq + 1024 - p.rxNext) % 1024 ≥ 512
      let s :=
        if v = 1 then modPort s key (fun p => { p with naks := if p.naks.contains sq then p.naks else p.naks ++ [sq] })
        else if old then s
        else
          let s := modPort s key (fun p =>
            { p with naks := p.naks.filter (· ≠ sq), reorder := Tab.insert (Tab.erase p.reorder sq) sq body })
          deliverInOrder st port 512 s
      .next (tell st port 64 (portWindow' s st port line (v = 1)))
/-- CODEWORD_DROP (R161): a codeword named again after its eighth send. -/
def dropCodeword (s : State) (st k seq : Nat) : State :=
  let s := modPort s (portKey st k) (fun p => { p with retry := p.retry.filter (fun c => c.seq ≠ seq) })
  portReport (bump s (0x4300 + st) 4) 0x31 st k (getPort s (portKey st k)).inUse

/-- LANE_CONTROL_CODEWORD (R160, R161, R173). -/
def execLaneControlCodeword (st port line : Nat) (ack : Option Nat) (naks : List Nat) (credits : List Nat)
    (lineMap : Nat) (errs : Nat) (s : State) : Out :=
  let key := portKey st port
  if 28 < st || portCount st ≤ port || !(getPort s key).up then .next s
  else
    let v := codewordDecode errs s.free
    let s := if 9 < errs then nextFree s else s
    let s := portWindow' s st port line (v = 1)
    if v ≠ 0 then .next (tell st port 64 s)
    else
      let s := noteCorrected s st port line errs
      let p := getPort s key
      let retry : List TxCw := match ack with
        | some a => p.retry.filter (fun (c : TxCw) => 512 ≤ (a % 1024 + 1024 - c.seq) % 1024)
        | none => p.retry
      let dead := (retry.filter (fun (c : TxCw) => naks.contains c.seq && 8 ≤ c.sends)).map (·.seq)
      let retry := retry.map (fun (c : TxCw) => if naks.contains c.seq then { c with nak := true } else c)
      let freed := [0, 1, 2, 3].foldl (fun t c => Tab.put 0 t c (credits.getD c (Tab.get 0 p.freed c) % 65536)) p.freed
      let s := modPort s key (fun p => { p with retry := retry, freed := freed })
      let s := dead.foldl (fun s q => dropCodeword s st port q) s
      let lost := linesWithout (getPort s key).inUse lineMap
      let s := (List.range 17).foldl (fun s l => if bit lost l then failCircuitLane s st port l else s) s
      .next (tell st port 64 (pump (if lost = 0 then s else reagree s key (2 ^ line)) st port))

/-- CODEWORD_RESEND (R161): sends of one codeword are at least 150 ns apart. -/
def execCodewordResend (st port : Nat) (s : State) : Out :=
  let key := portKey st port
  let p := getPort s key
  match (if p.up then p.retry.find? (·.nak) else none) with
  | none => .next s
  | some c =>
    let s := advanceTo s (c.last + 150000)
    let at_ := max s.now (laneTime p (dataPlace s p).1)
    let sent : TxCw → TxCw := fun x => { x with sends := x.sends + 1, last := at_, nak := false }
    let s := modPort s key (fun p => { p with retry := updFirst (fun x => x.seq = c.seq) sent p.retry })
    .next (placeCodeword (bump s (0x4300 + st) 3) st port c.seq c.data)

/-! ### The mesh plane (R164 to R169) -/

/-- Queue a packet at a mesh station for some destinations (R167). -/
def meshSend (s : State) (st : Nat) (dsts : List Nat) (x : RPkt) : State :=
  let id := s.bas.pktNext
  let pk : MeshPkt := { id := id, cls := x.cls, data := (flitsOf x.cls x.data).flatten, dests := dsts.map (fun d => (d, 0)), block := x.block, tier := x.tier }
  let s := { s with bas := { s.bas with pktNext := id + 1 } }
  modStation s st (fun x => { x with queue := x.queue ++ [pk] })

/-- The requests that a source posts: one per destination and class, a packet of the first tier ahead of
one of the second that is not begun (R317), and its rejected slots (R167, R168). -/
def postRequests (x : Station) (st : Nat) : List MeshReq :=
  let again := x.unacked.flatMap (fun u => u.rejected.map (fun d =>
    { src := st, dst := d, cls := u.cls, pkt := u.pkt, resend := some u.seq, cont := false : MeshReq }))
  let all := x.queue.flatMap (fun q => q.dests.map (fun d =>
    { src := st, dst := d.1, cls := q.cls, pkt := q.id, resend := none, cont := decide (0 < d.2), tier := q.tier : MeshReq }))
  let all := all.filter (·.cont) ++ all.filter (fun r => !r.cont && r.tier = 0) ++ all.filter (fun r => !r.cont && r.tier ≠ 0)
  let firsts := all.foldl (fun l r => if l.any (fun y => y.dst = r.dst && y.cls = r.cls) then l else l ++ [r]) []
  again ++ firsts

/-- The calendar entry of a group for a slot, as source and class (R169). -/
def calendarAt (s : State) (dst g slot : Nat) : Option (Nat × Nat) :=
  let v := Tab.get 0 s.bas.calendar (dst * 2048 + g * 1024 + slot % 1024)
  if v = 0 then none else some ((v - 1) / 4, (v - 1) % 4)

/-- The rank of a request for a group, least first (R167; within each tier of R317 by class). -/
def grantRank (s : State) (x : Station) (g slot : Nat) (reqWaits : Bool) (r : MeshReq) : Nat :=
  let rr := (r.src + 29 - (Tab.get 28 x.lastGrant g + 1)) % 29
  let tier :=
    if calendarAt s r.dst g slot = some (r.src, r.cls) then 0
    else if reqWaits && 15 ≤ Tab.get 0 x.streak g && r.cls = 2 then 1
    else if r.resend.isSome then 2
    else if r.cont then 3
    else 4 + 4 * min 1 r.tier + r.cls
  tier * 32 + rr

/-- The request of least rank. -/
def bestReq (rank : MeshReq → Nat) : List MeshReq → Option MeshReq
  | [] => none
  | r :: l =>
    match bestReq rank l with
    | none => some r
    | some b => if rank r ≤ rank b then some r else some b

/-- One receive group grants (R166, R167): at most one source, one not granted by the
station's other group, with room for a full slot beside the slot that the other group was granted. -/
def grantGroup (s : State) (dst g slot : Nat) (reqs taken : List MeshReq) : State × List MeshReq :=
  let x := getStation s dst
  let cand := reqs.filter (fun r => r.dst = dst
    && Tab.get 0 x.held r.cls + 40 * (1 + countP (fun y => y.dst = dst && y.cls = r.cls) taken) ≤ meshDepth r.cls
    && !taken.any (fun y => y.dst = dst && y.src = r.src))
  let reqWaits := cand.any (fun r => r.cls = 2)
  match bestReq (grantRank s x g slot reqWaits) cand with
  | none => (s, taken)
  | some r =>
    let streak := if r.cls ≤ 1 && reqWaits then Tab.get 0 x.streak g + 1 else 0
    (modStation s dst (fun x => { x with lastGrant := Tab.put 28 x.lastGrant g r.src, streak := Tab.put 0 x.streak g streak }),
      taken ++ [r])

/-- Grants of every group of every station for a slot. -/
def grantAll (s : State) (slot : Nat) (reqs : List MeshReq) : State × List MeshReq :=
  ((List.range 29).flatMap (fun d => [(d, 0), (d, 1)])).foldl (fun acc dg =>
    if stationLive acc.1 dg.1 then grantGroup acc.1 dg.1 dg.2 slot reqs acc.2 else acc) (s, [])

/-- The grant that a source accepts: its highest class, then the lowest station after the
one it last accepted (R167). -/
def acceptRank (x : Station) (r : MeshReq) : Nat := r.cls * 64 + (r.dst + 29 - (x.lastAccept + 1)) % 29

/-- The grant set of an accepted grant (R167): all grants for the same packet at the same
point. -/
def grantSet (x : Station) (r : MeshReq) (mine : List MeshReq) : List MeshReq :=
  let at' := fun (d : Nat) => match x.queue.find? (fun q => q.id = r.pkt) with
    | some q => (q.dests.find? (fun (e : Nat × Nat) => e.1 = d)).map (fun (e : Nat × Nat) => e.2)
    | none => none
  mine.filter (fun y => y.pkt = r.pkt && y.resend = r.resend && (r.resend.isSome || decide (at' y.dst = at' r.dst)))

/-- Note the slots that receivers expect (R168). -/
def expectSlot (s : State) (src seq : Nat) (ds : List Nat) (data : List Byte) : State :=
  let rx := ds.map (fun d => { dst := d, src := src, seq := seq, data := data : MeshRx })
  { s with bas := { s.bas with rx := s.bas.rx ++ rx } }

/-- Hold room at the receivers for the flits of a slot. -/
def holdFlits (s : State) (ds : List Nat) (cls n : Nat) : State :=
  ds.foldl (fun s d => modStation s d (fun x => { x with held := Tab.mod 0 x.held cls (· + n) })) s

/-- The codewords of a slot, five flits each, one for each mesh lane it takes; their header holds the
slot sequence number (R157, R168). -/
def slotWords (seq : Nat) (data : List Byte) : List Nat :=
  (List.range (ceilDiv data.length 320)).map (fun i => symbolBits (laneCodeword seq (slice data (320 * i) 320)))

/-- A source transmits a new slot to its grant set (R167, R168). -/
def sendNew (s : State) (st : Nat) (x : Station) (r : MeshReq) (ds : List Nat) : State :=
  match x.queue.find? (fun q => q.id = r.pkt) with
  | none => s
  | some q =>
    if 8 ≤ x.unacked.length then s
    else
      let off := ((q.dests.find? (fun e => e.1 = r.dst)).map (·.2)).getD 0
      let n := min (5 * meshLanes x) (q.data.length / 64 - off)
      let data := (q.data.drop (64 * off)).take (64 * n)
      let moved := q.dests.filterMap (fun e =>
        if ds.contains e.1 && e.2 = off then (if 64 * (off + n) < q.data.length then some (e.1, off + n) else none) else some e)
      let queue := if moved.isEmpty then x.queue.filter (fun y => y.id ≠ q.id)
        else updFirst (fun y => y.id = q.id) (fun y => { y with dests := moved }) x.queue
      let u : MeshSlot := { seq := x.seq, pkt := r.pkt, cls := r.cls, data := data, waitAck := ds }
      let s := modStation s st (fun x =>
        { x with queue := queue, unacked := x.unacked ++ [u], seq := (x.seq + 1) % 1024, lastAccept := r.dst })
      let s := holdFlits (expectSlot s st u.seq ds data) ds r.cls n
      emit (bump s (0x4300 + st) 7) (.meshSlot st u.seq ds data (slotWords u.seq data))

/-- A source sends a rejected slot again, with the same sequence number (R168). -/
def sendAgain (s : State) (st : Nat) (x : Station) (r : MeshReq) (seq : Nat) (ds : List Nat) : State :=
  match x.unacked.find? (fun u => u.seq = seq) with
  | none => s
  | some u =>
    let sent : MeshSlot → MeshSlot := fun y =>
      { y with rejected := y.rejected.filter (fun d => !ds.contains d), sends := y.sends + 1 }
    let s := modStation s st (fun x =>
      { x with lastAccept := r.dst, unacked := updFirst (fun y => y.seq = seq) sent x.unacked })
    emit (bump (bump s (0x4300 + st) 7) (0x4300 + st) 9) (.meshSlot st seq ds u.data (slotWords seq u.data))

/-- One source accepts and transmits. -/
def transmit (grants : List MeshReq) (s : State) (st : Nat) : State :=
  let x := getStation s st
  let mine := grants.filter (fun r => r.src = st)
  match bestReq (acceptRank x) mine with
  | none => s
  | some r =>
    let ds := (grantSet x r mine).map (·.dst)
    match r.resend with
    | some q => sendAgain s st x r q ds
    | none => sendNew s st x r ds

/-- MESH_SLOT (R167): the grants made in the last slot transmit; this slot's grants answer
the requests of the slot before; new requests are posted. -/
def execMeshSlot (s : State) : Out :=
  let s := (List.range 29).foldl (transmit s.bas.grants) s
  let n := s.bas.slot
  let (s, g) := grantAll s (n + 1) s.bas.requests
  let reqs := (List.range 29).flatMap (fun st => if stationLive s st then postRequests (getStation s st) st else [])
  .next { s with bas := { s.bas with grants := g, requests := reqs, slot := (n + 1) % 1024 } }

/-- Deliver, in slot-sequence order, the slots of a source that its receiver holds (R168). -/
def deliverSlots (dst src : Nat) : Nat → State → State
  | 0, s => s
  | n + 1, s =>
    match s.bas.rx.find? (fun e => e.dst = dst && e.src = src) with
    | none => s
    | some e =>
      if !e.ok then s
      else
        let fs := (List.range (e.data.length / 64)).map (fun i => slice e.data (64 * i) 64)
        let x := getStation s dst
        let (asm, pk) := fs.foldl takeFlit ((x.asm.filter (fun a => a.1 / 4 = src)).map (fun a => (a.1 % 4, a.2)), [])
        let old := (x.asm.filter (fun a => a.1 / 4 = src)).map (fun a => (a.1 % 4, a.2))
        let rest := x.asm.filter (fun a => a.1 / 4 ≠ src)
        let asm' := asm.foldl (fun t a => Tab.insert t (src * 4 + a.1) a.2) rest
        let held := eachClass x.held (fun c n => n - lostFlits old asm fs pk c)
        let s := { s with bas := { s.bas with rx := dropFirst (fun y => y.dst = dst && y.src = src && y.seq = e.seq) s.bas.rx } }
        let s := modStation s dst (fun x => { x with asm := asm', held := held })
        deliverSlots dst src n (pk.foldl (fun s y => toRouter s dst { cls := y.1, data := y.2, via := 16 }) s)

/-- A slot whose eighth send is rejected is dropped (R168): counted in [63:48] of
0x4300+s:09 and logged. -/
def dropSlot (s : State) (src seq dst : Nat) : State :=
  let n := (getStation s src).unacked.foldl (fun n u => if u.seq = seq then u.data.length / 64 else n) 0
  let cls := (getStation s src).unacked.foldl (fun n u => if u.seq = seq then u.cls else n) 0
  let s := { s with bas := { s.bas with rx := s.bas.rx.filter (fun e => !(e.dst = dst && e.src = src && e.seq = seq)) } }
  let s := modStation s dst (fun x => { x with held := Tab.mod 0 x.held cls (· - n) })
  let s := wrE s (0x4300 + src) 9 ((rdE s (0x4300 + src) 9 + 2 ^ 48) % 2 ^ 64)
  report s { cls := 0x31, kind := 7, place := src, detail := usableLines s }

/-- MESH_SLOT_ACK (R168). -/
def execMeshSlotAck (src seq dst : Nat) (ok : Bool) (s : State) : Out :=
  let x := getStation s src
  match x.unacked.find? (fun u => u.seq = seq && u.waitAck.contains dst) with
  | none => .next s
  | some u =>
    let js := pendingAt s 8 src 0
    let ok := ok && !injectDrops js
    let s := if js.any (fun j => j.fault ≠ 3) then bump s (0x4300 + dst) 2 else s
    let s := useInjections s 8 src 0
    let settle := fun (s : State) => modStation s src (fun x =>
      let l := updFirst (fun y => y.seq = seq)
        (fun y => { y with waitAck := y.waitAck.filter (· ≠ dst), rejected := y.rejected.filter (· ≠ dst) }) x.unacked
      { x with unacked := l.filter (fun y => !y.waitAck.isEmpty) })
    if ok then
      let s := settle s
      let s := { s with bas := { s.bas with rx := s.bas.rx.map (fun e =>
        if e.dst = dst && e.src = src && e.seq = seq then { e with ok := true } else e) } }
      .next (deliverSlots dst src 1024 s)
    else if 8 ≤ u.sends then .next (deliverSlots dst src 1024 (settle (dropSlot s src seq dst)))
    else
      let rej : MeshSlot → MeshSlot := fun y =>
        { y with rejected := if y.rejected.contains dst then y.rejected else y.rejected ++ [dst] }
      .next (modStation s src (fun x => { x with unacked := updFirst (fun y => y.seq = seq) rej x.unacked }))

/-! ### Port roles (R389 to R391) -/

/-- Enabled tiles of a new part, ascending (R390). -/
def enabledTiles (s : State) : List Nat := (List.range 24).filter (fun t => !bit s.fusedTiles t)

/-- The default role and far end of a port (R390), as in a record of R389. -/
def defaultRole (s : State) (x k : Nat) : Nat × Nat :=
  let e := enabledTiles s
  match e.findIdx? (· = x) with
  | none => (0xFF, 0xFFFF)
  | some i =>
    let n := e.length * (15 - k) + i
    if 13 ≤ k && n < 64 then (3, n)
    else if k = 12 && i < 8 then (2, i)
    else (0, 0xFFFF)

/-- The persistent record of a port: role, far end. -/
def roleRec (s : State) (x k : Nat) : Nat × Nat :=
  let b := rdB s (0x4600 + x) 1
  if b.isEmpty then defaultRole s x k else (field b (4 * k) 1, field b (4 * k + 2) 2)

/-- A tile or guest site whose ports may be up (R391 rule 3). -/
def siteUp (s : State) (x : Nat) : Bool :=
  if x < 24 then !bit s.fusedTiles x && !bit s.retiredTiles x else x < 28 && bit s.guestSites x

/-- R391 rule 3: the port's site is gone, or a port of such a site names it. -/
def roleDown (s : State) (x k : Nat) : Bool :=
  !siteUp s x || (List.range 28).any (fun y => !siteUp s y && (List.range (portCount y)).any (fun j =>
    roleRec s y j = (1, x * 16 + k)))

/-- State bits of a port record: 1 DOWN, 2 DISAGREE, 4 TAKEN (R389, R391). -/
def roleFlags (s : State) (x k : Nat) : Nat :=
  let (role, far) := roleRec s x k
  let down := roleDown s x k
  let disagree := role = 1 && roleRec s (far / 16 % 512) (far % 16) ≠ (1, x * 16 + k)
  let taken := (role = 2 || role = 3) && !down && (List.range 28).any (fun y => (List.range (portCount y)).any (fun j =>
    (y < x || (y = x && j < k)) && roleRec s y j = (role, far) && !roleDown s y j))
  b2n down + 2 * b2n disagree + 4 * b2n taken

/-- Settle one port: role and far end of its record, or down (R391). -/
def settlePort (s : State) (x k : Nat) : State :=
  let (role, far) := roleRec s x k
  let p := getPort s (portKey x k)
  let fl := if p.failed = 0x1FFFF then 1 else roleFlags s x k
  let want : Option Nat := if fl ≠ 0 then none else match role with
    | 1 => some (far % 8192)
    | 2 => some (28 * 16 + far % 8)
    | 3 => some (512 + far % 64)
    | _ => none
  if p.role = role && (role = 0 || p.far = want) && (fl = 0 || !p.up) then s
  else
    let s := returnWaiting s x p.waiting
    let s := modPort s (portKey x k) (fun p => { role := role, far := want, up := role = 3 && want.isSome, training := want.isSome && role ≠ 3, failed := p.failed, path := (want.map (· / 16)).getD 0 })
    match role, want with
    | 2, some h => modPort s h (fun q => { role := 2, far := some (portKey x k), training := true, failed := q.failed, path := x })
    | _, _ => s

/-- A host-bridge port that no tile port names any longer is dark (R171). -/
def settleHostPort (s : State) (h : Nat) : State :=
  let key := portKey 28 h
  if (getPort s key).far.isNone || s.bas.ports.any (fun e => e.1 < 448 && e.2.role = 2 && e.2.far = some key) then s
  else
    let s := returnWaiting s 28 (getPort s key).waiting
    modPort s key (fun q => { failed := q.failed })

/-- The Hem-through port that holds a link. -/
def attachedPort (s : State) (link : Nat) : Option Nat :=
  (s.bas.ports.find? (fun e => e.2.role = 3 && e.2.far = some (512 + link))).map (·.1)

/-- R389: a record that may be written. -/
def roleRecordOk (l : List Byte) : Bool :=
  let far := field l 2 2
  (l.getD 1 0#8) = 0#8 && (match field l 0 1 with
    | 0 | 0xFF => far = 0xFFFF
    | 1 => far < 8192 && far / 16 < 28
    | 2 => far < 8
    | 3 => far < 64
    | _ => false)

def rolesOk (x : Nat) (v : List Byte) : Bool :=
  v.length = 4 * portCount x && (List.range (portCount x)).all (fun k => roleRecordOk (slice v (4 * k) 4))

/-! ### Circuit plans (R175 to R177, R189) -/

/-- Plan states (R177). -/
def planState (s : State) (p : Nat) : Nat := rdE s (0x7400 + p) 2
def setPlanState (s : State) (p v : Nat) : State := wrE s (0x7400 + p) 2 v

/-- Endpoint `e` of a plan body's pair: U16 with TILE and PORT (R175). -/
def pairCount (b : List Byte) : Nat := field b 2 2
def endpoint (b : List Byte) (j e : Nat) : Nat := field b (8 + 4 * j + 2 * e) 2
def epTile (x : Nat) : Nat := x / 16 % 512
def epPort (x : Nat) : Nat := x % 16

/-- Every pair: both physical ports, where the tiles are present. -/
def endpointPort (s : State) (x : Nat) : Option Nat := (physTile s (epTile x)).map (fun t => portKey t (epPort x))

/-- The first pair index at which a rule fails. -/
def firstPair (n : Nat) (bad : Nat → Bool) : Option Nat := (List.range n).find? bad

/-- R176: code and pair index; 0 when READY.  Rules 4 to 8 alone serve R177. -/
def planRules48 (s : State) (b : List Byte) : Nat × Nat :=
  let n := pairCount b
  let ends := fun j => [endpoint b j 0, endpoint b j 1]
  let noTile := firstPair n (fun j => (ends j).any (fun x => (physTile s (epTile x)).isNone))
  let noPort := firstPair n (fun j => (ends j).any (fun x => match physTile s (epTile x) with
    | some t => portCount t ≤ epPort x | none => true))
  let notColl := firstPair n (fun j => (ends j).any (fun x => match endpointPort s x with
    | some k => (getPort s k).role ≠ 0 | none => true))
  let same := firstPair n (fun j => epTile (endpoint b j 0) = epTile (endpoint b j 1))
  let seen := fun (j : Nat) (x : Nat) => (List.range j).any (fun i => (ends i).contains x)
  let rep := firstPair n (fun j => endpoint b j 0 = endpoint b j 1 || (ends j).any (seen j))
  match noTile, noPort, notColl, same, rep with
  | some j, _, _, _, _ => (4, j)
  | _, some j, _, _, _ => (5, j)
  | _, _, some j, _, _ => (6, j)
  | _, _, _, some j, _ => (7, j)
  | _, _, _, _, some j => (8, j)
  | _, _, _, _, _ => (0, 0)

def planCheck (s : State) (b : List Byte) : Nat × Nat :=
  let n := pairCount b
  if field b 0 1 ≠ 1 then (1, 0)
  else if 200 < n || b.length < 8 + 4 * n then (2, 0)
  else if field b 1 1 ≠ 0 then (3, 0)
  else
    match firstPair n (fun j => 8192 ≤ endpoint b j 0 || 8192 ≤ endpoint b j 1) with
    | some j => (3, j)
    | none => planRules48 s b

def planBody (s : State) (p : Nat) : List Byte := rdB s (0x7400 + p) 1

/-- LOAD_PLAN: starts operation 0x0005. -/
def startLoadPlan (s : State) (_sel : Tab Nat) (v : List Byte) : Effect :=
  if opRunning s 5 then { s := s, status := stBusy }
  else
    let p := leNat v % 256
    { s := setPlanState (startOp s 5 (pairCount (planBody s p)) p) p 1 }

def execLoadPlan (r : VdpReq) (s : State) : Out :=
  .next (vdpEntry s (atEntry r 0x7300 3) anyValue startLoadPlan)

/-- PLAN_LOAD_DONE (R176). -/
def execPlanLoadDone (s : State) : Out :=
  if !opRunning s 5 then .next s
  else
    let p := (getOp s 5).arg
    let (code, j) := planCheck s (planBody s p)
    let s := wrE s (0x7400 + p) 3 (code * 2 ^ 24 + j)
    if code = 0 then .next (endOp (setPlanState s p 2) 5 2 0 (getOp s 5).total)
    else .next (endOp (setPlanState s p 3) 5 3 code j)

/-- PLAN_RECHECK (R177): after a renumbering or a repaired record. -/
def recheckPlans (s : State) : State :=
  (List.range 256).foldl (fun s p =>
    if planState s p = 2 && (planRules48 s (planBody s p)).1 ≠ 0 then setPlanState s p 3 else s) s

/-- A write of a plan body (R189): the plan is EMPTY until loaded; a load of it is aborted. -/
def writePlanBody (p : Nat) (s : State) (_sel : Tab Nat) (v : List Byte) : Effect :=
  let s := setPlanState (wrB s (0x7400 + p) 1 v) p 0
  { s := if opRunning s 5 && (getOp s 5).arg = p then endOp s 5 4 0 (getOp s 5).position else s }

def planBodyOk (_s : State) (_sel : Tab Nat) (v : List Byte) : Bool := v.length ≤ 808

/-- PLAN_BODY_WRITE. -/
def execPlanBodyWrite (p : Nat) (r : VdpReq) (s : State) : Out :=
  .next (vdpEntry s (atEntry r (instIndex 0x7400 256 p) 1) planBodyOk (writePlanBody p))

/-! ### Switching (R178 to R181) -/

/-- The switch controller's answer (R178).  With DARK the plan number names nothing: NOT_READY and
CONFLICT do not look at it, and two DARK requests for one front are the same (DEDUCED, log 100). -/
def postSwitch (s : State) (front : Nat) (dark : Bool) (plan : Nat) : State × Nat :=
  let ready := dark || planState s plan = 2 || planState s plan = 4
  let same := fun (w : Switch) => w.front = front && w.dark = dark && (dark || w.plan = plan)
  if front < epoch s + 313 then (s, 2)
  else if !ready then (s, 3)
  else if s.bas.switches.any same then (s, 0)
  else if s.bas.switches.any (fun w => w.front = front) then (s, 4)
  else if 16 ≤ s.bas.switches.length then (s, 5)
  else ({ s with bas := { s.bas with switches := s.bas.switches ++ [⟨front, dark, plan⟩] } }, 0)

/-- A switch posted by a U64 (R178): bits [11:9] must be 0. -/
def requestSwitch (s : State) (v : Nat) : State × Nat :=
  if bits v 9 3 ≠ 0 then (s, 1) else postSwitch s (v / 4096 * 4096) (bit v 8) (v % 256)

/-- SWITCH_REQUEST: answered with the code, in the type of the entry (R348). -/
def execSwitchRequest (r : VdpReq) (s : State) : Out :=
  .next (vdpEntry s (atEntry r 0x7300 2) anyValue (fun s _ v =>
    let (s, c) := requestSwitch s (leNat v)
    { s := s, data := leBytes 8 c }))

/-- Far ends of the collective ports under a plan, or dark (R175). -/
def planFars (s : State) (dark : Bool) (plan : Nat) : Tab Nat :=
  if dark || !(planState s plan = 2 || planState s plan = 4) then []
  else
    let b := planBody s plan
    (List.range (pairCount b)).flatMap (fun j =>
      match endpointPort s (endpoint b j 0), endpointPort s (endpoint b j 1) with
      | some x, some y => [(x, y), (y, x)]
      | _, _ => [])

/-- The collective ports whose far end or darkness changes (R179). -/
def changingPorts (s : State) (fars : Tab Nat) : List Nat :=
  (s.bas.ports.filter (fun e => e.2.role = 0 && e.2.far ≠ (fars.find? (fun f => f.1 = e.1)).map (·.2))).map (·.1)
    ++ (fars.filter (fun f => !s.bas.ports.any (fun e => e.1 = f.1))).map (·.1)

/-- The earliest pending switch. -/
def nextSwitch (s : State) : Option Switch :=
  s.bas.switches.foldl (fun b w => match b with
    | none => some w
    | some x => if w.front < x.front then some w else b) none

/-- PLAN_SWITCH_DRAIN (R180): from 125 counts before the front, the changing ports start no
new packet. -/
def execPlanSwitchDrain (s : State) : Out :=
  match nextSwitch s with
  | none => .next s
  | some w =>
    let wait := (w.front - epoch s - 125) * countPs
    let s := advanceTo s (s.now + wait)
    .next ((changingPorts s (planFars s w.dark w.plan)).foldl (fun s k => modPort s k (fun p => { p with draining := true })) s)

/-- The end of a circuit at a port can train: its tile is not in reset, retired or closed (R181). -/
def stationReady (s : State) (f : Nat) : Bool :=
  512 ≤ f || f / 16 = 28 || (if f / 16 < 24 then tileOpen s (f / 16) else bit s.guestSites (f / 16))

/-- One changing port at the front (R180): codewords still unacknowledged are dropped, packets that
waited go back to the router, its ring takes the new setting, and its receiver loads the settings of
the new path (R498).  It trains at once where its far end can. -/
def switchPort (fars : Tab Nat) (s : State) (key : Nat) : State :=
  let p := getPort s key
  let s := bumpN s (0x4300 + key / 16) 0xA p.retry.length
  let s := if p.retry.isEmpty then s else portReport s 0x33 (key / 16) (key % 16) p.inUse
  let far := (fars.find? (fun f => f.1 = key)).map (·.2)
  let s := returnWaiting s (key / 16) p.waiting
  modPort s key (fun p => { role := p.role, far := far, training := far.isSome, failed := p.failed, recal := p.recal,
                            path := (far.map (· / 16)).getD p.path, switching := far.any (stationReady s),
                            delayed := gapLines s ≠ 0 })

/-- PLAN_SWITCH_AT_FRONT (R178 to R180): a plan no longer READY leaves every port dark. -/
def switchAtFront (s : State) (w : Switch) : State :=
  let fars := planFars s w.dark w.plan
  let ch := changingPorts s fars
  let dark := w.dark || !(planState s w.plan = 2 || planState s w.plan = 4)
  let s := ch.foldl (switchPort fars) s
  let old := rdE s 0x7300 1
  let s := if old < 256 && planState s old = 4 then setPlanState s old 2 else s
  let s := if dark then wrE s 0x7300 1 0x100 else setPlanState (wrE s 0x7300 1 w.plan) w.plan 4
  let s := wrE s 0x7300 4 w.front
  let s := if ch.isEmpty then s else bump s 0x7300 5
  { s with bas := { s.bas with switches := s.bas.switches.filter (fun x => x.front ≠ w.front) } }

/-- The far end of a port can train (R181). -/
def farReady (s : State) (key : Nat) : Bool := (getPort s key).far.any (stationReady s)

/-- The line's far-end or own failures leave I at both ends, which agree on it in training (R173). -/
def agreeLines (s : State) (key i : Nat) : State :=
  match (getPort s key).far with
  | some f => if f < 512 && (getPort s f).up then modPort s f (fun p => { p with inUse := i }) else s
  | none => s

/-- A circuit with too few lanes stays down at both ends until the next switch (R173, R181). -/
def stayDown (s : State) (key lines : Nat) : State :=
  let s := portReport (modPort s key (fun p => { p with training := false, switching := false })) 0x32 (key / 16) (key % 16) lines
  match (getPort s key).far with
  | some f => if f < 512 && (getPort s f).up then takeDown s f lines else s
  | none => s

/-- The first data of a port that a switch trained: counted where a laser gap delayed it, else timed
(R181, R189). -/
def switchTimed (s : State) (key ns : Nat) : State :=
  let p := getPort s key
  let st := key / 16
  if !p.switching then s
  else if p.delayed then wrE s (0x4300 + st) 0xB ((rdE s (0x4300 + st) 0xB + 1) % 2 ^ 32)
  else wrE s 0x7300 6 (max (rdE s 0x7300 6) ns)

/-- PLAN_SWITCH_FIRST_DATA (R173, R180, R181). -/
def execPlanSwitchFirstData (st port ns failedLanes farLanes : Nat) (s : State) : Out :=
  let key := portKey st port
  let p := getPort s key
  if 28 < st || portCount st ≤ port || !p.training || !farReady s key || gapLines s ≠ 0 then .next s
  else
    let other := match p.far with | some f => getPort s f | none => {}
    let new := linesWithout (failedLanes % 2 ^ 17) p.failed
    let i := linesWithout (linesWithout (linesWithout (linesWithout (usableLines s) p.failed) other.failed) failedLanes) farLanes
    let s := modPort s key (fun p => { p with failed := maskOf (fun l => bit p.failed l || bit failedLanes l) 17 })
    let s := if new = 0 then s else portReport s 0x30 st port new
    let s := if new ≠ 0 && popBelow new 17 = 1 && dataLanes i = 16 then
      wrE s (0x4300 + st) 5 ((rdE s (0x4300 + st) 5 + 1) % 2 ^ 32) else s
    if dataLanes i < 4 then .next (stayDown s key new)
    else
      let s := agreeLines (switchTimed s key ns) key i
      let s := modPort s key (fun p =>
        { p with up := true, training := false, draining := false, inUse := i, txSeq := 0, retry := [], sent := [], freed := [],
                 rxNext := 0, reorder := [], naks := [], rxFreed := [], rxHeld := [], asm := [], switching := false, delayed := false,
                 trainedAt := s.now, txPos := [], ctlPos := [], corr := [], told := [], heard := false })
      .next (tell st port 64 (pump s st port))

end Sys2Proof.Machine
end

