-- ==== Sys2Proof/Machine/Packet.lean ====
section
/-!
DEFINITION. Packets (08_hem_links.md R247 to R250): their bytes, header check and class, the
route tables, and the queue of packets that wait at the router of a station.
-/
namespace Sys2Proof.Machine

/-! ### Header check (R248) and header (R247) -/

def crc16Bit (c : Half) : Half := if c.getLsbD 15 then (c <<< 1) ^^^ 0x1021#16 else c <<< 1

def crc16Byte (c : Half) (b : Byte) : Half :=
  let c := c ^^^ (b.setWidth 16 <<< 8)
  crc16Bit (crc16Bit (crc16Bit (crc16Bit (crc16Bit (crc16Bit (crc16Bit (crc16Bit c)))))))

/-- CRC-16 of R248. -/
def crc16 (l : List Byte) : Half := l.foldl crc16Byte 0xFFFF#16

/-- Bytes 0 to 29 of the header. -/
def headerBytes (p : Pkt) : List Byte :=
  leBytes 1 (p.hops % 8 + p.next % 8 * 8 + b2n p.mcast * 64) ++ leBytes 5 p.route ++ leBytes 1 p.slice ++ leBytes 1 p.kind
    ++ leBytes 2 (p.destNode % 4096) ++ leBytes 1 (p.destStation % 32) ++ leBytes 1 (p.srcStation % 32)
    ++ leBytes 2 (p.srcNode % 4096) ++ leBytes 2 (p.body.length % 16384) ++ leBytes 2 (p.tag % 16384) ++ leBytes 2 p.stream
    ++ leBytes 4 p.seq ++ leBytes 2 p.sigSync ++ leBytes 2 p.sigCount ++ leBytes 1 (b2n p.poison + 2 * b2n p.fabric)
    ++ leBytes 1 0

/-- A packet's bytes, with the header check formed. -/
def pktBytes (p : Pkt) : List Byte :=
  let h := headerBytes p
  h ++ leBytes 2 (crc16 h).toNat ++ p.body

/-- Read a packet; none where the header check fails (R248). -/
def parsePkt (l : List Byte) : Option Pkt :=
  if l.length < 32 || field l 30 2 ≠ (crc16 (l.take 30)).toNat then none
  else
    let c := field l 0 1
    some { hops := c % 8, next := c / 8 % 8, mcast := bit c 6, route := field l 1 5, slice := field l 6 1, kind := field l 7 1,
           destNode := field l 8 2 % 4096, destStation := field l 10 1 % 32, srcStation := field l 11 1 % 32,
           srcNode := field l 12 2 % 4096, tag := field l 16 2 % 16384, stream := field l 18 2, seq := field l 20 4,
           sigSync := field l 24 2, sigCount := field l 26 2, poison := bit (field l 28 1) 0, fabric := bit (field l 28 1) 1,
           body := slice l 32 (field l 14 2 % 16384) }

/-- Class of a packet: 0 control, 1 response, 2 request, 3 bulk; none for a reserved kind
(R247, R290, and R432 for the kinds of the host bridge). -/
def classOf (p : Pkt) : Option Nat :=
  let k := p.kind
  if k = 0x02 || k = 0x04 || k = 0x05 then some (if 32 + 1024 ≤ p.body.length then 3 else 2)
  else if 1 ≤ k && k ≤ 9 then some 2
  else if k = 0x20 then some 1
  else if k = 0x42 || k = 0x43 then some 3
  else if 0x40 ≤ k && k ≤ 0x46 then some 0
  else if 0x50 ≤ k && k ≤ 0x53 then some 0
  else if k = 0x60 then some 2
  else if k = 0x61 then some 1
  else none

/-! ### Nodes and routes (R249, R250, R273) -/

/-- This module's node number; 0xFFFF while unassigned. -/
def ownNode (s : State) : Nat := rdE s 0x5000 1

/-- The route is for this module. -/
def isOwn (s : State) (node : Nat) : Bool := node = ownNode s

/-- Hop entry `i` of a route. -/
def hopEntry (route i : Nat) : Nat := bits route (10 * i) 10

/-- A route with entry `i` replaced. -/
def setHop (route i e : Nat) : Nat := route - hopEntry route i * 2 ^ (10 * i) + e % 1024 * 2 ^ (10 * i)

/-- Entries 0 to `n - 1` in reverse order (R249). -/
def reverseRoute (route : Nat) : Nat → Nat
  | 0 => 0
  | n + 1 => hopEntry route n + reverseRoute route n * 1024

/-- Route entry `i` of a set: weight, hops, route. -/
def routeEntry (set : List Byte) (i : Nat) : Nat × Nat × Nat :=
  (field set (8 * i + 6) 1, field set (8 * i + 5) 1 % 8, field set (8 * i) 5)

/-- One step of smooth weighted round robin: each current weight rises by its entry's
weight, the greatest is taken (the lowest entry among equals), and falls by the total. -/
def swrrPick (ws : List Nat) (cur : List Int) : Option (Nat × List Int) :=
  let total : Nat := ws.sum
  if total = 0 then none
  else
    let up := (List.range ws.length).map (fun i => cur.getD i 0 + (ws.getD i 0 : Int))
    let best := (List.range ws.length).foldl (fun b i =>
      if ws.getD i 0 = 0 then b
      else match b with
        | none => some i
        | some j => if up.getD j 0 < up.getD i 0 then some i else b) (none : Option Nat)
    best.map (fun i => (i, up.set i (up.getD i 0 - (total : Int))))

/-- Choose a route to a node for a class (R250); none with NO_ROUTE. -/
def chooseRoute (s : State) (node cls : Nat) : State × Option (Nat × Nat) :=
  let set := Tab.get [] s.hem.routes node
  let ws := (List.range 8).map (fun i => (routeEntry set i).1)
  let key := node * 4 + cls
  match swrrPick ws (Tab.get [] s.hem.swrr key) with
  | none => (s, none)
  | some (i, cur) =>
    let e := routeEntry set i
    ({ s with hem := { s.hem with swrr := Tab.put [] s.hem.swrr key cur } }, some (e.2.1, e.2.2))

/-! ### Lane groups as a next hop (R228, R253) -/

def getGroup (s : State) (link g : Nat) : HemGroup := Tab.get {} s.hem.groups (link * 16 + g)

/-- A group that is UP and whose far end announces Status [1] offers a reference (R384). -/
def offersRef (x : HemGroup) : Bool := x.state = 2 && bit x.farStatus 1

/-- A group that has come to offer a reference is judged anew (R444). -/
def noteOffer (x y : HemGroup) : HemGroup := { y with offers := x.offers + b2n (offersRef y && !offersRef x) }

def modGroup (s : State) (link g : Nat) (f : HemGroup → HemGroup) : State :=
  { s with hem := { s.hem with groups := Tab.mod {} s.hem.groups (link * 16 + g) (fun x => noteOffer x (f x)) } }

/-- Groups of a link by the split code in force (R228). -/
def groupCount (s : State) (link : Nat) : Nat := 2 ^ min 4 (Tab.get 0 s.hem.split link)

/-- The reason of R253 for which a packet of a kind cannot leave on a hop entry; 0 if it
can. -/
def hopReason (s : State) (e kind : Nat) : Nat :=
  let link := e / 16
  let g := e % 16
  if (attachedPort s link).isNone || groupCount s link ≤ g then 3
  else
    let x := getGroup s link g
    if x.state = 3 then 2
    else if x.state ≠ 2 then 1
    else if x.farNode = 0xFFFF && kind ≠ 0x52 && kind ≠ 0x53 then 6
    else 0

/-! ### Sending -/

/-- Logical number of a station: a tile, a guest tile, or 28 for the host bridge. -/
def stationName (s : State) (st : Nat) : Nat := if st = 28 then 28 else (logicalTile s st).getD 31

/-- Station of a logical number. -/
def stationOf (s : State) (n : Nat) : Option Nat := if n = 28 then some 28 else physTile s n

/-- Put a packet behind those that wait at the router of a station. -/
def enqueue (s : State) (st : Nat) (p : Pkt) : State :=
  let p := { p with stamp := epoch s }
  { s with fab := { s.fab with routers := Tab.mod [] s.fab.routers st (fun l => l ++ [p]) } }

/-- A packet that begins at station `st` for a node: a route from the table unless the node
is this module's (R250, R279), and rules 5 and 7 of R251; the reason of R253, or 0 when it
is queued. -/
def sendNewPkt (s : State) (st : Nat) (p : Pkt) : State × Nat :=
  let p := { p with srcStation := stationName s st, srcNode := ownNode s % 4096 }
  if p.mcast || isOwn s p.destNode then (enqueue s st p, 0)
  else if ownNode s = 0xFFFF && p.kind ≠ 0x52 && p.kind ≠ 0x53 then (s, 6)
  else
    match chooseRoute s p.destNode ((classOf p).getD 0) with
    | (s, none) => (s, 5)
    | (s, some (h, r)) =>
      let why := if h = 0 || 4 < h then 7 else hopReason s (hopEntry r 0) p.kind
      if why ≠ 0 then (s, why) else (enqueue s st { p with hops := h, next := 0, route := r }, 0)

/-- A reply to a packet: its route reversed, to its source, in its slice (R249, R250). -/
def replyTo (s : State) (q : Pkt) (kind : Nat) (body : List Byte) : Pkt :=
  { hops := q.next, next := 0, route := reverseRoute q.route q.next, slice := q.slice, kind := kind, destNode := q.srcNode,
    destStation := q.srcStation, srcStation := q.destStation, srcNode := ownNode s % 4096, tag := q.tag, stream := q.stream,
    seq := q.seq, body := body }

end Sys2Proof.Machine
end

