-- ==== Sys2Proof/Machine/Tracker.lean ====
section
/-!
DEFINITION. Transaction tracking, completion records and fences (09_memory_fabric.md R285,
R288, R289, R300 to R303), and sync objects as packets reach them (R255, R297).
-/
namespace Sys2Proof.Machine

/-! ### Status values (R289) -/

def fsOk : Nat := 0
def fsBadEntry : Nat := 1
def fsAddress : Nat := 2
def fsAlign : Nat := 3
def fsNoRegion : Nat := 4
def fsKey : Nat := 5
def fsSlice : Nat := 6
def fsPermission : Nat := 7
def fsNotOwner : Nat := 8
def fsStale : Nat := 9
def fsMemory : Nat := 10
def fsStitch : Nat := 11
def fsOperand : Nat := 12
def fsTileReset : Nat := 13
def fsAsleep : Nat := 14
def fsRoute : Nat := 15
def fsSliceRefused : Nat := 16
def fsLeaseHeld : Nat := 17
def fsLeaseLost : Nat := 18
def fsTimeout : Nat := 19
def fsAborted : Nat := 20

/-! ### Fields of a request entry (R286) -/

def eKind (e : List Byte) : Nat := field e 0 1
def ePosted (e : List Byte) : Bool := bit (field e 1 1) 0
def eDetail (e : List Byte) : Nat := field e 2 1
def eLength (e : List Byte) : Nat := field e 4 2
def eUser (e : List Byte) : Nat := field e 6 2
def eAddr (e : List Byte) : Nat := field e 8 8
def eLocal (e : List Byte) : Nat := field e 16 8
def eKey (e : List Byte) : Nat := field e 24 4
def eTid (e : List Byte) : Nat := field e 28 4
def eBlk (e : List Byte) : Nat := field e 32 4
def eOperand (e : List Byte) : Nat := field e 36 8
def eOperand2 (e : List Byte) : Nat := field e 44 4 + field e 60 4 * 2 ^ 32
def eGroup (e : List Byte) : Nat := field e 54 2

/-! ### Queues -/

def queueKey (t q : Nat) : Nat := t * 8 + q

def getQueue (s : State) (t q : Nat) : FQueue := Tab.get {} s.fab.queues (queueKey t q)

def modQueue (s : State) (t q : Nat) (f : FQueue → FQueue) : State :=
  { s with fab := { s.fab with queues := Tab.mod {} s.fab.queues (queueKey t q) f } }

/-- Write a 32-byte completion record at the ring's next slot, and add 1 to sync object
1,016 + q (R285, R288).  The spec gives no way to free a slot: the ring is never full. -/
def pushRecord (s : State) (t q : Nat) (r : List Byte) : State :=
  let x := getQueue s t q
  let s := rawWrite s t (onDieBase + x.compRing + 32 * (x.written % x.compEntries)) r
  syncAdd (modQueue s t q (fun x => { x with written := x.written + 1 })) t (1016 + q) 1#32

/-- The record of an entry that is not a fence (R288). -/
def entryRecord (user status detail index value flags : Nat) : List Byte :=
  leBytes 2 user ++ leBytes 1 status ++ leBytes 1 detail ++ leBytes 4 index ++ leBytes 8 value ++ leBytes 4 0
    ++ leBytes 1 flags ++ leBytes 11 0

/-- The failures that a fence at an entry takes (R303): every posted one recorded, and the
others of entries before it. -/
def fenceTakes (f : Fence) (x : Failure) : Bool := x.posted || decide (x.index < f.index)

/-- The record of a fence (R303). -/
def fenceRecord (x : FQueue) (f : Fence) : List Byte :=
  let fs := x.fails.filter (fenceTakes f)
  let first := fs.headD { index := 0, posted := false, status := 0, user := 0, addr := 0 }
  leBytes 2 f.user ++ leBytes 1 first.status ++ leBytes 1 0 ++ leBytes 4 f.index ++ leBytes 8 0 ++ leBytes 4 fs.length
    ++ leBytes 1 x.flags ++ leBytes 1 first.status ++ leBytes 2 first.user ++ leBytes 8 first.addr

/-- The first waiting fence whose earlier entries have all ended completes (R302, R303). -/
def completeFence (s : State) (t q : Nat) : State :=
  let x := getQueue s t q
  match x.fences with
  | f :: fs =>
    if x.out.any (fun i => i < f.index) then s
    else
      let r := fenceRecord x f
      let s := modQueue s t q (fun x => { x with fences := fs, fails := x.fails.filter (fun y => !fenceTakes f y), flags := 0 })
      pushRecord s t q r
  | [] => s

/-- An entry of a queue ends with a status (R288, R303): a record, or for a posted one the
accumulator. -/
def endEntry (s : State) (t q index : Nat) (e : List Byte) (status detail value flags : Nat) : State :=
  let posted := ePosted e
  let fail : Failure := { index := index, posted := posted, status := status, user := eUser e, addr := eAddr e }
  let s := modQueue s t q (fun x =>
    { x with out := x.out.filter (· ≠ index), fails := if status = 0 then x.fails else x.fails ++ [fail],
             flags := if posted then x.flags ||| flags else x.flags })
  if posted then (if status = 0 then s else bump s 0x5600 6)
  else pushRecord s t q (entryRecord (eUser e) status detail index value flags)

/-! ### The tracker (R300, R301) -/

def trackKey (st tag : Nat) : Nat := st * 16384 + tag

def trackSize (st : Nat) : Nat := if st = 28 then 4096 else 16384

def getTrack (s : State) (st tag : Nat) : Option Track := Tab.get none s.fab.tracks (trackKey st tag)

def putTrack (s : State) (st tag : Nat) (x : Option Track) : State :=
  { s with fab := { s.fab with tracks := Tab.put none s.fab.tracks (trackKey st tag) x } }

/-- A tag is in quarantine (R301). -/
def quarantined (s : State) (st tag : Nat) : Bool := Tab.get 0 s.fab.quar (trackKey st tag) ≠ 0

/-- The lowest tag that is neither in use nor quarantined. -/
def freeTag (s : State) (st : Nat) : Nat → Nat → Option Nat
  | 0, _ => none
  | n + 1, tag => if (getTrack s st tag).isNone && !quarantined s st tag then some tag else freeTag s st n (tag + 1)

/-- Records written to a host queue's CQ and not yet read; the CQ is full at one less than its
size (R432). -/
def cqSize (x : HQueue) : Nat := 2 ^ (x.size / 2 ^ 24 % 16)
def cqUnread (x : HQueue) : Nat := (x.cqTail + cqSize x - x.cqHead) % cqSize x
def cqFull (x : HQueue) : Bool := cqSize x ≤ cqUnread x + 1

/-- Records of the host queues that wait for room in their CQ: each holds a tracker entry of the
host bridge (R432). -/
def recordsHeld (s : State) : Nat :=
  (s.host.queues.map (fun e => if cqFull e.2 then countP (fun (x : HEntry) => x.ended.isSome) e.2.ents else 0)).sum

/-- Entries of the host bridge's tracker in use. -/
def bridgeUsed (s : State) : Nat :=
  countP (fun (e : Nat × Option Track) => e.1 / 16384 = 28) s.fab.tracks + countP (fun (e : Nat × Nat) => e.1 / 16384 = 28) s.fab.quar
    + recordsHeld s

/-- The tag that the next request of a station takes; none while its tracker is full. -/
def nextTag (s : State) (st : Nat) : Option Nat :=
  if st = 28 && trackSize 28 ≤ bridgeUsed s then none else freeTag s st (trackSize st) 0

/-- The request timeout (R301), in ps. -/
def requestTimeout (s : State) : Nat := rdE s 0x5600 1 * msPs

/-- Take a tracker entry: its tag, and the issue count that becomes its nonce. -/
def takeTag (s : State) (st : Nat) (queue index : Nat) (e : List Byte) (slice : Nat) : Option (State × Nat × Nat) :=
  (nextTag s st).map (fun tag =>
    let n := Tab.get 0 s.fab.issues st
    let x : Track := { queue := queue, index := index, entry := e, nonce := n % 65536, deadline := s.now + requestTimeout s, slice := slice }
    let s := { s with fab := { s.fab with issues := Tab.put 0 s.fab.issues st (n + 1) } }
    (putTrack s st tag (some x), tag, n % 65536))

/-- Quarantine a tag for 100 ms (R301). -/
def quarantineTag (s : State) (st tag : Nat) : State :=
  { s with fab := { s.fab with quar := Tab.put 0 s.fab.quar (trackKey st tag) (s.now + 100 * msPs) } }

/-- A tag leaves quarantine. -/
def releaseTag (s : State) (st tag : Nat) : State :=
  { s with fab := { s.fab with quar := Tab.erase s.fab.quar (trackKey st tag) } }

/-- A tracker entry ends, and its queue's entry with it; the host bridge's engine takes its
own; `answered` is false
where it ended other than by its answer, which quarantines the tag. -/
def endTrack (s : State) (st tag : Nat) (x : Track) (status detail value flags : Nat) (answered : Bool) : State :=
  let s := putTrack s st tag none
  let s := if answered then s else quarantineTag s st tag
  if st < 24 then endEntry s st x.queue x.index x.entry status detail value flags
  else { s with fab := { s.fab with ended := s.fab.ended ++ [{ track := x, status := status, detail := detail, value := value }] } }

/-! ### Sync objects and slices (R255, R297) -/

/-- The slice of the admitted job that holds a sync object (R313): a base object by its
range, an object of tile `t` by its range on a tile of the job's map. -/
def syncSlice (s : State) (t name : Nat) : Option Nat :=
  let inRange := fun (first count i : Nat) => first ≤ i && i < first + count
  ((jobs s).find? (fun e => 2 ≤ e.2.state &&
    (if bit name 15 then inRange e.2.baseFirst e.2.baseCount (name % 8192)
     else inRange e.2.syncFirst e.2.syncCount (name % 1024) &&
      (match logicalTile s t with | some n => bit e.2.tiles n | none => false)))).map (·.1)

/-- A packet of a slice may act on the object. -/
def syncAllowed (s : State) (t name slice : Nat) : Bool := syncNameOk name && syncSlice s t name = some slice

/-- SIGNAL_SYNC_ADD (R255, R297): true where the signal was refused. -/
def signalPacket (s : State) (t : Nat) (p : Pkt) : State × Bool :=
  if p.sigSync = 0xFFFF then (s, false)
  else if syncAllowed s t p.sigSync p.slice then (syncAdd s t p.sigSync (BitVec.ofNat 32 p.sigCount), false)
  else (s, true)

end Sys2Proof.Machine
end

