-- ==== Sys2Proof/Machine/Hem.lean ====
section
/-!
DEFINITION. Hem lane groups (08_hem_links.md R226 to R246, R264 to R268): frames, retry,
credits, training, neighbour identity, loss of light; and the roles of the ports that carry them
(12_dictionary_reference.md R391).
-/
namespace Sys2Proof.Machine

/-! ### Failures (R253) -/

/-- The 16-byte body of ROUTE_FAIL and SLICE_FAIL. -/
def failBody (s : State) (p : Pkt) (reason : Nat) : List Byte :=
  leBytes 1 reason ++ leBytes 1 p.next ++ leBytes 2 (ownNode s) ++ leBytes 1 p.kind ++ leBytes 1 ((classOf p).getD 0)
    ++ leBytes 2 p.tag ++ leBytes 2 p.stream ++ leBytes 2 0 ++ leBytes 4 p.seq

/-- A failure reported to the source station: the tracker entry of the request ends. -/
def failAtSource (s : State) (st tag kind status detail : Nat) : State :=
  match getTrack s st tag with
  | some x => if eKind x.entry = kind then endTrack s st tag x status detail 0 0 true else s
  | none => s

/-- The packet began at the router of station `st`. -/
def atSource (s : State) (st : Nat) (p : Pkt) : Bool := p.next = 0 && stationOf s p.srcStation = some st

/-- ROUTE_FAIL_GENERATE: a packet fails at the router of station `st`.  At its source router the
tile is told directly (a collective packet has no request there that could end, and is counted); elsewhere
requests and bulk are answered while the router holds control space, and every other packet is dropped. -/
def failPkt (s : State) (st : Nat) (p : Pkt) (reason : Nat) (space : Bool) : State :=
  match classOf p with
  | none => bump s 0x5100 5
  | some cls =>
    if cls < 2 then bump s 0x5100 3
    else if atSource s st p && !p.mcast then (if 0x40 ≤ p.kind && p.kind < 0x50 then bump s 0x5100 4 else failAtSource s st p.tag p.kind fsRoute reason)
    else if space then enqueue s st { replyTo s p 0x50 (failBody s p reason) with fabric := true }
    else bump s 0x5100 4

/-- Copies that failed (0x5400:04). -/
def copyFailed (s : State) (n : Nat) : State := bumpN s 0x5400 4 n

/-! ### Lines of a lane group (R228, R230) -/

/-- The lane group of a line. -/
def lineOwner (s : State) (link line : Nat) : Nat := if line = 16 then 0 else line % groupCount s link

/-- The lines of a lane group, as a map. -/
def groupLines (s : State) (link g : Nat) : Nat := maskOf (fun l => lineOwner s link l = g) 17

/-- The width of a lane group. -/
def groupWidth (s : State) (link : Nat) : Nat := 16 / groupCount s link

/-- The lines of a lane group that are healthy at this end: its Line Map (R235). -/
def ownLines (s : State) (link g : Nat) : Nat :=
  maskOf (fun l => bit (groupLines s link g) l && bit (usableLines s) l && !bit (Tab.get 0 s.hem.failed link) l) 17

/-- I of a lane group: lines healthy at both ends (R230). -/
def groupHealthy (s : State) (link g : Nat) : Nat :=
  maskOf (fun l => bit (ownLines s link g) l && bit (getGroup s link g).farMap l) 17

/-- The spare of a lane group: group 0 keeps its highest line while it has two (R230). -/
def groupSpare (s : State) (link g : Nat) : Option Nat :=
  let i := linesOf (groupHealthy s link g)
  if g = 0 && 2 ≤ i.length then i.getLast? else none

/-- The lines that carry data, ascending (R230). -/
def groupDataLines (s : State) (link g : Nat) : List Nat :=
  ((linesOf (groupHealthy s link g)).filter (fun l => groupSpare s link g ≠ some l)).take (groupWidth s link)

/-- The line of lane group 0 under recalibration, whose frames go on the spare (R504): only while every
line of the group is healthy. -/
def recalLine (s : State) (link g : Nat) : Option Nat :=
  match s.cal.step with
  | some x => if g = 0 && groupHealthy s link 0 = groupLines s link 0 && bit (groupLines s link 0) x.line then some x.line else none
  | none => none

/-- The lines that data frames go on now: the spare in place of the line under recalibration, and none
squelched in a laser gap (R242). -/
def frameLines (s : State) (link g : Nat) : List Nat :=
  ((groupDataLines s link g).map (fun l => if recalLine s link g = some l then (groupSpare s link g).getD l else l)).filter
    (fun l => !bit (gapLines s) l)

/-- A report about a lane group. -/
def hemReport (s : State) (cls link g detail : Nat) : State :=
  report s { cls := cls, kind := 8, place := link, unit := g, detail := detail, tag := (getGroup s link g).farNode % 4096 }

/-! ### Credits, buffers and reservations (R239, R252) -/

/-- Flits of a link's receive buffer for a class and level. -/
def linkDepth (cls level : Nat) : Nat :=
  (([[256, 256, 256, 256], [8192, 4096, 1024, 1024], [4096, 2048, 1024, 1024], [24576, 24576, 4096, 4096]].getD cls []).getD (level - 1) 0)

def credKey (cls level : Nat) : Nat := 4 * cls + (level - 1)

/-- Credits of a lane group for a class and level. -/
def hemCredit (s : State) (link g cls level : Nat) : Nat :=
  let x := getGroup s link g
  let k := credKey cls level
  linkDepth cls level * groupWidth s link / 16 - (Tab.get 0 x.sent k + 65536 - Tab.get 0 x.freed k) % 65536

/-- The level at which a packet leaves (R239): its Hem hops, that one included. -/
def hopLevel (p : Pkt) : Nat := if p.mcast then 5 - p.route / 4096 % 8 else p.next + 1

/-- The class and level of a packet that leaves. -/
def hopKey (p : Pkt) : Nat := credKey ((classOf p).getD 0) (hopLevel p)

/-- Flits of a packet (R247). -/
def pktFlits (p : Pkt) : Nat := ceilDiv (32 + p.body.length) 62

/-- The transmit queue of the router of station `st` has room for `n` flits of a class and level. -/
def transmitRoom (s : State) (st key n : Nat) : Bool :=
  Tab.get 0 s.hem.txHeld (st * 16 + key) + n ≤ max 71 (Config.transmitSpace key).toNat

/-- Space in a transmit queue taken or given back. -/
def modTransmit (s : State) (st key : Nat) (f : Nat → Nat) : State :=
  { s with hem := { s.hem with txHeld := Tab.mod 0 s.hem.txHeld (st * 16 + key) f } }

/-- The router of a station holds control-class transmit space (R253). -/
def controlSpace (s : State) (st : Nat) : Bool := transmitRoom s st 0 1

/-- A packet has left the transmit queue of its egress router; a multicast copy stands in the
replicator's buffer instead (R216). -/
def leaveTransmit (s : State) (st : Nat) (p : Pkt) : State :=
  if p.mcast then s else modTransmit s st (hopKey p) (· - pktFlits p)

/-- The station whose Hem-through port holds a link. -/
def linkStation (s : State) (link : Nat) : Nat := ((attachedPort s link).map (· / 16)).getD 28

/-! ### Frames (R231 to R236) -/

def crc32cBit (c : Word) : Word := if c.getLsbD 0 then (c >>> 1) ^^^ 0x82F63B78#32 else c >>> 1

def crc32cByte (c : Word) (b : Byte) : Word :=
  let c := c ^^^ b.setWidth 32
  crc32cBit (crc32cBit (crc32cBit (crc32cBit (crc32cBit (crc32cBit (crc32cBit (crc32cBit c)))))))

/-- The frame check: CRC-32C (R233). -/
def crc32c (l : List Byte) : Word := ~~~ (l.foldl crc32cByte (~~~ 0#32))

/-- The 2,570 bytes of a frame: header with TYPE and FSEQ, body, piggyback, check (R232, R233). -/
def frameBytes (type fseq : Nat) (body : List Byte) (piggy : Nat) : List Byte :=
  let b := leBytes 2 (type * 16384 + fseq % 4096) ++ fit 2560 body ++ leBytes 4 piggy
  b ++ leBytes 4 (crc32c b).toNat

def idleFrame (piggy : Nat) : List Byte := frameBytes 0 0 [] piggy
def dataFrame (seq : Nat) (flits : List Byte) (piggy : Nat) : List Byte := frameBytes 1 seq flits piggy
def controlFrame (line : Nat) (body : List Byte) (piggy : Nat) : List Byte := frameBytes 2 (line % 32) body piggy
def trainingFrame : List Byte := frameBytes 3 0 [] 0

/-- The TYPE of a frame. -/
def frameType (f : List Byte) : Nat := field f 0 2 / 16384

/-- How the codewords of a frame decode (R231): 0 good, 1 uncorrectable, 2 miscorrected. -/
def frameDecode (errs free : Nat) : Nat :=
  if errs ≤ 15 then 0 else if Config.detectsBeyondLimit free then 1 else 2

/-- The bytes of a frame that its decoder delivers. -/
def decodedFrame (f : List Byte) (v free : Nat) : List Byte :=
  if v = 2 then (List.range 2570).map (fun i => Config.miscorrected (free * 4096 + i)) else f

/-- A frame whose codewords are not uncorrectable and whose check passes (R233). -/
def frameGood (f : List Byte) (v : Nat) : Bool :=
  v ≠ 1 && f.length = 2570 && field f 2566 4 = (crc32c (f.take 2566)).toNat

/-- The time of a frame position of a group: a frame takes 1,360/7 ns (R232). -/
def frameTime (x : HemGroup) (pos : Nat) : Nat := x.since + pos * 1360000 / 7

/-- The first frame position from now on. -/
def frameNow (s : State) (x : HemGroup) : Nat := ceilDiv ((s.now - x.since) * 7) 1360000

/-- Line `l` carries a control frame at a position, counted from the end of training (R235). -/
def frameControl (x : HemGroup) (l pos : Nat) : Bool := (pos - x.base) % 49 = 3 * l % 49

/-- The first control position of a line from `pos` on. -/
def frameControlFrom (x : HemGroup) (l pos : Nat) : Nat := pos + (3 * l % 49 + 49 - (pos - x.base) % 49) % 49

/-- Where the next data frame on a line goes. -/
def dataFramePos (s : State) (x : HemGroup) (l : Nat) : Nat :=
  let pos := max (frameNow s x) (Tab.get 0 x.txPos l)
  if frameControl x l pos then pos + 1 else pos

/-- A frame leaves on a line at a position, scrambled from the start of training on (R227). -/
def emitFrame (s : State) (link g line pos : Nat) (f : List Byte) : State :=
  emit s (.frame link g line pos f (frameWire pos f))

/-- ACK_SEQ: the last frame delivered (R234). -/
def ackSeq (x : HemGroup) : Nat := (x.rxNext + 4095) % 4096

/-- The pair whose CREDIT the next piggyback carries: those that have changed, in turn (R234). -/
def creditTurn (x : HemGroup) : Option Nat :=
  ((List.range 16).map (fun i => (x.turn + i) % 16)).find? (fun k => Tab.get 0 x.rxFreed k ≠ Tab.get 0 x.credTold k)

/-- The piggyback field of the next frame (R234). -/
def piggyOut (x : HemGroup) : Nat :=
  (if x.heard then 0x1000 + ackSeq x else 0)
    + (match creditTurn x with
      | some k => 0x2000 + k / 4 * 2 ^ 14 + k % 4 * 2 ^ 16 + Tab.get 0 x.rxFreed k % 16384 * 2 ^ 18
      | none => 0)

/-- The CREDIT of the piggyback field has been told. -/
def toldCredit (x : HemGroup) : HemGroup :=
  match creditTurn x with
  | some k => { x with credTold := Tab.put 0 x.credTold k (Tab.get 0 x.rxFreed k), turn := (k + 1) % 16 }
  | none => x

/-- A data frame leaves on a line. -/
def placeFrame (s : State) (link g line seq : Nat) (flits : List Byte) : State :=
  let x := getGroup s link g
  let pos := dataFramePos s x line
  let s := modGroup s link g (fun x => { toldCredit x with txPos := Tab.put 0 x.txPos line (pos + 1) })
  emitFrame (bump s (0x4400 + link) 7) link g line pos (dataFrame seq flits (piggyOut x))

/-- Send one new data frame: it takes the next FSEQ and the next data line in turn (R236). -/
def sendFrame (s : State) (link g : Nat) (flits : List Byte) : State :=
  let x := getGroup s link g
  let lines := frameLines s link g
  let line := lines.getD (x.txSeq % max 1 lines.length) 0
  let f : TxFrame := { seq := x.txSeq, data := fit 2560 flits, last := frameTime x (dataFramePos s x line), line := line }
  let s := modGroup s link g (fun x => { x with txSeq := (x.txSeq + 1) % 4096, retry := x.retry ++ [f] })
  placeFrame s link g line f.seq f.data

def sendFrames (link g : Nat) : Nat → List (List Byte) → State → State
  | 0, _, s => s
  | n + 1, fs, s => if fs.isEmpty then s else sendFrames link g n (fs.drop 40) (sendFrame s link g (fs.take 40).flatten)

/-! ### Control frames (R235) -/

/-- The partition group of a lane group in force since start-up (R244, R272). -/
def partitionOf (s : State) (link g : Nat) : Nat := ((Tab.get [] s.hem.parts link).getD g 0#8).toNat

/-- What a lane group has to tell beside the Nak List: Ack, Credits, Line Map, identity, Status. -/
def hemNews (s : State) (link g : Nat) : List Byte :=
  let x := getGroup s link g
  leBytes 2 (if x.heard then 0x8000 + ackSeq x else 0) ++ (List.range 16).flatMap (fun k => leBytes 2 (Tab.get 0 x.rxFreed k))
    ++ leBytes 4 (ownLines s link g) ++ leBytes 2 (ownNode s) ++ leBytes 1 (g + 16 * Tab.get 0 s.hem.split link)
    ++ leBytes 1 (partitionOf s link g) ++ leBytes 1 (b2n (x.state = 3) + 2 * rdE s 0x3000 4)

/-- Role of a line: 0 data, 1 spare, 2 under recalibration, 3 squelched. -/
def lineRole (s : State) (link g line : Nat) : Nat :=
  if !bit (usableLines s) line || bit (gapLines s) line then 3
  else if recalLine s link g = some line then 2
  else if groupSpare s link g = some line && (recalLine s link g).isNone then 1 else 0

/-- The body of a control frame on a line. -/
def controlBody (s : State) (link g line : Nat) : List Byte :=
  let x := getGroup s link g
  let news := hemNews s link g
  let naks := (List.range 8).flatMap (fun i => leBytes 2 (match x.naks[i]? with | some q => q % 4096 + 0x8000 | none => 0))
  leBytes 1 0xC2 ++ leBytes 1 (lineRole s link g line * 32 + line) ++ slice news 0 2 ++ naks ++ slice news 2 32 ++ slice news 34 4
    ++ leBytes 2 (min 65535 (Tab.get 0 x.corr line)) ++ leBytes 8 (epoch s) ++ slice news 38 2 ++ leBytes 1 link ++ slice news 40 3
    ++ leBytes 2 0 ++ leBytes 8 (rdE s 0x1000 4)

/-- Where the next control frame of a group goes: position and line. -/
def controlFramePlace (s : State) (link g : Nat) : Option (Nat × Nat) :=
  let x := getGroup s link g
  firstPlace (((linesOf (ownLines s link g)).filter (fun l => !bit (gapLines s) l && recalLine s link g ≠ some l)).map (fun l =>
    (frameControlFrom x l (max (frameNow s x) (Tab.get 0 x.ctlPos l)), l)))

/-- A control frame leaves; the FSEQs it names have been told. -/
def sendControlFrame (s : State) (link g pos line : Nat) : State :=
  let x := getGroup s link g
  let f := controlFrame line (controlBody s link g line) (piggyOut x)
  let news := hemNews s link g
  let s := modGroup s link g (fun x => { toldCredit x with
    naks := x.naks.drop 8, told := news, corr := Tab.put 0 x.corr line 0, ctlPos := Tab.put 0 x.ctlPos line (pos + 1) })
  emitFrame s link g line pos f

/-- Control frames leave while the group has something new to tell; those that would tell nothing new,
and idle and further training frames, are left out (DESIGN CHOICE, log 99). -/
def tellGroup (link g : Nat) : Nat → State → State
  | 0, s => s
  | n + 1, s =>
    let x := getGroup s link g
    if x.state = 0 || (x.naks.isEmpty && x.told = hemNews s link g) then s
    else
      match controlFramePlace s link g with
      | some (pos, line) => tellGroup link g n (sendControlFrame s link g pos line)
      | none => s

/-! ### Sending packets (R236, R237) -/

/-- The group may start a packet now (R236, R237, R242). -/
def hemReady (s : State) (link g cls level n : Nat) : Bool :=
  let x := getGroup s link g
  x.state = 2 && n ≤ hemCredit s link g cls level && x.retry.length + ceilDiv n 40 ≤ 64 * groupWidth s link
    && !(frameLines s link g).isEmpty

/-- Send a packet's flits on a lane group: it has left the egress router's transmit queue. -/
def hemStart (s : State) (link g level : Nat) (p : Pkt) : State :=
  let cls := (classOf p).getD 0
  let fs := flitsOf cls (pktBytes p)
  let k := credKey cls level
  let s := leaveTransmit s (linkStation s link) p
  let s := modGroup s link g (fun x => { x with sent := Tab.mod 0 x.sent k (fun n => (n + fs.length) % 65536) })
  let s := sendFrames link g fs.length fs s
  let last := ((getGroup s link g).txSeq + 4095) % 4096
  modGroup s link g (fun x => { x with inFlight := x.inFlight ++ [(last, p)] })

/-- Two packets that wait for the same credits in the same tier. -/
def sameWait (w y : HemWait) : Bool :=
  w.tier = y.tier && w.level = y.level && (classOf w.pkt).getD 0 = (classOf y.pkt).getD 0

/-- A waiting packet can go: no packet of its tier, class and level waits before it, and the group may
start it. -/
def waitReady (s : State) (link g : Nat) (w : HemWait) : Bool :=
  let cls := (classOf w.pkt).getD 0
  decide ((getGroup s link g).waiting.find? (sameWait w) = some w) && hemReady s link g cls w.level (flitsOf cls (pktBytes w.pkt)).length

/-- The waiting packet of a tier and class that goes next. -/
def pickWait (s : State) (link g tier cls : Nat) : Option HemWait :=
  (getGroup s link g).waiting.find? (fun w => w.tier = tier && (classOf w.pkt).getD 0 = cls && waitReady s link g w)

/-- Send one waiting packet that can go: the first tier before the second (R317), class order, then first
come. -/
def hemPumpOne (s : State) (link g : Nat) : State :=
  match (pickWait s link g 0 0 <|> pickWait s link g 0 1 <|> pickWait s link g 0 2 <|> pickWait s link g 0 3
      <|> pickWait s link g 1 0 <|> pickWait s link g 1 1 <|> pickWait s link g 1 2 <|> pickWait s link g 1 3) with
  | none => s
  | some w =>
    let s := modGroup s link g (fun x => { x with waiting := dropFirst (fun y => y = w) x.waiting })
    hemStart s link g w.level w.pkt

def hemPump (link g : Nat) : Nat → State → State
  | 0, s => s
  | n + 1, s => hemPump link g n (hemPumpOne s link g)

def hemPumpAll (s : State) (link g : Nat) : State := hemPump link g (getGroup s link g).waiting.length s

/-- Send a packet on a lane group, or let it wait there for credits (R236); a multicast copy carries the
number of its replicator block. -/
def hemSend (s : State) (link g tier block : Nat) (p : Pkt) : State :=
  hemPumpAll (modGroup s link g (fun x => { x with
    waiting := x.waiting ++ [{ level := hopLevel p, pkt := p, block := block, tier := tier }] })) link g

/-! ### Traffic that a group gives up (R230, R253, R254, R266) -/

/-- A group that carries nothing: what it has measured, counted and heard of its far end stays. -/
def emptyGroup (x : HemGroup) (state : Nat) : HemGroup :=
  { state := state, since := x.since, latency := x.latency, resent := x.resent, lost := x.lost, known := x.known,
    announced := x.announced, farNode := x.farNode, farLink := x.farLink, farGroup := x.farGroup, farPart := x.farPart,
    farSerial := x.farSerial, farMap := x.farMap, farStatus := x.farStatus, checkedAs := x.checkedAs, dark := x.dark }

/-- Packets that cannot leave on a group fail for a reason; a multicast copy is counted. -/
def failAll (s : State) (st : Nat) (l : List Pkt) (reason : Nat) (space : Bool) : State :=
  l.foldl (fun s p => if p.mcast then copyFailed s 1 else failPkt s st p reason space) s

/-- A group gives up its traffic and takes a state: frames in its retry and reorder buffers are
discarded and counted, and its packets fail at the router of station `st` (R266). -/
def dropTraffic (s : State) (st link g state reason : Nat) (space : Bool) : State :=
  let x := getGroup s link g
  let s := bumpN s (0x4400 + link) 0xA (x.retry.length + x.reorder.length)
  let s := x.waiting.foldl (fun s w => leaveTransmit s st w.pkt) s
  let s := modGroup s link g (fun x => emptyGroup x state)
  failAll s st (x.inFlight.map (·.2) ++ x.waiting.map (·.pkt)) reason space

/-- A group without a data lane is DOWN (R230); a quarantined one stays quarantined (R246). -/
def downWithoutLanes (s : State) (link g : Nat) : State :=
  let x := getGroup s link g
  if x.state ≠ 0 && x.state ≠ 3 && (groupDataLines s link g).isEmpty then
    dropTraffic s (linkStation s link) link g 0 1 (controlSpace s (linkStation s link))
  else s

/-- HEM_LANE_FAILED (R241): the lane leaves I; a group with no data lane is DOWN. -/
def failHemLane (s : State) (link line : Nat) : State :=
  if bit (Tab.get 0 s.hem.failed link) line then s
  else
    let g := lineOwner s link line
    let same := fun (s' : State) => decide ((groupDataLines s' link g).length = (groupDataLines s link g).length)
    let s' := { s with hem := { s.hem with failed := Tab.mod 0 s.hem.failed link (fun m => setBit m line true) } }
    let s := report s' { cls := 0x38, kind := 8, place := link, unit := g, detail := 2 ^ line, tag := (getGroup s link g).farNode % 4096, masked := same s' }
    tellGroup link g 64 (downWithoutLanes s link g)

def execHemLaneFailed (link line : Nat) (s : State) : Out :=
  if 64 ≤ link || 16 < line || (attachedPort s link).isNone then .next s else .next (failHemLane s link line)

/-- One frame of a lane in its 1 ms window (R241): true where it is found that three windows in a row
lost more than 1 in 1,000 of its frames. -/
def lossWindow (w : LossWindow) (number : Nat) (bad : Bool) : LossWindow × Bool :=
  let many := w.n < 1000 * w.lost
  let y : LossWindow :=
    if number = w.number then w
    else { number := number, run := if many && number ≤ w.number + 1 then w.run + 1 else 0 }
  ({ y with n := y.n + 1, lost := y.lost + b2n bad }, number ≠ w.number && 3 ≤ y.run)

/-- A frame of a lane enters its window, but for lines in a laser gap (R242). -/
def frameWindow (s : State) (link g line : Nat) (bad : Bool) : State :=
  if bit (gapLines s) line then s
  else
    let x := getGroup s link g
    let w := lossWindow (Tab.get {} x.wins line) ((s.now - x.since) / msPs + 1) bad
    let s := modGroup s link g (fun x => { x with wins := Tab.put {} x.wins line w.1 })
    if w.2 then failHemLane s link line else s

/-! ### Receiving (R232 to R239) -/

/-- Frames up to and including FSEQ `a` are delivered (R234, R237). -/
def hemAck (s : State) (link g a : Nat) : State :=
  let covered := fun (q : Nat) => decide ((a % 4096 + 4096 - q) % 4096 < 2048)
  modGroup s link g (fun x =>
    { x with retry := x.retry.filter (fun f => !covered f.seq), inFlight := x.inFlight.filter (fun e => !covered e.1) })

/-- CREDIT of the piggyback field: the low 14 bits of a cumulative count (R234). -/
def hemCreditLow (s : State) (link g k v : Nat) : State :=
  modGroup s link g (fun x =>
    { x with freed := Tab.mod 0 x.freed k (fun n => (n + (v + 16384 - n % 16384) % 16384) % 65536) })

/-- The piggyback field of a frame (R234). -/
def piggyback (s : State) (link g v : Nat) : State :=
  let s := if bit v 12 then hemAck s link g (v % 4096) else s
  let s := if bit v 13 then hemCreditLow s link g (credKey (bits v 14 2) (bits v 16 2 + 1)) (bits v 18 14) else s
  hemPumpAll s link g

/-- HEM_FRAME_DROP (R237). -/
def dropFrame (s : State) (link g seq : Nat) : State :=
  let s := modGroup s link g (fun x => { x with retry := x.retry.filter (fun f => f.seq ≠ seq) })
  hemReport (bump s (0x4400 + link) 0xA) 0x39 link g (groupHealthy s link g)

/-- The class and level of a packet that arrives (R239), by its first header bytes: the Hem hops taken,
the last one counted. -/
def arrivalKey (cls : Nat) (data : List Byte) : Nat :=
  credKey cls (min 4 (if bit (field data 0 1) 6 then 5 - field data 1 2 / 4096 % 8 else field data 0 1 / 8 % 8 + 1))

/-- Packets put together from the flits of a frame: they stand in the receive buffers of their class and
level until the router takes them (R239, R256). -/
def deliverFrame (s : State) (link g : Nat) (data : List Byte) : State :=
  let fs := (List.range 40).map (fun i => slice data (64 * i) 64)
  let (asm, pk) := fs.foldl takeFlit ((getGroup s link g).asm, [])
  let hold := fun (t : Tab Nat) (x : Nat × List Byte) => Tab.mod 0 t (arrivalKey x.1 x.2) (· + x.2.length / 62)
  let s := modGroup s link g (fun x => { x with asm := asm, rxHeld := pk.foldl hold x.rxHeld })
  pk.foldl (fun s x => emit s (.hemPacket link g x.2)) s

/-- Flits leave a receive buffer: their credit goes back. -/
def freeBuffer (s : State) (link g key n : Nat) : State :=
  let m := min n (Tab.get 0 (getGroup s link g).rxHeld key)
  if m = 0 then s
  else tellGroup link g 64 (modGroup s link g (fun x => { x with
    rxHeld := Tab.mod 0 x.rxHeld key (· - m), rxFreed := Tab.mod 0 x.rxFreed key (fun f => (f + m) % 65536) }))

/-- A packet leaves the receive buffer of its arrival: the last entry behind NEXT names it (R249). -/
def freeArrival (s : State) (p : Pkt) : State :=
  if p.next = 0 || p.mcast then s
  else
    let e := hopEntry p.route (p.next - 1)
    freeBuffer s (e / 16) (e % 16) (credKey ((classOf p).getD 0) p.next) (pktFlits p)

/-- Deliver frames in FSEQ order. -/
def deliverFrames (link g : Nat) : Nat → State → State
  | 0, s => s
  | n + 1, s =>
    let x := getGroup s link g
    match x.reorder.find? (fun e => e.1 = x.rxNext) with
    | none => s
    | some e =>
      let s := modGroup s link g (fun x => { x with
        reorder := Tab.erase x.reorder e.1, rxNext := (x.rxNext + 1) % 4096, heard := true })
      deliverFrames link g n (deliverFrame s link g e.2)

/-- FSEQs missing between the next to deliver and a frame received. -/
def skipped (x : HemGroup) (seq : Nat) : List Nat :=
  ((List.range ((seq + 4096 - x.rxNext) % 4096)).map (fun i => (x.rxNext + i) % 4096)).filter (fun q =>
    !x.reorder.any (fun e => e.1 = q) && !x.naks.contains q)

/-- Symbols corrected on a line since its last control frame (R235). -/
def noteSymbols (s : State) (link g line n : Nat) : State :=
  if n = 0 then s else modGroup s link g (fun x => { x with corr := Tab.mod 0 x.corr line (· + n) })

/-- A frame lost at the position of FSEQ `seq` (R233, R237). -/
def frameLost (s : State) (link g seq : Nat) : State :=
  let s := bump s (0x4400 + link) 8
  modGroup s link g (fun x => { x with
    naks := if x.naks.contains seq then x.naks else x.naks ++ [seq],
    lost := x.lost.filter (fun t => s.now < t + secPs) ++ [s.now] })

/-- A data frame: a second copy is discarded; else it enters the reorder buffer (R237). -/
def frameData (s : State) (link g : Nat) (f : List Byte) : State :=
  let seq := field f 0 2 % 4096
  let x := getGroup s link g
  if 2048 ≤ (seq + 4096 - x.rxNext) % 4096 then s
  else
    let s := modGroup s link g (fun x => { x with
      naks := (x.naks ++ skipped x seq).filter (· ≠ seq),
      reorder := Tab.insert (Tab.erase x.reorder seq) seq (slice f 2 2560) })
    deliverFrames link g 2048 s

/-- HEM_FRAME_RECEIVE (R231 to R237): a frame of a group that is UP, with the symbol errors of its worst
codeword; one that is lost stood at the position of FSEQ `seq`. -/
def execHemFrameReceive (link line seq : Nat) (frame : List Byte) (errs : Nat) (s : State) : Out :=
  let g := lineOwner s link line
  if 64 ≤ link || 16 < line || (getGroup s link g).state ≠ 2 then .next s
  else
    let js := pendingAt s 6 link line
    let errs := errs + injectErrs js frame
    let v := if injectDrops js then 1 else frameDecode errs s.free
    let s := useInjections s 6 link line
    let f := decodedFrame frame v s.free
    let s := if v = 1 then s else noteSymbols s link g line (countedErrs s v errs 16)
    let s := if 15 < errs then nextFree s else s
    let good := frameGood f v
    let s := frameWindow s link g line (!good)
    if (getGroup s link g).state ≠ 2 then .next s
    else if !good then .next (tellGroup link g 64 (frameLost s link g (seq % 4096)))
    else
      let s := if frameType f = 3 then s else piggyback s link g (field f 2562 4)
      .next (tellGroup link g 64 (if frameType f = 1 then frameData s link g f else s))

/-! ### Neighbour identity (R243 to R245) -/

/-- The other lane groups whose far end has ever announced itself. -/
def knownGroups (s : State) (link g : Nat) : List (Nat × Nat) :=
  (s.hem.groups.filter (fun e => e.2.announced && e.1 ≠ link * 16 + g)).map (fun e => (e.1 / 16, e.1 % 16))

/-- Quarantine a lane group, whatever its state: packets that wait for it fail (R243, R245). -/
def quarantineGroup (s : State) (link g : Nat) : State :=
  let st := linkStation s link
  let w := (getGroup s link g).waiting
  let s := w.foldl (fun s w => leaveTransmit s st w.pkt) s
  let s := modGroup s link g (fun x => { x with state := 3, waiting := [] })
  failAll s st (w.map (·.pkt)) 2 (controlSpace s st)

/-- DUPLICATE_NODE (R245): the groups that announce the same node and are not accepted with
this one. -/
def duplicates (s : State) (link g : Nat) : List (Nat × Nat) :=
  let x := getGroup s link g
  if x.farNode = 0xFFFF then []
  else (knownGroups s link g).filter (fun e =>
    let y := getGroup s e.1 e.2
    y.farNode = x.farNode &&
      !(partitionOf s link g ≠ 0 && partitionOf s link g = partitionOf s e.1 e.2 && y.farSerial = x.farSerial))

/-- NEIGHBOUR_IDENTITY_CHECK (R229, R244, R245) on a new announcement; a group that is quarantined
stays so (R246). -/
def identityCheck (s : State) (link g : Nat) : State :=
  let x := getGroup s link g
  if x.farGroup ≠ g + 16 * Tab.get 0 s.hem.split link then
    let s := if x.state = 2 then dropTraffic s (linkStation s link) link g 1 1 (controlSpace s (linkStation s link)) else s
    hemReport s 0x3B link g (groupHealthy s link g)
  else if x.farNode ≠ 0xFFFF && x.farNode = ownNode s then quarantineGroup s link g
  else
    let ds := duplicates s link g
    if !ds.isEmpty then
      let s := ((link, g) :: ds).foldl (fun s e => quarantineGroup s e.1 e.2) s
      let s := wrE s 0x5000 4 ((rdE s 0x5000 4 + 1) % 2 ^ 32)
      hemReport s 0x3C link g (groupHealthy s link g)
    else if partitionOf s link g ≠ 0 && (knownGroups s link g).any (fun e =>
        partitionOf s e.1 e.2 = partitionOf s link g && (getGroup s e.1 e.2).farNode ≠ x.farNode) then quarantineGroup s link g
    else s

/-- The group's far end agrees in split code and group number. -/
def splitAgrees (s : State) (link g : Nat) : Bool :=
  (getGroup s link g).farGroup = g + 16 * Tab.get 0 s.hem.split link

/-- EPOCH_OFFSET_STAMP (R451): a follower's sample from its epoch source. -/
def offsetStamp (s : State) (link g epochField : Nat) : State :=
  if rdE s 0x3100 2 = 0 && rdE s 0x3000 3 = link * 16 + g && (getGroup s link g).state = 2 then
    let here : Int := (s.now : Int) + s.clk.phase + signed 64 s.epochOff * countPs
    let off : Int := here - (countPs * epochField : Nat) - ((getGroup s link g).latency * 1000 : Nat)
    { s with clk := { s.clk with offSum := s.clk.offSum + off, offN := s.clk.offN + 1 } }
  else s

/-- The identity that a control frame announces (R235). -/
def takeIdentity (x : HemGroup) (f : List Byte) : HemGroup :=
  { x with
    known := true, announced := true, farNode := if field f 68 2 = 0xFFFF then 0xFFFF else field f 68 2 % 4096
    farLink := field f 70 1, farGroup := field f 71 1 % 128, farPart := field f 72 1,
    farSerial := field f 76 8, farMap := field f 54 4 % 2 ^ 17, farStatus := field f 73 1 }

/-- The checks of an announcement (R244): at the first since training, when it changes, and when the own
number has changed since the last (rule 2; DEDUCED, log 33). -/
def checkIdentity (s : State) (link g : Nat) (old : HemGroup) : State :=
  let x := getGroup s link g
  let own := ownNode s
  let news := !old.known || old.farNode ≠ x.farNode || old.farGroup ≠ x.farGroup || old.farSerial ≠ x.farSerial
  let s := if news then identityCheck s link g
    else if old.checkedAs ≠ own && x.farNode = own && own ≠ 0xFFFF then quarantineGroup s link g
    else s
  modGroup s link g (fun x => { x with checkedAs := own })

/-- The acknowledgements, Nak List and Credits of a control frame (R235, R237). -/
def takeControl (s : State) (link g : Nat) (f : List Byte) : State :=
  let s := if field f 4 2 / 32768 = 1 then hemAck s link g (field f 4 2 % 4096) else s
  let named := ((List.range 8).map (fun i => field f (6 + 2 * i) 2)).filter (fun v => bit v 15) |>.map (· % 4096)
  let dead := ((getGroup s link g).retry.filter (fun y => named.contains y.seq && 8 ≤ y.sends)).map (·.seq)
  let mark : TxFrame → TxFrame := fun y => if named.contains y.seq then { y with nak := true } else y
  let s := modGroup s link g (fun x => { x with
    retry := x.retry.map mark,
    freed := (List.range 16).foldl (fun t k => Tab.put 0 t k (field f (22 + 2 * k) 2)) x.freed })
  dead.foldl (fun s q => dropFrame s link g q) s

/-- HEM_CONTROL_FRAME (R235, R237, R244, R451). -/
def execHemControlFrame (link line : Nat) (frame : List Byte) (errs : Nat) (s : State) : Out :=
  let g := lineOwner s link line
  let old := getGroup s link g
  if 64 ≤ link || 16 < line || old.state = 0 || old.dark then .next s
  else
    let js := pendingAt s 6 link line
    let errs := errs + injectErrs js frame
    let v := if injectDrops js then 1 else frameDecode errs s.free
    let s := useInjections s 6 link line
    let f := decodedFrame frame v s.free
    let s := if v = 1 then s else noteSymbols s link g line (countedErrs s v errs 16)
    let s := if 15 < errs then nextFree s else s
    let s := if old.state = 2 then frameWindow s link g line (!frameGood f v) else s
    if !frameGood f v || frameType f ≠ 2 || (getGroup s link g).state = 0 then .next s
    else
      let s := modGroup s link g (fun x => takeIdentity x f)
      let s := checkIdentity s link g old
      let s := downWithoutLanes s link g
      let s := takeControl s link g f
      let s := offsetStamp s link g (field f 60 8)
      .next (tellGroup link g 64 (piggyback s link g (field f 2562 4)))

/-! ### Resends (R237, R238) -/

/-- The least time between a send and the next, in ps (R238). -/
def resendGap (sends : Nat) : Nat := [0, 2, 2, 2, 4, 8, 16, 16].getD sends 16 * usPs

/-- When a frame may be sent again: named lost, after its gap; else once its round trip plus 1 us has
passed without an acknowledgement as well. -/
def resendAt (x : HemGroup) (f : TxFrame) : Nat :=
  f.last + max (if f.nak then 0 else 2 * x.latency * 1000 + usPs) (resendGap f.sends)

/-- The frame that is due first. -/
def firstDue (x : HemGroup) : List TxFrame → Option TxFrame
  | [] => none
  | f :: l =>
    match firstDue x l with
    | none => some f
    | some b => if resendAt x f ≤ resendAt x b then some f else some b

/-- HEM_FRAME_RESEND: the frame that is due first is sent again, on a line of another laser group where
there is one; after its eighth send it is dropped. -/
def execHemFrameResend (link g : Nat) (s : State) : Out :=
  let x := getGroup s link g
  if x.state ≠ 2 || (frameLines s link g).isEmpty then .next s
  else
    match firstDue x x.retry with
    | none => .next s
    | some f =>
      let s := advanceTo s (resendAt x f)
      if 8 ≤ f.sends then .next (hemPumpAll (dropFrame s link g f.seq) link g)
      else
        let lines := frameLines s link g
        let line := (lines.find? (fun l => lineGroup l ≠ lineGroup f.line)).getD (lines.headD f.line)
        let at_ := frameTime x (dataFramePos s x line)
        let again : TxFrame → TxFrame := fun y => { y with sends := y.sends + 1, last := at_, line := line, nak := false }
        let s := modGroup s link g (fun x => { x with
          retry := updFirst (fun y => y.seq = f.seq) again x.retry, resent := x.resent + 1 })
        .next (placeFrame (bump s (0x4400 + link) 9) link g line f.seq f.data)

/-! ### Training (R243) -/

/-- The measurement is of a receiver of the link (R501). -/
def ofReceiver (link : Nat) (m : Measure) : Bool :=
  idKind m.id = 2 && idPlace m.id = link && idDetail m.id < 17 && 3 ≤ m.quantity && m.quantity ≤ 5

/-- The lines whose receivers fail their calibration. -/
def failedReceivers (link : Nat) (ms : List Measure) : Nat :=
  (ms.filter (fun m => ofReceiver link m && (settingOf m).isNone)).foldl (fun n m => setBit n (idDetail m.id) true) 0

/-- A group that starts to train: frame positions and scramblers start anew. -/
def trainingGroup (now : Nat) (x : HemGroup) : HemGroup :=
  { emptyGroup x 1 with since := now, known := false, farMap := 0x1FFFF, farStatus := 0, checkedAs := 0xFFFF, dark := false }

/-- HEM_TRAINING_START: training frames start on every line of a group that is DOWN, or that was
quarantined and has lost its light, 100 us after light has been present on all of them; its receivers are
calibrated on them (R501). -/
def execHemTrainingStart (link g : Nat) (ms : List Measure) (s : State) : Out :=
  let x := getGroup s link g
  let failed := failedReceivers link ms
  if 64 ≤ link || groupCount s link ≤ g || (attachedPort s link).isNone || !(x.state = 0 || (x.state = 3 && x.dark)) then .next s
  else
    let s := modGroup s link g (trainingGroup s.now)
    let s := (linesOf (groupLines s link g)).foldl (fun s l =>
      if bit (usableLines s) l then emitFrame s link g l 0 trainingFrame else s) s
    let s := modGroup s link g (fun x => { x with
      txPos := (List.range 17).map (fun l => (l, 1)), ctlPos := (List.range 17).map (fun l => (l, 1)) })
    let s := (ms.filter (fun m => ofReceiver link m && bit (groupLines s link g) (idDetail m.id))).foldl applyDecided s
    let s := (List.range 17).foldl (fun s l =>
      if bit failed l && bit (groupLines s link g) l && !bit (Tab.get 0 s.hem.failed link) l then
        hemReport { s with hem := { s.hem with failed := Tab.mod 0 s.hem.failed link (fun m => setBit m l true) } } 0x38 link g (2 ^ l)
      else s) s
    .next (tellGroup link g 64 s)

/-- A group whose training has ended: FSEQ starts at 0, every credit pool is full, and control positions
are counted from here. -/
def upGroup (pos latency : Nat) (x : HemGroup) : HemGroup :=
  { x with
    latency := latency, trained := true, base := pos, txSeq := 0, retry := [], inFlight := [], sent := [], freed := [], rxNext := 0,
    reorder := [], naks := [], rxFreed := [], rxHeld := [], credTold := [], turn := 0, asm := [], heard := false, wins := [] }

/-- HEM_GROUP_UP (R243): the end of training, with the latency measured in ns.  A group that
the checks quarantined stays so; one whose split code disagrees stays in TRAINING. -/
def execHemGroupUp (link g latency : Nat) (s : State) : Out :=
  let x := getGroup s link g
  if 64 ≤ link || (x.state ≠ 1 && x.state ≠ 3) || x.trained || !x.known || !splitAgrees s link g then .next s
  else
    let s := modGroup s link g (upGroup (frameNow s x) latency)
    if x.state = 3 then .next (tellGroup link g 64 s)
    else if (groupDataLines s link g).isEmpty then .next (modGroup s link g (fun x => emptyGroup x 0))
    else
      let s := modGroup s link g (fun x => { x with state := 2 })
      .next (tellGroup link g 64 (hemPumpAll s link g))

/-- The state that a quarantined group returns to (R246): UP with every credit pool full (R239); without
light or a data lane DOWN, and before its training has ended TRAINING. -/
def clearedGroup (lanes : Bool) (x : HemGroup) : HemGroup :=
  if x.dark || (x.trained && !lanes) then emptyGroup x 0
  else if !x.trained then { x with state := 1 }
  else { x with state := 2, sent := x.freed }

/-- CLEAR_QUARANTINE (R246): a group, or every group, that is QUARANTINED is UP; anything
else named has no effect. -/
def clearQuarantine (s : State) (_sel : Tab Nat) (v : List Byte) : Effect :=
  let n := leNat v
  let hit := s.hem.groups.filter (fun e => e.2.state = 3 && (n = 0xFFFF || e.1 = n % 1024))
  { s := hit.foldl (fun s e =>
      tellGroup (e.1 / 16) (e.1 % 16) 64
        (modGroup s (e.1 / 16) (e.1 % 16) (clearedGroup (!(groupDataLines s (e.1 / 16) (e.1 % 16)).isEmpty)))) s }

def execClearQuarantine (r : VdpReq) (s : State) : Out :=
  .next (vdpEntry s (atEntry r 0x5000 2) anyValue clearQuarantine)

/-! ### Loss of light (R264, R266) -/

/-- LOSS_OF_LIGHT: the group is DOWN, its frames are discarded, and its packets fail. -/
def loseLight (s : State) (link g : Nat) (space : Bool) : State :=
  let s := wrE s (0x4400 + link) 0xB ((rdE s (0x4400 + link) 0xB + 1) % 2 ^ 32)
  let s := hemReport s 0x3A link g (groupHealthy s link g)
  let s := dropTraffic s (linkStation s link) link g 0 1 space
  modGroup s link g (fun x => { x with known := false, dark := true })

def execLossOfLight (link group : Nat) (space : Bool) (s : State) : Out :=
  if 64 ≤ link || (getGroup s link group).dark then .next s else .next (loseLight s link group space)

/-! ### Port roles (R391) -/

/-- The lane groups of links that lost or changed their port since `old` are DOWN (R226,
R391): their packets fail NOT_ATTACHED, and they train again. -/
def detachGroups (old s : State) : State :=
  s.hem.groups.foldl (fun s e =>
    let link := e.1 / 16
    if attachedPort old link = attachedPort s link then s
    else dropTraffic s (linkStation old link) link (e.1 % 16) 0 3 (controlSpace s (linkStation old link))) s

/-- Settle the roles of the module as a whole (R391). -/
def settleRoles (s : State) : State :=
  let u := ((List.range 28).flatMap (fun x => (List.range (portCount x)).map (fun k => (x, k)))).foldl
    (fun s e => settlePort s e.1 e.2) s
  detachGroups s ((List.range 8).foldl settleHostPort u)

/-- A write of 0x4600+x:01 (R391). -/
def writeRoles (x : Nat) (s : State) (_sel : Tab Nat) (v : List Byte) : Effect :=
  { s := settleRoles (wrB s (0x4600 + x) 1 v) }

/-- PORT_ROLES_WRITE. -/
def execPortRolesWrite (x : Nat) (r : VdpReq) (s : State) : Out :=
  .next (vdpEntry s (atEntry r (instIndex 0x4600 28 x) 1) (fun _ _ v => rolesOk x v) (writeRoles x))

/-! ### Tables (R250, R259, R273) -/

/-- NODE_NUMBER_WRITE (R273). -/
def nodeOk (v : List Byte) : Bool := leNat v < 4096 || leNat v = 0xFFFF

def writeNode (s : State) (_sel : Tab Nat) (v : List Byte) : Effect := { s := wrE s 0x5000 1 (leNat v) }

def execNodeNumberWrite (r : VdpReq) (s : State) : Out :=
  .next (vdpEntry s (atEntry r 0x5000 1) (fun _ _ v => nodeOk v) writeNode)

/-- ROUTE_SET_WRITE (R250): 64 bytes; a used entry names 1 to 4 hops. -/
def routeSetOk (v : List Byte) : Bool :=
  v.length = 64 && (List.range 8).all (fun i =>
    let e := routeEntry v i
    e.1 = 0 || (1 ≤ e.2.1 && e.2.1 ≤ 4))

def writeRouteSet (s : State) (sel : Tab Nat) (v : List Byte) : Effect :=
  { s := { s with hem := { s.hem with routes := Tab.put [] s.hem.routes (selOf sel 0x5100 1) v } } }

def execRouteSetWrite (r : VdpReq) (s : State) : Out :=
  .next (vdpEntry s (atEntry r 0x5100 2) (fun _ _ v => routeSetOk v) writeRouteSet)

/-- The slice is allowed on a lane group (R259). -/
def sliceAllowed (s : State) (link g slice : Nat) : Bool :=
  bit ((Tab.get [] s.hem.slices (link * 16 + g)).getD (slice / 8) 0#8).toNat (slice % 8)

def writeSlices (s : State) (sel : Tab Nat) (v : List Byte) : Effect :=
  { s := { s with hem := { s.hem with slices := Tab.put [] s.hem.slices (selOf sel 0x5300 1 % 1024) v } } }

/-- ALLOWED_SLICES_WRITE (R259). -/
def execAllowedSlicesWrite (r : VdpReq) (s : State) : Out :=
  .next (vdpEntry s (atEntry r 0x5300 2) (fun _ _ v => v.length = 32) writeSlices)

end Sys2Proof.Machine
end

