-- ==== Sys2Proof/Machine/Router.lean ====
section
/-!
DEFINITION. Routers: failures and fabric replies (R253, R259), steering and shaping (R183,
R315 to R317), multicast (R214 to R216), packets from lane groups (R251), sweeps (R269, R270).
-/
namespace Sys2Proof.Machine

/-! ### Slices (R259) -/

/-- SLICE_CHECK failed (R259), at the ingress of a lane group. -/
def sliceFail (s : State) (link g st : Nat) (p : Pkt) (space : Bool) : State :=
  let s := bump s 0x5300 3
  let s := report s { cls := 0x3D, kind := 8, place := link, unit := g, slice := some p.slice, tag := (getGroup s link g).farNode % 4096 }
  match classOf p with
  | some 2 | some 3 =>
    if p.mcast then s
    else if space then enqueue s st { replyTo s p 0x51 (failBody s p 0) with fabric := true }
    else bump s 0x5100 4
  | _ => s

/-! ### Flows (R314 to R316) -/

def fKind (f : List Byte) : Nat := field f 1 1
def fClass (f : List Byte) : Nat := field f 2 1 % 4
def fSlice (f : List Byte) : Nat := field f 3 1
def fEntry (f : List Byte) : Nat := field f 4 2
def fExit (f : List Byte) : Nat := field f 6 2
def fLeg (f : List Byte) : Nat := field f 8 2
def fRate (f : List Byte) : Nat := field f 12 4
def fBurst (f : List Byte) : Nat := field f 16 4
def fBudget (f : List Byte) : Nat := field f 20 4

/-- The packet matches a POINT flow (R315). -/
def flowMatches (s : State) (p : Pkt) (f : List Byte) : Bool :=
  let entry := if p.next = 0 then p.srcStation else 16384 + hopEntry p.route (p.next - 1)
  let exit := if p.mcast then 32768 + p.route % 4096
    else if p.next < p.hops then 16384 + hopEntry p.route p.next else p.destStation
  fKind f = 0 && fSlice f = p.slice && (classOf p = some (fClass f)) && fEntry f = entry && fExit f = exit
    && (p.mcast || p.next < p.hops || isOwn s p.destNode)

/-- The admitted flow of a packet. -/
def flowOf (s : State) (p : Pkt) : Option (Nat × List Byte) :=
  s.adm.flows.find? (fun e => 2 ≤ Tab.get 0 s.adm.fstate e.1 && flowMatches s p e.2)

/-- The packet belongs to an admitted flow or to a run of an admitted job's schedules: it is
of the first tier (R317). -/
def firstTier (s : State) (p : Pkt) : Bool :=
  (flowOf s p).isSome || (0x40 ≤ p.kind && p.kind ≤ 0x46 &&
    s.adm.flows.any (fun e => 2 ≤ Tab.get 0 s.adm.fstate e.1 && fKind e.2 = 1 && fSlice e.2 = p.slice))

/-- R332: a flow's packet leaves the segment after `ps`. -/
def countOverrun (s : State) (slot : Nat) (f : List Byte) (ps : Nat) : State :=
  if fBudget f * 1000 < ps then
    bump { s with adm := { s.adm with overruns := Tab.mod 0 s.adm.overruns slot (· + 1) } } 0x7000 9
  else s

/-! ### Leaving a router (R183) -/

/-- Ports of a station whose far end lies at a station, with one of some roles. -/
def portsFacing (s : State) (st dst : Nat) (roles : List Nat) : List Nat :=
  (List.range (portCount st)).filter (fun k =>
    let p := getPort s (portKey st k)
    roles.contains p.role && (match p.far with | some f => f < 512 && f / 16 = dst | none => false))

/-- Those that may start a packet. -/
def portsTo (s : State) (st dst : Nat) (roles : List Nat) : List Nat :=
  (portsFacing s st dst roles).filter (fun k => (getPort s (portKey st k)).up && !(getPort s (portKey st k)).draining)

/-- A port to the station drains or trains, or a pending switch will provide one: bulk waits for it
(R180, R183 rule 4). -/
def portComing (s : State) (st dst : Nat) (roles : List Nat) : Bool :=
  (portsFacing s st dst roles).any (fun k =>
    let p := getPort s (portKey st k)
    p.training || (p.up && p.draining))
  || s.bas.switches.any (fun w => (planFars s w.dark w.plan).any (fun e => e.1 / 16 = st && e.2 / 16 = dst))

/-- The last port of the station that the round robin used towards another. -/
def spread (s : State) (st dst : Nat) (ks : List Nat) : Nat :=
  let last := Tab.get 0 s.bas.rr (st * 32 + dst)
  (ks.find? (fun k => last ≤ k)).getD (ks.headD 0)

/-- A packet as it is sent to a station, in its tier (R317). -/
def toSend (s : State) (p : Pkt) (dst block : Nat) : RPkt :=
  { cls := (classOf p).getD 0, data := pktBytes p, tier := if firstTier s p then 0 else 1, block := block, dst := dst }

/-- Bulk to another station by one of its ports, round robin over those with credits. -/
def bulkByPort (s : State) (st dst : Nat) (ks : List Nat) (x : RPkt) : State :=
  let n := (flitsOf 3 x.data).length
  let free := ks.filter (fun k => portReady (getPort s (portKey st k)) 3 n)
  let k := spread s st dst (if free.isEmpty then ks else free)
  let s := { s with bas := { s.bas with rr := Tab.put 0 s.bas.rr (st * 32 + dst) (k + 1) } }
  circuitSend s st k x

/-- The packet can cause a reply (R290, R432). -/
def causesReply (p : Pkt) : Bool := (1 ≤ p.kind && p.kind ≤ 9 && p.kind ≠ 5) || p.kind = 0x60

/-- A station has outbound response space for one more reply (R257). -/
def responseRoom (s : State) (st : Nat) : Bool :=
  Tab.get 0 s.fab.respHeld st < max 1 (Config.responseSpace st).toNat

def modResponse (s : State) (st : Nat) (f : Nat → Nat) : State :=
  { s with fab := { s.fab with respHeld := Tab.mod 0 s.fab.respHeld st f } }

/-- A packet reaches its sink at a station: one that can cause a reply only once space for the reply is
reserved; false where it waits (R257). -/
def sink (s : State) (st : Nat) (p : Pkt) : State × Bool :=
  if !causesReply p || (24 ≤ st && st ≠ 28) then (emit s (.arrived st p), true)
  else if responseRoom s st then (emit (modResponse s st (· + 1)) (.arrived st p), true)
  else (s, false)

/-- The Leg of a flow (R316): none where rules 1 to 4 of R183 choose; 16 the mesh; else a port. -/
def legOf (f : List Byte) : Option Nat :=
  if fLeg f = 0xFFFF then none else if bit (fLeg f) 15 then some 16 else some (fLeg f % 16)

/-- A packet crosses to another station, bulk by a port of some roles where one leads there; false where
it waits for a port. -/
def crossTo (s : State) (st dst : Nat) (roles : List Nat) (leg : Option Nat) (x : RPkt) : State × Bool :=
  let ks := if x.cls = 3 then portsTo s st dst roles else []
  match leg with
  | some k => if k < 16 then (circuitSend s st k x, true) else (meshSend s st [dst] x, true)
  | none =>
    if !ks.isEmpty then (bulkByPort s st dst ks x, true)
    else if x.cls = 3 && portComing s st dst roles then (s, false)
    else (meshSend s st [dst] x, true)

/-- Send a packet to a station of this module by rules 2 to 4 of R183, or by a Leg; bulk between tiles
that goes by the mesh is counted. -/
def toStation (s : State) (st dst : Nat) (leg : Option Nat) (p : Pkt) : State × Bool :=
  if dst = st then sink s st p
  else
    let x := toSend s p dst 0
    let roles := if dst = 28 then [2] else [0, 1, 2]
    let byMesh := x.cls = 3 && dst ≠ 28 && leg.isNone && (portsTo s st dst roles).isEmpty
    let r := crossTo s st dst roles leg x
    if r.2 && byMesh then (bump r.1 (0x4300 + st) 8, true) else r

/-- The reason for which a packet cannot leave on its next hop (R251, R253); 0 if it can. -/
def hopFails (s : State) (p : Pkt) : Nat :=
  if 4 < p.hops || p.hops < p.next then 7
  else if ownNode s = 0xFFFF && p.kind ≠ 0x52 && p.kind ≠ 0x53 then 6
  else hopReason s (hopEntry p.route p.next) p.kind

/-- A packet leaves by the lane group of its next hop, from the router that holds the link. -/
def leaveByHem (s : State) (p : Pkt) : State :=
  hemSend s (hopEntry p.route p.next / 16) (hopEntry p.route p.next % 16) (if firstTier s p then 0 else 1) 0 p

/-- Send a packet whose next hop is a lane group (R183 rule 1, R251 rule 7): only once the egress router
has reserved it a whole packet's space (R252). -/
def toHem (s : State) (st : Nat) (leg : Option Nat) (p : Pkt) (space : Bool) : State × Bool :=
  let why := hopFails s p
  if why ≠ 0 then (failPkt s st p why space, true)
  else
    let dst := linkStation s (hopEntry p.route p.next / 16)
    if !transmitRoom s dst (hopKey p) (pktFlits p) then (s, false)
    else
      let s := modTransmit s dst (hopKey p) (· + pktFlits p)
      if dst = st then (leaveByHem s p, true) else crossTo s st dst [1] leg (toSend s p dst 0)

/-- One packet leaves a router; false where it waits. -/
def route (s : State) (st : Nat) (leg : Option Nat) (p : Pkt) (space : Bool) : State × Bool :=
  if p.next < p.hops then toHem s st leg p space
  else
    match stationOf s p.destStation with
    | some dst => toStation s st dst leg p
    | none => (emit s (.arrived st p), true)

/-! ### Multicast (R214 to R216) -/

def groupRecord (s : State) (n : Nat) : List Byte := Tab.get [] s.col.groups (n % 4096)
def groupValid (g : List Byte) : Bool := bit (field g 13 1) 0

/-- Stations that a group names on this module. -/
def groupStations (s : State) (g : List Byte) : List Nat :=
  ((List.range 28).filterMap (fun n => if bit (field g 0 4) n then physTile s n else none))
    ++ (if bit (field g 13 1) 1 then [28] else [])

/-- A station can take a copy: its tile is not in reset. -/
def copyOpen (s : State) (st : Nat) : Bool := 24 ≤ st || (getTile s st).reset.isNone

/-- One copy on a link of the group, by its lane group 0: it fails towards a group that is not UP, and
through an unassigned module (R216, R244). -/
def copyToLink (block : Nat) (p : Pkt) (s : State) (n : Nat) : State :=
  if ownNode s = 0xFFFF || hopReason s (16 * n) p.kind ≠ 0 then copyFailed s 1
  else hemSend s n 0 (if firstTier s p then 0 else 1) block p

/-- Copies to stations: bulk by circuits where they lead, the rest in one mesh grant set. -/
def copyToStations (s : State) (st block : Nat) (ds : List Nat) (p : Pkt) : State :=
  let cls := (classOf p).getD 0
  let dead := ds.filter (fun d => !copyOpen s d)
  let ds := ds.filter (copyOpen s)
  let here := ds.filter (· = st)
  let far := ds.filter (· ≠ st)
  let circ := if cls = 3 then far.filter (fun d => !(portsTo s st d [0, 1]).isEmpty) else []
  let mesh := far.filter (fun d => !circ.contains d)
  let s := copyFailed s dead.length
  let s := here.foldl (fun s d => emit s (.arrived d p)) s
  let s := circ.foldl (fun s d => bulkByPort s st d (portsTo s st d [0, 1]) (toSend s p d block)) s
  if mesh.isEmpty then s else meshSend s st mesh (toSend s p 31 block)

/-- A copy of a block has not yet been sent. -/
def blockPending (s : State) (b : Nat) : Bool :=
  s.bas.ports.any (fun e => e.2.waiting.any (fun x => x.block = b))
  || s.bas.inbox.any (fun e => e.2.any (fun x => x.block = b))
  || s.bas.stations.any (fun e => e.2.queue.any (fun q => q.block = b))
  || s.hem.groups.any (fun e => e.2.waiting.any (fun w => w.block = b))

/-- An MSTORE's entry ends OK when its last copy has left (R296). -/
def endMstore (s : State) (st : Nat) (b : ReplBlock) : State :=
  match b.mstore with
  | none => s
  | some tag =>
    match getTrack s st tag with
    | some x => if eKind x.entry = 5 then endTrack s st tag x fsOk 0 0 0 true else s
    | none => s

/-- The blocks whose copies have all been sent leave a replicator's buffer (R216). -/
def settleReplicator (s : State) (st : Nat) : State :=
  let l := Tab.get [] s.bas.repl st
  let u := { s with bas := { s.bas with repl := Tab.put [] s.bas.repl st (l.filter (fun b => blockPending s b.id)) } }
  (l.filter (fun b => !blockPending s b.id)).foldl (fun s b => endMstore s st b) u

/-- The replicator's buffer of 4 MiB has room for a packet (R216). -/
def replicatorRoom (s : State) (st : Nat) (p : Pkt) : Bool :=
  ((Tab.get [] s.bas.repl st).map (·.size)).sum + 32 + p.body.length ≤ 4 * 2 ^ 20

/-- A replicator takes a packet into its buffer and sends a copy to each station of a group, and on some
of its links. -/
def copyOut (s : State) (st : Nat) (g : List Byte) (links : List Nat) (mstore : Option Nat) (p : Pkt) : State :=
  let b := s.bas.blockNext + 1
  let x : ReplBlock := { id := b, size := 32 + p.body.length, mstore := mstore }
  let s := { s with bas := { s.bas with blockNext := b, repl := Tab.mod [] s.bas.repl st (fun l => l ++ [x]) } }
  settleReplicator (links.foldl (copyToLink b p) (copyToStations s st b (groupStations s g) p)) st

/-- The links of a group's Hem Mask. -/
def groupLinks (g : List Byte) : List Nat := (List.range 64).filter (fun n => bit (field g 4 8) n)

/-- The replicator of the sending tile (R215 rule 1); false where its buffer has no room. -/
def replicate (s : State) (st : Nat) (p : Pkt) : State × Bool :=
  let g := groupRecord s p.route
  let tag := if p.kind = 5 then some p.tag else none
  let s := settleReplicator s st
  if !groupValid g || field g 12 1 ≠ p.slice then (endMstore (copyFailed s 1) st { id := 0, size := 0, mstore := tag }, true)
  else if !replicatorRoom s st p then (s, false)
  else (copyOut s st g (groupLinks g) tag p, true)

/-- A copy that arrives on a link (R215 rule 3); at a module without a node number it fails (R244); false
where the replicator's buffer has no room. -/
def receiveCopy (s : State) (link : Nat) (p : Pkt) : State × Bool :=
  let g := groupRecord s p.route
  let st := linkStation s link
  let left := p.route / 4096 % 8 - 1
  let s := settleReplicator s st
  if ownNode s = 0xFFFF || !groupValid g || field g 12 1 ≠ p.slice then (copyFailed s 1, true)
  else if !replicatorRoom s st p then (s, false)
  else
    let p := { p with route := p.route % 4096 + left * 4096 }
    (copyOut s st g (if left = 0 then [] else (groupLinks g).filter (· ≠ link)) none p, true)

/-- A copy that arrives on a lane group leaves its receive buffer for the replicator, or waits there. -/
def acceptCopy (s : State) (link group : Nat) (p : Pkt) : State × Bool :=
  let r := receiveCopy s link p
  if r.2 then (freeBuffer r.1 link group (arrivalKey ((classOf p).getD 0) (pktBytes p)) (pktFlits p), true) else (s, false)

/-- A copy is taken now, or waits at the router of its link. -/
def arriveCopy (s : State) (link group : Nat) (p : Pkt) : State :=
  let r := acceptCopy s link group p
  if r.2 then r.1
  else { s with bas := { s.bas with copies := Tab.mod [] s.bas.copies (linkStation s link) (fun l => l ++ [(link * 16 + group, p)]) } }

/-- MULTICAST_COPY_RECEIVE. -/
def execMulticastCopyReceive (link : Nat) (p : Pkt) (s : State) : Out :=
  if 64 ≤ link || (attachedPort s link).isNone || !p.mcast then .next s else .next (arriveCopy s link 0 p)

/-- A group record that may be written (R214): 16 bytes, whose reserved fields are ignored (R12). -/
def groupOk (v : List Byte) : Bool :=
  v.length = 16

def writeMulticast (s : State) (sel : Tab Nat) (v : List Byte) : Effect :=
  { s := { s with col := { s.col with groups := Tab.put [] s.col.groups (selOf sel 0x5400 1) v } } }

/-- MULTICAST_GROUP_WRITE (R225). -/
def execMulticastGroupWrite (r : VdpReq) (s : State) : Out :=
  .next (vdpEntry s (atEntry r 0x5400 2) (fun _ _ v => groupOk v) writeMulticast)

/-! ### Sweeps (R269, R270) -/

/-- A hop record: arrival on (link, group) if any, the next hop if any, and a break. -/
def hopRecord (s : State) (arr dep : Option (Nat × Nat)) (brk : Nat) : List Byte :=
  let st := fun (e : Nat × Nat) => (getGroup s e.1 e.2).state * 16 + e.2
  let a := arr.getD (0xFF, 0)
  let x := getGroup s a.1 a.2
  let recent := countP (fun t => s.now < t + secPs) x.lost
  leBytes 2 (ownNode s)
    ++ (match arr with | some e => leBytes 1 e.1 ++ leBytes 1 (st e) | none => leBytes 1 0xFF ++ leBytes 1 0)
    ++ (match dep with | some e => leBytes 1 (if brk = 0 then e.1 else 0xFF) ++ leBytes 1 (st e) | none => leBytes 1 0xFF ++ leBytes 1 0)
    ++ leBytes 1 (if arr.isSome then (groupDataLines s a.1 a.2).length else 0) ++ leBytes 1 brk ++ leBytes 4 x.latency
    ++ leBytes 4 recent ++ leBytes 8 x.resent ++ leBytes 8 (epoch s)

/-- The end of the sweep: its result, status (2 COMPLETE, 3 BROKEN, 4 LOST) and operation. -/
def endSweep (s : State) (status : Nat) (records : List Byte) : State :=
  let hops := records.length / 32
  let head := leBytes 1 status ++ leBytes 1 hops ++ leBytes 2 (ownNode s) ++ leBytes 4 0 ++ leBytes 8 s.hem.sweepStart
  let s := wrE (wrB s 0x5500 3 (head ++ records)) 0x5500 4 status
  endOp s 7 (if status = 2 then 2 else 3) (if status = 2 then 0 else status) hops

/-- START_SWEEP: operation 0x0007. -/
def startSweep (s : State) (_sel : Tab Nat) (_v : List Byte) : Effect :=
  let v := rdE s 0x5500 1
  let hops := bits v 40 3
  if opRunning s 7 then { s := wrE s 0x5500 4 5, status := stBusy }
  else if hops = 0 || 4 < hops then
    { s := wrE (endOp (startOp s 7 0 0) 7 5 5 0) 0x5500 4 5, status := stRefused }
  else
    let route := v % 2 ^ 40
    let s := wrE (startOp s 7 hops hops) 0x5500 4 1
    let s := { s with hem := { s.hem with sweepStart := epoch s, sweepPs := s.now } }
    let e := hopEntry route 0
    let why := hopReason s e 0x52
    if why ≠ 0 then { s := endSweep s 3 (hopRecord s none (some (e / 16, e % 16)) why) }
    else
      let p : Pkt := { hops := hops, route := route, slice := v / 2 ^ 56, kind := 0x52, srcStation := 28, srcNode := ownNode s % 4096 }
      { s := enqueue s 28 p }

def execStartSweep (r : VdpReq) (s : State) : Out :=
  .next (vdpEntry s (atEntry r 0x5500 2) anyValue startSweep)

/-- A packet after its arrival on a lane group: entry NEXT holds the arrival (R249). -/
def rewrite (p : Pkt) (link g : Nat) : Pkt :=
  { p with route := if p.next < 4 then setHop p.route p.next (link * 16 + g) else p.route, next := p.next + 1 }

/-- A SWEEP packet arrives: this module adds its record, and forwards or returns them; it fails as any
packet does where its header names no hop (R251 rule 5). -/
def sweepArrive (s : State) (link g : Nat) (p : Pkt) : State :=
  let st := linkStation s link
  let p := rewrite p link g
  let reply := fun (s : State) (r : List Byte) => enqueue s st (replyTo s p 0x53 (p.body ++ r))
  if 4 < p.hops || p.hops < p.next then failPkt s st p 7 false
  else if p.hops = p.next then reply s (hopRecord s (some (link, g)) none 0)
  else
    let e := hopEntry p.route p.next
    let dep := (e / 16, e % 16)
    let why := hopReason s e 0x52
    if why ≠ 0 then reply s (hopRecord s (some (link, g)) (some dep) why)
    else enqueue s st { p with body := p.body ++ hopRecord s (some (link, g)) (some dep) 0 }

/-- SWEEP. -/
def execSweep (link group : Nat) (p : Pkt) (s : State) : Out :=
  if 64 ≤ link || (getGroup s link group).state ≠ 2 || p.kind ≠ 0x52 then .next s else .next (sweepArrive s link group p)

/-- SWEEP_REPLY: at the initiator. -/
def execSweepReply (p : Pkt) (s : State) : Out :=
  if !opRunning s 7 || p.kind ≠ 0x53 then .next s
  else
    let n := p.body.length / 32
    let whole := n = (getOp s 7).arg && field p.body (32 * (n - 1) + 7) 1 = 0
    .next (endSweep s (if whole then 2 else 3) p.body)

/-- SWEEP_LOST: 10 ms without a reply. -/
def execSweepLost (s : State) : Out :=
  if !opRunning s 7 then .next s
  else .next (endSweep (advanceTo s (s.hem.sweepPs + 10 * msPs)) 4 [])

/-! ### Packets from lane groups (R251) -/

/-- Rules 4 to 7 of R251: the packet fails, or waits in its receive buffer at the router of its link.  A
SWEEP_REPLY to a module without a node number is delivered (R244). -/
def forwardPkt (s : State) (st : Nat) (p : Pkt) (link g : Nat) (space : Bool) : State :=
  let p := rewrite p link g
  let reply := p.kind = 0x53 && ownNode s = 0xFFFF
  let why :=
    if ownNode s = 0xFFFF && p.kind ≠ 0x53 then 6
    else if 4 < p.hops || p.hops < p.next then 7
    else if p.next = p.hops && !isOwn s p.destNode && !reply then 4 else 0
  if why ≠ 0 then freeArrival (failPkt s st p why space) p else enqueue s st p

/-- A packet leaves the receive buffer of a lane group at once. -/
def leaveBuffer (s : State) (link g : Nat) (p : Pkt) : State :=
  freeBuffer s link g (arrivalKey ((classOf p).getD 0) (pktBytes p)) (pktFlits p)

/-- HEM_PACKET_RECEIVE. -/
def execHemPacketReceive (link group : Nat) (data : List Byte) (space : Bool) (s : State) : Out :=
  match attachedPort s link with
  | none => .next s
  | some key =>
    let st := key / 16
    if 64 ≤ link || (getGroup s link group).state ≠ 2 then .next s
    else
      match parsePkt data with
      | none => .next (hemReport (bump s 0x5100 5) 0x3E link group 0)
      | some p =>
        if (classOf p).isNone then .next (bump s 0x5100 5)
        else if !sliceAllowed s link group p.slice then
          .next (leaveBuffer (sliceFail s link group st (rewrite p link group) space) link group p)
        else if p.mcast then .next (arriveCopy s link group p)
        else if p.kind = 0x52 then .next (leaveBuffer (sweepArrive s link group p) link group p)
        else .next (forwardPkt s st p link group space)

/-- ROUTE_FAIL (R253): the request named ends with ROUTE and the reason. -/
def execRouteFail (st : Nat) (p : Pkt) (s : State) : Out :=
  if p.kind ≠ 0x50 then .next s
  else .next (failAtSource s st (field p.body 6 2 % 16384) (field p.body 4 1) fsRoute (field p.body 0 1))

/-- SLICE_FAIL (R259): the request named ends with SLICE_REFUSED. -/
def execSliceFail (st : Nat) (p : Pkt) (s : State) : Out :=
  if p.kind ≠ 0x51 then .next s
  else .next (failAtSource s st (field p.body 6 2 % 16384) (field p.body 4 1) fsSliceRefused 0)

/-! ### Shapers and routers (R183, R316, R317) -/

/-- Bits of a packet, in millionths. -/
def pktCost (p : Pkt) : Nat := (32 + p.body.length) * 8 * 1000000

/-- A flow's shaper with its tokens counted to now: Rate in Mb/s is millionths of a bit per
ps, up to Arrival Burst. -/
def shaperNow (s : State) (slot : Nat) (f : List Byte) : Shaper :=
  let full := fBurst f * 8 * 1000000
  match Tab.get none s.adm.shapers slot with
  | none => { tokens := full, since := s.now }
  | some x => { x with tokens := min full (x.tokens + fRate f * (s.now - x.since)), since := s.now }

def putShaper (s : State) (slot : Nat) (x : Shaper) : State :=
  { s with adm := { s.adm with shapers := Tab.put none s.adm.shapers slot (some x) } }

/-- A response that begins at a station gives back the space that was held for it (R257). -/
def isReply (p : Pkt) : Bool := p.next = 0 && (p.kind = 0x20 || p.kind = 0x61)

/-- Send a packet by its Leg or by R183, or replicate it; false where it waits. -/
def depart (s : State) (st : Nat) (leg : Option Nat) (p : Pkt) (space : Bool) : State × Bool :=
  let r := if p.mcast then replicate s st p else route s st leg p space
  if r.2 then (if isReply p then modResponse r.1 st (· - 1) else r.1, true) else (s, false)

/-- Send it, and free the receive buffer of a packet from another module (R256). -/
def departFree (s : State) (st : Nat) (leg : Option Nat) (p : Pkt) (space : Bool) : State × Bool :=
  let r := depart s st leg p space
  (if r.2 then freeArrival r.1 p else r.1, r.2)

/-- A block that a guest tile sends, in a STORE or an MSTORE, fails its stitch at the attachment (R141). -/
def guestRejects (st : Nat) (p : Pkt) : Bool :=
  24 ≤ st && st < 28 && (p.kind = 2 || p.kind = 5) && p.body.length = 32 + 4096 && field p.body 0 8 % 4096 = 0
    && !isRaw (field p.body 12 4)
    && (stitchOf (p.body.drop 32) (field p.body 12 4) (field p.body 16 4)).toNat ≠ field p.body 24 8

/-- The base rejects such a block: counted in 0x1040+g:06 and logged; the guest sends it again. -/
def rejectGuest (s : State) (st : Nat) (p : Pkt) : State :=
  let k := field p.body 16 4
  report (bump s (0x1040 + (st - 24)) 6)
    { cls := 0x0B, kind := 15, place := st, slice := some p.slice, detail := k, tag := blockTag (field p.body 12 4) k }

/-- Let one packet go: a flow's packet by its shaper, where it holds no credit (R316), and Leg, any other
by R183; false where it waits. -/
def release (s : State) (st : Nat) (p : Pkt) (crossing : Nat) (space : Bool) : State × Bool :=
  if guestRejects st p then (rejectGuest s st p, true)
  else
  match flowOf s p with
  | none => departFree s st none p space
  | some (slot, f) =>
    let x := shaperNow s slot f
    if !x.queue.isEmpty || x.tokens < pktCost p then (freeArrival (putShaper s slot { x with queue := x.queue ++ [p] }) p, true)
    else
      let s := putShaper s slot { x with tokens := x.tokens - pktCost p }
      departFree (countOverrun s slot f ((epoch s - p.stamp) * countPs + crossing)) st (legOf f) p space

/-- The rank of a packet: first tier before second, then class order (R317). -/
def pktRank (s : State) (p : Pkt) : Nat := (if firstTier s p then 0 else 4) + (classOf p).getD 0

/-- A packet among others, behind those of no greater rank. -/
def insertRank (s : State) (p : Pkt) : List Pkt → List Pkt
  | [] => [p]
  | q :: l => if pktRank s q ≤ pktRank s p then q :: insertRank s p l else p :: q :: l

/-- Packets by rank, then first come. -/
def byRank (s : State) (l : List Pkt) : List Pkt := l.foldl (fun acc p => insertRank s p acc) []

/-- The first of some packets that can go leaves the router. -/
def releaseFirst (s : State) (st crossing : Nat) (space : Bool) : List Pkt → Option State
  | [] => none
  | p :: l =>
    let u := { s with fab := { s.fab with routers := Tab.mod [] s.fab.routers st (dropFirst (fun q => q = p)) } }
    let r := release u st p crossing space
    if r.2 then some r.1 else releaseFirst s st crossing space l

/-- A packet that a port had not begun is sent anew: a copy towards its station, any other by R183, from
the reservation that it holds (R252). -/
def sendAnew (s : State) (st : Nat) (x : RPkt) (p : Pkt) (space : Bool) : State × Bool :=
  if p.mcast then
    (if (portsTo s st x.dst [0, 1]).isEmpty then meshSend s st [x.dst] x else bulkByPort s st x.dst (portsTo s st x.dst [0, 1]) x, true)
  else if p.next < p.hops then route (modTransmit s x.dst (hopKey p) (· - pktFlits p)) st none p space
  else route s st none p space

/-- A packet from a port or the mesh reaches the router: its header is checked (R248), it leaves by its
lane group where its next hop is one, and else reaches its sink. -/
def arriveAt (s : State) (st : Nat) (p : Pkt) (space : Bool) : State × Bool :=
  if p.next < p.hops && !p.mcast then
    let why := hopFails s p
    if why ≠ 0 || linkStation s (hopEntry p.route p.next / 16) ≠ st then
      (failPkt (modTransmit s st (hopKey p) (· - pktFlits p)) st p (if why = 0 then 3 else why) space, true)
    else (leaveByHem s p, true)
  else if p.mcast then (emit s (.arrived st p), true)
  else sink s st p

/-- One packet of those that have reached a router; false where it waits. -/
def takeOne (s : State) (st : Nat) (x : RPkt) (space : Bool) : State × Bool :=
  match parsePkt x.data with
  | none => (report (bump (takeIn s st x) 0x5100 5) { cls := 0x3E, kind := 7, place := st }, true)
  | some p =>
    if (classOf p).isNone then (bump (takeIn s st x) 0x5100 5, true)
    else if x.via = 32 then sendAnew s st x p space
    else
      let r := arriveAt s st p space
      (takeIn r.1 st x, r.2)

/-- The first of the packets that have reached a router and that it can take. -/
def takeFirst (s : State) (st : Nat) (space : Bool) (seen : List RPkt) : List RPkt → Option State
  | [] => none
  | x :: l =>
    let u := { s with bas := { s.bas with inbox := Tab.put [] s.bas.inbox st (seen ++ l) } }
    let r := takeOne u st x space
    if r.2 then some r.1 else takeFirst s st space (seen ++ [x]) l

/-- The first copy from a link that the replicator can take. -/
def copyFirst (s : State) (st : Nat) (seen : List (Nat × Pkt)) : List (Nat × Pkt) → Option State
  | [] => none
  | c :: l =>
    let u := { s with bas := { s.bas with copies := Tab.put [] s.bas.copies st (seen ++ l) } }
    let r := acceptCopy u (c.1 / 16) (c.1 % 16) c.2
    if r.2 then some r.1 else copyFirst s st (seen ++ [c]) l

/-- PACKET_SEND: the router of a station takes what has reached it, or a copy that waits for its
replicator, else lets the first go of its waiting packets that can. -/
def execPacketSend (st crossing : Nat) (space : Bool) (s : State) : Out :=
  if 28 < st || !stationLive s st then .next s
  else
    let s := settleReplicator s st
    match takeFirst s st space [] (Tab.get [] s.bas.inbox st) <|> copyFirst s st [] (Tab.get [] s.bas.copies st)
        <|> releaseFirst s st crossing space (byRank s (Tab.get [] s.fab.routers st)) with
    | some t => .next t
    | none => .next s

/-- SHAPER_RELEASE: the bucket of a flow has filled enough for the first packet that waits, which leaves
where its way is free; `st` is the flow's entry router. -/
def execShaperRelease (slot crossing : Nat) (space : Bool) (s : State) : Out :=
  match s.adm.flows.find? (fun e => e.1 = slot), Tab.get none s.adm.shapers slot with
  | some (_, f), some x =>
    match x.queue with
    | [] => .next s
    | p :: l =>
      let have' := (shaperNow s slot f).tokens
      let s := advanceTo s (s.now + ceilDiv (pktCost p - have') (max 1 (fRate f)))
      let y := shaperNow s slot f
      let u := putShaper s slot { y with tokens := y.tokens - pktCost p, queue := l }
      let u := countOverrun u slot f ((epoch s - p.stamp) * countPs + crossing)
      let st := if fEntry f < 16384 then (stationOf s (fEntry f % 32)).getD 28 else linkStation s (fEntry f % 1024 / 16)
      let r := depart u st (legOf f) p space
      .next (if r.2 then r.1 else s)
  | _, _ => .next s

end Sys2Proof.Machine
end

