-- ==== Sys2Proof/Machine/Schedule.lean ====
section
/-!
DEFINITION. Collective schedules (07_collectives.md R198 to R205): the body's fields, the
load and its checks.
-/
namespace Sys2Proof.Machine

/-! ### The body (R199 to R201) -/

def schBody (s : State) (slot : Nat) : List Byte := rdB s (0x7600 + slot) 1
def schState (s : State) (slot : Nat) : Nat := rdE s (0x7600 + slot) 2
def setSchState (s : State) (slot v : Nat) : State := wrE s (0x7600 + slot) 2 v

def hRunTid (b : List Byte) : Bool := bit (field b 1 1) 0
def hStats (b : List Byte) : Bool := bit (field b 1 1) 1
def hPhases (b : List Byte) : Nat := field b 2 2
def hSteps (b : List Byte) : Nat := field b 4 2
def hOp (b : List Byte) : Nat := field b 6 1
def hOut (b : List Byte) : Nat := field b 7 1 % 16
def hRnd (b : List Byte) : Nat := field b 7 1 / 16 % 4
def hSat (b : List Byte) : Bool := bit (field b 7 1) 6
def hIn (b : List Byte) : Nat := field b 8 1 % 16

/-- Anchor.  R199 gives it a range of −512 to 511, for which R204 lists no check: a header outside it
loads, and the S16 is used as it stands (DEDUCED, log 104); so is Input Anchor. -/
def hAnchor (b : List Byte) : Int := signed 16 (field b 10 2)
def hInAnchor (b : List Byte) : Int := signed 16 (field b 12 2)
def hN (b : List Byte) : Nat := field b 16 4
def hE (b : List Byte) : Nat := field b 20 4
def hTidIn (b : List Byte) : Nat := field b 24 4
def hTag (b : List Byte) : Nat := field b 36 4
def hStart (b : List Byte) : Nat := field b 40 2
def hDone (b : List Byte) : Nat := field b 42 2
def hCount (b : List Byte) : Nat := field b 44 4
def hRecTile (b : List Byte) : Nat := field b 48 2
def hTimeout (b : List Byte) : Nat := field b 52 4
def hRecAddr (b : List Byte) : Nat := field b 56 8

/-- h of R199. -/
def hHead (b : List Byte) : Nat := max 1 (ceilLog2 (hN b))

/-- B of R196. -/
def wireBlocks (b : List Byte) : Nat := ceilDiv (hE b) 512

/-- TID_WIRE′ and TID_OUT′ of run `r`. -/
def hTidWire (b : List Byte) (r : Nat) : Nat := field b 28 4 + (if hRunTid b then r % 65536 else 0)
def hTidOut (b : List Byte) (r : Nat) : Nat := field b 32 4 + (if hRunTid b then r % 65536 else 0)

/-- A phase record (R200). -/
structure Phase where
  keep : Bool
  dark : Bool
  plan : Nat
  offsetMode : Bool
  offset : Nat
  deriving DecidableEq, Repr

def phaseAt (b : List Byte) (j : Nat) : Phase :=
  let r := slice b (64 + 16 * j) 16
  { keep := bit (field r 0 2) 15, dark := bit (field r 0 2) 8, plan := field r 0 1, offsetMode := field r 2 1 = 1, offset := field r 4 4 }

/-- A step record (R201). -/
structure Step where
  kind : Nat
  slot : Nat
  tile : Nat
  first : Nat
  count : Nat
  node : Nat
  fanIn : Nat
  phase : Nat
  addr : Nat
  destMod : Nat
  destNode : Nat
  group : Nat
  root : Bool
  deriving DecidableEq, Repr

def stepBytes (b : List Byte) (m : Nat) : List Byte := slice b (64 + 16 * hPhases b + 32 * m) 32

def stepAt (b : List Byte) (m : Nat) : Step :=
  let r := stepBytes b m
  { kind := field r 0 1, slot := field r 1 1, tile := field r 2 2, first := field r 4 4, count := field r 8 4, node := field r 12 2,
    fanIn := field r 14 1, phase := field r 15 1, addr := field r 16 8, destMod := field r 24 2, destNode := field r 26 2,
    group := field r 28 2, root := bit (field r 30 1) 0 }

/-- The steps with their numbers. -/
def stepsOf (b : List Byte) : List (Nat × Step) := (List.range (hSteps b)).map (fun m => (m, stepAt b m))

/-- Steps of a kind. -/
def stepsOfKind (b : List Byte) (k : Nat) : List (Nat × Step) := (stepsOf b).filter (fun e => e.2.kind = k)

/-- The step sends: CONTRIBUTE or FORWARD. -/
def sends (x : Step) : Bool := x.kind = 1 || x.kind = 3

/-- Block `i` lies in the step's range. -/
def inRange (x : Step) (i : Nat) : Bool := x.first ≤ i && i < x.first + x.count

/-- A local node's REDUCE step. -/
def reduceStep (b : List Byte) (node : Nat) : Option (Nat × Step) := (stepsOfKind b 2).find? (fun e => e.2.node = node)

/-- The node that a multicast FORWARD feeds, which its record does not name: the lowest
other node of the body on a tile of the group, whose slot no other step of the body feeds. -/
def groupTarget (s : State) (b : List Byte) (x : Step) : Nat :=
  let mask := field (groupRecord s x.group) 0 4
  let fed := fun (n : Nat) => (stepsOf b).any (fun e => e.2.slot = x.slot &&
    ((e.2.kind = 1 && (e.2.node = n || e.2.destNode = n)) || (e.2.kind = 3 && e.2.destNode = n)))
  let ok := fun (e : Nat × Step) => e.2.node ≠ x.node && bit mask e.2.tile && decide (x.slot < e.2.fanIn) && !fed e.2.node
  ((stepsOfKind b 2).filter ok).foldl (fun n e => min n e.2.node) 0xFFFF

/-- The target node of a sending step. -/
def targetOf (s : State) (b : List Byte) (x : Step) : Nat :=
  if x.destNode ≠ 0xFFFF then x.destNode else if x.kind = 1 then x.node else groupTarget s b x

/-! ### The checks of a load (R204) -/

/-- The first step, as a result index, at which a rule fails. -/
def firstStep (b : List Byte) (bad : Step → Bool) : Option Nat :=
  ((stepsOf b).find? (fun e => bad e.2)).map (·.1)

def firstPhase (b : List Byte) (bad : Nat → Bool) : Option Nat :=
  ((List.range (hPhases b)).find? bad).map (· + 65536)

/-- A result index for the header. -/
def headerIndex : Nat := 2 * 65536

/-- Rule 3 on the header. -/
def badHeaderField (b : List Byte) : Bool :=
  field b 1 1 / 4 ≠ 0 || bit (field b 7 1) 7 || field b 8 1 / 16 ≠ 0 || field b 9 1 ≠ 0 || field b 14 2 ≠ 0 || field b 50 2 ≠ 0

def badPhaseField (b : List Byte) (j : Nat) : Bool :=
  let r := slice b (64 + 16 * j) 16
  bits (field r 0 2) 9 6 ≠ 0 || 1 < field r 2 1 || field r 3 1 ≠ 0 || field r 8 8 ≠ 0 || (field r 2 1 = 0 && field r 4 4 ≠ 0)

/-- Rule 3 on a step: fields that its kind, or its Group in place of Dest Node, does not use. -/
def badStepField (b : List Byte) (m : Nat) : Bool :=
  let x := stepAt b m
  let r := stepBytes b m
  let noDest := x.destMod = 0xFFFF && x.destNode = 0xFFFF && x.group = 0xFFFF
  field r 31 1 ≠ 0 || 1 < field r 30 1 || (sends x && x.destNode = 0xFFFF && x.group ≠ 0xFFFF && x.destMod ≠ 0xFFFF) ||
  (match x.kind with
   | 1 => x.fanIn ≠ 0 || x.root
   | 2 => x.slot ≠ 0 || x.phase ≠ 0 || !noDest
   | 3 => x.fanIn ≠ 0 || x.addr ≠ 0 || x.root
   | 4 => x.slot ≠ 0 || x.fanIn ≠ 0 || x.phase ≠ 0 || x.root || !noDest
   | _ => true)

/-- Rule 4 (it checks neither Anchor: R204 names none, log 104): operation, formats, ranges and tensor IDs. -/
def badOp (b : List Byte) : Bool :=
  let bitwise := 3 ≤ hOp b
  let badTid := fun (t : Nat) => bit t 31 || isRaw t || (hRunTid b && 0x7FFF0000 < t)
  let tin := hTidIn b
  let tw := field b 28 4
  let tout := field b 32 4
  let inOk := match fmtOfCode (hIn b) with
    | some .binary64 | some .binary32 | some .binary16 | some .bfloat16 | some .anchored64 => true
    | _ => false
  let outOk := match fmtOfCode (hOut b) with
    | some .binary64 | some .binary32 | some .binary16 | some .bfloat16 | some .e4m3 | some .e5m2 | some .int8 | some .anchored64 => true
    | _ => false
  5 < hOp b || !inOk || !outOk || 1 < hRnd b || (bitwise && (fmtOfCode (hIn b) ≠ some .anchored64 || fmtOfCode (hOut b) ≠ some .anchored64))
    || hN b = 0 || 2 ^ 24 < hN b || hE b = 0 || hTimeout b = 0 || 10000000 < hTimeout b
    || badTid tin || badTid tw || badTid tout || tw = tin || tw = tout || (hStats b && bitwise)

def isBaseSync (v : Nat) : Bool := bit v 15 && syncNameOk v

/-- A logical number of a present compute tile. -/
def tilePresent (s : State) (n : Nat) : Bool := n < 24 && (physTile s n).isSome

/-- Rule 7 on a phase: the plan named is READY or ACTIVE. -/
def badPlan (s : State) (b : List Byte) (j : Nat) : Bool :=
  let p := phaseAt b j
  !p.keep && !p.dark && planState s p.plan ≠ 2 && planState s p.plan ≠ 4

/-- Rule 8: OFFSET fronts strictly increase. -/
def badOffset (b : List Byte) (j : Nat) : Bool :=
  let p := phaseAt b j
  p.offsetMode && (List.range j).any (fun i => (phaseAt b i).offsetMode && p.offset ≤ (phaseAt b i).offset)

/-- The step's target is on this module: Dest Module names none, or this one. -/
def localDest (s : State) (x : Step) : Bool := x.destMod = 0xFFFF || isOwn s x.destMod

/-- Rule 9 on step `m`. -/
def badNode (s : State) (b : List Byte) (m : Nat) : Bool :=
  let x := stepAt b m
  let feeds := fun (n : Nat) => (stepsOf b).filter (fun e => sends e.2 && localDest s e.2 && targetOf s b e.2 = n)
  match x.kind with
  | 1 => (match reduceStep b (targetOf s b x) with
      | some (_, n) => localDest s x && n.fanIn ≤ x.slot
      | none => false)
  | 2 =>
    let twice := (List.range m).any (fun i => (stepAt b i).kind = 2 && (stepAt b i).node = x.node)
    let onTile := countP (fun e => e.2.kind = 2 && e.2.tile = x.tile) (stepsOf b)
    let phases := (feeds x.node).map (fun e => e.2.phase)
    twice || (x.root && x.addr = 0) || x.fanIn = 0 || 64 < x.fanIn || 16 < onTile
      || (512 < x.count && phases.any (fun p => p ≠ phases.headD p))
  | 3 => (reduceStep b x.node).isNone || (match reduceStep b (targetOf s b x) with
      | some (_, n) => localDest s x && x.destNode ≠ 0xFFFF && n.fanIn ≤ x.slot
      | none => false)
  | _ => (reduceStep b x.node).isNone && !s.col.groups.any (fun g => groupValid g.2 && bit (field g.2 0 4) x.tile)

/-- Rule 10 on a step. -/
def badRange (b : List Byte) (x : Step) : Bool :=
  let n := wireBlocks b
  n < x.first + x.count || x.first % 8 ≠ 0 || (x.count % 8 ≠ 0 && x.first + x.count ≠ n)

/-- Rule 11 on a step. -/
def badDest (s : State) (x : Step) : Bool :=
  sends x && ((x.destNode = 0xFFFF && x.group = 0xFFFF) || (x.destNode ≠ 0xFFFF && x.group ≠ 0xFFFF)
    || (x.group ≠ 0xFFFF && (4096 ≤ x.group || !groupValid (groupRecord s x.group))))

/-- Rules 6, 7 and 9, which a renumbering checks again (R205). -/
def rule6 (s : State) (b : List Byte) : Option Nat :=
  match firstStep b (fun x => !tilePresent s x.tile) with
  | some i => some i
  | none => if tilePresent s (hRecTile b) then none else some headerIndex

def rule7 (s : State) (b : List Byte) : Option Nat := firstPhase b (badPlan s b)

def rule9 (s : State) (b : List Byte) : Option Nat := (List.range (hSteps b)).find? (badNode s b)

/-- The first rule that fails, as its code and index; (0, 0) for success. -/
def schCheck (s : State) (b : List Byte) : Nat × Nat :=
  let p := hPhases b
  let n := hSteps b
  if field b 0 1 ≠ 1 then (1, headerIndex)
  else if p = 0 || 64 < p || n = 0 || 2048 < n || b.length < 64 + 16 * p + 32 * n then (2, headerIndex)
  else if badHeaderField b then (3, headerIndex)
  else
    let rules : List (Nat × Option Nat) := [
      (3, firstPhase b (badPhaseField b)), (3, (List.range n).find? (badStepField b)), (4, if badOp b then some headerIndex else none),
      (5, if isBaseSync (hStart b) && isBaseSync (hDone b) then none else some headerIndex), (6, rule6 s b), (7, rule7 s b),
      (8, firstStep b (fun x => sends x && p ≤ x.phase)), (8, firstPhase b (badOffset b)), (9, rule9 s b),
      (10, firstStep b (badRange b)), (11, firstStep b (badDest s))]
    match rules.find? (fun e => e.2.isSome) with
    | some (c, some i) => (c, i)
    | _ => (0, 0)

/-! ### Loading (R204, R205, R224) -/

/-- LOAD_SCHEDULE: operation 0x0006. -/
def startLoadSchedule (s : State) (_sel : Tab Nat) (v : List Byte) : Effect :=
  if opRunning s 6 then { s := s, status := stBusy }
  else
    let i := leNat v
    { s := setSchState (startOp s 6 (hSteps (schBody s i)) i) i 1 }

def execLoadSchedule (r : VdpReq) (s : State) : Out :=
  .next (vdpEntry s (atEntry r 0x7500 0xA) (fun _ _ v => leNat v < 64) startLoadSchedule)

/-- SCHEDULE_LOAD_DONE. -/
def execScheduleLoadDone (s : State) : Out :=
  if !opRunning s 6 then .next s
  else
    let i := (getOp s 6).arg
    let (code, k) := schCheck s (schBody s i)
    let s := wrE s (0x7600 + i) 3 (code * 2 ^ 24 + k)
    if code = 0 then .next (endOp (setSchState s i 2) 6 2 0 (getOp s 6).total)
    else .next (endOp (setSchState s i 3) 6 3 code (if k < 65536 then k else 0))

/-- SCHEDULE_RECHECK (R205). -/
def recheckSchedules (s : State) : State :=
  (List.range 64).foldl (fun s i =>
    let b := schBody s i
    if schState s i = 2 && ((rule6 s b).isSome || (rule7 s b).isSome || (rule9 s b).isSome) then setSchState s i 3 else s) s

/-- A write of a body (R224): the slot is EMPTY until loaded; a load of it ends aborted. -/
def writeSchedule (i : Nat) (s : State) (_sel : Tab Nat) (v : List Byte) : Effect :=
  let s := setSchState (wrB s (0x7600 + i) 1 v) i 0
  { s := if opRunning s 6 && (getOp s 6).arg = i then endOp s 6 4 0 (getOp s 6).position else s }

/-- SCHEDULE_BODY_WRITE: at most 66,624 bytes (R198). -/
def execScheduleBodyWrite (i : Nat) (r : VdpReq) (s : State) : Out :=
  .next (vdpEntry s (atEntry r (instIndex 0x7600 64 i) 1) (fun _ _ v => v.length ≤ 66624) (writeSchedule i))

end Sys2Proof.Machine
end

