-- ==== Sys2Proof/Machine/Collect.lean ====
section
/-!
DEFINITION. Runs of collective schedules (07_collectives.md R190 to R197, R202 to R221):
contributions, reduce nodes, results, digests, repeats, phases, the end of a run.
-/
namespace Sys2Proof.Machine

/-! ### Runs -/

def getRun (s : State) (slot : Nat) : Option CRun := Tab.get none s.col.runs slot

def putRun (s : State) (slot : Nat) (r : Option CRun) : State :=
  { s with col := { s.col with runs := Tab.put none s.col.runs slot r } }

def modRun (s : State) (slot : Nat) (f : CRun → CRun) : State := putRun s slot ((getRun s slot).map f)

def getNode (r : CRun) (n : Nat) : RNode := Tab.get {} r.nodes n

def modNode (s : State) (slot n : Nat) (f : RNode → RNode) : State :=
  modRun s slot (fun r => { r with nodes := Tab.mod {} r.nodes n f })

/-- The admitted job that declares a schedule slot, with the flow that does (R314). -/
def scheduleFlow (s : State) (slot : Nat) : Option (Nat × List Byte) :=
  s.adm.flows.find? (fun e => fKind e.2 = 1 && field e.2 24 1 = slot && 2 ≤ Tab.get 0 s.adm.fstate e.1)

def scheduleSlice (s : State) (slot : Nat) : Nat := ((scheduleFlow s slot).map (fun e => fSlice e.2)).getD 0

/-- The job seed that keys a schedule's digests and rounding (R198, R313). -/
def scheduleSeed (s : State) (slot : Nat) : DWord :=
  match (jobs s).find? (fun e => e.1 = scheduleSlice s slot) with
  | some (_, j) => BitVec.ofNat 64 j.seed
  | none => 0#64

/-- The run in progress of a Schedule Tag and run number (R197). -/
def runOf (s : State) (tag run : Nat) : Option (Nat × CRun) :=
  (s.col.runs.filterMap (fun e => e.2.map (fun r => (e.1, r)))).find? (fun e => hTag (schBody s e.1) = tag && e.2.run = run)

/-- A packet that no run wants (R197, R212). -/
def absorb (s : State) : State := bump s 0x7500 7

/-- A report about a reduction engine (R519). -/
def unitEngine (s : State) (cls slot t detail tag : Nat) : State :=
  let sl := some (scheduleSlice s slot)
  report s { cls := cls, kind := 14, place := t, logical := logicalTile s t, slice := sl, detail := detail, tag := tag }

/-- A report of the classes of group 5 (R520). -/
def engineReport (s : State) (cls slot t blk : Nat) : State :=
  unitEngine s cls slot t (((getRun s slot).map (·.run)).getD 0) (hTag (schBody s slot) * 2 ^ 32 + blk)

/-! ### The end of a run (R210, R212) -/

/-- The 32-byte run record. -/
def runRecord (r : CRun) (status : Nat) (stop : Nat) : List Byte :=
  leBytes 4 r.run ++ leBytes 1 status ++ [r.flags] ++ leBytes 2 (unsigned 16 r.anchor) ++ leBytes 4 r.firstFlag ++ leBytes 4 r.repaired
    ++ leBytes 8 r.start ++ leBytes 8 stop

/-- End a run with a status: the record is written, then Done Sync is signalled. -/
def finishRun (s : State) (slot status : Nat) : State :=
  match getRun s slot with
  | none => s
  | some r =>
    let b := schBody s slot
    let rec' := runRecord r status (epoch s)
    let s := match physTile s (hRecTile b) with
      | some t => rawWrite s t (hRecAddr b) rec'
      | none => s
    let s := syncAdd s 0 (hDone b) 1#32
    let s := wrB s (0x7600 + slot) 5 rec'
    let s := wrE s (0x7600 + slot) 4 ((rdE s (0x7600 + slot) 4 + 1) % 2 ^ 32)
    let s := if 2 ≤ status then engineReport (bump s 0x7500 8) 0x2D slot 0xFF 0 else s
    let s := match scheduleFlow s slot with
      | some (i, f) =>
        if field f 32 4 * usPs < s.now - r.startPs then
          bump { s with adm := { s.adm with overruns := Tab.mod 0 s.adm.overruns i (· + 1) } } 0x7000 9
        else s
      | none => s
    let s := if schState s slot = 4 then setSchState s slot 2 else s
    putRun s slot none

/-- The first cause that spoils a run stays its status. -/
def spoil (s : State) (slot status : Nat) : State :=
  modRun s slot (fun r => if r.status < 2 then { r with status := status } else r)

/-- A run fails at once. -/
def failRun (s : State) (slot status : Nat) : State :=
  match getRun s slot with
  | some r => finishRun s slot (if r.status < 2 then status else r.status)
  | none => s

/-! ### Wire blocks (R191, R196, R218) -/

def wordsOf (data : List Byte) : List Nat := (List.range 512).map (fun i => field data (8 * i) 8)
def wordBytes (ws : List Nat) : List Byte := ws.flatMap (leBytes 8)

/-- P of R218. -/
def digestP : Nat := 0x1FFFFFFFFFFFFFFF

/-- DK of R218. -/
def digestKey (j : Nat) : DWord := if j = 0 then 0xD1B54A32D192ED03#64 else 0x8CB92BA72F3D8DD7#64

/-- coeff of R218. -/
def digestCoeff (j : Nat) (seed : DWord) (wireTag i : Nat) : Nat :=
  let a := mix64 (seed ^^^ digestKey j)
  let b := mix64 (a ^^^ BitVec.ofNat 64 wireTag)
  let c := (mix64 (b ^^^ BitVec.ofNat 64 i)).toNat % 2 ^ 61
  if c = 0 || c = digestP then 1 else c

/-- residue of R218. -/
def digestResidue (w : Nat) : Nat :=
  let v := signed 64 w
  let m := v.natAbs % digestP
  if 0 ≤ v || m = 0 then m else digestP - m

/-- digest of R218; NaR counts 0. -/
def digest (j : Nat) (seed : DWord) (wireTag : Nat) (ws : List Nat) : Nat :=
  (List.range ws.length).foldl (fun d i =>
    let w := ws.getD i 0
    let v := if w = narCode then 0 else w
    (d + digestCoeff j seed wireTag i * digestResidue v % digestP) % digestP) 0

/-- One element combined (R191); true where a SUM left the range. -/
def combineElem (op x y : Nat) : Nat × Bool :=
  match op with
  | 0 => anchoredAdd x y
  | 1 => (anchoredMin x y, false)
  | 2 => (anchoredMax x y, false)
  | 3 => (x &&& y, false)
  | 4 => (x ||| y, false)
  | _ => (x ^^^ y, false)

/-- NODE_COMBINE: two wire blocks and their digests. -/
def combineBlk (op : Nat) (x y : WireBlk) : WireBlk × Bool :=
  let zs := List.zipWith (combineElem op) (wordsOf x.data) (wordsOf y.data)
  ({ data := wordBytes (zs.map (·.1)), d0 := (x.d0 + y.d0) % digestP, d1 := (x.d1 + y.d1) % digestP, flags := x.flags ||| y.flags,
     poison := x.poison || y.poison }, zs.any (·.2))

/-- An injected fault of an engine's SUM (R399): events act on the first element that it writes. -/
def engineInjected (s : State) (t op : Nat) (data : List Byte) : State × List Byte :=
  if op ≠ 0 then (s, data)
  else (useInjections s 7 t 0, (pendingAt s 7 t 0).foldl (fun l j => injectBit { j with bitOff := j.bitOff % 64 } l) data)

/-! ### Reduction headers (R197) -/

/-- Fields of a packet's reduction header. -/
def rNode (p : Pkt) : Nat := field p.body 0 2
def rSlot (p : Pkt) : Nat := field p.body 2 1
def rTag (p : Pkt) : Nat := field p.body 4 4
def rRun (p : Pkt) : Nat := field p.body 8 4
def rBlock (p : Pkt) : Nat := field p.body 12 4
def rAnchor (p : Pkt) : Int := signed 16 (field p.body 34 2)
def rStitch (p : Pkt) : DWord := BitVec.ofNat 64 (field p.body 40 8)
def rBlk (p : Pkt) : WireBlk :=
  { data := slice p.body 48 4096, d0 := field p.body 16 8, d1 := field p.body 24 8, flags := BitVec.ofNat 8 (field p.body 32 1),
    poison := bit (field p.body 33 1) 0 }

/-- The body of a collective packet. -/
def collBody (node slot kind tag run blk : Nat) (anchor : Int) (w : Option WireBlk) (stitch : DWord) : List Byte :=
  let x := w.getD { data := [] }
  leBytes 2 node ++ leBytes 1 slot ++ leBytes 1 kind ++ leBytes 4 tag ++ leBytes 4 run ++ leBytes 4 blk ++ leBytes 8 x.d0
    ++ leBytes 8 x.d1 ++ [x.flags] ++ leBytes 1 (b2n x.poison) ++ leBytes 2 (unsigned 16 anchor) ++ leBytes 4 0
    ++ leBytes 8 stitch.toNat ++ x.data

/-- Send a collective packet from tile `t` to a station of a module; one that fails at its source router is
counted (R253, R254). -/
def collSend (s : State) (slot t destMod destStation : Nat) (body : List Byte) : State :=
  let p : Pkt := { slice := scheduleSlice s slot, kind := 0x40 + field body 3 1, destStation := destStation, body := body,
                   srcStation := stationName s t, srcNode := ownNode s % 4096 }
  if destMod = 0xFFFF || isOwn s destMod then enqueue s t { p with destNode := ownNode s % 4096 }
  else
    let r := sendNewPkt s t { p with destNode := destMod }
    if r.2 = 0 then r.1 else failPkt r.1 t p r.2 true

/-- Send a collective packet to a multicast group (R215). -/
def collCast (s : State) (slot t group : Nat) (body : List Byte) : State :=
  enqueue s t { mcast := true, route := group % 4096 + 4 * 4096, slice := scheduleSlice s slot, kind := 0x40 + field body 3 1,
                srcStation := stationName s t, srcNode := ownNode s % 4096, body := body }

/-- Send to the target of a step. -/
def stepSend (s : State) (slot t : Nat) (b : List Byte) (x : Step) (body : List Byte) : State :=
  if x.group ≠ 0xFFFF then collCast s slot t x.group body
  else
    let local' := x.destMod = 0xFFFF || isOwn s x.destMod
    let station := if local' then ((reduceStep b x.destNode).map (fun e => e.2.tile)).getD 31
      else (Config.nodeStation x.destMod x.destNode).toNat
    collSend s slot t x.destMod station body

/-- Reply to the source of a packet, named by node and station. -/
def replySend (s : State) (slot t : Nat) (src : Nat × Nat) (body : List Byte) : State :=
  collSend s slot t (if src.1 = ownNode s % 4096 then 0xFFFF else src.1) src.2 body

/-- A wire block in a packet, stitched under its wire tag. -/
def wireBody (s : State) (slot : Nat) (r : CRun) (node sl kind blk : Nat) (anchor : Int) (w : WireBlk) : List Byte :=
  let b := schBody s slot
  collBody node sl kind (hTag b) r.run blk anchor (some w) (stitchOf w.data (hTidWire b r.run) blk)

def plainBody (s : State) (slot : Nat) (r : CRun) (node sl kind blk : Nat) (anchor : Int) : List Byte :=
  collBody node sl kind (hTag (schBody s slot)) r.run blk anchor none 0#64

/-- Steps of a tile that feed a node by a slot: whom GRANT, ANCHOR and RESEND reach; none on a tile whose
engine a reset took out of the run (R190). -/
def feeders (s : State) (r : CRun) (b : List Byte) (t : Nat) (p : Pkt) : List (Nat × Step) :=
  (stepsOf b).filter (fun e => !r.lost.contains t &&  sends e.2 && physTile s e.2.tile = some t && e.2.slot = rSlot p && targetOf s b e.2 = rNode p
    && (e.2.group ≠ 0xFFFF || (if e.2.destMod = 0xFFFF then p.srcNode = ownNode s % 4096 else p.srcNode = e.2.destMod)))

/-! ### Sending within grants (R208, R209) -/

/-- The step's phase has begun. -/
def phaseOpen (r : CRun) (x : Step) : Bool := x.phase < r.phase || (x.phase = r.phase && r.begun)

/-- Every target of a group that this module knows of has granted: the nodes on its own tiles of the
group, and one from each neighbour on a link of it (R209). -/
def groupHeard (s : State) (b : List Byte) (x : Step) (gs : List (Nat × Nat)) : Bool :=
  let g := groupRecord s x.group
  let node := targetOf s b x
  (List.range 24).all (fun n =>
    !(bit (field g 0 4) n && ((reduceStep b node).any (fun e => e.2.tile = n))) || gs.any (fun y => y.1 = ownNode s % 4096 * 32 + n))
  && (groupLinks g).all (fun n => gs.any (fun y => y.1 / 32 = (getGroup s n 0).farNode % 4096))

/-- The step may send its block number `i` (from its first): the first 512 without a grant,
then up to the index that every target has granted.  Results go to deliverers, which grant nothing. -/
def mayRun (s : State) (b : List Byte) (r : CRun) (m : Nat) (x : Step) (i : Nat) : Bool :=
  let gs := Tab.get [] r.grants m
  i < 512 || (x.kind = 3 && ((reduceStep b x.node).any (fun e => e.2.root)))
    || (!gs.isEmpty && gs.all (fun g => x.first + i ≤ g.2) && (x.group = 0xFFFF || groupHeard s b x gs))

/-- The block of a node is complete. -/
def blockDone (n : RNode) (blk : Nat) : Bool := blk < n.low || n.done.contains blk

/-- A block that an engine reads from its tile, repeated once when it fails its stitch (R143, R144). -/
def contributeFetch (s : State) (slot t a tid k : Nat) (f1 f2 : List Flip) : State × Fetch :=
  let (s, x) := fetch s t a tid k f1 []
  match x with
  | .mismatch c =>
    let (s, y) := fetch s t a tid k f2 []
    let tagged := fun (s : State) (cls : Nat) =>
      confirmedFault (unitEngine s cls slot t k (blockTag tid k)) (.tile t)
    match y with
    | .ok d q => (tagged (bump s 0x6500 2) 0x08, .ok d q)
    | .mismatch c' => if c' = c then (tagged (bump s 0x6500 3) 0x09, .mismatch c') else (tagged (bump s 0x6500 4) 0x0A, .mismatch c')
    | z => (s, z)
  | z => (s, z)

/-- A block that an engine cannot have ends the run (R142, R148, R212). -/
def engineBlocked (s : State) (slot t a tid k : Nat) : Fetch → State
  | .race => failRun (unitEngine (bump s 0x6500 5) 0x00 slot t k (blockTag tid k)) slot 2
  | .unstitched => failRun (unitEngine (bump s 0x6500 6) 0x01 slot t k (blockTag tid k)) slot 2
  | .badRow => failRun (containRange s t a 4096) slot 8
  | _ => failRun s slot 2

/-- A node's staged block read back, checked under its wire tag (R141, R203); none where the run ends. -/
def readStage (s : State) (slot t : Nat) (x : Step) (blk : Nat) (f1 f2 : List Flip) : State × Option (WireBlk × Int) :=
  let tid := hTidWire (schBody s slot) (((getRun s slot).map (·.run)).getD 0)
  let a := x.addr + 4096 * (blk - x.first)
  let da := x.addr + 4096 * x.count + 32 * (blk - x.first)
  let (s, y) := contributeFetch s slot t a tid blk f1 f2
  match y with
  | .ok data poison =>
    if anyBadRow s t da 32 && !poisonMode s then (failRun (containRange (readBadRows s t da 32) t da 32) slot 8, none)
    else
      let d := bytesAt s t da 32
      (s, some ({ data := data, d0 := field d 0 8, d1 := field d 8 8, flags := d.getD 16 0#8, poison := poison || bit (field d 17 1) 0 },
        signed 16 (field d 18 2)))
  | z => (engineBlocked s slot t a tid blk z, none)

/-- A node's output of a block: from its stage, or from its window (R202, R203). -/
def nodeOut (s : State) (slot t : Nat) (r : CRun) (x : Step) (blk : Nat) (f1 f2 : List Flip) : State × Option (WireBlk × Int) :=
  let n := getNode r x.node
  if x.addr ≠ 0 then readStage s slot t x blk f1 f2
  else (s, (Tab.get none n.outs blk).map (fun w => (w, n.anchor.getD (hAnchor (schBody s slot)))))

/-- The output of a node as a packet of a FORWARD step. -/
def forwardBody (s : State) (slot : Nat) (r : CRun) (x d : Step) (blk : Nat) (w : WireBlk) (anchor : Int) : List Byte :=
  if d.root then wireBody s slot r x.node 0xFF 3 blk anchor w
  else wireBody s slot r (targetOf s (schBody s slot) x) x.slot 2 blk anchor w

/-- The engine of a tile takes part in the run: the tile is open, and no reset has taken it out (R190). -/
def engineIn (s : State) (r : CRun) (t : Nat) : Bool := tileOpen s t && (getTile s t).reset.isNone && !r.lost.contains t

/-- Send one output block of a node by a FORWARD step, to its target, or to the source that asked for it
again; nothing where the block is not held. -/
def forwardBlock (s : State) (slot m : Nat) (x : Step) (blk : Nat) (asker : Option (Nat × Nat)) (f1 f2 : List Flip) : State :=
  match getRun s slot, reduceStep (schBody s slot) x.node, physTile s x.tile with
  | some r, some (_, d), some t =>
    match nodeOut s slot t r d blk f1 f2 with
    | (s, none) => s
    | (s, some (w, anchor)) =>
      let body := forwardBody s slot r x d blk w anchor
      let s := match asker with
        | some src => replySend s slot t src body
        | none => stepSend s slot t (schBody s slot) x body
      modRun s slot (fun r => { r with sent := Tab.put 0 r.sent m (max (Tab.get 0 r.sent m) (blk - x.first + 1)) })
  | _, _, _ => s

/-- A FORWARD step sends what it can, in ascending order. -/
def pumpStep (slot m : Nat) (x : Step) : Nat → State → State
  | 0, s => s
  | k + 1, s =>
    match getRun s slot with
    | none => s
    | some r =>
      let i := Tab.get 0 r.sent m
      let up := (physTile s x.tile).any (engineIn s r)
      if up && i < x.count && phaseOpen r x && blockDone (getNode r x.node) (x.first + i) && mayRun s (schBody s slot) r m x i then
        pumpStep slot m x k (forwardBlock s slot m x (x.first + i) none [] [])
      else s

/-- Blocks that every unstaged FORWARD of a node has sent leave its window (R202). -/
def trimWindow (s : State) (slot node : Nat) : State :=
  let b := schBody s slot
  match getRun s slot with
  | none => s
  | some r =>
    let fs := (stepsOfKind b 3).filter (fun e => e.2.node = node)
    let needed := fun (blk : Nat) => fs.any (fun e => inRange e.2 blk && decide (e.2.first + Tab.get 0 r.sent e.1 ≤ blk))
    modNode s slot node (fun n => { n with outs := n.outs.filter (fun e => needed e.1) })

/-- Every FORWARD step sends what it can. -/
def pumpForward (s : State) (slot : Nat) : State :=
  let b := schBody s slot
  let fs := stepsOfKind b 3
  let s := fs.foldl (fun s e => pumpStep slot e.1 e.2 e.2.count s) s
  fs.foldl (fun s e => trimWindow s slot e.2.node) s

/-! ### Contributions (R194, R202) -/

/-- Elements of a wire block converted to Anchored-64, with the flags raised. -/
def contribute (b : List Byte) (anchor : Int) (f : Fmt) (data : List Byte) (blk : Nat) : List Nat × Byte :=
  let per := fmtPerBlock f
  let conv := fun (i : Nat) =>
    let e := 512 * blk + i
    if hE b ≤ e then (0, 0#8)
    else
      let c := elemAt f data (e % per)
      if 3 ≤ hOp b then (c, 0#8)
      else if f = .anchored64 then reanchor (hInAnchor b) anchor (hHead b) c
      else anchoredOfVal anchor (hHead b) (decodeElem f c)
  let rs := (List.range 512).map conv
  (rs.map (·.1), rs.foldl (fun x r => x ||| r.2) 0#8)

/-- The anchor at which a step contributes. -/
def stepAnchor (b : List Byte) (r : CRun) (m : Nat) : Option Int :=
  if hStats b then Tab.get none r.anchors m else some (hAnchor b)

/-- Read, convert and send one block of a CONTRIBUTE step, to its target, or to the node that asked for it
again. -/
def contributeBlock (s : State) (slot m : Nat) (x : Step) (blk : Nat) (asker : Option (Nat × Nat)) (f1 f2 : List Flip) : State :=
  let b := schBody s slot
  match getRun s slot, physTile s x.tile, fmtOfCode (hIn b) with
  | some r, some t, some f =>
    match stepAnchor b r m with
    | none => s
    | some anchor =>
      let per := fmtPerBlock f
      let k := 512 * blk / per
      let a := x.addr + 4096 * (k - 512 * x.first / per)
      let (s, y) := contributeFetch s slot t a (hTidIn b) k f1 f2
      match y with
      | .ok data poison =>
        let (ws, fl) := contribute b anchor f data blk
        let tag := blockTag (hTidWire b r.run) blk
        let sum := hOp b = 0
        let w : WireBlk := { data := wordBytes ws, d0 := if sum then digest 0 (scheduleSeed s slot) tag ws else 0,
                             d1 := if sum then digest 1 (scheduleSeed s slot) tag ws else 0, flags := fl, poison := poison }
        let s := if poison then
            spoil (unitEngine (bump s 0x6500 8) 0x19 slot t 0 a) slot 5
          else s
        let body := wireBody s slot r (targetOf s b x) x.slot 2 blk anchor w
        match asker with
        | some src => replySend s slot t src body
        | none => stepSend s slot t b x body
      | z => engineBlocked s slot t a (hTidIn b) k z
  | _, _, _ => s

/-- CONTRIBUTE_SEND: the next block of step `m`. -/
def execContributeSend (slot m : Nat) (first again : List Flip) (s : State) : Out :=
  let b := schBody s slot
  let x := stepAt b m
  match getRun s slot with
  | none => .next s
  | some r =>
    let i := Tab.get 0 r.sent m
    let up := (physTile s x.tile).any (engineIn s r)
    if hSteps b ≤ m || x.kind ≠ 1 || !up || !phaseOpen r x || x.count ≤ i || !mayRun s b r m x i || (stepAnchor b r m).isNone then .next s
    else
      let s := contributeBlock s slot m x (x.first + i) none first again
      .next (modRun s slot (fun r => { r with sent := Tab.put 0 r.sent m (i + 1) }))

/-! ### The exponent stage (R207) -/

/-- The values of one input block of a scan that lie in a step's range, below E; none where the run
ends (R207). -/
def scanBlock (slot t : Nat) (f : Fmt) (x : Step) (acc : State × Option (List Val)) (k : Nat) : State × Option (List Val) :=
  match acc with
  | (s, none) => (s, none)
  | (s, some vs) =>
    let b := schBody s slot
    let per := fmtPerBlock f
    let a := x.addr + 4096 * (k - 512 * x.first / per)
    let (s, y) := contributeFetch s slot t a (hTidIn b) k [] []
    match y with
    | .ok data _ =>
      let inside := fun (i : Nat) => decide (512 * x.first ≤ per * k + i) && decide (per * k + i < min (512 * (x.first + x.count)) (hE b))
      let val := fun (i : Nat) => if f = .anchored64 then valOfAnchored (hInAnchor b) (elemAt f data i) else decodeElem f (elemAt f data i)
      (s, some (vs ++ ((List.range per).filter inside).map val))
    | z => (engineBlocked s slot t a (hTidIn b) k z, none)

/-- The values of a CONTRIBUTE step, each input block read and checked (R141, R207). -/
def scanStep (slot t : Nat) (acc : State × Option (List Val)) (x : Step) : State × Option (List Val) :=
  let b := schBody acc.1 slot
  match fmtOfCode (hIn b) with
  | none => acc
  | some f =>
    let per := fmtPerBlock f
    let lo := 512 * x.first / per
    let hi := ceilDiv (min (512 * (x.first + x.count)) (hE b)) per
    ((List.range (hi - lo)).map (lo + ·)).foldl (scanBlock slot t f x) acc

/-- The exponent stage of a run is over on this module: its tiles have scanned, and its contributors and
nodes have their anchors (R207). -/
def stageOver (b : List Byte) (r : CRun) : Bool :=
  r.scanning.isEmpty && (stepsOfKind b 1).all (fun e => (Tab.get none r.anchors e.1).isSome)
    && (stepsOfKind b 2).all (fun e => (getNode r e.2.node).anchor.isSome)

/-- The stage ends once it is over. -/
def settleStage (s : State) (slot : Nat) : State :=
  modRun s slot (fun r => if r.exponents && stageOver (schBody s slot) r then { r with exponents := false } else r)

/-- EXPONENT_SCAN_DONE: a tile has scanned every element of its CONTRIBUTE steps. -/
def execExponentScanDone (slot t : Nat) (s : State) : Out :=
  let b := schBody s slot
  match getRun s slot with
  | none => .next s
  | some r =>
    if !r.exponents || !r.scanning.contains t || !engineIn s r t then .next s
    else
      let mine := (stepsOfKind b 1).filter (fun e => physTile s e.2.tile = some t)
      match (mine.map (·.2)).foldl (scanStep slot t) (s, some []) with
      | (s, none) => .next s
      | (s, some vals) =>
        let e : Int := (maxTop vals).getD (-32768)
        let s := modRun s slot (fun r => { r with scanning := r.scanning.filter (· ≠ t) })
        let s := mine.foldl (fun s x => stepSend s slot t b x.2 (plainBody s slot r (targetOf s b x.2) x.2.slot 0 0 e)) s
        .next (settleStage s slot)

/-- A packet's run, and the REDUCE step of its node on this tile. -/
def nodeAt (s : State) (t : Nat) (p : Pkt) : Option (Nat × CRun × Step) :=
  match runOf s (rTag p) (rRun p) with
  | none => none
  | some (slot, r) =>
    match reduceStep (schBody s slot) (rNode p) with
    | some (_, x) => if physTile s x.tile = some t && !r.lost.contains t then some (slot, r, x) else none
    | none => none

/-- A node's sources get ANCHOR (R207 rules 3 and 4). -/
def sendAnchor (s : State) (slot t node : Nat) (a : Int) : State :=
  match getRun s slot with
  | none => s
  | some r =>
    (getNode r node).srcs.foldl (fun s x => replySend s slot t (x.2.1, x.2.2) (plainBody s slot r node x.1 1 0 a)) s

/-- A tile that takes no packets: in reset (TILE_RESET) or in a closed domain (ASLEEP), as a
run status; 0 when open. -/
def closedStatus (s : State) (t : Nat) : Nat :=
  if (getTile s t).reset.isSome then 8 else if !tileOpen s t then 9 else 0

/-- R212: a packet for a closed tile.  A sender of this module ends its run; another module's
gets the negative completion. -/
def negative (s : State) (t : Nat) (p : Pkt) (st : Nat) : State :=
  if p.srcNode = ownNode s % 4096 then
    match runOf s (rTag p) (rRun p) with
    | some (slot, _) => failRun s slot st
    | none => absorb s
  else
    let body := leBytes 1 (if st = 8 then fsTileReset else fsAsleep) ++ leBytes 7 0 ++ leBytes 4 (rRun p) ++ leBytes 4 (rTag p)
    enqueue s t { replyTo s p 0x20 body with fabric := true }

/-- The source of a slot (R197), once. -/
def addSource (l : List (Nat × Nat × Nat)) (p : Pkt) : List (Nat × Nat × Nat) :=
  if l.any (fun e => e.1 = rSlot p) then l else l ++ [(rSlot p, p.srcNode, p.srcStation)]

/-- A node has its anchor, which the run reports (R207, R210). -/
def anchorNode (s : State) (slot node : Nat) (a : Int) : State :=
  modRun (modNode s slot node (fun n => { n with anchor := some a })) slot (fun r => { r with anchor := a })

/-- EXPONENT. -/
def execExponent (t : Nat) (p : Pkt) (s : State) : Out :=
  if closedStatus s t ≠ 0 then .next (negative s t p (closedStatus s t))
  else
    match nodeAt s t p with
    | none => .next (absorb s)
    | some (slot, r, x) =>
      let n := getNode r x.node
      if x.fanIn ≤ rSlot p || n.exps.any (fun e => e.1 = rSlot p) then .next (absorb s)
      else
        let s := modNode s slot x.node (fun n =>
          { n with exps := n.exps ++ [(rSlot p, rAnchor p)], srcs := addSource n.srcs p })
        let es := n.exps ++ [(rSlot p, rAnchor p)]
        if es.length < x.fanIn then .next s
        else
          let b := schBody s slot
          let e := es.foldl (fun m y => max m y.2) (-32768)
          if x.root then
            let a := if e = -32768 then 0 else clampAnchor (e + (hHead b : Int) - 61)
            .next (settleStage (sendAnchor (anchorNode s slot x.node a) slot t x.node a) slot)
          else
            let fs := (stepsOfKind b 3).filter (fun y => y.2.node = x.node)
            .next (fs.foldl (fun s y => stepSend s slot t b y.2 (plainBody s slot r (targetOf s b y.2) y.2.slot 0 0 e)) s)

/-- A contributing tile takes an anchor for a step: the first it has had, or one equal to it (R207). -/
def anchorContributor (s : State) (slot t m : Nat) (a : Int) : State :=
  match getRun s slot with
  | none => s
  | some r =>
    match Tab.get none r.tileAnchor t with
    | some a' =>
      if a' ≠ a then failRun s slot 10
      else modRun s slot (fun r => { r with anchors := Tab.put none r.anchors m (some a) })
    | none => modRun s slot (fun r => { r with
        anchors := Tab.put none r.anchors m (some a), tileAnchor := Tab.put none r.tileAnchor t (some a), anchor := a })

/-- One sending step takes an anchor (R207 rules 4 and 5). -/
def takeAnchor (s : State) (slot t : Nat) (e : Nat × Step) (a : Int) : State :=
  match getRun s slot with
  | none => s
  | some r =>
    if e.2.kind = 1 then anchorContributor s slot t e.1 a
    else
      match (getNode r e.2.node).anchor with
      | none => sendAnchor (anchorNode s slot e.2.node a) slot t e.2.node a
      | some a' => if a' = a then s else failRun s slot 10

/-- ANCHOR. -/
def execAnchor (t : Nat) (p : Pkt) (s : State) : Out :=
  if closedStatus s t ≠ 0 then .next (negative s t p (closedStatus s t))
  else
    match runOf s (rTag p) (rRun p) with
    | none => .next (absorb s)
    | some (slot, r) =>
      let fs := feeders s r (schBody s slot) t p
      if fs.isEmpty || !hStats (schBody s slot) then .next (absorb s)
      else .next (settleStage (fs.foldl (fun s e => takeAnchor s slot t e (rAnchor p)) s) slot)

/-! ### Reduce nodes (R202, R209, R221) -/

/-- GRANT to every source of a node: blocks up to its lowest incomplete one plus 511. -/
def sendGrants (s : State) (slot t node : Nat) : State :=
  match getRun s slot with
  | none => s
  | some r =>
    let n := getNode r node
    let s := modNode s slot node (fun n => { n with granted := n.low })
    n.srcs.foldl (fun s x => replySend s slot t (x.2.1, x.2.2) (plainBody s slot r node x.1 4 (n.low + 511) 0)) s

/-- The lowest incomplete block after some have been completed. -/
def advanceLow : Nat → RNode → RNode
  | 0, n => n
  | k + 1, n => if n.done.contains n.low then advanceLow k { n with low := n.low + 1, done := n.done.filter (· ≠ n.low) } else n

/-- Stage an output block with its digest record (R203). -/
def stageBlock (s : State) (t : Nat) (x : Step) (tid blk : Nat) (anchor : Int) (w : WireBlk) : State :=
  if x.addr = 0 then s
  else
    let s := writeBlock s t (x.addr + 4096 * (blk - x.first)) tid blk w.data w.poison
    rawWrite s t (x.addr + 4096 * x.count + 32 * (blk - x.first))
      (leBytes 8 w.d0 ++ leBytes 8 w.d1 ++ [w.flags] ++ leBytes 1 (b2n w.poison) ++ leBytes 2 (unsigned 16 anchor) ++ leBytes 12 0)

/-- A block with every input in: checked in a repeat, staged or held, and sent on. -/
def emitBlock (s : State) (slot t : Nat) (x : Step) (blk : Nat) (anchor : Int) (w : WireBlk) : State :=
  let b := schBody s slot
  match getRun s slot with
  | none => s
  | some r =>
    let n := getNode r x.node
    let tid := hTidWire b r.run
    let again := n.checked.contains blk
    let ws := wordsOf w.data
    let bad := again && hOp b = 0 && !w.poison && !ws.contains narCode &&
      (digest 0 (scheduleSeed s slot) (blockTag tid blk) ws ≠ w.d0 || digest 1 (scheduleSeed s slot) (blockTag tid blk) ws ≠ w.d1)
    if bad then failRun (engineReport (confirmedFault s (.tile t)) 0x29 slot t blk) slot 3
    else
      let s := stageBlock s t x tid blk anchor w
      let s := modNode s slot x.node (fun n =>
        let n := { n with parts := Tab.put none n.parts blk none, checked := n.checked.filter (· ≠ blk), anchor := some (n.anchor.getD anchor),
                          outs := if x.addr = 0 then Tab.put none n.outs blk (some w) else n.outs }
        if again then n else advanceLow (x.count + 1) { n with done := n.done ++ [blk] })
      if again then
        let fs := (stepsOfKind b 3).filter (fun e => e.2.node = x.node && inRange e.2 blk && decide (blk < e.2.first + Tab.get 0 r.sent e.1))
        trimWindow (fs.foldl (fun s e => forwardBlock s slot e.1 e.2 blk none [] []) s) slot x.node
      else
        let low := ((getRun s slot).map (fun r => (getNode r x.node).low)).getD 0
        let s := if n.granted + 64 ≤ low then sendGrants s slot t x.node else s
        pumpForward s slot

/-- A wire block fails its stitch at a node or deliverer: RESEND to its source once, then
the run ends STITCH (R143, R144, R212). -/
def wireFault (s : State) (slot t tid blk : Nat) (first : Option DWord) (c : DWord) : State :=
  let rep := fun (s : State) (cls : Nat) => unitEngine s cls slot t blk (blockTag tid blk)
  match first with
  | none => s
  | some x => if x = c then failRun (rep (bump s 0x6500 3) 0x09) slot 2 else failRun (rep (bump s 0x6500 4) 0x0A) slot 2

/-- The second copy of a wire block passes: the fault is masked. -/
def wireMasked (s : State) (slot t tid blk : Nat) : State :=
  unitEngine (bump s 0x6500 2) 0x08 slot t blk (blockTag tid blk)

/-- PARTIAL at an open tile.  `dual` is the outcome of R193 (1 a transient, 2 a permanent
disagreement), `err` an error of the engine: an element of the combine with the bits that
come out wrong.  A block already marked poisoned carries its mark on and is not consumed again: R152 counts
the block that the engine takes as a contribution (DEDUCED, log 105). -/
def takePartial (s : State) (t : Nat) (p : Pkt) (dual : Nat) (err : Option (Nat × DWord)) : State :=
  match nodeAt s t p with
  | none => absorb s
  | some (slot, r, x) =>
    let b := schBody s slot
    let n := getNode r x.node
    let n := { n with low := max n.low x.first, granted := max n.granted x.first }
    let blk := rBlock p
    let part := Tab.get none n.parts blk
    let dup := (part.map (fun q => q.slots.contains (rSlot p))).getD (blockDone n blk && !n.checked.contains blk)
    if x.fanIn ≤ rSlot p || !inRange x blk || dup || n.low + 512 ≤ blk then absorb s
    else
      let tid := hTidWire b r.run
      let w := rBlk p
      let c := stitchOf w.data tid blk
      let before := (n.again.find? (fun e => e.1 = rSlot p && e.2.1 = blk)).map (fun e => e.2.2)
      if c ≠ rStitch p then
        if before.isSome then wireFault s slot t tid blk before c
        else
          let s := modNode s slot x.node (fun _ => { n with again := n.again ++ [(rSlot p, blk, c)] })
          replySend s slot t (p.srcNode, p.srcStation) (plainBody s slot r x.node (rSlot p) 6 blk 0)
      else
        let s := if before.isSome then wireMasked s slot t tid blk else s
        let fresh := !n.seen.contains (rSlot p)
        let n := { n with again := n.again.filter (fun e => !(e.1 = rSlot p && e.2.1 = blk)), srcs := addSource n.srcs p,
                          seen := if fresh then n.seen ++ [rSlot p] else n.seen }
        let (sum, past) := match part with
          | none => (w, false)
          | some q => combineBlk (hOp b) q.blk w
        let hit := match err with
          | some (i, m) => if part.isSome && i < 512 then
              { sum with data := wordBytes ((wordsOf sum.data).set i ((wordsOf sum.data).getD i 0 ^^^ m.toNat)) } else sum
          | none => sum
        let inj := if part.isSome then engineInjected s t (hOp b) hit.data else (s, hit.data)
        let s := inj.1
        let hit := { hit with data := inj.2 }
        let slots := ((part.map (·.slots)).getD []) ++ [rSlot p]
        let s := modNode s slot x.node (fun _ => { n with parts := Tab.put none n.parts blk (some { slots := slots, blk := hit }) })
        let s := if fresh then replySend s slot t (p.srcNode, p.srcStation) (plainBody s slot r x.node (rSlot p) 4 (n.low + 511) 0) else s
        let s := if past then spoil (engineReport s 0x2C slot t blk) slot 11 else s
        let checks := part.isSome && hOp b ≠ 0
        if checks && dual = 2 then failRun (engineReport (confirmedFault s (.tile t)) 0x2B slot t blk) slot 4
        else
          let s := if checks && dual = 1 then engineReport (bump s 0x7500 5) 0x2A slot t blk else s
          if slots.length < x.fanIn then s else emitBlock s slot t x blk (rAnchor p) hit

/-- PARTIAL. -/
def execPartialBlock (t : Nat) (p : Pkt) (dual : Nat) (err : Option (Nat × DWord)) (s : State) : Out :=
  if closedStatus s t ≠ 0 then .next (negative s t p (closedStatus s t)) else .next (takePartial s t p dual err)

/-- GRANT (R209). -/
def execGrant (t : Nat) (p : Pkt) (s : State) : Out :=
  if closedStatus s t ≠ 0 then .next (negative s t p (closedStatus s t))
  else
  match runOf s (rTag p) (rRun p) with
  | none => .next (absorb s)
  | some (slot, r) =>
    let fs := feeders s r (schBody s slot) t p
    let who := p.srcNode * 32 + p.srcStation
    let put := fun (s : State) (e : Nat × Step) => modRun s slot (fun r =>
      let old := Tab.get [] r.grants e.1
      let best := (old.filter (fun g => g.1 = who)).foldl (fun m g => max m g.2) (rBlock p)
      { r with grants := Tab.put [] r.grants e.1 (old.filter (fun g => g.1 ≠ who) ++ [(who, best)]) })
    if fs.isEmpty then .next (absorb s) else .next (pumpForward (fs.foldl put s) slot)

/-! ### Deliverers (R202, R219 to R221) -/

def delivKey (m blk : Nat) : Nat := m * 2 ^ 24 + blk

def getDeliv (r : CRun) (m blk : Nat) : Deliv := Tab.get {} r.deliv (delivKey m blk)

def putDeliv (s : State) (slot m blk : Nat) (d : Deliv) : State :=
  modRun s slot (fun r => { r with deliv := Tab.put {} r.deliv (delivKey m blk) d })

/-- One delivered element: its code in the output format and the flags raised (R194). -/
def deliverElem (b : List Byte) (f : Fmt) (anchor : Int) (rnd : Rnd) (w : Nat) : Nat × Byte :=
  if f = .anchored64 then (w, 0#8) else encodeElem f rnd (hSat b) (valOfAnchored anchor w)

/-- Write the output block that holds wire block `blk`, once every wire block it covers has
passed; the flags of its own conversion join those of the run, by wire block (R195). -/
def writeOutput (s : State) (slot m t : Nat) (x : Step) (blk : Nat) (anchor : Int) : State :=
  let b := schBody s slot
  match getRun s slot, fmtOfCode (hOut b) with
  | some r, some f =>
    let per := fmtPerBlock f
    let k := 512 * blk / per
    let w0 := k * per / 512
    let n := min (per / 512) (wireBlocks b - w0)
    let ds := (List.range n).map (fun i => getDeliv r m (w0 + i))
    if !ds.all (fun d => d.state = 4) then s
    else
      let ws := ds.flatMap (fun d => wordsOf ((d.blk.map (·.data)).getD []))
      let tid := hTidOut b r.run
      let seed := scheduleSeed s slot
      let es := (List.range per).map (fun i =>
        let rnd := if hRnd b = 1 then Rnd.sr (srWord seed tid k i) else .rne
        if hE b ≤ k * per + i then (0, 0#8) else deliverElem b f anchor rnd (ws.getD i 0))
      let flagsOf := fun (i : Nat) => ((es.drop (512 * i)).take 512).foldl (fun a e => a ||| e.2) 0#8
      let fl := es.foldl (fun a e => a ||| e.2) 0#8
      let flagged := ((List.range n).filter (fun i => flagsOf i ≠ 0#8)).map (w0 + ·)
      let poison := ds.any (fun d => (d.blk.map (·.poison)).getD false)
      let data := fit 4096 (packElems f (es.map (·.1)))
      let s := writeBlock s t (x.addr + 4096 * (k - 512 * x.first / per)) tid k data poison
      let s := (List.range n).foldl (fun s i => putDeliv s slot m (w0 + i) { state := 5 }) s
      modRun s slot (fun r => { r with flags := r.flags ||| fl, firstFlag := flagged.foldl min r.firstFlag })
  | _, _ => s

/-- A result block passes: its flags and marks go into the run record. -/
def passResult (s : State) (slot m t : Nat) (x : Step) (blk : Nat) (anchor : Int) (w : WireBlk) (repaired : Bool) : State :=
  let s := putDeliv s slot m blk { state := 4, blk := some w }
  let s := modRun s slot (fun r =>
    { r with flags := r.flags ||| w.flags, firstFlag := if w.flags = 0#8 then r.firstFlag else min r.firstFlag blk, anchor := anchor,
             repaired := r.repaired + b2n repaired, status := if repaired && r.status = 0 then 1 else r.status })
  let s := if repaired then engineReport (bump s 0x7500 4) 0x28 slot t blk else s
  let s := if w.poison then spoil s slot 5 else s
  writeOutput s slot m t x blk anchor

/-- A result block fails its digests (R220, R221): REFETCH, once; then the repeat, for which the
deliverer asks the root by a RESEND whose Anchor field holds 1 (DESIGN CHOICE, log 44). -/
def failDigest (s : State) (slot m t : Nat) (p : Pkt) (d : Deliv) (c0 c1 : Nat) : State :=
  let blk := rBlock p
  let s := bump s 0x7500 3
  match getRun s slot with
  | none => s
  | some r =>
    let ask := fun (s : State) (kind : Nat) (mode : Int) =>
      replySend s slot t (p.srcNode, p.srcStation) (plainBody s slot r (rNode p) 0xFF kind blk mode)
    let keep := fun (st : Nat) => putDeliv s slot m blk { state := st, c0 := c0, c1 := c1 }
    if d.state ≤ 1 then ask (keep 2) 5 0
    else if d.state = 2 && d.c0 = c0 && d.c1 = c1 then ask (keep 3) 6 1
    else failRun (engineReport s 0x29 slot t blk) slot 3

/-- A result block at one DELIVER step that has not passed it yet: its stitch, with one RESEND for each
copy (R143, R212), then its digests (R219). -/
def takeDeliver (slot t : Nat) (p : Pkt) (s : State) (e : Nat × Step) : State :=
  match getRun s slot with
  | none => s
  | some r =>
    let b := schBody s slot
    let blk := rBlock p
    let m := e.1
    let d := getDeliv r m blk
    let tid := hTidWire b r.run
    let w := rBlk p
    let c := stitchOf w.data tid blk
    if c ≠ rStitch p then
      match d.bad with
      | some x => wireFault s slot t tid blk (some (BitVec.ofNat 64 x)) c
      | none =>
        let s := putDeliv s slot m blk { d with bad := some c.toNat }
        replySend s slot t (p.srcNode, p.srcStation) (plainBody s slot r (rNode p) 0xFF 6 blk 0)
    else
      let s := if d.bad.isSome then wireMasked s slot t tid blk else s
      let s := putDeliv s slot m blk { d with bad := none }
      let ws := wordsOf w.data
      if hOp b ≠ 0 || w.poison || ws.contains narCode then passResult (bump s 0x7500 6) slot m t e.2 blk (rAnchor p) w (2 ≤ d.state)
      else
        let s := bump s 0x7500 2
        let tag := blockTag tid blk
        let c0 := digest 0 (scheduleSeed s slot) tag ws
        let c1 := digest 1 (scheduleSeed s slot) tag ws
        if c0 = w.d0 && c1 = w.d1 then passResult s slot m t e.2 blk (rAnchor p) w (2 ≤ d.state)
        else failDigest s slot m t p d c0 c1

/-- RESULT at an open tile: every DELIVER step of its root whose range holds the block takes it. -/
def takeResult (s : State) (t : Nat) (p : Pkt) : State :=
  match runOf s (rTag p) (rRun p) with
  | none => absorb s
  | some (slot, r) =>
    let hits := (stepsOfKind (schBody s slot) 4).filter (fun e =>
      e.2.node = rNode p && physTile s e.2.tile = some t && !r.lost.contains t && inRange e.2 (rBlock p)
        && decide ((getDeliv r e.1 (rBlock p)).state < 4))
    if hits.isEmpty then absorb s else hits.foldl (takeDeliver slot t p) s

/-- RESULT. -/
def execResult (t : Nat) (p : Pkt) (s : State) : Out :=
  if closedStatus s t ≠ 0 then .next (negative s t p (closedStatus s t)) else .next (takeResult s t p)

/-- A root's staged block goes to the deliverer that asked. -/
def resendResult (s : State) (slot t : Nat) (r : CRun) (x : Step) (p : Pkt) (f1 f2 : List Flip) : State :=
  if !x.root || !inRange x (rBlock p) || !blockDone (getNode r x.node) (rBlock p) then absorb s
  else
    match nodeOut s slot t r x (rBlock p) f1 f2 with
    | (s, none) => s
    | (s, some (w, a)) => replySend s slot t (p.srcNode, p.srcStation) (wireBody s slot r x.node 0xFF 3 (rBlock p) a w)

/-- REFETCH: the root sends the block again from its stage, to the deliverer that asked. -/
def execRefetch (t : Nat) (p : Pkt) (s : State) : Out :=
  if closedStatus s t ≠ 0 then .next (negative s t p (closedStatus s t))
  else
    match nodeAt s t p with
    | none => .next (absorb s)
    | some (slot, r, x) => .next (resendResult s slot t r x p [] [])

/-- A node recomputes a block in checked mode: it asks the source of each input (R221), by a RESEND whose
Anchor field holds 1. -/
def repeatNode (s : State) (slot t : Nat) (x : Step) (blk : Nat) : State :=
  match getRun s slot with
  | none => s
  | some r =>
    let n := getNode r x.node
    if n.checked.contains blk then s
    else
      let s := modNode s slot x.node (fun n => { n with checked := n.checked ++ [blk], parts := Tab.put none n.parts blk none })
      n.srcs.foldl (fun s e => replySend s slot t (e.2.1, e.2.2) (plainBody s slot r x.node e.1 6 blk 1)) s

/-- A RESEND of a repeat (R221), which its Anchor field tells from one for a failed stitch: the spec gives
no field for it (DESIGN CHOICE, log 44). -/
def ofRepeat (p : Pkt) : Bool := rAnchor p ≠ 0

/-- A sending step is asked for a block again: a contributor reads and converts it again; a node reads it
from its stage or window, and recomputes it in a repeat, or when it holds it no longer (R196, R221). -/
def resendStep (slot t : Nat) (p : Pkt) (f1 f2 : List Flip) (s : State) (e : Nat × Step) : State :=
  let blk := rBlock p
  let src := (p.srcNode, p.srcStation)
  if e.2.kind = 1 then contributeBlock s slot e.1 e.2 blk (some src) f1 f2
  else
    match getRun s slot, reduceStep (schBody s slot) e.2.node with
    | some r, some (_, x) =>
      let held := blockDone (getNode r x.node) blk && (x.addr ≠ 0 || (Tab.get none (getNode r x.node).outs blk).isSome)
      if ofRepeat p || !held then repeatNode s slot t x blk else forwardBlock s slot e.1 e.2 blk (some src) f1 f2
    | _, _ => s

/-- RESEND: from a deliverer (slot 0xFF) to the root, or from a node to a source. -/
def execResend (t : Nat) (p : Pkt) (first again : List Flip) (s : State) : Out :=
  if closedStatus s t ≠ 0 then .next (negative s t p (closedStatus s t))
  else if rSlot p = 0xFF then
    match nodeAt s t p with
    | some (slot, r, x) =>
      .next (if ofRepeat p then (if x.root && inRange x (rBlock p) then repeatNode s slot t x (rBlock p) else absorb s)
        else resendResult s slot t r x p first again)
    | none => .next (absorb s)
  else
    match runOf s (rTag p) (rRun p) with
    | none => .next (absorb s)
    | some (slot, r) =>
      let fs := (feeders s r (schBody s slot) t p).filter (fun e => inRange e.2 (rBlock p))
      .next (if fs.isEmpty then absorb s else fs.foldl (resendStep slot t p first again) s)

/-! ### Phases (R208) -/

/-- The plan or darkness of a phase is in force, and its ports carry data. -/
def inForce (s : State) (p : Phase) : Bool :=
  p.keep || (rdE s 0x7300 1 = (if p.dark then 0x100 else p.plan) && !s.bas.ports.any (fun e => e.2.role = 0 && e.2.training))

/-- A switch is needed for a phase. -/
def needsSwitch (s : State) (p : Phase) : Bool := !p.keep && rdE s 0x7300 1 ≠ (if p.dark then 0x100 else p.plan)

/-- The slice holds the collective ports (R213). -/
def holdsPorts (s : State) (slice : Nat) : Bool :=
  (jobs s).any (fun e => e.1 = slice && 2 ≤ e.2.state && e.2.claim)

/-- The plan that will be in force when phase `j` begins, if each phase before it has its own: 0x100 is
dark. -/
def planBefore (s : State) (b : List Byte) (j : Nat) : Nat :=
  (List.range j).foldl (fun v i =>
    let p := phaseAt b i
    if p.keep then v else if p.dark then 0x100 else p.plan) (rdE s 0x7300 1)

/-- Post the switch of a phase for a front; LATE is posted again for the next front that
meets the lead, QUEUE_FULL when the phase is next looked at, and each retry is counted. -/
def postFor (slot j : Nat) (p : Phase) : Nat → Nat → State → State
  | 0, _, s => s
  | n + 1, front, s =>
    let again := ((getRun s slot).map (fun r => r.tried.contains j)).getD false
    let (s, code) := postSwitch (if again then bump s 0x7500 9 else s) front p.dark p.plan
    let mark := fun (s : State) => modRun s slot (fun r => { r with tried := if r.tried.contains j then r.tried else r.tried ++ [j] })
    if code = 0 then modRun s slot (fun r => { r with posted := Tab.put 0 r.posted j (front + 1) })
    else if code = 2 then postFor slot j p n (frontAt (epoch s + 313)) (mark s)
    else if code = 5 then mark s
    else failRun s slot 7

/-- Post the switch of phase `j`, where it needs one (`need`) that is not posted yet. -/
def postPhase (s : State) (slot j : Nat) (need : Bool) (front : Nat) : State :=
  let b := schBody s slot
  match getRun s slot with
  | none => s
  | some r =>
    if hPhases b ≤ j || !need || Tab.get 0 r.posted j ≠ 0 then s
    else if !holdsPorts s (scheduleSlice s slot) then failRun s slot 7
    else postFor slot j (phaseAt b j) 2 front s

/-- The switch of an OFFSET phase, posted at the start of its run: for its front, unless its plan will be
in force before it. -/
def postOffset (s : State) (slot base j : Nat) (off : Nat) : State :=
  let b := schBody s slot
  let p := phaseAt b j
  postPhase s slot j (!p.keep && planBefore s b j ≠ (if p.dark then 0x100 else p.plan)) (base + off * 4096)

/-- The switch of the phase that follows, or one that was refused, for the next front that meets the
lead. -/
def postNext (s : State) (slot : Nat) : State :=
  match getRun s slot with
  | none => s
  | some r => postPhase s slot r.phase (needsSwitch s (phaseAt (schBody s slot) r.phase)) (frontAt (epoch s + 313))

/-- PHASE_BEGIN. -/
def execPhaseBegin (slot : Nat) (s : State) : Out :=
  let b := schBody s slot
  match getRun s slot with
  | none => .next s
  | some r =>
    if r.begun || r.exponents || hPhases b ≤ r.phase then .next s
    else
      let p := phaseAt b r.phase
      let due := Tab.get 0 r.posted r.phase - 1
      if !inForce s p || epoch s < due then .next (postNext s slot)
      else .next (pumpForward (modRun s slot (fun r => { r with begun := true })) slot)

/-- Every sending step of the phase has sent its whole range. -/
def phaseSent (b : List Byte) (r : CRun) : Bool :=
  (stepsOf b).all (fun e => !sends e.2 || e.2.phase ≠ r.phase || e.2.count ≤ Tab.get 0 r.sent e.1)

/-- PHASE_COMPLETE: everything sent has been acknowledged; the next phase's switch is posted,
and posted again while it could not be queued. -/
def execPhaseComplete (slot : Nat) (s : State) : Out :=
  let b := schBody s slot
  match getRun s slot with
  | none => .next s
  | some r =>
    if r.begun then
      if !phaseSent b r then .next s
      else .next (postNext (modRun s slot (fun r => { r with phase := r.phase + 1, begun := false })) slot)
    else if r.exponents || hPhases b ≤ r.phase then .next s
    else .next (postNext s slot)

/-! ### Start and end (R206, R210, R212) -/

/-- Start Sync has reached the value that starts run `r`. -/
def startReached (s : State) (b : List Byte) (r : Nat) : Bool :=
  reaches (syncGet s 0 (hStart b)) (BitVec.ofNat 32 ((r + 1) * hCount b))

/-- Tiles with CONTRIBUTE steps. -/
def contributors (s : State) (b : List Byte) : List Nat :=
  ((List.range 24).filter (fun t => (stepsOfKind b 1).any (fun e => physTile s e.2.tile = some t)))

/-- The front offset of a phase: the admission engine's, never earlier than the body's
(R322). -/
def offsetUsed (s : State) (slot j : Nat) : Nat :=
  let o := match scheduleFlow s slot with
    | some (i, _) => (Tab.get [] s.adm.offsets i).getD j 0
    | none => 0
  max o (phaseAt (schBody s slot) j).offset

/-- RUN_START. -/
def execRunStart (slot : Nat) (s : State) : Out :=
  let b := schBody s slot
  let n := rdE s (0x7600 + slot) 4
  if 64 ≤ slot || (scheduleFlow s slot).isNone || (getRun s slot).isSome || !startReached s b n then .next s
  else
    let r : CRun := { run := n, start := epoch s, startPs := s.now, exponents := hStats b, scanning := if hStats b then contributors s b else [],
                      anchor := if hStats b then 0 else hAnchor b }
    if schState s slot = 3 then .next (finishRun (putRun s slot (some r)) slot 12)
    else if schState s slot ≠ 2 then .next s
    else
      let s := putRun (setSchState s slot 4) slot (some r)
      let base := epoch s / 4096 * 4096
      let offs := (List.range (hPhases b)).filter (fun j => (phaseAt b j).offsetMode)
      let s := offs.foldl (fun s j => postOffset s slot base j (offsetUsed s slot j)) s
      let s := settleStage s slot
      .next (if ((getRun s slot).map (·.exponents)).getD true then s else postNext s slot)

/-- Every block of every DELIVER range has been written. -/
def allDelivered (b : List Byte) (r : CRun) : Bool :=
  (stepsOfKind b 4).all (fun e => (List.range e.2.count).all (fun i => (getDeliv r e.1 (e.2.first + i)).state = 5))

/-- Blocks that some node still recomputes for a repeat. -/
def repeating (r : CRun) : Bool := r.nodes.any (fun e => !e.2.checked.isEmpty)

/-- RUN_END. -/
def execRunEnd (slot : Nat) (s : State) : Out :=
  let b := schBody s slot
  match getRun s slot with
  | none => .next s
  | some r =>
    if r.phase < hPhases b || !allDelivered b r || repeating r then .next s else .next (finishRun s slot r.status)

/-- RUN_TIMEOUT. -/
def execRunTimeout (slot : Nat) (s : State) : Out :=
  match getRun s slot with
  | none => .next s
  | some r =>
    .next (failRun (advanceTo s (r.startPs + hTimeout (schBody s slot) * usPs)) slot 6)

end Sys2Proof.Machine
end

