-- ==== Sys2Proof/Machine/MemHome.lean ====
section
/-!
DEFINITION. The home of a memory request (09_memory_fabric.md R277 to R284, R289 to R299): the
checks of R282, and what each request does.
-/
namespace Sys2Proof.Machine

/-! ### Waking and sleeping answers (R543, R545) -/

/-- A wake starts (R540, R545), of a kind and for a station of R397; while the decision is
STAY it waits (R538). -/
def startWake (s : State) (kind station : Nat) : State :=
  if (s.fc.sleep = 0 && s.fc.entry.isNone) || s.fc.waking then s
  else if s.fc.stay then { s with fc := { s.fc with held := some (s.fc.held.getD (kind * 256 + station)) } }
  else
    let s := wrE (bump s 0x9000 6) 0x9000 7 (kind * 256 + station)
    { s with fc := { s.fc with waking := true, wakePs := s.now } }

/-- An ASLEEP answer is counted; its Detail (R543). -/
def asleepDetail (s : State) : Nat := s.fc.sleep % 4 + 4 * b2n s.fc.waking

/-! ### Request packets (R290, R291) -/

def qAddr (p : Pkt) : Nat := field p.body 0 8
def qKey (p : Pkt) : Nat := field p.body 8 4
def qTid (p : Pkt) : Nat := field p.body 12 4
def qBlk (p : Pkt) : Nat := field p.body 16 4
def qNonce (p : Pkt) : Nat := field p.body 20 2
def qDetail (p : Pkt) : Nat := field p.body 22 1
def qOperand (p : Pkt) : Nat := field p.body 24 8
def qData (p : Pkt) : List Byte := p.body.drop 32

/-- NODE, TILE and TILE_OFFSET of a global address (R277). -/
def gaNode (a : Nat) : Nat := bits a 40 12
def gaTile (a : Nat) : Nat := bits a 35 5
def gaOffset (a : Nat) : Nat := a % 2 ^ 35

/-- A guest tile's station. -/
def isGuest (st : Nat) : Bool := 24 ≤ st && st < 28

/-- The tile address of a window offset of a tile (R278): an on-die offset that is reserved or of a core
that does not exist is not mapped (R94); a guest tile receives the offset unchanged. -/
def windowAddr (s : State) (t off : Nat) : Option Nat :=
  let a := if off < 0x600000000 then off else onDieBase + (off - 0x600000000)
  if isGuest t then (if off < 2 ^ 35 then some off else none)
  else if off < 0x620000000 && rangeExists (getTile s t) a 1 then some a
  else none

/-- Answer a request (R290, R291): in the response class, with its nonce. -/
def complete (s : State) (st : Nat) (p : Pkt) (status detail value : Nat) (data : List Byte) (poison : Bool) : State :=
  let body := leBytes 1 status ++ leBytes 1 detail ++ leBytes 2 (qNonce p) ++ leBytes 4 0 ++ leBytes 8 value ++ data
  let s := if status = fsAsleep then bump s 0x9000 0xA else s
  let s := if 2 ≤ status && status ≤ 9 then bump s 0x5200 5 else s
  enqueue s st { replyTo s p 0x20 body with poison := poison }

def refuseReq (s : State) (st : Nat) (p : Pkt) (status detail : Nat) : State := complete s st p status detail 0 [] false

/-- The answer after an effect: the packet's signal is added; where it is refused the status
is SLICE (R297). -/
def performed (s : State) (st : Nat) (p : Pkt) (detail value : Nat) (data : List Byte) (poison : Bool) : State :=
  let (s, refused) := signalPacket s st p
  complete s st p (if refused then fsSlice else fsOk) detail value data poison

/-! ### Regions (R280, R281) -/

def rBase (r : List Byte) : Nat := field r 0 8 % 2 ^ 40
def rSize (r : List Byte) : Nat := field r 8 4 * 0x200000
def rKey (r : List Byte) : Nat := field r 12 4
def rSlice (r : List Byte) : Nat := field r 16 1
def rAccess (r : List Byte) : Nat := field r 17 1
def rOwner (r : List Byte) : Nat := field r 18 2
def rGen (r : List Byte) : Nat := field r 20 2
def rEntry (r : List Byte) : Nat := field r 22 2
def rValid (r : List Byte) : Bool := bit (rAccess r) 0
def rWake (r : List Byte) : Bool := bit (rAccess r) 5
def rRing (r : List Byte) : Bool := bit (rAccess r) 6

/-- The VALID region that holds `[a, a + n)` of this module. -/
def regionOf (s : State) (a n : Nat) : Option (Nat × List Byte) :=
  s.fab.regions.find? (fun e => rValid e.2 && rBase e.2 ≤ a && a + n ≤ rBase e.2 + rSize e.2)

def putRegion (s : State) (i : Nat) (r : List Byte) : State :=
  { s with fab := { s.fab with regions := Tab.put [] s.fab.regions i r } }

/-- A record with another Owner, and the Generation advanced by 1 (R284). -/
def setOwner (r : List Byte) (owner : Nat) : List Byte := patch r 18 (leBytes 2 owner ++ leBytes 2 ((rGen r + 1) % 65536))

/-! ### The checks of R282 -/

/-- What a request that passes steps 1 to 9 acts on: physical tile, tile address, region. -/
structure Target where
  tile : Nat
  addr : Nat
  region : Nat
  record : List Byte
  deriving DecidableEq, Repr

/-- Where a request is refused: status and detail; `wake`, its refusal starts a wake. -/
structure Refused where
  status : Nat
  detail : Nat := 0
  wake : Bool := false
  deriving DecidableEq, Repr

/-- The tile takes no requests: its domain is closed or a DRAM die of the range drains or is
not open (R123, R282 step 9).  A guest die's memory is its own. -/
def domainClosed (s : State) (t a n : Nat) : Bool :=
  s.fc.closed || !s.boot.tilesOn || (!isGuest t && !rangeAwake (getTile s t) a n)

/-- Step 7 of R282. -/
def ownershipOk (kind : Nat) (r : List Byte) (p : Pkt) : Nat :=
  if kind = 2 || kind = 5 then (if rOwner r = p.srcNode && rOwner r ≠ 0xFFFF then 0 else fsNotOwner)
  else if kind = 9 then
    (if rOwner r ≠ p.srcNode || rOwner r = 0xFFFF then fsNotOwner
     else if rGen r ≠ qOperand p / 65536 % 65536 then fsStale else 0)
  else 0

/-- The access bit that a kind needs; OWN_GIVE needs none. -/
def accessBit (kind : Nat) : Option Nat :=
  match kind with
  | 1 => some 1
  | 2 | 5 => some 2
  | 3 => some 3
  | 4 => some 4
  | _ => none

/-- The RING region that a streamed store names: its address counts in whole pages (R293). -/
def ringOf (s : State) (modOff : Nat) (p : Pkt) : Option (Nat × List Byte) :=
  if p.kind = 2 && p.stream ≠ 0 then (regionOf s (modOff / 4096 * 4096) 1).filter (fun e => rRing e.2) else none

/-- The window offset at which a streamed store's data is placed (R293). -/
def ringSlot (r : List Byte) (seq : Nat) : Nat :=
  rBase r % 2 ^ 35 + seq % max 1 (rSize r / max 1 (rEntry r)) * rEntry r

/-- Length of a streamed store into a ring (R292, R293). -/
def ringLength (r : List Byte) (n : Nat) : Bool := 8 ≤ n && n ≤ 4096 && n % 8 = 0 && n ≤ rEntry r

/-- Steps 4 to 9 against a region; the tile address comes with it. -/
def checkRecord (s : State) (t a n : Nat) (p : Pkt) (i : Nat) (r : List Byte) : Except Refused Target :=
  let own := ownershipOk p.kind r p
  if qKey p ≠ rKey r then .error { status := fsKey }
  else if p.slice ≠ rSlice r then .error { status := fsSlice }
  else if (accessBit p.kind).any (fun k => !bit (rAccess r) k) then .error { status := fsPermission }
  else if own ≠ 0 then .error { status := own }
  else if (getTile s t).reset.isSome then .error { status := fsTileReset }
  else if domainClosed s t a n then .error { status := fsAsleep, wake := rWake r }
  else .ok { tile := t, addr := a, region := i, record := r }

/-- Steps 1 (the offset) to 9 on a range of `n` bytes at a window offset; a streamed store into a RING
region goes to its slot, whose own address must be mapped (R293). -/
def checkRegion (s : State) (t name off n : Nat) (p : Pkt) (aligned : Bool) : Except Refused Target :=
  let modOff := name * 2 ^ 35 + off
  match windowAddr s t off, ringOf s modOff p with
  | none, _ => .error { status := fsAddress }
  | some _, some (i, r) =>
    if !ringLength r n then .error { status := fsAlign }
    else
      match windowAddr s t (ringSlot r p.seq) with
      | none => .error { status := fsAddress }
      | some a => checkRecord s t a n p i r
  | some a, none =>
    if !aligned then .error { status := fsAlign }
    else
      match regionOf s modOff n with
      | none => .error { status := fsNoRegion }
      | some (i, r) => checkRecord s t a n p i r

/-- Length and alignment of LOAD, STORE, REDUCE and MSTORE (R292). -/
def rangeAligned (off n : Nat) : Bool := 8 ≤ n && n ≤ 4096 && n % 8 = 0 && off % 8 = 0 && off / 4096 = (off + n - 1) / 4096

/-- Steps 1 to 9 of R282 for a request at the router of station `st`. -/
def checkRequest (s : State) (st : Nat) (p : Pkt) (n : Nat) (aligned : Bool) : Except Refused Target :=
  let tile := if p.kind = 5 then stationName s st else gaTile (qAddr p)
  if st < 28 && stationName s st = tile && (p.mcast || p.destStation = tile) && qAddr p < 2 ^ 52 then
    checkRegion s st tile (gaOffset (qAddr p)) n p aligned
  else .error { status := fsAddress }

/-- A request of a slice under teardown (R307). -/
def tornDown (s : State) (p : Pkt) : Bool := s.fab.torn.contains p.slice

/-- Answer a refused request; a wake-capable region's starts a wake (R545). -/
def answerRefused (s : State) (st : Nat) (p : Pkt) (x : Refused) : State :=
  if x.status = fsAsleep then
    let s := if x.wake then startWake s 1 st else s
    refuseReq s st p fsAsleep (asleepDetail s)
  else refuseReq s st p x.status x.detail

/-- A request from its arrival: teardown, checks, then its operation `f`. -/
def checked (s : State) (st : Nat) (p : Pkt) (n : Nat) (aligned : Bool) (f : State → Target → State) : State :=
  if tornDown s p then refuseReq s st p fsAborted 0
  else
    match checkRequest s st p n aligned with
    | .error x => answerRefused s st p x
    | .ok t => f s t

/-- A request to memory: step 10 on a guest tile's memory is the guest die's, which answers it (R278). -/
def serve (s : State) (st : Nat) (p : Pkt) (n : Nat) (aligned : Bool) (f : State → Target → State) : State :=
  checked s st p n aligned (fun s x => if isGuest st then emit s (.arrived st p) else f s x)

/-! ### LOAD (R292) -/

/-- A fault of a block read at the home's router: charged to its tile (R144). -/
def homeFault (s : State) (t cls k tid : Nat) : State :=
  report s { cls := cls, kind := 1, place := t, logical := logicalTile s t, detail := k, tag := blockTag tid k }

/-- Read a block at a router under its tag, with the one repeat of R143: the data and poison
mark, or a status and detail. -/
def routerFetch (s : State) (t a tid k : Nat) (f1 f2 : List Flip) : State × Except (Nat × Nat) (List Byte × Bool) :=
  let (s, x) := fetch s t a tid k f1 []
  let charge := fun (s : State) => confirmedFault s (.tile t)
  let fin := fun (s : State) (y : Fetch) => match y with
    | .ok d q => (s, Except.ok (d, q))
    | .race => (homeFault (bump s 0x6500 5) t 0x00 k tid, .error (fsStitch, 3))
    | .unstitched => (homeFault (bump s 0x6500 6) t 0x01 k tid, .error (fsStitch, 4))
    | .badRow => (containRange s t a 4096, .error (fsMemory, 0))
    | .parity => (homeFault s t 0x15 k tid, .error (fsMemory, 0))
    | .mismatch _ => (s, .error (fsStitch, 1))
  match x with
  | .mismatch c =>
    let (s, y) := fetch s t a tid k f2 []
    match y with
    | .ok d q => (charge (homeFault (bump s 0x6500 2) t 0x08 k tid), .ok (d, q))
    | .mismatch c' =>
      if c' = c then (charge (homeFault (bump s 0x6500 3) t 0x09 k tid), .error (fsStitch, 1))
      else (charge (homeFault (bump s 0x6500 4) t 0x0A k tid), .error (fsStitch, 2))
    | z => fin s z
  | z => fin s z

/-- Read `n` bytes raw (R292, R514): the data and poison mark, or MEMORY; each marked row that is read
is counted (R119). -/
def rawFetch (s : State) (t a n : Nat) (fl : List Flip) : State × Except Nat (List Byte × Bool) :=
  let poisonCell := poisonMode s && (cellAt s t a).state = 2#2
  let clean := bytesAt s t a n
  if anyBadRow s t a n then
    let s := readBadRows s t a n
    if poisonMode s then (s, .ok (clean, true)) else (containRange s t a n, .error fsMemory)
  else
    let data := applyFlips a clean fl
    let onDie := onDieBase ≤ a
    if onDie && data ≠ clean && parityError clean data then (tileReport s 0x15 t fsMemory a, .error fsMemory)
    else (s, .ok (data, poisonCell))

/-- A whole aligned block under a non-raw tensor ID. -/
def isBlockReq (off n tid : Nat) : Bool := n = 4096 && off % 4096 = 0 && !isRaw tid

/-- The length that a LOAD asks for: Operand [15:0] carries the entry's Length. -/
def loadLength (p : Pkt) : Nat := qOperand p % 65536

/-- LOAD. -/
def execLoadReq (st : Nat) (p : Pkt) (first again : List Flip) (s : State) : Out :=
  let n := loadLength p
  let off := gaOffset (qAddr p)
  .next (serve s st p n (rangeAligned off n) (fun s x =>
    if isBlockReq off n (qTid p) then
      match routerFetch s x.tile x.addr (qTid p) (qBlk p) first again with
      | (s, .error (status, detail)) => refuseReq s st p status detail
      | (s, .ok (d, poison)) => performed s st p 0 (stitchOf d (qTid p) (qBlk p)).toNat d poison
    else
      match rawFetch s x.tile x.addr n first with
      | (s, .error status) => refuseReq s st p status 0
      | (s, .ok (d, poison)) => performed s st p 0 0 d poison))

/-! ### STORE and MSTORE (R293, R296) -/

/-- What becomes of a store's data. -/
inductive Stored where
  | done
  | memory
  | mismatch (c : DWord)
  deriving DecidableEq, Repr

/-- Write a store's data: a block with its stitch as it came, or bytes that make the cell RAW.  A row
write that fails, and the masked write of a marked row, store nothing (R111, R118). -/
def storeData (s : State) (x : Target) (p : Pkt) (block fails : Bool) : State × Stored :=
  let d := qData p
  let c := stitchOf d (qTid p) (qBlk p)
  if block && c.toNat ≠ qOperand p then (s, .mismatch c)
  else if fails then (s, .memory)
  else if block then (writeBlock s x.tile x.addr (qTid p) (qBlk p) d p.poison, .done)
  else if writeRefused s x.tile x.addr d.length then (countRefused s x.tile x.addr d.length, .memory)
  else (rawWrite s x.tile x.addr d, .done)

/-- STORE; `fails`, a row write fails (R111). -/
def execStoreReq (st : Nat) (p : Pkt) (fails : Bool) (s : State) : Out :=
  let n := (qData p).length
  let off := gaOffset (qAddr p)
  .next (serve s st p n (rangeAligned off n) (fun s x =>
    match storeData s x p (isBlockReq off n (qTid p) && x.addr % 4096 = 0) fails with
    | (s, .mismatch c) => complete s st p fsStitch 0 c.toNat [] false
    | (s, .memory) => refuseReq s st p fsMemory 0
    | (s, .done) => performed s st p 0 0 [] false))

/-- MSTORE at one destination: no answer, so that a mismatch is sent no second time; a refused copy is
counted and logged (R296). -/
def execMstoreReq (st : Nat) (p : Pkt) (fails : Bool) (s : State) : Out :=
  let n := (qData p).length
  let off := gaOffset (qAddr p)
  let refused := fun (s : State) (status : Nat) =>
    let s := if 2 ≤ status && status ≤ 9 then bump s 0x5200 5 else s
    report s { cls := 0x41, kind := 1, place := st, logical := logicalTile s st, slice := some p.slice, detail := status,
               tag := ownNode s % 4096 * 2 ^ 40 + stationName s st * 2 ^ 35 + gaOffset (qAddr p) }
  if tornDown s p then .next (refused s fsAborted)
  else
    match checkRequest s st p n (rangeAligned off n) with
    | .error x =>
      let s := if x.status = fsAsleep then bump (if x.wake then startWake s 1 st else s) 0x9000 0xA else s
      .next (refused s x.status)
    | .ok x =>
      if isGuest st then .next (emit s (.arrived st p))
      else
        match storeData s x p (isBlockReq off n (qTid p)) fails with
        | (s, .mismatch _) => .next (refused s fsStitch)
        | (s, .memory) => .next (refused s fsMemory)
        | (s, .done) => .next (signalPacket s st p).1

/-! ### ATOMIC (R294) -/

/-- The new value of an atomic on `w`-bit values. -/
def atomicOp (code w old x y : Nat) : Nat :=
  let x := x % 2 ^ w
  match code with
  | 0 => (old + x) % 2 ^ w
  | 1 => x
  | 2 => if old = x then y % 2 ^ w else old
  | 3 => old &&& x
  | 4 => old ||| x
  | 5 => old ^^^ x
  | 6 => if signed w old ≤ signed w x then old else x
  | 7 => if signed w old ≤ signed w x then x else old
  | 8 => min old x
  | _ => max old x

/-- ATOMIC; `fails`, the row write fails. -/
def execAtomicReq (st : Nat) (p : Pkt) (fl : List Flip) (fails : Bool) (s : State) : Out :=
  let n := if bit (qDetail p) 7 then 4 else 8
  let code := qDetail p % 16
  let off := gaOffset (qAddr p)
  .next (serve s st p n (off % n = 0) (fun s x =>
    match rawFetch s x.tile x.addr n fl with
    | (s, .error status) => refuseReq s st p status 0
    | (s, .ok (d, _)) =>
      let old := leNat d
      let new := atomicOp code (8 * n) old (qOperand p) (field (qData p) 0 8)
      let same := code = 2 && old ≠ qOperand p % 2 ^ (8 * n)
      if same then performed s st p 0 old [] false
      else if fails then refuseReq s st p fsMemory 0
      else if writeRefused s x.tile x.addr n then refuseReq (countRefused s x.tile x.addr n) st p fsMemory 0
      else performed (rawWrite s x.tile x.addr (leBytes n new)) st p 0 old [] false))

/-! ### REDUCE (R217, R295) -/

/-- The operand of one element is within the bound of R61. -/
def operandOk (h v : Nat) : Bool := v ≠ narCode && (signed 64 v).natAbs ≤ 2 ^ (63 - h) - 1

/-- The engine of a tile consumes poison (R152): counted, and logged with the consuming job's slice. -/
def engineConsumes (s : State) (t slice a : Nat) : State :=
  report (bump s 0x6500 8) { cls := 0x19, kind := 1, place := t, logical := logicalTile s t, slice := some slice, tag := a }

/-- Write a reduction's result (R152, R217): a block as its producer, or bytes; false where a row write
fails. -/
def writeReduced (s : State) (x : Target) (p : Pkt) (block fails poison : Bool) (out : List Byte) : State × Bool :=
  if fails then (s, false)
  else if block then (writeBlock s x.tile x.addr (qTid p) (qBlk p) out poison, true)
  else if writeRefused s x.tile x.addr out.length then (countRefused s x.tile x.addr out.length, false)
  else (rawWriteMarked s x.tile x.addr (qTid p) (qBlk p) out poison, true)

/-- REDUCE; disturbances of the block's fetch and of its repeat.  Poison, of the elements or of the
operands, is consumed in POISON mode. -/
def execReduceReq (st : Nat) (p : Pkt) (first again : List Flip) (fails : Bool) (s : State) : Out :=
  let n := (qData p).length
  let off := gaOffset (qAddr p)
  let op := qDetail p % 8
  let h := qOperand p % 32
  .next (serve s st p n (rangeAligned off n) (fun s x =>
    let ops := (List.range (n / 8)).map (fun i => field (qData p) (8 * i) 8)
    if op = 0 && (h = 0 || 24 < h || !ops.all (operandOk h)) then refuseReq s st p fsOperand 0
    else
      let block := isBlockReq off n (qTid p)
      let got := if block then routerFetch s x.tile x.addr (qTid p) (qBlk p) first again
        else match rawFetch s x.tile x.addr n first with
          | (s, .error e) => (s, .error (e, 0))
          | (s, .ok v) => (s, .ok v)
      match got with
      | (s, .error (status, detail)) => refuseReq s st p status detail
      | (s, .ok (d, mark)) =>
        let poison := mark || p.poison
        let zs := (List.range (n / 8)).map (fun i => combineElem op (field d (8 * i) 8) (ops.getD i 0))
        let s := if poison && poisonMode s then engineConsumes s x.tile p.slice x.addr else s
        let (s, out) := engineInjected s x.tile op ((zs.map (·.1)).flatMap (leBytes 8))
        match writeReduced s x p block fails poison out with
        | (s, false) => refuseReq s st p fsMemory 0
        | (s, true) => performed s st p (b2n (zs.any (·.2)) + 2 * b2n poison) 0 [] false))

/-! ### Sync objects and leases (R297 to R299) -/

/-- The object that a sync or lease request names, and the checks that apply (steps 1, 5 and
8 of R282). -/
def syncRefusal (s : State) (st : Nat) (p : Pkt) (name : Nat) : Nat :=
  if !syncNameOk name || (st < 24 && !bit name 15 && gaTile (qAddr p) ≠ stationName s st) || (24 ≤ st && !bit name 15) then fsAddress
  else if syncSlice s st name ≠ some p.slice then fsSlice
  else if !bit name 15 && (getTile s st).reset.isSome then fsTileReset
  else if !bit name 15 && s.fc.closed then fsAsleep
  else 0

def syncRequest (s : State) (st : Nat) (p : Pkt) (f : State → Nat → State) : State :=
  let name := qOperand p / 2 ^ 32 % 65536
  if tornDown s p then refuseReq s st p fsAborted 0
  else
    let why := syncRefusal s st p name
    if why ≠ 0 then answerRefused s st p { status := why } else f s name

/-- SYNC_ADD. -/
def execSyncAdd (st : Nat) (p : Pkt) (s : State) : Out :=
  .next (syncRequest s st p (fun s name =>
    let s := syncAdd s st name (BitVec.ofNat 32 (qOperand p))
    performed s st p 0 (syncGet s st name).toNat [] false))

/-- SYNC_READ. -/
def execSyncRead (st : Nat) (p : Pkt) (s : State) : Out :=
  .next (syncRequest s st p (fun s name => performed s st p 0 (syncGet s st name).toNat [] false))

def leaseTime : Nat := 1562500

def getLease (s : State) (i : Nat) : Lease := Tab.get {} s.fab.leases i

def putLease (s : State) (i : Nat) (l : Lease) : State :=
  { s with fab := { s.fab with leases := Tab.put {} s.fab.leases i l } }

/-- Free a lease and advance its generation (R299). -/
def freeLease (s : State) (i : Nat) : State :=
  let l := getLease s i
  bump (putLease s i { l with holder := none, gen := (l.gen + 1) % 65536 }) 0x5600 7

/-- A lease as it stands now: one whose 10 ms have passed has expired (R299). -/
def settleLease (s : State) (i : Nat) : State :=
  let l := getLease s i
  if l.holder.isSome && leaseTime ≤ (epoch s + 2 ^ 64 - l.since) % 2 ^ 64 then freeLease s i else s

/-- The holder that a request comes from: node, station, queue (Operand [63:48] carries the
issuing queue). -/
def holderOf (p : Pkt) : Nat × Nat × Nat := (p.srcNode, p.srcStation, qOperand p / 2 ^ 48 % 65536)

/-- A lease request on a base sync object. -/
def leaseRequest (s : State) (st : Nat) (p : Pkt) (f : State → Nat → State) : State :=
  syncRequest s st p (fun s name =>
    if !bit name 15 then refuseReq s st p fsAddress 0 else f (settleLease s (name % 8192)) (name % 8192))

/-- ACQUIRE. -/
def execAcquire (st : Nat) (p : Pkt) (s : State) : Out :=
  .next (leaseRequest s st p (fun s i =>
    let l := getLease s i
    match l.holder with
    | none =>
      let g := (l.gen + 1) % 65536
      performed (putLease s i { holder := some (holderOf p), gen := g, since := epoch s }) st p 0 g [] false
    | some h =>
      if h = holderOf p then performed (putLease s i { l with since := epoch s }) st p 0 l.gen [] false
      else complete s st p fsLeaseHeld 0 (h.1 + (leaseTime - (epoch s + 2 ^ 64 - l.since) % 2 ^ 64) * 2 ^ 32) [] false))

/-- The requester holds the lease at the generation it names. -/
def holds (s : State) (i : Nat) (p : Pkt) : Bool :=
  let l := getLease s i
  l.holder = some (holderOf p) && l.gen = qOperand p % 65536

/-- RENEW. -/
def execRenew (st : Nat) (p : Pkt) (s : State) : Out :=
  .next (leaseRequest s st p (fun s i =>
    if holds s i p then performed (putLease s i { getLease s i with since := epoch s }) st p 0 (getLease s i).gen [] false
    else refuseReq s st p fsLeaseLost 0))

/-- RELEASE: the lease becomes free; the generation stays (R299 names expiry and revocation
as what advances it). -/
def execRelease (st : Nat) (p : Pkt) (s : State) : Out :=
  .next (leaseRequest s st p (fun s i =>
    if holds s i p then performed (putLease s i { getLease s i with holder := none }) st p 0 (getLease s i).gen [] false
    else refuseReq s st p fsLeaseLost 0))

/-- LEASE_EXPIRY: 10 ms after the last renewal. -/
def execLeaseExpiry (i : Nat) (s : State) : Out :=
  let l := getLease s i
  if l.holder.isNone then .next s
  else
    let left := leaseTime - (epoch s + 2 ^ 64 - l.since) % 2 ^ 64
    .next (settleLease (if left = 0 then s else advanceTo s (s.now + left * countPs)) i)

/-- REVOKE_LEASE (R299): a lease that no one holds is left as it is. -/
def revokeLease (s : State) (_sel : Tab Nat) (v : List Byte) : Effect :=
  { s := if (getLease s (leNat v)).holder.isSome then freeLease s (leNat v) else s }

def execRevokeLease (r : VdpReq) (s : State) : Out :=
  .next (vdpEntry s (atEntry r 0x5600 8) (fun _ _ v => leNat v < 8192) revokeLease)

/-! ### OWN_GIVE and regions (R280, R281, R284, R309) -/

/-- OWN_GIVE: the region's record is this module's, of a guest tile's memory too. -/
def execOwnGive (st : Nat) (p : Pkt) (s : State) : Out :=
  .next (checked s st p 1 true (fun s x =>
    let r := setOwner x.record (qOperand p % 65536)
    performed (putRegion s x.region r) st p 0 (rGen r) [] false))

/-- SET_OWNER: the owner of the region selected (R284). -/
def setOwnerEntry (s : State) (sel : Tab Nat) (v : List Byte) : Effect :=
  let i := selOf sel 0x5200 1
  { s := putRegion s i (setOwner (fit 32 (Tab.get [] s.fab.regions i)) (leNat v)) }

def execSetOwner (r : VdpReq) (s : State) : Out :=
  .next (vdpEntry s (atEntry r 0x5200 3) (fun _ _ v => leNat v < 4096 || leNat v = 0xFFFF) setOwnerEntry)

/-- The range of a record lies in one window and touches no reserved offset (R94, R278, R281): a compute
tile's runs from DRAM on into the pool, and the local SRAMs of its cores follow each other. -/
def regionMapped (v : List Byte) : Bool :=
  let off := rBase v % 2 ^ 35
  let tile := rBase v / 2 ^ 35
  let e := off + rSize v
  (tile < 24 && (e ≤ 0x606000000 || (0x608000000 ≤ off && e ≤ 0x612000000))) || (24 ≤ tile && tile < 28 && e ≤ 2 ^ 35)

/-- The contents of a record, which bind where it is VALID (R280, R341): base, size, ring entry. -/
def regionLayoutOk (v : List Byte) : Bool :=
  let ring := rEntry v
  rBase v % 0x200000 = 0 && 1 ≤ field v 8 4
    && (if rRing v then [64, 128, 256, 512, 1024, 2048, 4096].contains ring else ring = 0)

/-- Its range lies in one window at mapped offsets, and holds whole ring entries (R281). -/
def regionPlaceOk (v : List Byte) : Bool := (!rRing v || rSize v % rEntry v = 0) && regionMapped v

def regionRecordOk (v : List Byte) : Bool := v.length = 32 && (!rValid v || regionLayoutOk v)

/-- It overlaps another VALID region. -/
def regionOverlaps (s : State) (i : Nat) (v : List Byte) : Bool :=
  s.fab.regions.any (fun e => e.1 ≠ i && rValid e.2 && rBase v < rBase e.2 + rSize e.2 && rBase e.2 < rBase v + rSize v)

/-- REGION_RECORD_WRITE (R281): Owner and Generation stay as they are. -/
def writeRegion (s : State) (sel : Tab Nat) (v : List Byte) : Effect :=
  let i := selOf sel 0x5200 1
  let old := fit 32 (Tab.get [] s.fab.regions i)
  let busy := rValid old && (jobs s).any (fun e => e.1 = rSlice old && 2 ≤ e.2.state)
  if busy || (rValid v && (!regionPlaceOk v || regionOverlaps s i v)) then { s := s, status := stRefused }
  else
    let w := patch v 18 (leBytes 2 (rOwner old) ++ leBytes 2 (rGen old))
    { s := putRegion s i (if w.all (fun b => b = 0#8) then [] else w) }

def execRegionRecordWrite (r : VdpReq) (s : State) : Out :=
  .next (vdpEntry s (atEntry r 0x5200 2) (fun _ _ v => regionRecordOk v) writeRegion)

end Sys2Proof.Machine
end

