-- ==== Sys2Proof/Machine/Bridge.lean ====
section
/-!
DEFINITION. The host bridge as a source of requests (13_host_interface.md R422, R425, R430 to
R432, R437 to R439): what an answer does to the entry or the BAR4 access that waits for it; and the
packets of request entries, which tiles share (09_memory_fabric.md R291).
-/
namespace Sys2Proof.Machine

/-! ### Packets of entries (R286, R291, R293) -/

/-- Kinds that carry data or fetch it. -/
def hasData (k : Nat) : Bool := k = 1 || k = 2 || k = 4 || k = 5

/-- The transfer is a whole block (R292, R293). -/
def entryBlock (e : List Byte) : Bool :=
  let k := eKind e
  (k = 1 || k = 2 || k = 5) && isBlockReq (gaOffset (eAddr e)) (eLength e) (eTid e)

/-- The Operand field of an entry's packet (R291). -/
def packetOperand (q : Nat) (e data : List Byte) : Nat :=
  let k := eKind e
  if k = 1 then eLength e
  else if (k = 2 || k = 5) && entryBlock e then (stitchOf data (eTid e) (eBlk e)).toNat
  else if k = 8 then eOperand e % 2 ^ 48 + q * 2 ^ 48
  else eOperand e

/-- The packet of an entry (R247, R291). -/
def entryPkt (q slice tag nonce : Nat) (e data : List Byte) (poison : Bool) : Pkt :=
  let m := eKind e = 5
  let head := leBytes 8 (eAddr e) ++ leBytes 4 (eKey e) ++ leBytes 4 (eTid e) ++ leBytes 4 (eBlk e) ++ leBytes 2 nonce
    ++ leBytes 1 (eDetail e) ++ leBytes 1 (b2n (ePosted e)) ++ leBytes 8 (packetOperand q e data)
  { mcast := m, route := if m then eGroup e + 4 * 4096 else 0, slice := slice, kind := eKind e,
    destNode := if m then 0 else gaNode (eAddr e), destStation := if m then 0 else gaTile (eAddr e), tag := tag,
    stream := field e 52 2, seq := field e 56 4, sigSync := field e 48 2, sigCount := field e 50 2, poison := poison, body := head ++ data }

/-! ### Faults of a block between source and home (R143, R144) -/

/-- A fault of a block on its way between tiles: the fabric path is charged (R144). -/
def pathFault (s : State) (t cls : Nat) (e : List Byte) : State :=
  report s { cls := cls, kind := if t = 28 then 12 else 1, place := t, logical := logicalTile s t, detail := eBlk e, tag := blockTag (eTid e) (eBlk e) }

/-- How a second mismatch ends (R143): detail 1 permanent, 2 transient. -/
def secondMismatch (s : State) (t : Nat) (e : List Byte) (first second : DWord) : State × Nat :=
  if first = second then (pathFault (bump s 0x6500 3) t 0x09 e, 1) else (pathFault (bump s 0x6500 4) t 0x0A e, 2)

/-- A mismatch whose repeat passed. -/
def maskedMismatch (s : State) (t : Nat) (x : Track) : State :=
  if x.twice then pathFault (bump s 0x6500 2) t 0x08 x.entry else s

/-! ### Interrupts of the host's status registers (R413, R417) -/

/-- The function that owns a host queue (R425). -/
def queueOwner (q : Nat) : Nat := if q < 32 then 0 else (q - 32) / 8 + 1

/-- A function's queue `i` by its global number. -/
def globalQueue (fn i : Nat) : Option Nat :=
  if fn = 0 then (if i < 32 then some i else none)
  else if fn < 64 && i < 8 then some (32 + 8 * (fn - 1) + i)
  else none

def getHQ (s : State) (q : Nat) : HQueue := Tab.get {} s.host.queues q

def modHQ (s : State) (q : Nat) (f : HQueue → HQueue) : State :=
  { s with host := { s.host with queues := Tab.mod {} s.host.queues q f } }

def modDomain (s : State) (d : Nat) (f : HDomain → HDomain) : State :=
  { s with host := { s.host with domains := Tab.mod {} s.host.domains d f } }

/-- Vector 0 of a function, where HB_IRQ_MASK enables it. -/
def raiseMasked (s : State) (fn b : Nat) : State := if bit (getFunc s fn).mask b then raiseVector s fn 0 else s

/-- Events of MBOX_STAT, DOMAIN_STAT, BAR4_STAT and QSTAT. -/
def raiseMbox (s : State) (fn b : Nat) : State :=
  raiseMasked (modFunc s fn (fun x => { x with mbox := raiseStat x.mbox b })) fn 16

def raiseDomain (s : State) (d b : Nat) : State :=
  raiseMasked (modDomain s d (fun x => { x with stat := raiseStat x.stat b })) 0 17

def raiseBar (s : State) (b : Nat) : State :=
  raiseMasked { s with host := { s.host with barStat := raiseStat s.host.barStat b } } 0 18

def raiseQueue (s : State) (q b : Nat) : State :=
  raiseMasked (modHQ s q (fun x => { x with stat := raiseStat x.stat b })) (queueOwner q) 19

/-! ### Fields of an SQ entry (R430) -/

def qeKind (e : List Byte) : Nat := field e 0 1
def qeLength (e : List Byte) : Nat := field e 4 4
def qeHost (e : List Byte) : Nat := field e 8 8
def qeDevice (e : List Byte) : Nat := field e 16 8
def qeKey (e : List Byte) : Nat := field e 24 4
def qeTid (e : List Byte) : Nat := field e 28 4
def qeBlk (e : List Byte) : Nat := field e 32 4
def qeSync (e : List Byte) : Nat := field e 36 2
def qeCount (e : List Byte) : Nat := field e 38 2
def qeWait (e : List Byte) : Nat := field e 40 4
def qeTimeout (e : List Byte) : Nat := field e 44 4
def qeUser (e : List Byte) : Nat := field e 48 4
def qeStream (e : List Byte) : Nat := field e 52 2
def qeSeq (e : List Byte) : Nat := field e 56 4

/-! ### Pieces: the parts of `[a, a + n)` between 4 KiB boundaries (R431, R438) -/

def pieceCount (a n : Nat) : Nat := ceilDiv (a % 4096 + n) 4096
def pieceStart (a i : Nat) : Nat := if i = 0 then 0 else 4096 * i - a % 4096
def pieceLen (a n i : Nat) : Nat := min n (pieceStart a (i + 1)) - pieceStart a i

/-- Pieces of an entry; a streamed WRITE is one STORE. -/
def entryPieces (e : List Byte) : Nat :=
  if qeStream e ≠ 0 then 1 else if qeKind e ≤ 2 then pieceCount (qeDevice e) (qeLength e) else 0

/-- The number of the final SYNC_ADD, of a SIGNAL and of a WAIT among an entry's requests. -/
def signalPiece : Nat := 65535

/-- The BAR4 window among the queues of the bridge's tracker. -/
def barQueue : Nat := 536

/-- The entry of request fields that a tracker entry of the bridge holds. -/
def bridgeEntry (kind addr len key tid blk operand stream seq : Nat) : List Byte :=
  leBytes 1 kind ++ leBytes 3 0 ++ leBytes 2 len ++ leBytes 2 0 ++ leBytes 8 addr ++ leBytes 8 0 ++ leBytes 4 key
    ++ leBytes 4 tid ++ leBytes 4 blk ++ leBytes 8 operand ++ leBytes 4 0 ++ leBytes 2 0xFFFF ++ leBytes 2 0
    ++ leBytes 2 stream ++ leBytes 2 0 ++ leBytes 4 seq ++ leBytes 4 0

/-! ### Answers to the pieces of an entry (R431, R432) -/

def getEnt (s : State) (q idx : Nat) : Option HEntry := (getHQ s q).ents.find? (fun e => e.idx = idx)

def modEnt (s : State) (q idx : Nat) (f : HEntry → HEntry) : State :=
  modHQ s q (fun x => { x with ents := updFirst (fun e => e.idx = idx) f x.ents })

/-- Every piece has ended: the status of the lowest that failed; a WRITE with a Signal Sync has
its SYNC_ADD still to come. -/
def settleEnt (e : HEntry) : HEntry :=
  if e.answered < entryPieces e.data || e.ended.isSome then e
  else
    match e.first with
    | some (_, st, d) => { e with ended := some (st, d) }
    | none => if qeKind e.data = 1 && qeSync e.data ≠ 0xFFFF then e else { e with ended := some (0, 0) }

/-- The failure at the lower offset. -/
def lowerFailure (off st d : Nat) : Option (Nat × Nat × Nat) → Option (Nat × Nat × Nat)
  | some f => if f.1 < off then some f else some (off, st, d)
  | none => some (off, st, d)

/-- A piece ends. -/
def pieceEnd (s : State) (q idx i st d : Nat) : State :=
  modEnt s q idx (fun e =>
    let off := pieceStart (qeDevice e.data) i
    settleEnt { e with answered := e.answered + 1, failed := e.failed + b2n (st ≠ 0),
                       first := if st = 0 then e.first else lowerFailure off st d e.first })

/-- Send a request of the bridge: it waits where the tracker is full; `why`, the reason for
which it cannot leave (R253). -/
def sendBridge (s : State) (q index slice : Nat) (e data : List Byte) : Option (State × Nat) :=
  (takeTag s 28 q index e slice).map (fun (s1, tag, nonce) =>
    let node := if q = barQueue then ownNode s else gaNode (eAddr e)
    match sendNewPkt s1 28 { entryPkt q slice tag nonce e data false with destNode := node } with
    | (s2, 0) => (s2, 0)
    | (_, why) => (s, why))

/-- Mark the tracker entry of a request as its second send. -/
def markTwice (s : State) (q index : Nat) (c : DWord) : State :=
  let f := fun (x : Track) => if x.queue = q && x.index = index then { x with twice := true, first := c } else x
  let hit := fun (e : Nat × Option Track) => if e.1 / 16384 = 28 then (e.1, e.2.map f) else e
  { s with fab := { s.fab with tracks := s.fab.tracks.map hit } }

/-- The answer to a LOAD of a READ: a block is checked under its tag before its bytes go to
host memory (R143); a poisoned piece goes there and counts as failed. -/
def landPiece (s : State) (q idx i : Nat) (e : HEntry) (x : BridgeEnd) : State :=
  let t := x.track
  let fn := queueOwner q
  let out := fun (s : State) => emit s (.hostWrite fn (qeHost e.data + pieceStart (qeDevice e.data) i) x.data)
  let good := fun (s : State) => pieceEnd (out s) q idx i (if x.poison then 33 else 0) 0
  if !entryBlock t.entry then good s
  else
    let c := stitchOf x.data (eTid t.entry) (eBlk t.entry)
    if c.toNat = x.value then good (maskedMismatch s 28 t)
    else if t.twice then
      let (s, d) := secondMismatch s 28 t.entry t.first c
      pieceEnd s q idx i fsStitch d
    else
      match sendBridge s q t.index t.slice t.entry [] with
      | some (s, 0) => markTwice s q t.index c
      | some (s, why) => pieceEnd s q idx i fsRoute why
      | none => pieceEnd s q idx i fsStitch 0

/-- The answer to a STORE of a WRITE: after a first mismatch the block is sent again (R293). -/
def storedPiece (s : State) (q idx i : Nat) (x : BridgeEnd) : State :=
  let t := x.track
  if entryBlock t.entry && x.status = fsStitch && x.detail = 0 then
    let c := BitVec.ofNat 64 x.value
    if t.twice then
      let (s, d) := secondMismatch s 28 t.entry t.first c
      pieceEnd s q idx i fsStitch d
    else modEnt s q idx (fun e => { e with again := e.again ++ [(i, c)] })
  else pieceEnd (if x.status = 0 then maskedMismatch s 28 t else s) q idx i x.status x.detail

/-- The answer to a SYNC_ADD or a WATCH. -/
def signalEnd (s : State) (q idx : Nat) (x : BridgeEnd) : State :=
  modEnt s q idx (fun e => { e with signal := 2, ended := some (x.status, x.detail),
                                    value := if qeKind e.data = 1 || x.status ≠ 0 then e.value else x.value })

/-! ### Answers to BAR4 accesses (R438, R439) -/

/-- Fence reads whose earlier writes have all ended return the failed count, and clear it. -/
def settleFences (s : State) : State :=
  let h := s.host
  let done := fun (n : Nat) => h.barOps.all (fun o => !o.write || n ≤ o.id)
  (h.fences.filter done).foldl (fun s n =>
    let v := s.host.barFailed
    emit { s with host := { s.host with fences := dropFirst (· = n) s.host.fences, barFailed := 0, barFirst := none } }
      (.readDone 0 0x44 v)) s

/-- An access whose pieces have all been answered. -/
def endBar (s : State) (o : BarOp) : State :=
  let s := { s with host := { s.host with barOps := s.host.barOps.filter (fun x => x.id ≠ o.id) } }
  if o.write then
    let s := if o.failed then raiseBar { s with host := { s.host with barFailed := min 0xFFFF (s.host.barFailed + 1) } } 1 else s
    settleFences s
  else if o.failed then emit (raiseBar s 0) (.barRead o.off (List.replicate o.len 0xFF#8))
  else emit s (.barRead o.off ((List.range o.pieces).flatMap (fun i => Tab.get [] o.data i)))

/-- A piece of an access ends; the first failed write since the last fence read is kept. -/
def barPiece (s : State) (id i : Nat) (x : BridgeEnd) : State :=
  match s.host.barOps.find? (fun o => o.id = id) with
  | none => s
  | some o =>
    let bad := x.status ≠ 0 || (!o.write && x.poison)
    let o := { o with answered := o.answered + 1, failed := o.failed || bad, data := Tab.put [] o.data i x.data }
    let s := if bad && o.write && s.host.barFirst.isNone then
        { s with host := { s.host with barFirst := some (x.status, o.off + pieceStart o.off i) } }
      else s
    if o.pieces ≤ o.answered then endBar s o
    else { s with host := { s.host with barOps := updFirst (fun x => x.id = id) (fun _ => o) s.host.barOps } }

/-! ### Taking answers -/

/-- An ended request reaches the entry or access that waits for it; where none does, its answer
is absorbed (R308, R434). -/
def takeEnd (s : State) (x : BridgeEnd) : State :=
  let q := x.track.queue
  let id := x.track.index / 65536
  let i := x.track.index % 65536
  if q = barQueue then barPiece s id i x
  else
    match getEnt s q id with
    | none => s
    | some e =>
      if e.ended.isSome then s
      else if i = signalPiece then signalEnd s q id x
      else if qeKind e.data = 2 && x.status = 0 then landPiece s q id i e x
      else storedPiece s q id i x

/-- Every ended request of the bridge is taken. -/
def drainEnded (s : State) : State :=
  let l := s.fab.ended
  l.foldl takeEnd { s with fab := { s.fab with ended := [] } }

end Sys2Proof.Machine
end

