-- ==== Sys2Proof/Machine/MemIssue.lean ====
section
/-!
DEFINITION. Fabric queues at their source (09_memory_fabric.md R285 to R288, R300 to R303):
enabling, issuing, answers, timeouts, fences, and the teardown of a slice (R307).
-/
namespace Sys2Proof.Machine

/-! ### Control blocks (R285) -/

/-- Pool offset of the control block of queue `q`. -/
def ctlOffset (q : Nat) : Nat := 0x5FFFF00 + 32 * q

def ctlBlock (s : State) (t q : Nat) : List Byte := bytesAt s t (onDieBase + ctlOffset q) 32

/-- The Control byte of a queue's block. -/
def putCtl (s : State) (t q : Nat) (b : Byte) : State := rawWrite s t (onDieBase + ctlOffset q + 13) [b]

def powerOfTwoIn (n lo hi : Nat) : Bool := lo ≤ n && n ≤ hi && 2 ^ Nat.log2 n = n

/-- `[a, a + n)` and `[b, b + m)` share a byte. -/
def overlap (a n b m : Nat) : Bool := a < b + m && b < a + n

/-- The pool ranges that an enabled queue uses. -/
def queueRings (x : FQueue) : List (Nat × Nat) := [(x.reqRing, 64 * x.reqEntries), (x.compRing, 32 * x.compEntries)]

/-- A control block that the router accepts. -/
def ctlOk (s : State) (t q : Nat) (b : List Byte) : Bool :=
  let req := (field b 0 4, 64 * field b 8 2)
  let comp := (field b 4 4, 32 * field b 10 2)
  let taken := ((List.range 8).filter (fun i => i ≠ q && (getQueue s t i).enabled)).flatMap (fun i => queueRings (getQueue s t i))
  let free := fun (r : Nat × Nat) => r.1 % 4096 = 0 && r.1 + r.2 ≤ poolBytes && !overlap r.1 r.2 0x5FFFF00 0x100
    && taken.all (fun x => !overlap r.1 r.2 x.1 x.2)
  field b 13 1 < 4 && (b.drop 14).all (fun x => x = 0#8) && powerOfTwoIn (field b 8 2) 16 4096 && powerOfTwoIn (field b 10 2) 16 4096
    && free req && free comp && !overlap req.1 req.2 comp.1 comp.2

/-- FABRIC_QUEUE_ENABLE. -/
def execFabricQueueEnable (t q : Nat) (s : State) : Out :=
  if !tileOpen s t || 8 ≤ q || (getQueue s t q).enabled then .next s
  else
    let b := ctlBlock s t q
    if ctlOk s t q b then
      let x : FQueue := { enabled := true, reqRing := field b 0 4, compRing := field b 4 4, reqEntries := field b 8 2,
                          compEntries := field b 10 2, slice := field b 12 1 }
      let s := modQueue (putCtl s t q 1#8) t q (fun _ => x)
      .next (syncPut (syncPut (syncPut s t (1000 + q) 0#32) t (1008 + q) 0#32) t (1016 + q) 0#32)
    else .next (tileReport (putCtl s t q 2#8) 0x02 t 0 0)

/-- FABRIC_QUEUE_DISABLED: enable has been cleared in the block; the queue is disabled once
no entry is outstanding. -/
def execFabricQueueDisabled (t q : Nat) (s : State) : Out :=
  let x := getQueue s t q
  if !x.enabled || bit (field (ctlBlock s t q) 13 1) 0 then .next s
  else if x.out.isEmpty && x.fences.isEmpty then .next (modQueue s t q (fun _ => {}))
  else .next (modQueue s t q (fun x => { x with closing := true }))

/-! ### Entries -/

/-- Entries posted and not yet read (R285). -/
def postedLeft (s : State) (t q : Nat) : Nat :=
  (syncGet s t (1008 + q) - BitVec.ofNat 32 (getQueue s t q).read).toNat

/-- The next entry of the request ring. -/
def nextEntry (s : State) (t q : Nat) : List Byte :=
  let x := getQueue s t q
  bytesAt s t (onDieBase + x.reqRing + 64 * (x.read % x.reqEntries)) 64

/-- The router has read the next entry; its position. -/
def takeEntry (s : State) (t q : Nat) : State × Nat :=
  let i := (getQueue s t q).read
  (syncAdd (modQueue s t q (fun x => { x with read := x.read + 1 })) t (1000 + q) 1#32, i % 2 ^ 32)

/-- Kinds that may be POSTED (R286). -/
def mayPost (k : Nat) : Bool := k = 2 || k = 4 || k = 5 || k = 6

/-- Detail suits the kind (R294, R295, R298). -/
def detailOk (k d : Nat) : Bool :=
  if k = 3 then d % 16 ≤ 9 && d / 16 % 8 = 0 else if k = 4 then d ≤ 5 else if k = 8 then d ≤ 2 else d = 0

/-- Alignment at the issue. -/
def entryAligned (e : List Byte) : Bool :=
  let k := eKind e
  let off := gaOffset (eAddr e)
  let n := eLength e
  if k = 3 then off % (if bit (eDetail e) 7 then 4 else 8) = 0
  else if hasData k then
    (if k = 2 && field e 52 2 ≠ 0 then 8 ≤ n && n ≤ 4096 && n % 8 = 0 else rangeAligned off n)
      && (!entryBlock e || eLocal e % 4096 = 0)
  else true

/-- A refusal at the issue (R287): its status, or 0. -/
def issueRefusal (s : State) (t : Nat) (e : List Byte) : Nat :=
  let k := eKind e
  if !((1 ≤ k && k ≤ 9) || k = 0x0F) || 2 ≤ field e 1 1 || field e 3 1 ≠ 0 || (ePosted e && !mayPost k) || !detailOk k (eDetail e)
      || (k = 5 && 4096 ≤ eGroup e) then fsBadEntry
  else if k = 0x0F then fsOk
  else if (if k = 5 then 2 ^ 35 ≤ eAddr e else 2 ^ 52 ≤ eAddr e || 28 ≤ gaTile (eAddr e))
      || (hasData k && !rangeExists (getTile s t) (eLocal e) (eLength e)) then fsAddress
  else if !entryAligned e then fsAlign
  else fsOk

/-- Data of an entry that carries some, with its poison mark; or a status and detail. -/
def sourceData (s : State) (t : Nat) (e : List Byte) (first again : List Flip) : State × Except (Nat × Nat) (List Byte × Bool) :=
  let k := eKind e
  if k = 2 || k = 4 || k = 5 then
    if entryBlock e then routerFetch s t (eLocal e) (eTid e) (eBlk e) first again
    else
      match rawFetch s t (eLocal e) (eLength e) first with
      | (s, .error st) => (s, .error (st, 0))
      | (s, .ok d) => (s, .ok d)
  else if k = 3 && eDetail e % 16 = 2 then (s, .ok (leBytes 8 (eOperand2 e), false))
  else (s, .ok ([], false))

/-- An issued entry is outstanding until it ends. -/
def addOut (s : State) (t q i : Nat) : State := modQueue s t q (fun x => { x with out := x.out ++ [i] })

/-- Issue an entry that is not a FENCE: it takes a tracker entry, and its packet leaves. -/
def sendEntry (s : State) (t q i : Nat) (e : List Byte) (first again : List Flip) : State :=
  let slice := (getQueue s t q).slice
  match sourceData s t e first again with
  | (s, .error (status, detail)) => endEntry s t q i e status detail 0 0
  | (s, .ok (data, poison)) =>
    match takeTag s t q i e slice with
    | none => s
    | some (s1, tag, nonce) =>
      match sendNewPkt s1 t (entryPkt q slice tag nonce e data poison) with
      | (s2, 0) => addOut s2 t q i
      | (_, why) => endEntry s t q i e fsRoute why 0 0

/-- A FENCE waits for the entries before it (R302). -/
def takeFence (s : State) (t q : Nat) : State :=
  let e := nextEntry s t q
  let (s, i) := takeEntry s t q
  modQueue s t q (fun x => { x with fences := x.fences ++ [{ index := i, user := eUser e }] })

/-- Take the next entry of a queue. -/
def issueEntry (s : State) (t q : Nat) (first again : List Flip) : State :=
  let e := nextEntry s t q
  let torn := s.fab.torn.contains (getQueue s t q).slice
  let why := if torn then fsAborted else issueRefusal s t e
  if why = 0 && eKind e = 0x0F then takeFence s t q
  else
    let (s, i) := takeEntry s t q
    if why ≠ 0 then endEntry s t q i e why 0 0 0 else sendEntry s t q i e first again

/-- The queue may take an entry (R287): it is enabled, an entry is posted, fewer than 4,096
are outstanding, and the tracker has a free entry. -/
def canIssue (s : State) (t q : Nat) : Bool :=
  let x := getQueue s t q
  tileOpen s t && q < 8 && x.enabled && !x.closing && postedLeft s t q ≠ 0 && x.out.length < 4096
    && (nextTag s t).isSome

/-- FABRIC_ENTRY_ISSUE. -/
def execFabricEntryIssue (t q : Nat) (first again : List Flip) (s : State) : Out :=
  .next (if canIssue s t q then issueEntry s t q first again else s)

/-- FENCE: the next entry of the queue, if it is one. -/
def execFence (t q : Nat) (s : State) : Out :=
  .next (if canIssue s t q && eKind (nextEntry s t q) = 0x0F then issueEntry s t q [] [] else s)

/-- FENCE_COMPLETE. -/
def execFenceComplete (t q : Nat) (s : State) : Out :=
  .next (completeFence s t q)

/-! ### Answers (R290, R300, R301) -/

def aStatus (p : Pkt) : Nat := field p.body 0 1
def aDetail (p : Pkt) : Nat := field p.body 1 1
def aNonce (p : Pkt) : Nat := field p.body 2 2
def aValue (p : Pkt) : Nat := field p.body 8 8
def aData (p : Pkt) : List Byte := p.body.drop 16

/-- An answer that no entry takes (R301); it frees a quarantined tag. -/
def absorbAnswer (s : State) (st tag : Nat) : State := releaseTag (bump s 0x5600 4) st tag

/-- Send an entry's packet again under its tag (R143, R293). -/
def resendEntry (s : State) (t tag : Nat) (x : Track) (c : DWord) (first again : List Flip) : State :=
  match sourceData s t x.entry first again with
  | (s, .error (status, detail)) => endTrack s t tag x status detail 0 0 true
  | (s, .ok (data, poison)) =>
    let s := putTrack s t tag (some { x with twice := true, first := c })
    match sendNewPkt s t (entryPkt x.queue x.slice tag x.nonce x.entry data poison) with
    | (s, 0) => s
    | (s, why) => endTrack s t tag x fsRoute why 0 0 true

/-- LOAD data arrives: a block is checked before it is written into Local's cell (R292); other data is
written raw, and Local takes its poison mark (R151). -/
def landLoad (s : State) (t tag : Nat) (x : Track) (p : Pkt) : State :=
  let e := x.entry
  let d := aData p
  if entryBlock e then
    let c := stitchOf d (eTid e) (eBlk e)
    if c.toNat = aValue p then
      endTrack (writeBlock (maskedMismatch s t x) t (eLocal e) (eTid e) (eBlk e) d p.poison) t tag x fsOk 0 0 0 true
    else if x.twice then
      let (s, detail) := secondMismatch s t e x.first c
      endTrack s t tag x fsStitch detail 0 0 true
    else resendEntry s t tag x c [] []
  else if writeRefused s t (eLocal e) d.length then endTrack (countRefused s t (eLocal e) d.length) t tag x fsMemory 0 0 0 true
  else endTrack (rawWriteMarked s t (eLocal e) (eTid e) (eBlk e) d p.poison) t tag x fsOk 0 0 0 true

/-- An answer ends its entry. -/
def takeAnswer (s : State) (t tag : Nat) (x : Track) (p : Pkt) (first again : List Flip) : State :=
  let e := x.entry
  let k := eKind e
  if t = 28 then
    let s := putTrack s t tag none
    let r : BridgeEnd := { track := x, status := aStatus p, detail := aDetail p, value := aValue p, data := aData p, poison := p.poison }
    drainEnded { s with fab := { s.fab with ended := s.fab.ended ++ [r] } }
  else if k = 1 && aStatus p = fsOk then landLoad s t tag x p
  else if k = 2 && entryBlock e && aStatus p = fsStitch && aDetail p = 0 then
    let c := BitVec.ofNat 64 (aValue p)
    if x.twice then
      let (s, detail) := secondMismatch s t e x.first c
      endTrack s t tag x fsStitch detail 0 0 true
    else resendEntry s t tag x c first again
  else if aStatus p = fsOk then
    let s := if k = 2 then maskedMismatch s t x else s
    if k = 4 then endTrack s t tag x fsOk 0 0 (aDetail p) true else endTrack s t tag x fsOk 0 (if k = 2 then 0 else aValue p) 0 true
  else endTrack s t tag x (aStatus p) (aDetail p) (if aStatus p = fsLeaseHeld then aValue p else 0) 0 true

/-- The negative answer to a packet of a collective run (R212). -/
def collectiveAnswer (s : State) (p : Pkt) : State :=
  match runOf s (field p.body 12 4) (field p.body 8 4) with
  | some (slot, _) => failRun s slot (if aStatus p = fsTileReset then 8 else 9)
  | none => absorb s

/-- COMPLETION. -/
def execCompletion (st : Nat) (p : Pkt) (first again : List Flip) (s : State) : Out :=
  if p.fabric then .next (collectiveAnswer s p)
  else
    match getTrack s st p.tag with
    | some x =>
      if x.nonce ≠ aNonce p || s.fab.torn.contains p.slice then .next (bump s 0x5600 4)
      else .next (takeAnswer s st p.tag x p first again)
    | none => .next (absorbAnswer s st p.tag)

/-- REQUEST_TIMEOUT. -/
def execRequestTimeout (st tag : Nat) (s : State) : Out :=
  match getTrack s st tag with
  | none => .next s
  | some x =>
    if eKind x.entry = 0x60 then .next s
    else
      let s := bump (advanceTo s x.deadline) 0x5600 3
      let s := report s { cls := 0x40, kind := if st = 28 then 12 else 1, place := st, logical := logicalTile s st, slice := some x.slice,
                          detail := fsTimeout, tag := eAddr x.entry }
      .next (drainEnded (endTrack s st tag x fsTimeout 0 0 0 false))

/-- TAG_QUARANTINE_EXPIRY. -/
def execTagQuarantineExpiry (st tag : Nat) (s : State) : Out :=
  let due := Tab.get 0 s.fab.quar (trackKey st tag)
  .next (if due = 0 then s else releaseTag (advanceTo s due) st tag)

/-! ### Teardown (R307) -/

/-- Entries of a torn queue that are not yet issued end ABORTED. -/
def abortPosted (t q : Nat) : Nat → State → State
  | 0, s => s
  | n + 1, s => abortPosted t q n (if postedLeft s t q = 0 then s else issueEntry s t q [] [])

/-- Physical tiles with work of a slice. -/
def sliceTiles (s : State) (sl : Nat) : List Nat :=
  (List.range 24).filter (fun t =>
    (match Tab.get none s.adm.jobs sl with
      | some j => bit (physMask s j.tiles) t
      | none => false) || (List.range 8).any (fun q => (getQueue s t q).enabled && (getQueue s t q).slice = sl))

/-- HB_STAT.TEARDOWN of every function with a queue of the slice (R417), whose watches are
discarded (R436). -/
def tellHosts (s : State) (sl : Nat) : State :=
  let fs := (s.host.queues.filter (fun e => bit e.2.qslice 8 && e.2.qslice % 256 = sl)).map (fun e => queueOwner e.1)
  let s := ((List.range 64).filter (fun f => fs.contains f)).foldl (fun s f => raiseHb s f 3) s
  let ws := (s.fab.watches.map (fun e => (e.1, e.2.filter (fun w => w.slice ≠ sl)))).filter (fun e => e.2 ≠ [])
  { s with fab := { s.fab with watches := ws } }

/-- The first effects of a teardown: the slice's queues close, and its tiles are told. -/
def startTeardown (s : State) (sl : Nat) : State :=
  let s := wrE s 0x5600 0xA (sl * 256 + 1)
  let s := { s with fab := { s.fab with torn := sl :: s.fab.torn.filter (· ≠ sl), tearAt := s.now } }
  let qs := s.fab.queues.filter (fun e => e.2.enabled && e.2.slice = sl)
  let s := qs.foldl (fun s e => abortPosted (e.1 / 8) (e.1 % 8) (min (postedLeft s (e.1 / 8) (e.1 % 8)) e.2.reqEntries) s) s
  let s := (sliceTiles s sl).foldl (fun s t => modTile s t (fun tl => { tl with mip17 := true })) s
  tellHosts s sl

/-- 0x5600:09. -/
def tearDown (s : State) (_sel : Tab Nat) (v : List Byte) : Effect :=
  if rdE s 0x5600 0xA % 4 = 1 then { s := s, status := stBusy } else { s := startTeardown s (leNat v) }

/-- TEAR_DOWN_SLICE. -/
def execTearDownSlice (r : VdpReq) (s : State) : Out :=
  .next (vdpEntry s (atEntry r 0x5600 9) anyValue tearDown)

/-- A job's withdrawal is posted for the first front at least 313 counts later (R329). -/
def postWithdrawal (s : State) (sl : Nat) : State :=
  match Tab.get none s.adm.jobs sl with
  | none => s
  | some j =>
    let j := if j.state = 1 then none else some { j with state := 3, front := frontAt (epoch s + 313) }
    { s with adm := { s.adm with jobs := Tab.put none s.adm.jobs sl j } }

/-- The remaining effects of a teardown. -/
def finishTeardown (s : State) (sl : Nat) : State :=
  let s := (s.fab.tracks.filter (fun e => (match e.2 with | some x => x.slice = sl | none => false))).foldl (fun s e =>
    match e.2 with
    | some x => endTrack s (e.1 / 16384) (e.1 % 16384) x fsAborted 0 0 0 false
    | none => s) s
  let s := ((List.range 64).filter (fun slot => (getRun s slot).isSome && scheduleSlice s slot = sl)).foldl (fun s slot => failRun s slot 6) s
  let s := (s.fab.leases.filter (fun e => e.2.holder.isSome && syncSlice s 0 (32768 + e.1) = some sl)).foldl (fun s e => freeLease s e.1) s
  let s := report s { cls := 0x42, slice := some sl, detail := fsAborted }
  postWithdrawal (wrE (drainEnded s) 0x5600 0xA (sl * 256 + 2)) sl

/-- TEARDOWN_DONE. -/
def execTeardownDone (s : State) : Out :=
  let v := rdE s 0x5600 0xA
  .next (if v % 4 = 1 then finishTeardown s (v / 256) else s)

end Sys2Proof.Machine
end

