-- ==== Sys2Proof/Machine/Admission.lean ====
section
/-!
DEFINITION. Flow admission (10_admission.md): flow and job checks, charges and capacities,
the worst-case bounds, the calendar, the result of an admission, withdrawal, recomputation.
-/
namespace Sys2Proof.Machine

/-! ### Flow records (R314) -/

def fOptions (f : List Byte) : Nat := field f 2 1 % 64
def fMaxPkt (f : List Byte) : Nat := field f 10 2
def fSlot (f : List Byte) : Nat := field f 24 1
def fPeriod (f : List Byte) : Nat := field f 28 4
def fDeadline (f : List Byte) : Nat := field f 32 4
def fAllowance (f : List Byte) : Nat := field f 36 4
def fRetry (f : List Byte) : Nat := fOptions f / 16 % 4

def formStation (e : Nat) : Bool := e < 32 && e < 29
def formHem (e : Nat) : Bool := e / 16384 = 1 && e % 16384 < 1024
def formCast (e : Nat) : Bool := e / 16384 = 2 && e % 16384 < 4096

/-- The fields of a record are within their ranges (R314, step 1 of R323). -/
def recordOk (f : List Byte) : Bool :=
  f.length = 48 && field f 0 1 = 1 && fKind f ≤ 1 &&
  (if fKind f = 0 then
    (formStation (fEntry f) || formHem (fEntry f)) && (formStation (fExit f) || formHem (fExit f) || formCast (fExit f))
      && (fLeg f = 0xFFFF || fLeg f = 0x8000 || fLeg f < 16) && 64 ≤ fMaxPkt f && fMaxPkt f ≤ 4384 && 1 ≤ fRate f
      && fMaxPkt f ≤ fBurst f && 1 ≤ fBudget f && fSlot f = 0xFF && fPeriod f = 0 && fDeadline f = 0 && fAllowance f = 0
   else
    fOptions f = 3 && fEntry f = 0 && fExit f = 0 && fLeg f = 0 && fRate f = 0 && fMaxPkt f = 0 && fBurst f = 0 && fBudget f = 0
      && fSlot f < 64 && 1 ≤ fPeriod f && 1 ≤ fDeadline f)

def flowRec (s : State) (i : Nat) : List Byte := Tab.get [] s.adm.flows i
def flowState (s : State) (i : Nat) : Nat := Tab.get 0 s.adm.fstate i

/-- FLOW_RECORD_WRITE (R327): a slot that is EMPTY or STAGED. -/
def writeFlow (s : State) (sel : Tab Nat) (v : List Byte) : Effect :=
  let i := selOf sel 0x7200 1
  if 2 ≤ flowState s i then { s := s, status := stRefused }
  else
    let zero := v.all (fun b => b = 0#8)
    let a := s.adm
    { s := { s with adm := { a with
        flows := Tab.put [] a.flows i (if zero then [] else v), fstate := Tab.put 0 a.fstate i (if zero then 0 else 1),
        bounds := Tab.erase a.bounds i, overruns := Tab.erase a.overruns i, offsets := Tab.erase a.offsets i } } }

def execFlowRecordWrite (r : VdpReq) (s : State) : Out :=
  .next (vdpEntry s (atEntry r 0x7200 2) (fun _ _ v => v.length = 48) writeFlow)

/-- The flows of a slice in one of some states, by ascending slot. -/
def flowsOf (s : State) (sl : Nat) (states : List Nat) : List (Nat × List Byte) :=
  s.adm.flows.filter (fun e => fSlice e.2 = sl && states.contains (flowState s e.1))

/-- Every flow of the jobs that count as admitted. -/
def heldFlows (s : State) : List (Nat × List Byte) := (jobs s).flatMap (fun j => flowsOf s j.1 [1, 2, 3])

/-! ### Segments (R314, R315, R319) -/

/-- How a segment leaves its entry router. -/
inductive Leg where
  | none
  | port (k : Nat)
  | mesh
  deriving DecidableEq, Repr

/-- The segment of a flow, or of one copy that its replicator makes: class, rate, burst β,
retry allowance, entry router, leg, exit router, the hop entry and level of a Hem exit, the
logical tile of a station exit. -/
structure Seg where
  cls : Nat
  rate : Nat
  burst : Nat
  retry : Nat
  entry : Nat
  leg : Leg
  exit : Nat
  hem : Option (Nat × Nat) := none
  tile : Option Nat := none
  deriving DecidableEq, Repr

/-- β of a POINT flow (R320). -/
def flowBurst (f : List Byte) : Nat := 8 * fBurst f + ceilDiv (fRate f * fBudget f) 1000

/-- Router of a link: the station whose Hem-through port holds it. -/
def linkRouter (s : State) (link : Nat) : Option Nat := (attachedPort s link).map (· / 16)

/-- The router at which a flow enters. -/
def entryRouter (s : State) (e : Nat) : Option Nat := if e / 16384 = 0 then stationOf s e else linkRouter s (e % 1024 / 16)

/-- A circuit of an admitted copy from one router to another. -/
def copyLeg (s : State) (cls src dst : Nat) : Leg :=
  if src = dst then .none
  else if cls ≠ 3 then .mesh
  else match (portsTo s src dst [0, 1]).head? with
    | some k => .port k
    | none => .mesh

/-- Segments of a POINT flow; none where its path does not exist (step 5 of R323). -/
def segsOf (s : State) (f : List Byte) : Option (List Seg) :=
  let cls := fOptions f % 4
  let e := fEntry f
  let x := fExit f
  match entryRouter s e with
  | none => none
  | some src =>
    let level := if e / 16384 = 0 then 1 else 2
    let base : Seg := { cls := cls, rate := fRate f, burst := flowBurst f, retry := fRetry f, entry := src, leg := .none, exit := src }
    if x / 16384 = 2 then
      let g := groupRecord s (x % 4096)
      let stations := (groupStations s g).map (fun d =>
        { base with leg := copyLeg s cls src d, exit := d, tile := if d < 24 then logicalTile s d else none })
      let links := ((List.range 64).filter (fun n => bit (field g 4 8) n)).filterMap (fun n =>
        (linkRouter s n).map (fun d => { base with exit := d, hem := some (16 * n, level) }))
      some (stations ++ links)
    else
      let dst := if x / 16384 = 0 then stationOf s x else linkRouter s (x % 1024 / 16)
      match dst with
      | none => none
      | some d =>
        let leg : Leg := if fLeg f = 0xFFFF then .none else if fLeg f = 0x8000 then .mesh else .port (fLeg f)
        let hem := if x / 16384 = 1 then some (x % 1024, level) else none
        let tile := if x / 16384 = 0 && d < 24 then some x else none
        some [{ base with leg := leg, exit := d, hem := hem, tile := tile }]

/-- The path of a segment is one that R323 step 5 admits. -/
def segPathOk (s : State) (cast : Bool) (g : Seg) : Bool :=
  (match g.leg with
   | .none => g.entry = g.exit || cast
   | .mesh => g.cls ≠ 3 && g.entry ≠ g.exit
   | .port k =>
     let p := getPort s (portKey g.entry k)
     (p.role = 1 || p.role = 2 || cast) && (match p.far with | some f => decide (f < 512) && decide (f / 16 = g.exit) | none => g.exit = 28 && p.role = 2))
  && (match g.hem with
   | some (e, _) => (attachedPort s (e / 16)).isSome && (getGroup s (e / 16) (e % 16)).state = 2
   | none => true)

/-! ### Resources (R318, R319) -/

/-- A resource: kind, index, and which of an engine's rates (0 combine, 1 read, 2 write). -/
structure Res where
  kind : Nat
  index : Nat
  sub : Nat := 0
  deriving DecidableEq, Repr

def Res.rank (r : Res) : Nat := r.kind * 2 ^ 20 + r.index * 4 + r.sub

/-- Data lanes that a lane group carries (R230): none unless it is UP. -/
def hemLanes (s : State) (e : Nat) : Nat :=
  if (getGroup s (e / 16) (e % 16)).state = 2 then (groupDataLines s (e / 16) (e % 16)).length else 0

/-- Capacity in Mb/s. -/
def resCap (s : State) (r : Res) : Nat :=
  match r.kind with
  | 2 => (match stationOf s (r.index / 16) with
      | some t => dataLanes (getPort s (portKey t (r.index % 16))).inUse * 100000
      | none => 0)
  | 5 => hemLanes s r.index * 100000
  | 6 =>
    let e := r.index / 16
    let share := linkDepth (r.index / 4 % 4) (r.index % 4 + 1) * groupWidth s (e / 16) / 16 * 64
    ceilDiv (share * 8 * 1000000) (2 * (getGroup s (e / 16) (e % 16)).latency * 1000 + 200000)
  | 7 => 73728000
  | 8 => 32768000
  | 9 => if r.sub = 0 then 40960000 else 32768000
  | _ => 0

/-- One charge: its resource, rate in Mb/s, bits of burst, class. -/
structure Charge where
  res : Res
  rate : Nat
  burst : Nat
  cls : Nat
  deriving DecidableEq, Repr

/-- Index of a circuit port of a physical station. -/
def portRes (s : State) (st k : Nat) : Res := { kind := 2, index := stationName s st * 16 + k }

/-- Charges of a segment without its tile reads and writes. -/
def segCharges (s : State) (g : Seg) : List Charge :=
  let c := fun (r : Res) => { res := r, rate := g.rate, burst := g.burst, cls := g.cls : Charge }
  (match g.leg with | .port k => [c (portRes s g.entry k)] | _ => [])
    ++ (match g.hem with
        | some (e, level) => [c { kind := 5, index := e }, c { kind := 6, index := e * 16 + g.cls * 4 + (level - 1) }]
        | none => [])
    ++ (match g.tile with | some t => [c { kind := 8, index := t }] | none => [])

/-- Charges of a POINT flow. -/
def pointCharges (s : State) (f : List Byte) : List Charge :=
  let gs := (segsOf s f).getD []
  let row := fun (t : Nat) => { res := { kind := 7, index := t }, rate := fRate f, burst := flowBurst f, cls := fOptions f % 4 : Charge }
  gs.flatMap (segCharges s)
    ++ (if bit (fOptions f) 2 && fEntry f < 24 then [row (fEntry f)] else [])
    ++ (if bit (fOptions f) 3 then (gs.filterMap (fun (g : Seg) => g.tile)).map row else [])

/-! ### Schedules (R322) -/

/-- The bits of `n` packets of a wire block. -/
def wireBits (n : Nat) : Nat := n * 4176 * 8

/-- Bytes of an element by format code, for reads and writes of memory. -/
def elemBytes (code : Nat) : Nat := ceilDiv 4096 (max 1 (perBlock code))

/-- A tile address in a DRAM view. -/
def inDram (a : Nat) : Bool := a < onDieBase

/-- What one phase sends or combines on a resource. -/
abbrev Load := Nat × Res × Nat

/-- The last phase up to `j` that names a plan or DARK. -/
def namingPhase (b : List Byte) (j : Nat) : Option Phase :=
  (((List.range (j + 1)).reverse).map (phaseAt b)).find? (fun p => !p.keep)

/-- A phase needs a switch in the computation: it names a plan that no earlier phase leaves in force; what
is in force when a run starts is not known (log 107). -/
def switchNeeded (b : List Byte) (j : Nat) : Bool :=
  let p := phaseAt b j
  !p.keep && (j = 0 || (match namingPhase b (j - 1) with
    | some q => q.dark ≠ p.dark || (!p.dark && q.plan ≠ p.plan)
    | none => true))

/-- The circuits from one router to another under the plan that a phase runs in. -/
def phasePorts (s : State) (b : List Byte) (j src dst : Nat) : List Nat :=
  let byPlan := match namingPhase b j with
    | none => portsTo s src dst [0]
    | some p =>
      let fars := planFars s p.dark p.plan
      (List.range (portCount src)).filter (fun k => fars.any (fun e => e.1 = portKey src k && e.2 / 16 = dst))
  if byPlan.isEmpty then portsTo s src dst [1] else byPlan

/-- Bits on the way from a router to another; none where they would take the mesh. -/
def legLoads (s : State) (b : List Byte) (j src dst n : Nat) : Option (List Load) :=
  if src = dst then some []
  else
    let ks := phasePorts s b j src dst
    if ks.isEmpty then none else some (ks.map (fun k => (j, portRes s src k, ceilDiv (wireBits n) ks.length)))

/-- Bits on one lane group, and on the way to it. -/
def hemLoads (s : State) (b : List Byte) (j src e n : Nat) : Option (List Load) :=
  match linkRouter s (e / 16) with
  | none => none
  | some r => (legLoads s b j src r n).map (fun l =>
      l ++ [(j, { kind := 5, index := e }, wireBits n), (j, { kind := 6, index := e * 16 + 12 }, wireBits n)])

/-- Join loads of which each may have no path. -/
def joinLoads (l : List (Option (List Load))) : Option (List Load) :=
  l.foldl (fun a x => match a, x with | some a, some x => some (a ++ x) | _, _ => none) (some [])

/-- What a sending step sends in its phase. -/
def sendLoads (s : State) (b : List Byte) (x : Step) : Option (List Load) :=
  let j := x.phase
  let n := x.count
  match physTile s x.tile with
  | none => none
  | some src =>
    let toTile := fun (d : Nat) => (legLoads s b j src d n).map (fun l =>
      l ++ (match logicalTile s d with | some t => [(j, ({ kind := 8, index := t } : Res), wireBits n)] | none => []))
    if x.group ≠ 0xFFFF then
      let g := groupRecord s x.group
      joinLoads ((groupStations s g).map toTile
        ++ ((List.range 64).filter (fun i => bit (field g 4 8) i)).map (fun i => hemLoads s b j src (16 * i) n))
    else if x.destMod = 0xFFFF || isOwn s x.destMod then
      (match reduceStep b (targetOf s b x) with
       | some (_, y) => (physTile s y.tile).elim none toTile
       | none => none)
    else
      let set := Tab.get [] s.hem.routes x.destMod
      let es := ((List.range 8).map (routeEntry set)).filter (fun e => e.1 ≠ 0)
      let total := (es.map (·.1)).sum
      if es.isEmpty then none else joinLoads (es.map (fun e => hemLoads s b j src (hopEntry e.2.2 0) (ceilDiv (n * e.1) total)))

/-- Phase of the local steps that feed a node; 0 where there is none. -/
def nodePhase (s : State) (b : List Byte) (node : Nat) : Nat :=
  ((stepsOf b).find? (fun e => sends e.2 && targetOf s b e.2 = node)).elim 0 (fun e => e.2.phase)

/-- What a step reads, combines and writes in its tile. -/
def tileLoads (s : State) (b : List Byte) (x : Step) : List Load :=
  let eng := fun (j sub bits : Nat) => (j, ({ kind := 9, index := x.tile, sub := sub } : Res), bits)
  let row := fun (j bits : Nat) => if inDram x.addr then [(j, ({ kind := 7, index := x.tile } : Res), bits)] else []
  match x.kind with
  | 1 =>
    let n := x.count * 512 * elemBytes (hIn b) * 8
    eng x.phase 1 n :: row x.phase n
  | 2 => [eng (nodePhase s b x.node) 0 (x.fanIn * x.count * 4096 * 8)]
  | 4 =>
    let n := x.count * 512 * elemBytes (hOut b) * 8
    eng (hPhases b - 1) 2 n :: row (hPhases b - 1) n
  | _ => []

/-- Everything a run sends and combines; none where bulk would take the mesh or has no
path. -/
def scheduleLoads (s : State) (b : List Byte) : Option (List Load) :=
  (joinLoads (((stepsOf b).filter (fun e => sends e.2)).map (fun e => sendLoads s b e.2))).map (fun l =>
    l ++ (stepsOf b).flatMap (fun e => tileLoads s b e.2))

/-- Resources named by loads, each once. -/
def loadRes (l : List Load) : List Res := l.foldl (fun rs x => if rs.contains x.2.1 then rs else rs ++ [x.2.1]) []

def bitsOn (l : List Load) (r : Res) : Nat := ((l.filter (fun x => x.2.1 = r)).map (·.2.2)).sum

/-- Charges of a SCHEDULE flow (R320): the bits of one run, at that many per Period. -/
def scheduleCharges (s : State) (f : List Byte) : List Charge :=
  let l := (scheduleLoads s (schBody s (fSlot f))).getD []
  (loadRes l).map (fun r => { res := r, rate := ceilDiv (bitsOn l r) (max 1 (fPeriod f)), burst := bitsOn l r, cls := 3 })

def chargesOf (s : State) (f : List Byte) : List Charge := if fKind f = 0 then pointCharges s f else scheduleCharges s f

/-! ### The calendar (R321) -/

/-- Mesh lanes of a segment: those that both of its stations have. -/
def segLanes (s : State) (g : Seg) : Nat := min (meshLanes (getStation s g.entry)) (meshLanes (getStation s g.exit))

/-- Entries that a mesh segment needs. -/
def entriesNeeded (s : State) (g : Seg) : Nat := ceilDiv (g.rate * 253952) (max 1 (segLanes s g) * 24800000)

/-- Calendar entries as (receiving station, group, slot, source). -/
abbrev Place := Nat × Nat × Nat × Nat

def placeOf (k : Nat) (src : Nat) : Place := (k / 2048, k / 1024 % 2, k % 1024, src)

def sourceFree (taken : List Place) (src u : Nat) : Bool := !taken.any (fun p => p.2.2.1 = u && p.2.2.2 = src)
def groupFree (taken : List Place) (dst g u : Nat) : Bool := !taken.any (fun p => p.1 = dst && p.2.1 = g && p.2.2.1 = u)

/-- The first position from `u` on that source and group have free. -/
def findPlace (taken : List Place) (src dst : Nat) : Nat → Nat → Option Place
  | 0, _ => none
  | n + 1, u =>
    let u := u % 1024
    if sourceFree taken src u && groupFree taken dst 0 u then some (dst, 0, u, src)
    else if sourceFree taken src u && groupFree taken dst 1 u then some (dst, 1, u, src)
    else findPlace taken src dst n (u + 1)

/-- Place entries `i` to `n - 1` of a segment. -/
def placeFrom (src dst start n : Nat) : Nat → Nat → List Place → List Place → List Place × List Place
  | 0, _, taken, got => (taken, got)
  | m + 1, i, taken, got =>
    match findPlace taken src dst 1024 (start + i * 1024 / n) with
    | some p => placeFrom src dst start n m (i + 1) (taken ++ [p]) (got ++ [p])
    | none => placeFrom src dst start n m (i + 1) taken got

/-- The largest cyclic gap between positions. -/
def largestGap (us : List Nat) : Nat :=
  match us with
  | [] => 1024
  | _ => (us.map (fun u => us.foldl (fun g v => if v = u then g else min g ((v + 1024 - u) % 1024)) 1024)).foldl max 0

/-- A placement: per flow slot, the entries of its mesh segments with the entries missing. -/
abbrev Placement := List (Nat × Seg × List Place × Nat)

/-- The mesh segments of a flow. -/
def meshSegs (s : State) (f : List Byte) : List Seg :=
  if fKind f = 0 then ((segsOf s f).getD []).filter (fun g => g.leg = .mesh) else []

/-- The source of a calendar key held by a flow: its entry router. -/
def heldPlaces (s : State) (i : Nat) (f : List Byte) : List Place :=
  match meshSegs s f with
  | [] => []
  | g :: _ => (Tab.get [] s.adm.places i).map (fun k => placeOf k g.entry)

/-- Place the mesh segments of flows in ascending slot; flows that hold entries keep them. -/
def placeFlows (s : State) (fs : List (Nat × List Byte)) (taken : List Place) : List Place × Placement :=
  fs.foldl (fun acc e => (meshSegs s e.2).foldl (fun (acc : List Place × Placement) g =>
    let n := entriesNeeded s g
    let (taken, got) := placeFrom g.entry g.exit (e.1 * 41 % 1024) n n 0 acc.1 []
    (taken, acc.2 ++ [(e.1, g, got, n - got.length)])) acc) (taken, [])

/-- The largest gap of a segment's entries. -/
def gapOf (pl : Placement) (i : Nat) (g : Seg) : Nat :=
  match pl.find? (fun e => e.1 = i && e.2.1 = g) with
  | some e => largestGap (e.2.2.1.map (fun p => p.2.2.1))
  | none => 1024

/-! ### Bounds (R320 to R322) -/

/-- Every flow under consideration, with its charges and its calendar gaps. -/
structure Inputs where
  flows : List (Nat × List Byte)
  charges : List (Nat × Charge)
  places : Placement

def inputsOf (s : State) (old new : List (Nat × List Byte)) : Inputs :=
  let fs := old ++ new
  let kept := old.flatMap (fun e => heldPlaces s e.1 e.2)
  let keptPl := old.flatMap (fun e => (meshSegs s e.2).map (fun g =>
    (e.1, g, (heldPlaces s e.1 e.2).filter (fun p => p.1 = g.exit), 0)))
  { flows := fs, charges := fs.flatMap (fun e => (chargesOf s e.2).map (fun c => (e.1, c))),
    places := keptPl ++ (placeFlows s new kept).2 }

/-- Sum of the rates charged on a resource. -/
def rateOn (x : Inputs) (r : Res) : Nat := ((x.charges.filter (fun c => c.2.res = r)).map (fun c => c.2.rate)).sum

/-- A quotient rounded up; an overloaded resource bounds nothing. -/
def boundDiv (a b : Nat) : Nat := if b = 0 then 2 ^ 62 else ceilDiv a b

/-- hop_ps. -/
def hopPs (s : State) (x : Inputs) (cls : Nat) (r : Res) : Nat :=
  let on := x.charges.filter (fun c => c.2.res = r)
  let b := 35072 + ((on.filter (fun c => c.2.cls ≤ cls)).map (fun c => c.2.burst)).sum
  let rate := ((on.filter (fun c => c.2.cls < cls)).map (fun c => c.2.rate)).sum
  boundDiv (b * 1000000) (resCap s r - rate)

/-- mesh_ps. -/
def meshPs (s : State) (x : Inputs) (i : Nat) (g : Seg) : Nat :=
  (ceilDiv g.burst (max 1 (segLanes s g) * 2480) * gapOf x.places i g + 2) * 24800 + 135000

/-- One-way latency of a hop entry, in ps. -/
def latPs (s : State) (e : Nat) : Nat := (getGroup s (e / 16) (e % 16)).latency * 1000

/-- The hops of a segment: resource, queueing bound, and what the leg adds. -/
def segHops (s : State) (x : Inputs) (i : Nat) (g : Seg) : List (Res × Nat × Nat) :=
  (match g.leg with
   | .none => []
   | .port k => [(portRes s g.entry k, hopPs s x g.cls (portRes s g.entry k), 45000 + g.retry * 300000)]
   | .mesh => [({ kind := 4, index := g.exit * 2 }, meshPs s x i g, g.retry * 124000)])
  ++ (match g.hem with
   | some (e, _) => [({ kind := 5, index := e }, hopPs s x g.cls { kind := 5, index := e },
       latPs s e + g.retry * max 2000000 (2 * latPs s e + 1200000))]
   | none => [])

/-- segment_ps. -/
def segPs (s : State) (x : Inputs) (i : Nat) (g : Seg) : Nat :=
  250000 + ((segHops s x i g).map (fun h => h.2.1 + h.2.2)).sum

/-- The bound of a POINT flow in ns, and the resource with the largest hop bound. -/
def pointBound (s : State) (x : Inputs) (i : Nat) (f : List Byte) : Nat × Res :=
  let gs := (segsOf s f).getD []
  let worst := (gs.flatMap (segHops s x i)).foldl (fun (b : Res × Nat) h => if b.2 < h.2.1 then (h.1, h.2.1) else b) ({ kind := 0, index := 0 }, 0)
  (ceilDiv ((gs.map (segPs s x i)).foldl max 0) 1000, worst.1)

/-- Bits and rates of the POINT flows on a resource. -/
def pointOn (x : Inputs) (r : Res) : Nat × Nat :=
  let on := x.charges.filter (fun c => c.2.res = r && x.flows.any (fun e => e.1 = c.1 && fKind e.2 = 0))
  ((on.map (fun c => c.2.burst)).sum, (on.map (fun c => c.2.rate)).sum)

/-- Latency of the paths by which a phase sends (R322). -/
def maxPath (s : State) (l : List Load) (j : Nat) : Nat :=
  (l.filter (fun x => x.1 = j)).foldl (fun m x =>
    if x.2.1.kind = 5 then max m (340000 + latPs s x.2.1.index) else if x.2.1.kind = 2 then max m 45000 else m) 0

/-- The time of one phase on the resource that it keeps busiest. -/
def phasePs (s : State) (x : Inputs) (l : List Load) (j : Nat) : Nat :=
  let mine := l.filter (fun y => y.1 = j)
  ((loadRes mine).map (fun r =>
    let (b, rate) := pointOn x r
    boundDiv ((bitsOn mine r + b + 35072) * 1000000) (resCap s r - rate))).foldl max 0

/-- The least offset of a front at or after `t`. -/
def leastOffset (t : Nat) : Nat := ceilDiv (t + 800000 - 6400) 26214400 + 1

/-- The phases of a run from time `t`: the time at their end and the offsets used. -/
def phaseTimes (s : State) (x : Inputs) (b : List Byte) (l : List Load) : Nat → Nat → Nat → List Nat → Nat × List Nat
  | 0, _, t, os => (t, os)
  | n + 1, j, t, os =>
    let p := phaseAt b j
    let (t, o) := if !switchNeeded b j then (t, 0)
      else if !p.offsetMode then (t + 28211200 + 1500000, 0)
      else
        let o := max p.offset (max 1 (leastOffset t))
        (o * 26214400 + 1500000, o)
    phaseTimes s x b l n (j + 1) (t + phasePs s x l j + maxPath s l j + 102400) (os ++ [o])

/-- Bits that the tile with the most input scans. -/
def scanBits (b : List Byte) : Nat :=
  (List.range 24).foldl (fun m t =>
    max m ((((stepsOfKind b 1).filter (fun e => e.2.tile = t)).map (fun e => e.2.count * 512 * elemBytes (hIn b) * 8)).sum)) 0

/-- T of R322 in ps, and the offsets used. -/
def runPs (s : State) (x : Inputs) (f : List Byte) : Nat × List Nat :=
  let b := schBody s (fSlot f)
  let l := (scheduleLoads s b).getD []
  let path := (List.range (hPhases b)).foldl (fun m j => max m (maxPath s l j)) 0
  let t := if hStats b then ceilDiv (scanBits b * 1000000) 32768000 + 4 * path + 1000000 else 0
  let (t, os) := phaseTimes s x b l (hPhases b) 0 t []
  (t + fAllowance f * 1000 + 1000000, os)

/-! ### The result (R323 to R325) -/

structure AdmRes where
  code : Nat
  kind : Nat := 0
  index : Nat := 0
  flow : Nat := 0xFFFF
  short : Nat := 0
  bound : Nat := 0
  front : Nat := 0
  deriving DecidableEq, Repr

def AdmRes.bytes (r : AdmRes) : List Byte :=
  leBytes 1 r.code ++ leBytes 1 r.kind ++ leBytes 2 r.index ++ leBytes 2 r.flow ++ leBytes 2 0 ++ leBytes 4 (min r.short (2 ^ 32 - 1))
    ++ leBytes 4 (min r.bound (2 ^ 32 - 1)) ++ leBytes 8 r.front

/-- The logical tiles that are present, as a tile map: other bits are ignored (R29). -/
def presentTiles (s : State) : Nat := maskOf (fun n => (physTile s n).isSome) 28

/-- The staged job (R338). -/
def stagedJob (s : State) : Job :=
  { state := 1, seed := rdE s 0x7100 2, tiles := rdE s 0x7100 3 &&& presentTiles s, baseFirst := rdE s 0x7100 4, baseCount := rdE s 0x7100 5,
    syncFirst := rdE s 0x7100 6, syncCount := rdE s 0x7100 7, claim := bit (rdE s 0x7100 8) 0 }

/-- Step 1: records and the job record. -/
def stepRecords (s : State) (j : Job) (fs : List (Nat × List Byte)) : Option AdmRes :=
  let inBase := fun (n : Nat) => bit n 15 && j.baseFirst ≤ n % 8192 && n % 8192 < j.baseFirst + j.baseCount
  let schOk := fun (f : List Byte) => fKind f = 0 ||
    (let b := schBody s (fSlot f); inBase (hStart b) && inBase (hDone b))
  match fs.find? (fun e => !recordOk e.2 || !schOk e.2) with
  | some e => some { code := 1, flow := e.1 }
  | none =>
    if 8192 < j.baseFirst + j.baseCount || 1000 < j.syncFirst + j.syncCount then some { code := 1 } else none

/-- Logical tiles at the ends of a POINT flow. -/
def flowTiles (s : State) (f : List Byte) : List Nat :=
  if fKind f = 0 then
    (if fEntry f < 28 then [fEntry f] else []) ++ (if fExit f < 28 then [fExit f] else [])
      ++ (if fExit f / 16384 = 2 then (groupStations s (groupRecord s (fExit f % 4096))).filterMap (logicalTile s) else [])
  else []

/-- Step 2: states. -/
def stepStates (s : State) (sl : Nat) (j : Job) (fs : List (Nat × List Byte)) : Option AdmRes :=
  if (Tab.get none s.adm.jobs sl).isSome || rdE s 0x7100 1 ≠ sl then some { code := 2 }
  else
    match fs.find? (fun e => fKind e.2 = 1 && schState s (fSlot e.2) ≠ 2) with
    | some e => some { code := 2, kind := 12, index := fSlot e.2, flow := e.1 }
    | none =>
      if s.boot.readyAt.isNone || (s.fc.closed && (j.tiles ≠ 0 || fs.any (fun e => !(flowTiles s e.2).isEmpty))) then some { code := 2 } else none

/-- REDUCE nodes on a logical tile, over schedules. -/
def nodesOn (s : State) (fs : List (Nat × List Byte)) (t : Nat) : Nat :=
  ((fs.filter (fun e => fKind e.2 = 1)).map (fun e => countP (fun x => x.2.tile = t) (stepsOfKind (schBody s (fSlot e.2)) 2))).sum

/-- Step 3: limits. -/
def stepLimits (s : State) (fs : List (Nat × List Byte)) : Option AdmRes :=
  let all := heldFlows s ++ fs
  if 4096 < all.length then some { code := 4, kind := 13, short := all.length - 4096 }
  else
    ((List.range 24).find? (fun t => 16 < nodesOn s all t)).map (fun t =>
      { code := 4, kind := 9, index := t, short := nodesOn s all t - 16 })

def rangesMeet (a n b m : Nat) : Bool := decide (n ≠ 0) && decide (m ≠ 0) && overlap a n b m

/-- Two POINT flows match the same packets, or two SCHEDULE flows name one slot. -/
def sameFlow (f g : List Byte) : Bool :=
  fKind f = fKind g && fSlice f = fSlice g &&
    (if fKind f = 0 then fOptions f % 4 = fOptions g % 4 && fEntry f = fEntry g && fExit f = fExit g else fSlot f = fSlot g)

/-- The hit of least sync name. -/
def leastName (l : List (Nat × Nat)) : Option (Nat × Nat) :=
  l.foldl (fun b e => match b with
    | none => some e
    | some x => if e.1 < x.1 then some e else b) none

/-- Step 4: holders and identities; a flow that matches, then sync names in ascending order,
then the collective ports. -/
def stepHolders (s : State) (sl : Nat) (j : Job) (fs : List (Nat × List Byte)) : Option AdmRes :=
  let others := (jobs s).filter (fun e => e.1 ≠ sl)
  match fs.find? (fun e => fs.any (fun g => g.1 < e.1 && sameFlow g.2 e.2)) with
  | some e => some { code := 5, kind := 1, index := e.1, flow := e.1, short := sl }
  | none =>
    let base := (others.filter (fun e => rangesMeet j.baseFirst j.baseCount e.2.baseFirst e.2.baseCount)).map (fun e =>
      (0x8000 + max j.baseFirst e.2.baseFirst, e.1))
    let tile := (others.filter (fun e => j.tiles &&& e.2.tiles ≠ 0 && rangesMeet j.syncFirst j.syncCount e.2.syncFirst e.2.syncCount)).map (fun e =>
      (max j.syncFirst e.2.syncFirst, e.1))
    match leastName (tile ++ base) with
    | some h => some { code := 5, kind := 10, index := h.1, short := h.2 }
    | none => (others.find? (fun e => j.claim && e.2.claim)).map (fun e => { code := 5, kind := 11, short := e.1 })

/-- The path of one flow (step 5). -/
def flowPathOk (s : State) (j : Job) (f : List Byte) : Bool :=
  if fKind f = 0 then
    (flowTiles s f).all (fun t => (physTile s t).isSome && bit j.tiles t)
      && (match segsOf s f with
          | some gs => !gs.isEmpty && gs.all (segPathOk s (fExit f / 16384 = 2))
          | none => false)
  else
    let b := schBody s (fSlot f)
    (scheduleLoads s b).isSome && (j.claim || (List.range (hPhases b)).all (fun i => (phaseAt b i).keep))

def stepPaths (s : State) (j : Job) (fs : List (Nat × List Byte)) : Option AdmRes :=
  (fs.find? (fun e => !flowPathOk s j e.2)).map (fun e => { code := 6, flow := e.1 })

/-- Calendar entries charged on a source (kind 3) or a group (kind 4). -/
def slotsOn (x : Inputs) (r : Res) : Nat :=
  let ps := x.places.flatMap (fun e => e.2.2.1)
  if r.kind = 3 then countP (fun p => p.2.2.2 = r.index) ps else countP (fun p => p.1 * 2 + p.2.1 = r.index) ps

/-- The missing entries of a flow, with the calendar that was full. -/
def slotShort (x : Inputs) (i : Nat) : List (Res × Nat) :=
  (x.places.filter (fun e => e.1 = i)).flatMap (fun e =>
    let src : Res := { kind := 3, index := e.2.1.entry }
    let g0 : Res := { kind := 4, index := e.2.1.exit * 2 }
    let g1 : Res := { kind := 4, index := e.2.1.exit * 2 + 1 }
    let full := 1024 ≤ slotsOn x src
    (if e.2.2.2 = 0 then [] else [(if full then src else g0, e.2.2.2)])
      ++ [src, g0, g1].filterMap (fun r => if 768 < slotsOn x r then some (r, slotsOn x r - 768) else none))

/-- The shortfalls of one flow, over every resource that it charges (R319). -/
def shortfalls (s : State) (x : Inputs) (i : Nat) : List (Res × Nat) :=
  let rs := (x.charges.filter (fun c => c.1 = i)).map (fun c => c.2.res)
  (rs.filterMap (fun r => if resCap s r * 95 < rateOn x r * 100 then some (r, rateOn x r - resCap s r * 95 / 100) else none)) ++ slotShort x i

/-- The entry of least rank; of equals, the first. -/
def leastRes (l : List (Nat × Res × Nat)) : Option (Nat × Res × Nat) :=
  l.foldl (fun b e => match b with
    | none => some e
    | some x => if e.2.1.rank < x.2.1.rank then some e else b) none

/-- Step 6: capacity, over resources in ascending kind and index; the flow is the first of the
job charged there. -/
def stepCapacity (s : State) (x : Inputs) (fs : List (Nat × List Byte)) : Option AdmRes :=
  (leastRes (fs.flatMap (fun e => (shortfalls s x e.1).map (fun r => (e.1, r))))).map (fun r =>
    { code := 7, kind := r.2.1.kind, index := r.2.1.index, flow := r.1, short := r.2.2 })

/-- The bound of a flow as 0x7200:04 shows it, whether it is met, and its refusal. -/
def boundOf (s : State) (x : Inputs) (i : Nat) (f : List Byte) : Nat × Option AdmRes :=
  if fKind f = 0 then
    let (ns, r) := pointBound s x i f
    (ns, if ns ≤ fBudget f then none
      else some { code := 8, kind := r.kind, index := r.index, flow := i, short := ns - fBudget f, bound := ns })
  else
    let us := ceilDiv (runPs s x f).1 1000000
    (us, if fDeadline f < us then some { code := 8, kind := 12, index := fSlot f, flow := i, short := us - fDeadline f, bound := us }
      else if fPeriod f < fDeadline f then
        some { code := 8, kind := 12, index := fSlot f, flow := i, short := fDeadline f - fPeriod f, bound := us }
      else none)

/-- The flows whose bound the new job can change: those charged on a resource it touches. -/
def touched (x : Inputs) (fs : List (Nat × List Byte)) : List (Nat × List Byte) :=
  let mine := (x.charges.filter (fun c => fs.any (fun e => e.1 = c.1))).map (fun c => c.2.res)
  x.flows.filter (fun e => fs.any (fun y => y.1 = e.1) || x.charges.any (fun c => c.1 = e.1 && mine.contains c.2.res))

/-- Flows in ascending slot. -/
def bySlot (l : List (Nat × List Byte)) : List (Nat × List Byte) := l.foldl (fun t e => Tab.insert t e.1 e.2) []

/-- Step 7: bounds. -/
def stepBounds (s : State) (x : Inputs) (fs : List (Nat × List Byte)) : Option AdmRes :=
  (bySlot (touched x fs)).findSome? (fun e => (boundOf s x e.1 e.2).2)

/-- The admission of a slice: its result (R323). -/
def admission (s : State) (sl : Nat) : AdmRes :=
  let fs := bySlot (flowsOf s sl [1])
  let j := stagedJob s
  match stepRecords s j fs <|> stepStates s sl j fs <|> stepLimits s fs <|> stepHolders s sl j fs <|> stepPaths s j fs with
  | some r => r
  | none =>
    let x := inputsOf s (bySlot (heldFlows s)) fs
    match stepCapacity s x fs <|> stepBounds s x fs with
    | some r => r
    | none => { code := 0, front := frontAt (epoch s + 313) }

/-! ### Admission commands (R311, R326, R328, R329, R333) -/

/-- Store the last bounds and offsets of flows. -/
def storeBounds (s : State) (x : Inputs) (fs : List (Nat × List Byte)) : State :=
  fs.foldl (fun s e =>
    let a := s.adm
    let os := if fKind e.2 = 1 then (runPs s x e.2).2 else []
    { s with adm := { a with bounds := Tab.put 0 a.bounds e.1 (min (boundOf s x e.1 e.2).1 (2 ^ 32 - 1)), offsets := Tab.put [] a.offsets e.1 os } }) s

/-- 0x7000:01 starts operation 0x0008. -/
def startAdmission (s : State) (_sel : Tab Nat) (v : List Byte) : Effect :=
  if opRunning s 8 then { s := s, status := stBusy }
  else { s := startOp s 8 (flowsOf s (leNat v) [1]).length (leNat v) }

/-- ADMIT_SLICE. -/
def execAdmitSlice (r : VdpReq) (s : State) : Out :=
  .next (vdpEntry s (atEntry r 0x7000 1) anyValue startAdmission)

/-- An accepted job, its bounds, and its calendar entries, reserved from now on. -/
def acceptJob (s : State) (sl front : Nat) : State :=
  let fs := bySlot (flowsOf s sl [1])
  let x := inputsOf s (bySlot (heldFlows s)) fs
  let s := storeBounds s x (touched x fs)
  let keys := fun (i : Nat) => (x.places.filter (fun e => e.1 = i)).flatMap (fun e => e.2.2.1.map (fun p => p.1 * 2048 + p.2.1 * 1024 + p.2.2.1))
  let places := fs.foldl (fun t e => Tab.put [] t e.1 (keys e.1)) s.adm.places
  let j := { stagedJob s with front := front }
  { s with adm := { s.adm with jobs := Tab.put none s.adm.jobs sl (some j), places := places } }

/-- ADMISSION_DONE: it waits for the front of a committed group that holds between-jobs
entries (R355). -/
def execAdmissionDone (s : State) : Out :=
  if !opRunning s 8 || s.mantle.groups.any (fun e => e.2.state = 1 && groupBetweenJobs e.2) then .next s
  else
    let sl := (getOp s 8).arg
    let n := (flowsOf s sl [1]).length
    let r := admission s sl
    let s := wrB s 0x7000 3 r.bytes
    if r.code = 0 then .next (endOp (acceptJob s sl r.front) 8 2 0 n)
    else .next (endOp (bump s 0x7000 7) 8 3 r.code n)

/-- A schedule of the slice is RUNNING. -/
def sliceRunning (s : State) (sl : Nat) : Bool :=
  (List.range 64).any (fun i => schState s i = 4 && scheduleSlice s i = sl)

/-- 0x7000:02 (R329). -/
def withdraw (s : State) (_sel : Tab Nat) (v : List Byte) : Effect :=
  let sl := leNat v
  if (Tab.get none s.adm.jobs sl).isNone || sliceRunning s sl then
    { s := wrB s 0x7000 3 (AdmRes.bytes { code := 2 }), status := stRefused, detail := 2 }
  else { s := postWithdrawal s sl }

/-- WITHDRAW_SLICE. -/
def execWithdrawSlice (r : VdpReq) (s : State) : Out :=
  .next (vdpEntry s (atEntry r 0x7000 2) anyValue withdraw)

/-- Set a flow's state. -/
def setFlowState (s : State) (i v : Nat) : State := { s with adm := { s.adm with fstate := Tab.put 0 s.adm.fstate i v } }

/-- One flow in the recomputation of R333. -/
def recheckFlow (x : Inputs) (s : State) (e : Nat × List Byte) : State :=
  let bad := !(shortfalls s x e.1).isEmpty || (boundOf s x e.1 e.2).2.isSome
  if bad && flowState s e.1 = 2 then
    report (setFlowState s e.1 3) { cls := 0x78, slice := some (fSlice e.2), detail := e.1, tag := (boundOf s x e.1 e.2).1 }
  else if !bad && flowState s e.1 = 3 then setFlowState s e.1 2
  else s

/-- ADMISSION_RECOMPUTE: with no job admitted there is nothing to compute; an admission
under way starts again. -/
def recomputeAdmission (s : State) : State :=
  let s := if opRunning s 8 then putOp s 8 { getOp s 8 with position := 0 } else s
  let fs := (jobs s).filter (fun e => 2 ≤ e.2.state)
  if fs.isEmpty then s
  else
    let all := bySlot (fs.flatMap (fun j => flowsOf s j.1 [2, 3]))
    let x := inputsOf s all []
    bump (all.foldl (recheckFlow x) (storeBounds s x all)) 0x7000 0xC

def execAdmissionRecompute (s : State) : Out := .next (recomputeAdmission s)

/-! ### At the front (R328, R329) -/

/-- A flow becomes ADMITTED: its shaper starts with a full bucket, its calendar entries
count; the runs of its schedule are numbered from 0 (R206, R224). -/
def admitFlow (s : State) (e : Nat × List Byte) : State :=
  let s := setFlowState s e.1 2
  let s := if fKind e.2 = 1 then wrE s (0x7600 + fSlot e.2) 4 0 else s
  let cls := fOptions e.2 % 4
  let v := ((meshSegs s e.2).head?.map (fun g => g.entry * 4 + cls + 1)).getD 0
  let cal := (Tab.get [] s.adm.places e.1).foldl (fun t k => Tab.put 0 t k v) s.bas.calendar
  let x : Shaper := { tokens := fBurst e.2 * 8 * 1000000, since := s.now }
  let sh := if fKind e.2 = 0 then Tab.put none s.adm.shapers e.1 (some x) else s.adm.shapers
  { s with adm := { s.adm with shapers := sh }, bas := { s.bas with calendar := cal } }

/-- An accepted job takes effect. -/
def admitJob (s : State) (sl : Nat) (j : Job) : State :=
  let s := { s with fab := { s.fab with torn := s.fab.torn.filter (· ≠ sl) } }
  let s := (flowsOf s sl [1]).foldl admitFlow s
  let s := { s with adm := { s.adm with jobs := Tab.put none s.adm.jobs sl (some { j with state := 2 }) } }
  if j.claim then wrE s 0x7000 6 sl else s

/-- A flow becomes EMPTY; packets that wait in its shaper go back to their router. -/
def emptyFlow (s : State) (e : Nat × List Byte) : State :=
  let i := e.1
  let cal := (Tab.get [] s.adm.places i).foldl (fun t k => Tab.erase t k) s.bas.calendar
  let wait := ((Tab.get none s.adm.shapers i).map (·.queue)).getD []
  let st := (entryRouter s (fEntry e.2)).getD 28
  let a := s.adm
  let s := { s with
    adm := { a with flows := Tab.erase a.flows i, fstate := Tab.erase a.fstate i, shapers := Tab.erase a.shapers i, bounds := Tab.erase a.bounds i, overruns := Tab.erase a.overruns i, offsets := Tab.erase a.offsets i, places := Tab.erase a.places i },
    bas := { s.bas with calendar := cal } }
  wait.foldl (fun s p => enqueue s st p) s

/-- A job is withdrawn; a holder of the collective ports leaves them dark at the front. -/
def withdrawJob (s : State) (sl : Nat) (j : Job) : State :=
  let s := (flowsOf s sl [1, 2, 3]).foldl emptyFlow s
  let s := { s with adm := { s.adm with jobs := Tab.erase s.adm.jobs sl } }
  if j.claim then wrE (switchAtFront s { front := epoch s, dark := true, plan := 0 }) 0x7000 6 0xFFFF else s

/-- The rates charged to ROW_BUDGET by admitted flows, by physical tile (R334). -/
def chargedRows (s : State) : Tab Nat :=
  let fs := s.adm.flows.filter (fun e => 2 ≤ flowState s e.1)
  let cs := (fs.flatMap (fun e => chargesOf s e.2)).filter (fun c => c.res.kind = 7)
  cs.foldl (fun tb c => match physTile s c.res.index with
    | some t => Tab.mod 0 tb t (· + c.rate)
    | none => tb) []

/-- The row ports reserve what the admitted flows are charged. -/
def settleRowCharges (s : State) : State := { s with adm := { s.adm with rowCharge := chargedRows s } }

/-- The jobs whose front has come: withdrawals, then admissions; the row ports' reservations follow. -/
def jobsAtFront (s : State) : State :=
  let due := (jobs s).filter (fun e => e.2.front ≤ epoch s)
  if due.isEmpty then s
  else
    let s := (due.filter (fun e => e.2.state = 3)).foldl (fun s e => withdrawJob s e.1 e.2) s
    settleRowCharges ((due.filter (fun e => e.2.state = 1)).foldl (fun s e => admitJob s e.1 e.2) s)

end Sys2Proof.Machine
end

