-- ==== Sys2Proof/Machine/Lasers.lean ====
section
/-!
DEFINITION. The laser groups (17_faults.md R524 to R531, 12_dictionary_reference.md R388):
monitoring, switch-over gaps, lost groups, restart checks.
-/
namespace Sys2Proof.Machine

/-! ### Lines and dies -/

/-- The lines of a laser group (R21). -/
def laserLines (g : Nat) : Nat := maskOf (fun l => lineGroup l = g) 17

/-- 0x4200:02 of die `k`: 0 off, 1 active, 2 standby, 3 failed. -/
def laserDie (s : State) (k : Nat) : Nat := Tab.get 0 s.las.dies k

def setLaserDie (s : State) (k v : Nat) : State := { s with las := { s.las with dies := Tab.put 0 s.las.dies k v } }

/-- The die that LASER_OWN names. -/
def laserOwner (s : State) (g : Nat) : Nat := 2 * g + b2n (bit s.las.own g)

def laserGap (s : State) (g : Nat) : Option Gap := Tab.get none s.las.gaps g

def setGap (s : State) (g : Nat) (x : Option Gap) : State := { s with las := { s.las with gaps := Tab.put none s.las.gaps g x } }

/-- The die of a group that a switch-over would take: the other one, or in a lost group
whichever a restart check has brought back (R529, R531). -/
def standbyDie (s : State) (g : Nat) : Option Nat :=
  let a := laserOwner s g
  let b := if a % 2 = 0 then a + 1 else a - 1
  if laserDie s b = 2 then some b else if laserDie s a = 2 then some a else none

/-- A report about a laser die, or about a group. -/
def laserReport (s : State) (cls kind place g tag : Nat) : State :=
  report s { cls := cls, kind := kind, place := place, detail := laserLines g, tag := tag }

/-! ### Lines that come and go (R174, R187, R230) -/

/-- The lines of a station's mesh lanes (R165). -/
def meshMap (s : State) (x : Station) : List Nat :=
  let ok := fun (l : Nat) => bit (usableLines s) l && !bit x.failed l
  let home : List Nat := [1, 3, 5, 7, 9, 11, 13, 15]
  home.foldl (fun m l =>
    if ok l then m ++ [l]
    else m ++ [((List.range 17).find? (fun c => lineGroup c = lineGroup l && ok c && !home.contains c && !m.contains c)).getD 0x1F]) []

/-- Every circuit, bus and lane group takes up the lines that are usable now. -/
def linesChanged (s : State) (lines : Nat) : State :=
  let lost := s.las.lost
  let usable := maskOf (fun l => !bit lost (lineGroup l)) 17
  let s := wrE s 0x4100 1 usable
  let s := wrE s 0x4100 2 lost
  let s := wrE s 0x4100 3 (min 16 (popBelow usable 17 - 1))
  let s := wrE s 0x4100 4 (2 * (4 - popBelow lost 4))
  let s := s.bas.ports.foldl (fun s e => reagree s e.1 lines) s
  let s := (List.range 29).foldl (fun s i => modStation s i (fun x => { x with lines := meshMap s x })) s
  s.hem.groups.foldl (fun s e => downWithoutLanes s (e.1 / 16) (e.1 % 16)) s

/-- LASER_GROUP_LOSS (R529). -/
def loseGroup (s : State) (g tag : Nat) : State :=
  let s := setLaserDie (setLaserDie s (2 * g) 3) (2 * g + 1) 3
  if bit s.las.lost g then s
  else
    let s := { s with las := { s.las with lost := setBit s.las.lost g true } }
    let s := laserReport s 0x4B 10 g g tag
    recomputeAdmission (linesChanged s (laserLines g))

/-! ### Switch-over (R526 to R530) -/

/-- A recalibration step on a line of the group, or on a spare, is abandoned (R508, R528). -/
def dropStep (s : State) (g : Nat) : State :=
  match s.cal.step with
  | some x => if lineGroup x.line = g || g = 3 then { s with cal := { s.cal with step := none } } else s
  | none => s

/-- A gap meets the plan switch that ports are training for (R181). -/
def delaySwitches (s : State) : State :=
  let late : Port → Port := fun p => if p.switching then { p with delayed := true } else p
  { s with bas := { s.bas with ports := s.bas.ports.map (fun (e : Nat × Port) => (e.1, late e.2)) } }

/-- LASER_SWITCH_OVER_START (R527): at G0 the lines are squelched, the old die's drive is cut
and LASER_OWN takes the new die. -/
def startGap (s : State) (g k : Nat) (commanded : Bool) : State :=
  let lead := (Config.gapLead s.free).toNat % 33
  let s := atCount (nextFree s) ((epoch s + lead) % 2 ^ 64)
  let old := if k % 2 = 0 then k + 1 else k - 1
  let was := laserDie s old = 1
  let s := if was then setLaserDie s old 0 else s
  let s := setLaserDie s k 1
  let s := { s with las := { s.las with own := setBit s.las.own g (k % 2 = 1) } }
  delaySwitches (dropStep (setGap s g (some { g0 := epoch s, die := k % 2, commanded := commanded, old := was })) g)

/-- Gaps open now. -/
def gapsOpen (s : State) : Nat := s.las.gaps.length

/-- A switch-over of a group begins, waits, or finds no standby (R526, R529, R530). -/
def switchOver (s : State) (g : Nat) (commanded : Bool) : State :=
  match laserGap s g with
  | some x => setGap s g (some { x with hit := true })
  | none =>
    if s.las.waiting.any (fun w => w % 4 = g) then s
    else
      let s := { s with las := { s.las with checks := Tab.put false (Tab.put false s.las.checks (2 * g) false) (2 * g + 1) false } }
      match standbyDie s g with
      | none =>
        if bit s.las.lost g then s
        else
          let s := atCount s ((epoch s + 32) % 2 ^ 64)
          loseGroup s g (epoch s)
      | some k =>
        if 2 ≤ gapsOpen s then { s with las := { s.las with waiting := s.las.waiting ++ [g + 4 * b2n commanded] } }
        else startGap s g k commanded

/-- A cause of R526 found on the active die: logged as class 0x48, masked where a standby
takes over. -/
def laserCause (s : State) (g : Nat) : State :=
  let s := report s { cls := 0x48, kind := 9, place := laserOwner s g, detail := laserLines g,
                      tag := epoch s, masked := (laserGap s g).isNone && (standbyDie s g).isSome }
  switchOver s g false

/-- The thermal stage of laser die `k` (R478). -/
def laserStage (s : State) (k : Nat) : Nat := Tab.get 0 s.pow.stages (124 + k)

/-- Throttle on laser die `k` (R485): an active die's group switches over if its standby is
usable; else the event is logged.  A switch-over under way completes first (R488). -/
def laserThrottle (s : State) (k temp : Nat) : State :=
  let g := k / 2
  if laserDie s k ≠ 1 || (laserGap s g).isSome then s
  else if (match standbyDie s g with | some b => b ≠ k && laserStage s b = 0 | none => false) then laserCause s g
  else report s { cls := 0x60, kind := 9, place := k, detail := temp, tag := 124 + k }

/-- LASER_MONITOR_SAMPLE: two low samples in turn are a cause; a group without light is not
judged. -/
def execLaserMonitorSample (g lowLines : Nat) (s : State) : Out :=
  if 4 ≤ g || !s.boot.mainOn || (laserGap s g).isSome || bit s.las.lost g || laserDie s (laserOwner s g) ≠ 1 then .next s
  else
    let isLow := lowLines &&& laserLines g ≠ 0
    let second := isLow && bit s.las.low g
    let s := { s with las := { s.las with low := setBit s.las.low g (isLow && !second) } }
    .next (if second then laserCause s g else s)

/-- LASER_DRIVE_APPLY. -/
def execLaserDriveApply (g : Nat) (s : State) : Out :=
  match laserGap s g with
  | some x => if x.drive then .next s else .next (setGap (atCount s ((x.g0 + 16) % 2 ^ 64)) g (some { x with drive := true }))
  | none => .next s

/-- LASER_LINE_CHECK: the window closes at G0 + 2,400; a failed check is a latent fault. -/
def execLaserLineCheck (g bad : Nat) (s : State) : Out :=
  match laserGap s g with
  | some x =>
    if !x.drive || x.checked then .next s
    else
      let s := atCount s ((x.g0 + 2400) % 2 ^ 64)
      let failed := bad &&& laserLines g
      let s := setGap s g (some { x with checked := true, failed := failed })
      .next (if failed ≠ 0 || x.hit then laserReport s 0x4A 9 (2 * g + x.die) g x.g0 else s)
  | none => .next s

/-- The oldest waiting switch-over begins (R530). -/
def nextWaiting (s : State) : State :=
  match s.las.waiting with
  | [] => s
  | w :: ws => switchOver { s with las := { s.las with waiting := ws } } (w % 4) (4 ≤ w)

/-- A gap that ended with every line good. -/
def completeGap (s : State) (g : Nat) (x : Gap) : State :=
  let old := 2 * g + (1 - x.die)
  let s := if x.old then setLaserDie s old (if x.commanded then 2 else 3) else s
  let s := wrE s 0x4200 3 ((rdE s 0x4200 3 + 1) % 2 ^ 32)
  let s := laserReport s 0x49 10 g g x.g0
  let s := if bit s.las.lost g then
      recomputeAdmission (linesChanged { s with las := { s.las with lost := setBit s.las.lost g false } } 0)
    else s
  let k := 2 * g + x.die
  if laserStage s k < 2 then s
  else laserThrottle s k (unsigned 32 ((Tab.get none s.pow.temps (124 + k)).getD 0))

/-- A gap that ended with the lines lost (R529). -/
def failGap (s : State) (g : Nat) (x : Gap) : State :=
  let s := if x.failed ≠ 0 then
      wrE (wrE s 0x4200 4 ((rdE s 0x4200 4 + 1) % 2 ^ 32)) 0x8300 2 ((rdE s 0x8300 2 + 1) % 2 ^ 32)
    else s
  loseGroup s g x.g0

/-- LASER_GAP_END: exactly 2,500 counts after G0. -/
def execLaserGapEnd (g : Nat) (s : State) : Out :=
  match laserGap s g with
  | some x =>
    if !x.checked then .next s
    else
      let s := setGap (atCount s ((x.g0 + 2500) % 2 ^ 64)) g none
      .next (nextWaiting (if x.failed = 0 && !x.hit then completeGap s g x else failGap s g x))
  | none => .next s

/-! ### Commands (R388, R531) -/

/-- 0x4200:06: refused unless the group's standby die reads standby. -/
def switchGroup (s : State) (_sel : Tab Nat) (v : List Byte) : Effect :=
  let g := leNat v
  if (laserGap s g).isSome || (standbyDie s g).isNone || s.las.waiting.any (fun w => w % 4 = g) || !s.boot.mainOn then { s := s, status := stRefused }
  else { s := switchOver s g true }

def execSwitchLaserGroup (r : VdpReq) (s : State) : Out :=
  .next (vdpEntry s (atEntry r 0x4200 6) (fun _ _ v => leNat v < 4) switchGroup)

/-- 0x4200:07: refused for an active die, one under check, and either die of a group in its
gap. -/
def restartDie (s : State) (_sel : Tab Nat) (v : List Byte) : Effect :=
  let k := leNat v
  if laserDie s k = 1 || Tab.get false s.las.checks k || (laserGap s (k / 2)).isSome then { s := s, status := stRefused }
  else { s := { s with las := { s.las with checks := Tab.put false s.las.checks k true } } }

def execRestartLaserDie (r : VdpReq) (s : State) : Out :=
  .next (vdpEntry s (atEntry r 0x4200 7) (fun _ _ v => leNat v < 8) restartDie)

/-- LASER_RESTART_CHECK_DONE (R531). -/
def execLaserRestartCheckDone (k : Nat) (passes : Bool) (s : State) : Out :=
  if !Tab.get false s.las.checks k then .next s
  else
    let s := { s with las := { s.las with checks := Tab.put false s.las.checks k false } }
    if passes then .next (setLaserDie s k 2)
    else
      let s := setLaserDie s k 3
      .next (nextFree (laserReport s 0x48 9 k (k / 2) (openValue s)))

end Sys2Proof.Machine
end

