-- ==== Sys2Proof/Machine/TileMemory.lean ====
section
/-!
DEFINITION. The commands of tile memory (04_tile_memory.md): row ports and the row code,
refresh, scrub and fill, row-rate steps; and of tile reset, self-test and confirmed faults
(05_tensor_blocks.md R146, R149, R154).
-/
namespace Sys2Proof.Machine

/-! ### The row code (R115, R116) -/

/-- The marked mats of a bank (R117). -/
def matsOf (s : State) (t die bank : Nat) : List Nat := Tab.get [] (getTile s t).mats (die * 256 + bank)

/-- The net disturbance of each stored byte, by position, zero masks left out. -/
def netErrs (errs : List Flip) : Tab Byte :=
  errs.foldl (fun tb f => if f.addr < 1088 then Tab.mod 0#8 tb f.addr (· ^^^ f.mask) else tb) []

/-- How a row decodes: clean, corrected (symbols and mats corrected), uncorrectable, or with
codewords beyond the detection limit that are delivered as if correct, beside the symbols corrected
in the others. -/
inductive RowCode where
  | clean
  | corrected (symbols : Nat) (mats : List Nat)
  | bad
  | miscorrected (codewords : List Nat) (symbols : Nat)
  deriving DecidableEq, Repr

/-- R116 for one codeword: 0 corrected, 1 always detected, 2 beyond the limit. -/
def codewordClass (marks : List Nat) (errs : Tab Byte) (c : Nat) : Nat :=
  let e := countP (fun x => x.1 % 4 = c && !marks.contains (x.1 / 16)) errs
  let f := 4 * marks.length
  if 2 * e + f ≤ 12 then 0 else if e ≤ 10 - 2 * marks.length then 1 else 2

/-- R116 for a stored row; `free` numbers the open outcome beyond the detection limit. -/
def rowDecode (marks : List Nat) (errs : List Flip) (free : Nat) : RowCode :=
  let net := netErrs errs
  let cs := (List.range 4).map (codewordClass marks net)
  if net.isEmpty then .clean
  else if cs.any (· = 1) then .bad
  else if cs.any (· = 2) then
    let wrong := (List.range 4).filter (fun c => cs.getD c 0 = 2)
    if Config.detectsBeyondLimit free then .bad
    else .miscorrected wrong (countP (fun x => !wrong.contains (x.1 % 4)) net)
  else .corrected net.length ((net.map (fun x => x.1 / 16)).eraseDups)

/-- Counters of a corrected row (R119). -/
def countCorrected (s : State) (t n : Nat) : State := bump (bumpN s (0x6300 + t) 2 n) (0x6300 + t) 3

/-- A row as a decoder delivers it that miscorrected some codewords: their symbols are free values,
those of every other codeword are right (R115, R116). -/
def wrongRow (free : Nat) (codewords : List Nat) (clean : List Byte) : List Byte :=
  clean.mapIdx (fun i b => if codewords.contains (i % 4) then Config.miscorrected (free * 4096 + i) else b)

/-- Counters of a row with miscorrected codewords: the symbols that the decoder took to be wrong in
them are a free value, 0 to 6 in each. -/
def countMiscorrected (s : State) (t n : Nat) (codewords : List Nat) : State :=
  let n := n + (codewords.map (fun c => openNth s c % 7)).sum
  if n = 0 then s else countCorrected s t n

/-- The bytes of a row. -/
def rowBytes (s : State) (t die row : Nat) : List Byte := rdBytes s.mem (rowKey t die row * 1024) 1024

/-- A row crossing that fails `fails` times (R107): resends are counted, and a third failure
is a Seam channel fault. -/
def crossing (s : State) (t die row fails : Nat) : State :=
  let s := bumpN s (0x6300 + t) 5 (min fails 2)
  if 3 ≤ fails then
    report s { cls := 0x13, kind := 5, place := t, unit := die, detail := row, tag := rowAddress die row }
  else s

def getDie (s : State) (t d : Nat) : DramDie := Tab.get {} (getTile s t).dies d

def modDie (s : State) (t d : Nat) (f : DramDie → DramDie) : State :=
  modTile s t (fun tl => { tl with dies := Tab.mod {} tl.dies d f })

/-- The row exists and its die takes requests (R101, R123); rows accepted before a tile reset or a
sleep entry are still read and written (R122, R150). -/
def rowOpen (s : State) (t die row : Nat) : Bool :=
  t < 24 && bit (usableTiles s) t && s.boot.tilesOn && die < 3 && row < 2 ^ 23 && (getDie s t die).state = 1

/-! ### The scan of a row port (R112, R129, R334) -/

/-- Rows that a port may issue in a window of 16 Seam cycles, by row-rate step (R129). -/
def stepLimit (step : Nat) : Nat := [16, 12, 8, 4, 2].getD step 2

/-- Rows per window that a port keeps for initiator 104 (R334): a row in 16 Seam cycles is 512,000
Mb/s. -/
def reservedRows (s : State) (t : Nat) : Nat :=
  min (ceilDiv (Tab.get 0 s.adm.rowCharge t) (512000 * 18)) (stepLimit (getTile s t).rowStep)

/-- The first initiator of a rotating scan that starts after the last one accepted (R112). -/
def nextInScan (last : Nat) (l : List Nat) : Option Nat :=
  ((List.range 105).map (fun i => (last + 1 + i) % 105)).find? (fun i => l.contains i)

/-- The initiator that a port accepts of those that present requests together (R112, R334). -/
def scanWinner (reserved : Nat) (x : PortScan) (l : List Nat) : Option Nat :=
  if l.contains 104 && x.fabric < reserved then some 104 else nextInScan x.last l

/-- The port's counts in the window of the present Seam cycle; once the window's rows are issued
(R129), time runs on to the next one. -/
def portWindow (s : State) (t port : Nat) : State × PortScan :=
  let x := Tab.get {} (getTile s t).ports port
  let w := s.now / 16000
  let x := if x.window = w then x else { x with window := w, issued := 0, fabric := 0 }
  if x.issued < stepLimit (getTile s t).rowStep then (s, x)
  else (advanceTo s ((w + 1) * 16000), { x with window := w + 1, issued := 0, fabric := 0 })

/-- A port accepts the request of `ini`, the winner of its scan. -/
def portAccept (s : State) (t port ini : Nat) : State :=
  let w := portWindow s t port
  let x := { w.2 with last := ini, issued := w.2.issued + 1, fabric := w.2.fabric + b2n (ini = 104) }
  modTile w.1 t (fun tl => { tl with ports := Tab.put {} tl.ports port x })

/-- The request of `ini` is the one that the port accepts, with `rivals` presenting theirs in the
same cycle; a request that loses is presented again by its initiator. -/
def portTakes (s : State) (t port ini : Nat) (rivals : List Nat) : Bool :=
  ini ≤ 104 && scanWinner (reservedRows s t) (portWindow s t port).2 (ini :: rivals) = some ini

/-- What a port answers its initiator (R109 to R112). -/
def portAnswer (s : State) (t die row : Nat) (r : RowResp) : State :=
  modTile s t (fun tl => { tl with portResp := Tab.insert (Tab.erase tl.portResp (portOf die row)) (portOf die row) r })

/-- The physical S-core of an initiator number (R112). -/
def initiatorSCore (s : State) (t ini : Nat) : Option Nat :=
  if 96 ≤ ini && ini < 104 then physCore (getTile s t) 2 (ini - 96) else none

/-- What a row delivered as uncorrectable does to its initiator and its tile (R148, R149): in a tile
already in reset, nothing more (R150). -/
def deliverBad (s : State) (t die row ini : Nat) : State :=
  if (getTile s t).reset.isSome then s
  else
    let s := match initiatorSCore s t ini with
      | some p =>
        let s := raiseExc s t p .loadAccess
        if poisonMode s then consumePoison s t 2 p (rowAddress die row) else s
      | none => s
    contain s t die row

/-- ROW_READ (R107, R109, R112, R116, R118, R148). -/
def execRowRead (t die row : Nat) (ask : PortAsk) (errs : List Flip) (fails : Nat) (s : State) : Out :=
  if !rowOpen s t die row || !portTakes s t (portOf die row) ask.ini ask.rivals then .next s
  else
    let s := portAccept s t (portOf die row) ask.ini
    let clean := rowBytes s t die row
    let s := rowInjections s t die clean
    let marked := Tab.get false s.badRows (rowKey t die row)
    let code := rowDecode (matsOf s t die (row % 256)) errs s.free
    let dirty := applyFlips 0 clean (errs.filter (fun f => f.addr < 1024))
    let (s, data, bad) :=
      if marked then (foundBad s t die row, dirty, true)
      else match code with
        | .clean => (s, clean, false)
        | .corrected n _ => (countCorrected s t n, clean, false)
        | .bad => (nextFree (foundBad s t die row), dirty, true)
        | .miscorrected cs n => (nextFree (countMiscorrected s t n cs), wrongRow s.free cs clean, false)
    let s := crossing s t die row fails
    let bad := bad || 3 ≤ fails
    let s := portAnswer s t die row { initiator := ask.ini, data := data, bad := bad, ok := true }
    .next (if bad then deliverBad s t die row ask.ini else s)

/-- A stitch cell that crosses beside its row (R137). -/
def putCell (s : State) (t die row : Nat) (c : Option CellWord) : State :=
  match c with
  | none => s
  | some w =>
    let x : Cell := { stitch := w.stitch, gen := w.gen, state := w.state }
    { s with cells := Tab.put {} s.cells (rowKey t die row) x }

/-- A failed write is answered to its initiator; an S-core takes a store access fault (R111). -/
def writeFailure (s : State) (t die row ini : Nat) : State :=
  let s := portAnswer s t die row { initiator := ini, data := [], bad := false, ok := false }
  match initiatorSCore s t ini with
  | some p => if (getTile s t).reset.isSome then s else raiseExc s t p .storeAccess
  | none => s

/-- ROW_WRITE (R107, R110, R112, R118). -/
def execRowWrite (t die row : Nat) (ask : PortAsk) (data : List Byte) (cell : Option CellWord) (fails : Nat) (s : State) : Out :=
  if !rowOpen s t die row || !portTakes s t (portOf die row) ask.ini ask.rivals then .next s
  else
    let s := crossing (portAccept s t (portOf die row) ask.ini) t die row fails
    if 3 ≤ fails then .next (writeFailure s t die row ask.ini)
    else
      let s := { s with mem := wrBytes s.mem (rowKey t die row * 1024) (fit 1024 data) }
      let s := putCell (setBadRow s (rowKey t die row) false) t die row cell
      .next (portAnswer s t die row { initiator := ask.ini, data := [], bad := false, ok := true })

/-- MASKED_ROW_WRITE (R111): read, check, merge, write; refused on an uncorrectable row. -/
def execMaskedRowWrite (t die row : Nat) (ask : PortAsk) (mask : Nat) (data : List Byte) (cell : Option CellWord)
    (errs : List Flip) (fails : Nat) (s : State) : Out :=
  if !rowOpen s t die row || !portTakes s t (portOf die row) ask.ini ask.rivals then .next s
  else
    let s := crossing (portAccept s t (portOf die row) ask.ini) t die row fails
    if 3 ≤ fails then .next (writeFailure s t die row ask.ini)
    else if Tab.get false s.badRows (rowKey t die row) then .next (writeFailure (foundBad s t die row) t die row ask.ini)
    else
      let s := rowInjections s t die (rowBytes s t die row)
      let code := rowDecode (matsOf s t die (row % 256)) errs s.free
      let d := fit 1024 data
      let merge := fun (s : State) =>
        let old := rowBytes s t die row
        let new := (List.range 1024).map (fun i => if bit mask (i / 8) then d.getD i 0#8 else old.getD i 0#8)
        let s := putCell { s with mem := wrBytes s.mem (rowKey t die row * 1024) new } t die row cell
        portAnswer s t die row { initiator := ask.ini, data := [], bad := false, ok := true }
      match code with
      | .clean => .next (merge s)
      | .corrected n _ => .next (merge (countCorrected s t n))
      | .bad => .next (writeFailure (nextFree (foundBad s t die row)) t die row ask.ini)
      | .miscorrected cs n =>
        let wrong := wrongRow s.free cs (rowBytes s t die row)
        .next (merge (nextFree (countMiscorrected { s with mem := wrBytes s.mem (rowKey t die row * 1024) wrong } t n cs)))

/-! ### Refresh (R121, R122) -/

/-- The die exists: its tile is not fused off (R131). -/
def dieBuilt (s : State) (t d : Nat) : Bool := t < 24 && d < 3 && !bit s.fusedTiles t

/-- REFRESH (R121): up to 8 refreshes of a bank with requests waiting are postponed. -/
def execRefresh (t die bank : Nat) (due waiting : Bool) (s : State) : Out :=
  let x := getDie s t die
  if !dieBuilt s t die || x.state = 0 || 256 ≤ bank then .next s
  else
    let owed := Tab.get 0 x.owed bank + b2n due
    if owed = 0 then .next s
    else if waiting && owed ≤ 8 then .next (modDie s t die (fun x => { x with owed := Tab.put 0 x.owed bank owed }))
    else .next (modDie s t die (fun x =>
      { x with owed := Tab.put 0 x.owed bank (owed - 1), refreshNext := Tab.mod 0 x.refreshNext bank (fun n => (n + 1) % 4096) }))

/-- A descriptor of the tile is running. -/
def runsDescriptor (s : State) (t : Nat) : Bool :=
  let run := fun (q : Tab (List QDesc)) => q.any (fun e => e.2.any (fun x => x.started && x.record.isNone))
  run (getTile s t).mQueue || run (getTile s t).vQueue

/-- SELF_REFRESH_DRAIN_DONE (R122, R541): a running descriptor still has its rows to read and write. -/
def execSelfRefreshDrainDone (t die : Nat) (s : State) : Out :=
  let x := getDie s t die
  if !dieBuilt s t die || x.state ≠ 1 || !x.draining || runsDescriptor s t then .next s
  else .next (modDie s t die (fun x => { x with state := 2, draining := false }))

/-- SELF_REFRESH_EXIT (R122, R544): while the module wakes or starts; the ports open, or the die's
channels are recalibrated. -/
def execSelfRefreshExit (t die : Nat) (fails : Nat) (s : State) : Out :=
  let x := getDie s t die
  if !dieBuilt s t die || x.state ≠ 2 || !s.boot.mainOn || (s.fc.closed && !s.fc.waking) then .next s
  else if fails = 0 then .next (modDie s t die (fun x => { x with state := 1 }))
  else .next (modDie (bumpN s (0x6300 + t) 5 fails) t die (fun x => { x with state := 3 }))

/-! ### Scrub (R117, R124 to R126) -/

/-- MAT_MARK_ADD (R117): a mat whose symbols were corrected in 16 distinct rows of a bank within one
pass is marked; a third failing mat is a bank fault.  `pass` is 0 for the patrol's pass and 256 for
a demand scrub, a pass of its own. -/
def markMat (s : State) (pass t die row : Nat) (mat : Nat) : State :=
  let bank := row % 256
  let old := Tab.get [] (getDie s t die).scrubCount (pass + bank)
  if old.contains (row * 68 + mat) then s
  else
  let seen := old ++ [row * 68 + mat]
  let s := modDie s t die (fun x => { x with scrubCount := Tab.put [] x.scrubCount (pass + bank) seen })
  let marks := matsOf s t die bank
  if countP (fun x => x % 68 = mat) seen ≠ 16 || marks.contains mat then s
  else if 2 ≤ marks.length then
    report s { cls := 0x11, kind := 5, place := t, unit := die, detail := row, tag := rowAddress die row }
  else
    let s := modTile s t (fun tl => { tl with mats := Tab.put [] tl.mats (die * 256 + bank) (marks ++ [mat]) })
    report s { cls := 0x12, kind := 5, place := t, unit := die, detail := row, tag := rowAddress die row }

/-- Scrub one row (R124): correct it, or find it uncorrectable. -/
def scrubRow (s : State) (pass t die row : Nat) (errs : List Flip) : State :=
  if Tab.get false s.badRows (rowKey t die row) then foundBad s t die row
  else
    match rowDecode (matsOf s t die (row % 256)) errs s.free with
    | .clean => s
    | .corrected n mats => mats.foldl (fun s m => markMat s pass t die row m) (countCorrected s t n)
    | .bad => nextFree (foundBad s t die row)
    | .miscorrected cs n =>
      let wrong := wrongRow s.free cs (rowBytes s t die row)
      nextFree (countMiscorrected { s with mem := wrBytes s.mem (rowKey t die row * 1024) wrong } t n cs)

/-- The counts of a pass over a die begin anew; `lo` is 0 for the patrol's, 256 for a demand scrub's. -/
def newPass (lo : Nat) (x : DramDie) : DramDie :=
  { x with scrubCount := x.scrubCount.filter (fun e => !(lo ≤ e.1 && e.1 < lo + 256)) }

/-- PATROL_SCRUB_ROW (R124): not in self-refresh, and not while 0xF000:0A stops it. -/
def execPatrolScrubRow (t die : Nat) (errs : List Flip) (s : State) : Out :=
  let x := getDie s t die
  if !dieBuilt s t die || x.state = 0 || x.state = 2 || rdE s 0xF000 0xA = 1 then .next s
  else
    let s := scrubRow s 0 t die x.scrubPos errs
    let n := (x.scrubPos + 1) % 2 ^ 23
    .next (modDie s t die (fun x => { (if n = 0 then newPass 0 x else x) with scrubPos := n }))

/-- Physical tiles that a command's map names, fused-off tiles skipped (R126). -/
def namedTiles (s : State) (m : Nat) : List Nat :=
  (List.range 24).filter (fun t => bit m t && !bit s.fusedTiles t)

/-- DEMAND_SCRUB (R126): starts operation 0x0003. -/
def startDemandScrub (s : State) (_sel : Tab Nat) (v : List Byte) : Effect :=
  if opRunning s 3 then { s := s, status := stBusy }
  else
    let n := (namedTiles s (leNat v)).length
    let s := startOp s 3 (n * 3 * 2 ^ 23) (leNat v)
    { s := if n = 0 then endOp s 3 2 0 0 else s }

def execDemandScrub (r : VdpReq) (s : State) : Out :=
  .next (vdpEntry s (atEntry r 0x6400 2) anyValue startDemandScrub)

/-- The marked rows of a tile that a list does not name. -/
def markedBeside (s : State) (t : Nat) (errs : List RowErr) : List Nat :=
  (s.badRows.map (·.1)).filter (fun k => k / 2 ^ 25 = t && Tab.get false s.badRows k
    && !errs.any (fun e => e.tile = t && e.die < 3 && e.row < 2 ^ 23 && rowKey t e.die e.row = k))

/-- A demand scrub of one tile: the rows found disturbed, and every other row that carries its mark
(R119, R126). -/
def demandTile (s : State) (errs : List RowErr) (t : Nat) : State :=
  let old := markedBeside s t errs
  let s := errs.foldl (fun s e =>
    if e.tile = t && e.die < 3 && e.row < 2 ^ 23 then scrubRow s 256 t e.die e.row e.errs else s) s
  let s := old.foldl (fun s k => foundBad s t (k / 2 ^ 23 % 4) (k % 2 ^ 23)) s
  (List.range 3).foldl (fun s d => modDie s t d (newPass 256)) s

/-- DEMAND_SCRUB_DONE (R126). -/
def execDemandScrubDone (errs : List RowErr) (s : State) : Out :=
  if !opRunning s 3 then .next s
  else
    let s := (namedTiles s (getOp s 3).arg).foldl (fun s t => demandTile s errs t) s
    .next (endOp s 3 2 0 (getOp s 3).total)

/-! ### Fill (R127, R128) -/

/-- The start and length lie in one view and are multiples of 1,024 (R127). -/
def fillRangeOk (a n : Nat) : Bool :=
  a % 1024 = 0 && n % 1024 = 0 &&
  (a + n ≤ 24 * gib || [0, 1, 2].any (fun d => 0x800000000 + d * (8 * gib) ≤ a && a + n ≤ 0x800000000 + (d + 1) * (8 * gib)))

/-- FILL: starts operation 0x0004, which takes pattern, start and length as they stand. -/
def startFill (s : State) (_sel : Tab Nat) (v : List Byte) : Effect :=
  if opRunning s 4 then { s := s, status := stBusy }
  else if !fillRangeOk (rdE s 0x6400 4) (rdE s 0x6400 5) then { s := s, status := stRefused }
  else
    let n := (namedTiles s (leNat v)).length
    let l := [rdE s 0x6400 3, rdE s 0x6400 4, rdE s 0x6400 5]
    let s := startOp s 4 (n * (rdE s 0x6400 5 / 1024)) (leNat v)
    let s := putOp s 4 { getOp s 4 with latched := l }
    { s := if n = 0 then endOp s 4 2 0 0 else s }

def execFill (r : VdpReq) (s : State) : Out :=
  .next (vdpEntry s (atEntry r 0x6400 6) anyValue startFill)

/-- Fill one row of a tile: full-row writes that clear the mark and make the cell RAW. -/
def fillRow (s : State) (t a pattern : Nat) : State :=
  match locOf (getTile s t) a with
  | some (.dram d r _) =>
    let l := (List.range 128).flatMap (fun _ => leBytes 8 pattern)
    let s := { s with mem := wrBytes s.mem (rowKey t d r * 1024) l }
    rawCells (setBadRow s (rowKey t d r) false) t a 1
  | _ => s

/-- The first `n` rows of the fill under way, tile by tile. -/
def fillRows (s : State) (n : Nat) : State :=
  let l := (getOp s 4).latched
  let a := l.getD 1 0
  let rows := l.getD 2 0 / 1024
  let all := (namedTiles s (getOp s 4).arg).flatMap (fun t => (List.range rows).map (fun i => (t, a + 1024 * i)))
  (all.take n).foldl (fun s e => fillRow s e.1 e.2 (l.getD 0 0)) s

/-- FILL_DONE (R127). -/
def execFillDone (s : State) : Out :=
  if !opRunning s 4 then .next s else .next (endOp (fillRows s (getOp s 4).total) 4 2 0 (getOp s 4).total)

/-! ### Row-rate steps (R129, R130) -/

/-- The stage of a die, by the die index of R383. -/
def stageOf (s : State) (i : Nat) : Nat := Tab.get 0 s.pow.stages i

/-- The worst stage of a tile's compute and DRAM dies. -/
def tileStage (s : State) (t : Nat) : Nat :=
  [t, 52 + 3 * t, 53 + 3 * t, 54 + 3 * t].foldl (fun m i => max m (stageOf s i)) 0

/-- A die of the tile meets the condition of a step (R129). -/
def stepHolds (s : State) (t step : Nat) : Bool := if step = 1 then 1 ≤ tileStage s t else 2 ≤ tileStage s t

/-- Change the step; the Seam cycles spent above 0 are counted (R130). -/
def setRowStep (s : State) (t n : Nat) : State :=
  let tl := getTile s t
  let s := if 0 < tl.rowStep then bumpN s (0x6300 + t) 8 ((s.now - tl.rowStepSince) / 1000) else s
  modTile s t (fun tl => { tl with rowStep := n, rowStepSince := s.now, rowCalm := s.now })

/-- ROW_RATE_STEP_ESCALATE (R129). -/
def execRowRateStepEscalate (t : Nat) (s : State) : Out :=
  let tl := getTile s t
  if 24 ≤ t || !(tl.rowStep = 2 || tl.rowStep = 3) || tileStage s t < 2 then .next s
  else .next (setRowStep (advanceTo s (tl.rowStepSince + msPs)) t (tl.rowStep + 1))

/-- ROW_RATE_STEP_UP (R130). -/
def execRowRateStepUp (t : Nat) (s : State) : Out :=
  let tl := getTile s t
  if 24 ≤ t || tl.rowStep = 0 || stepHolds s t tl.rowStep then .next s
  else .next (setRowStep (advanceTo s (tl.rowCalm + 10 * msPs)) t (tl.rowStep - 1))

/-! ### Tile reset, self-test, confirmed faults (R146, R149, R154) -/

/-- The on-die memory of a tile is cleared and its cells are RAW (R149). -/
def clearOnDie (s : State) (t : Nat) : State :=
  let lo := 2 ^ 50 + t * 2 ^ 29
  let clo := 2 ^ 40 + t * 2 ^ 17
  let raw := fun (e : Nat × Cell) => if clo ≤ e.1 && e.1 < clo + 2 ^ 17 then (e.1, { e.2 with state := 0#2 }) else e
  { s with mem := Tab.clear s.mem lo (lo + 2 ^ 29), cells := (s.cells.map raw).filter (fun e => e.2 ≠ {}) }

/-- A mesh-port, service, row-port or command crossing of the tile is marked failed (R497). -/
def seamHeld (s : State) (t : Nat) : Bool := s.cal.marked.any (fun id => 6 ≤ id / 2 ^ 28 && id / 2 ^ 20 % 256 = t)

/-- A tile's reset ends (R149): a tile whose retirement is pending, whose rail is low, or
whose Seam channels failed calibration (R497), stays in reset. -/
def finishReset (s : State) (t : Nat) : State :=
  match (getTile s t).reset with
  | none => s
  | some r =>
    if (getTile s t).railLow || seamHeld s t then s
    else
      let s := clearOnDie s t
      let stay := bit s.pendingTiles t || bit s.retiredTiles t
      modTile s t (fun tl => { tl with sync := [], sCores := [], mQueue := [], vQueue := [], mip17 := false,
                                       portResp := [], reset := if stay then some r else none })

/-- TILE_RESET_COMPLETE. -/
def execTileResetComplete (t : Nat) (s : State) : Out := .next (finishReset s t)

/-- The unit can be tested: its tile is open, and it is enabled and not retired (R146). -/
def unitOpen (s : State) (u : UnitId) : Bool :=
  tileOpen s (unitTile u) && (match u with
    | .tile _ => true
    | .mCore t p => bit (usableCores (getTile s t) 0) p
    | .vCore t p => bit (usableCores (getTile s t) 1) p
    | .sCore t p => bit (usableCores (getTile s t) 2) p)

/-- A report about a unit. -/
def unitReport (s : State) (cls : Nat) : UnitId → State
  | .tile t => tileReport s cls t 0 0
  | .mCore t p => coreReport s cls t 0 p 0 0
  | .vCore t p => coreReport s cls t 1 p 0 0
  | .sCore t p => coreReport s cls t 2 p 0 0

/-- One self-test run (R146): counted; a failure is one confirmed permanent fault. -/
def runSelfTest (s : State) (u : UnitId) (passes : Bool) : State :=
  let s := bump s 0x8200 2
  if passes then s
  else
    let s := wrE (bump s 0x8200 3) (0x6600 + unitTile u) 5 (epoch s)
    confirmedFault (unitReport s 0x24 u) u

/-- Clear the counts of a tile's units that are neither retired nor pending (R154). -/
def clearCounts (s : State) (t : Nat) : State :=
  let tl := getTile s t
  let gone := fun (kind p : Nat) => !bit (usableCores tl kind) p || bit (pendingCores tl kind) p
  let keep := fun (kind : Nat) (tb : Tab Nat) => tb.filter (fun e => gone kind e.1)
  let tileGone := bit s.retiredTiles t || bit s.pendingTiles t
  let was := fun (key : Nat) => if key = 0 then !tileGone && tl.confTile ≠ 0
    else if key < 100 then !gone 0 (key - 1) && Tab.get 0 tl.confM (key - 1) ≠ 0
    else if key < 200 then !gone 1 (key - 100) && Tab.get 0 tl.confV (key - 100) ≠ 0
    else !gone 2 (key - 200) && Tab.get 0 tl.confS (key - 200) ≠ 0
  modTile s t (fun tl =>
    { tl with confTile := if tileGone then tl.confTile else 0,
              confM := keep 0 tl.confM, confV := keep 1 tl.confV, confS := keep 2 tl.confS,
              testDue := tl.testDue.map (fun e => if was e.1 then (e.1, s.now + 600 * secPs) else e) })

/-- CLEAR_CONFIRMED_FAULTS (R154). -/
def execClearConfirmedFaults (t : Nat) (r : VdpReq) (s : State) : Out :=
  .next (vdpEntry s (atEntry r (instIndex 0x6600 24 t) 6) anyValue (fun s _ _ => { s := clearCounts s t }))

end Sys2Proof.Machine
end

