-- ==== Sys2Proof/Machine/Faults.lean ====
section
/-!
DEFINITION. The logging engine, NOTIFY, squalls, the scrub of tables and the monitors
(17_faults.md R514 to R523), the log, self-test and diagnostic entries (12 R393 to R399).
-/
namespace Sys2Proof.Machine

/-! ### Records (R393, R519) -/

/-- Classes whose cover is Masked (R517). -/
def maskedClasses : List Nat := [0x08, 0x12, 0x20, 0x22, 0x28, 0x2A, 0x43, 0x50, 0x58, 0x5D]

/-- The 32 bytes of a record; a Logical or Slice byte that is not valid is `filler`. -/
def recordOf (seq filler : Nat) (r : Report) : List Byte :=
  let flags := b2n r.diag + 2 * b2n (r.masked || maskedClasses.contains r.cls) + 4 * b2n r.slice.isSome + 8 * b2n r.logical.isSome
  leBytes 4 seq ++ leBytes 8 r.stamp ++ leBytes 1 r.cls ++ leBytes 1 flags ++ leBytes 1 r.kind ++ leBytes 1 r.place
    ++ leBytes 2 r.unit ++ leBytes 1 (r.logical.getD filler) ++ leBytes 1 (r.slice.getD (filler / 256))
    ++ leBytes 4 r.detail ++ leBytes 8 r.tag

/-! ### NOTIFY (R362, R523) -/

/-- Target 4 is the BMC; targets 0 to 3 are the records of 0x1200:03. -/
def targetMask (s : State) (i : Nat) : Nat :=
  if i = 4 then rdE s 0x1200 0x10
  else
    let r := slice (rdB s 0x1200 3) (24 * i) 24
    if bit (field r 22 1) 0 then field r 18 4 else 0

/-- Send a record to one target, with the target's next sequence number. -/
def notifyTarget (s : State) (r : List Byte) (i : Nat) : State :=
  let m := s.mantle
  let q := (Tab.get 0 m.notifySeq i + 1) % 2 ^ 32
  let n : Notify := { target := i, seq := q, record := r, sends := 1, first := s.now }
  emit { s with mantle := { m with notifySeq := Tab.put 0 m.notifySeq i q, notifies := m.notifies ++ [n] } } (.notify i q r)

/-- NOTIFY: to every target that selects the record's group; without an active Mantle the
record waits for the next one (R532). -/
def notify (s : State) (r : List Byte) : State :=
  let g := field r 12 1 / 8
  let ts := (List.range 5).filter (fun i => bit (targetMask s i) g)
  if mantleActive s then ts.foldl (fun s i => notifyTarget s r i) s
  else { s with mantle := { s.mantle with unsent := s.mantle.unsent ++ ts.map (fun i => (i, r)) } }

/-- A state sensor of R360 has changed: a PlatformEventMessage to the event receiver, of which
the spec gives the sensor and its state. -/
def pldmEvent (s : State) (sensor old new : Nat) : State :=
  match s.mantle.pldmReceiver with
  | some e => if mantleActive s && old ≠ new then emit s (.pldm e (leBytes 2 sensor ++ leBytes 1 new ++ leBytes 1 old)) else s
  | none => s

/-! ### The logs (R393, R518, R521) -/

/-- A log takes a record while it has room. -/
def logTake (l : Log) (size filler : Nat) (r : Report) : Option Log :=
  if size ≤ l.records.length then none
  else
    let q := (l.newest + 1) % 2 ^ 32
    some { records := l.records ++ [recordOf q filler r], newest := q }

/-- The tile log that also takes a record. -/
def tileOf (r : Report) : Option Nat := if queueOf r.kind r.place < 24 then some r.place else none

/-- The tile log's copy of a record. -/
def logTile (s : State) (r : Report) (filler : Nat) : State :=
  match tileOf r with
  | none => s
  | some t =>
    match logTake (Tab.get {} s.log.tile t) 16 filler r with
    | some l => { s with log := { s.log with tile := Tab.put {} s.log.tile t l } }
    | none => wrE s (0x8100 + t) 5 ((rdE s (0x8100 + t) 5 + 1) % 2 ^ 32)

/-- Log a report, and notify of it. -/
def logRecord (s : State) (r : Report) : State :=
  let filler := openValue s
  let s := logTile (nextFree s) r filler
  match logTake s.log.pkg 256 filler r with
  | some l => raiseAllHb (notify { s with log := { s.log with pkg := l } } (l.records.getLastD [])) 4
  | none => bump s 0x8000 5

/-! ### Squalls (R522) -/

def setSquall (s : State) (c : Nat) (q : Option Squall) : State :=
  { s with log := { s.log with squall := Tab.put none s.log.squall c q } }

/-- One report counted in squall. -/
def countRepeat (s : State) (c : Nat) (q : Squall) (stamp : Nat) : State :=
  let s := setSquall s c (some { q with last := max q.last stamp, repeats := q.repeats + 1 })
  { s with log := { s.log with repeats := Tab.mod 0 s.log.repeats c (fun n => (n + 1) % 2 ^ 32) } }

/-- The 65th report of a class within 1 ms. -/
def startsSquall (hist : List Nat) (r : Report) : Bool :=
  r.cls ≠ 0x80 && r.cls ≠ 0x81 && 64 ≤ hist.length && r.stamp - hist.getD (hist.length - 64) 0 ≤ 156250

/-- The engine takes one report (R521, R522). -/
def takeReport (s : State) (r : Report) : State :=
  match Tab.get none s.log.squall r.cls with
  | some q => countRepeat s r.cls q r.stamp
  | none =>
    let hist := Tab.get [] s.log.stamps r.cls
    let s := { s with log := { s.log with stamps := Tab.put [] s.log.stamps r.cls (lastN 65 (hist ++ [r.stamp])) } }
    if startsSquall hist r then
      let first := hist.getD (hist.length - 64) 0
      let s := bump (countRepeat s r.cls { last := r.stamp, first := first, repeats := 0 } r.stamp) 0x8000 8
      logRecord s { cls := 0x80, detail := r.cls, tag := first, stamp := r.stamp, diag := r.diag }
    else logRecord s r

/-- ERROR_REPORT. -/
def execErrorReport (k : Nat) (s : State) : Out :=
  match Tab.get [] s.log.queue k with
  | [] => .next s
  | r :: rest => .next (takeReport { s with log := { s.log with queue := Tab.put [] s.log.queue k rest } } r)

/-- SQUALL_END. -/
def execSquallEnd (cls : Nat) (s : State) : Out :=
  match Tab.get none s.log.squall cls with
  | none => .next s
  | some q =>
    let s := setSquall (atCount s ((q.last + 1562500) % 2 ^ 64)) cls none
    .next (logRecord s { cls := 0x81, detail := cls, tag := q.repeats, stamp := epoch s, diag := diagMode s })

/-! ### The scrub of tables (R514) -/

/-- A record of a table is no longer valid; a request that uses it fails as for a record
that is not valid. -/
def invalidate (s : State) : TableRef → State
  | .route n => { s with hem := { s.hem with routes := Tab.put [] s.hem.routes n [] } }
  | .region i => { s with fab := { s.fab with regions := Tab.put [] s.fab.regions i [] } }
  | .group i => { s with col := { s.col with groups := Tab.put [] s.col.groups i [] } }
  | .slices k => { s with hem := { s.hem with slices := Tab.put [] s.hem.slices k (fit 32 []) } }
  | .plan p => if planState s p = 2 then setPlanState s p 3 else s
  | .schedule i => if schState s i = 2 then setSchState s i 3 else s
  | .calendar k => { s with bas := { s.bas with calendar := Tab.erase s.bas.calendar k } }
  | .flow i =>
    if flowState s i = 2 then
      report (setFlowState s i 3) { cls := 0x78, slice := some (fSlice (flowRec s i)), detail := i, tag := Tab.get 0 s.adm.bounds i }
    else s
  | .track st tag =>
    match Tab.get none s.fab.tracks (st * 16384 + tag) with
    | some x => endTrack s st tag x fsTimeout 0 0 0 false
    | none => s
  | .queue t q => modQueue s t q (fun _ => {})

/-- TABLE_SCRUB. -/
def execTableScrub (fixed : List Nat) (bad : List (TableRef × Nat)) (s : State) : Out :=
  if !s.boot.mainOn then .next s
  else
    let s := fixed.foldl (fun s a => report s { cls := 0x43, tag := a }) s
    .next (bad.foldl (fun s b => report (invalidate s b.1) { cls := 0x44, tag := b.2 }) s)

/-! ### Monitors (R515) -/

/-- CLOCK_LOCK_LOSS: logged, one confirmed fault of the tile, tile reset. -/
def execClockLockLoss (t : Nat) (s : State) : Out :=
  if !tileOpen s t then .next s
  else .next (tileReset (confirmedFault (tileReport s 0x1B t 0 0) (.tile t)) t 3 0)

/-- 0x1200:09, Mantle States. -/
def mantleStates (s : State) : Nat := s.mantle.dieB * 256 + s.mantle.dieA

/-- The epoch count of the last refresh of MANTLE_OWN. -/
def refreshCount (s : State) : Nat :=
  (epoch s + 2 ^ 64 - (s.now - s.mantle.refreshed) / countPs % 2 ^ 64) % 2 ^ 64

/-- FORECAST_HEARTBEAT_MISS: the Mantle resets the Forecast logic, which restarts within
5 ms. -/
def execForecastHeartbeatMiss (s : State) : Out :=
  if !mantleActive s || s.now < s.fc.restartAt then .next s
  else
    let s := report s { cls := 0x53, detail := mantleStates s, tag := refreshCount s }
    .next { s with fc := { s.fc with samples := [], flags := 0, fresh := 0, restartAt := s.now + 5 * msPs } }

/-! ### Clear Through (R394) -/

/-- Record `n` lies at or before `a`. -/
def atOrBefore (n a : Nat) : Bool := (a + 2 ^ 32 - n % 2 ^ 32) % 2 ^ 32 < 2 ^ 31

/-- The log of `k`: a tile's, or the package's. -/
def logOf (s : State) (k : Nat) : Log := if k < 24 then Tab.get {} s.log.tile k else s.log.pkg

/-- Keep the records after `a`. -/
def clearLog (s : State) (k a : Nat) : State :=
  let f := fun (l : Log) => { l with records := l.records.filter (fun r => !atOrBefore (field r 0 4) a) }
  if k < 24 then { s with log := { s.log with tile := Tab.mod {} s.log.tile k f } }
  else { s with log := { s.log with pkg := f s.log.pkg } }

/-- CLEAR_THROUGH: refused RANGE when the argument lies after the newest record. -/
def execClearThrough (k : Nat) (r : VdpReq) (s : State) : Out :=
  .next (vdpEntry s (atEntry r (if k < 24 then 0x8100 + k else 0x8000) 4)
    (fun s _ v => atOrBefore (leNat v) (logOf s k).newest) (fun s _ v => { s := clearLog s k (leNat v) }))

/-! ### Commanded self-test (R395) -/

/-- The units of a tile that a self-test covers: the tile, then its cores. -/
def tileUnits (s : State) (t : Nat) : List UnitId :=
  if !bit (usableTiles s) t then []
  else
    let tl := getTile s t
    let ps := fun (k : Nat) => (List.range (coreCount k)).filter (fun p => bit (usableCores tl k) p)
    [.tile t] ++ (ps 0).map (.mCore t) ++ (ps 1).map (.vCore t) ++ (ps 2).map (.sCore t)

/-- The units of the tiles of a mask. -/
def maskUnits (s : State) (m : Nat) : List UnitId := ((List.range 24).filter (bit m)).flatMap (tileUnits s)

/-- The operation ends once every named unit has been tested. -/
def endTests (s : State) : State :=
  let o := getOp s 2
  let left := (maskUnits s o.arg).filter (fun u => !s.tested.contains (unitTile u, unitKey u))
  if left.isEmpty then endOp { s with tested := [] } 2 2 0 o.position else s

/-- A unit awaits the commanded self-test. -/
def testWanted (s : State) (u : UnitId) : Bool :=
  opRunning s 2 && bit (getOp s 2).arg (unitTile u) && !s.tested.contains (unitTile u, unitKey u)

/-- One unit of the commanded self-test: no unit's periodic test moves. -/
def commandedTest (s : State) (u : UnitId) (passes : Bool) : State :=
  let s := runSelfTest s u passes
  let o := getOp s 2
  endTests { putOp s 2 { o with position := o.position + 1 } with tested := s.tested ++ [(unitTile u, unitKey u)] }

/-- SELF_TEST (R146, R395): a unit that a commanded self-test awaits runs that one; else its
periodic test at its due time, the next 600 s later, 10 s for a suspect. -/
def execSelfTest (u : UnitId) (passes : Bool) (s : State) : Out :=
  match s.boot.readyAt with
  | none => .next s
  | some t0 =>
    if !unitOpen s u then .next s
    else if testWanted s u then .next (commandedTest s u passes)
    else
      let held := Tab.get 0 (getTile s (unitTile u)).testDue (unitKey u)
      let s := advanceTo s (if held = 0 then t0 + 600 * secPs else held)
      let s := runSelfTest s u passes
      let next := s.now + (if 1 ≤ confCount s u then 10 else 600) * secPs
      .next (modTile s (unitTile u) (fun tl => { tl with testDue := Tab.put 0 tl.testDue (unitKey u) next }))

/-- 0x8200:01 starts operation 0x0002. -/
def startSelfTest (s : State) (_sel : Tab Nat) (v : List Byte) : Effect :=
  if opRunning s 2 then { s := s, status := stBusy }
  else { s := endTests { startOp s 2 (maskUnits s (leNat v)).length (leNat v) with tested := [] } }

def execStartSelfTest (r : VdpReq) (s : State) : Out :=
  .next (vdpEntry s (atEntry r 0x8200 1) (fun _ _ v => leNat v < 2 ^ 24) startSelfTest)

/-! ### Diagnostics (R398, R399, R602) -/

/-- Diagnostic mode ends: injections end, and every override returns to its default. -/
def leaveDiag (s : State) : State :=
  let s := { s with injections := [], cal := { s.cal with overrides := [] } }
  let s := wrB s 0xF000 3 []
  let lines := rdE s 0xF000 7
  let s := wrE (wrE (wrE s 0xF000 7 0) 0xF000 8 0) 0xF000 10 0
  if lines = 0 then s else linesChanged s 0

/-- DIAGNOSTIC_MODE. -/
def setDiag (s : State) (_sel : Tab Nat) (v : List Byte) : Effect :=
  if leNat v = 1 then { s := wrE s 0xF000 1 1 } else { s := leaveDiag (wrE s 0xF000 1 0) }

def execDiagnosticMode (r : VdpReq) (s : State) : Out :=
  .next (vdpEntry s (atEntry r 0xF000 1) anyValue setDiag)

/-- The unit that an injection record names is present. -/
def injectionUnit (s : State) (target place unit : Nat) : Bool :=
  let tile := place < 24 && bit (usableTiles s) place
  match target with
  | 1 => tile && unit < 68 && bit (usableCores (getTile s place) 0) unit
  | 2 => tile && unit < 34 && bit (usableCores (getTile s place) 1) unit
  | 3 | 7 | 8 => tile
  | 4 => tile && unit < 3
  | 5 => tile && unit < 17
  | 6 => place < 64 && unit < 17
  | _ => false

def injectionOk (s : State) (v : List Byte) : Bool :=
  v.length = 16 && 1 ≤ field v 0 1 && field v 0 1 ≤ 8 && field v 1 1 ≤ 3
    && injectionUnit s (field v 0 1) (field v 2 2) (field v 4 2)

/-- FAULT_INJECTION. -/
def queueInjection (s : State) (_sel : Tab Nat) (v : List Byte) : Effect :=
  if 16 ≤ s.injections.length then { s := s, status := stBusy }
  else if !diagMode s then { s := s, status := stRefused }
  else
    let n := field v 8 4
    let j : Injection := { target := field v 0 1, fault := field v 1 1, place := field v 2 2, unit := field v 4 2,
                           left := if n = 0 then none else some n, bitOff := field v 12 4 }
    { s := { s with injections := s.injections ++ [j] } }

def execFaultInjection (r : VdpReq) (s : State) : Out :=
  .next (vdpEntry s (atEntry r 0xF000 2) (fun s _ v => injectionOk s v) queueInjection)

/-- Channels and 64-bit groups of a crossing (R105): circuit, mesh, service, row port,
command. -/
def crossingShape (c : Nat) : Nat × Nat := [(16, 32), (1, 16), (1, 8), (18, 136), (18, 1)].getD c (0, 0)

/-- The channel ID of a group of a Seam crossing (R558). -/
def seamId (t crossing channel group : Nat) : Nat := (5 + crossing) * 2 ^ 28 + t * 2 ^ 20 + channel * 2 ^ 12 + group

def tapOk (s : State) (v : List Byte) : Bool :=
  let (chans, groups) := crossingShape (field v 1 1)
  v.length = 8 && field v 0 1 < 24 && bit (usableTiles s) (field v 0 1) && field v 2 1 < chans && field v 3 1 < groups
    && field v 4 1 < 64

/-- SEAM_TAP_OVERRIDE: it stands until diagnostic mode ends (R398) or a calibration decides the tap. -/
def overrideTap (s : State) (_sel : Tab Nat) (v : List Byte) : Effect :=
  if !diagMode s then { s := s, status := stRefused }
  else
    let id := seamId (field v 0 1) (field v 1 1) (field v 2 1) (field v 3 1)
    { s := { s with cal := { s.cal with overrides := Tab.put 0 s.cal.overrides id (field v 4 1 + 1) } } }

def execSeamTapOverride (r : VdpReq) (s : State) : Out :=
  .next (vdpEntry s (atEntry r 0xF000 4) (fun s _ v => tapOk s v) overrideTap)

end Sys2Proof.Machine
end

