-- ==== Sys2Proof/Machine/Clocks.lean ====
section
/-!
DEFINITION. Clocks (14_clocks_crossings.md, 12 R380, R384 to R386): the reference, epoch
alignment, tile clocks, fall-back, and what of them a clock front changes.
-/
namespace Sys2Proof.Machine

/-! ### The reference (R442 to R448, R533) -/

/-- The lane group of the secondary and of the epoch source, if it is usable (R384). -/
def secondaryUp (s : State) : Bool :=
  let e := rdE s 0x3000 3
  e < 1024 && offersRef (getGroup s (e / 16) (e % 16))

/-- The offer of a reference by the lane group of 0x3000:03. -/
def secondaryOffer (s : State) : Nat × Nat :=
  let e := rdE s 0x3000 3
  (e, (getGroup s (e / 16) (e % 16)).offers)

/-- The state of a source (0x3000:02): 0 absent, 1 qualifying, 2 qualified, 3 failed.  What was judged
of a secondary ends with its offer. -/
def refState (s : State) (src : Nat) : Nat :=
  if src = 2 then (if Tab.get 0 s.clk.refs 2 = 3 then 3 else 2)
  else if src = 1 && (!secondaryUp s || s.clk.refMark ≠ secondaryOffer s) then 0
  else Tab.get 0 s.clk.refs src

/-- 0x3000:02. -/
def refStates (s : State) : Nat := refState s 0 + 16 * refState s 1 + 256 * refState s 2

/-- The best source qualified (R442). -/
def bestRef (s : State) : Nat := if refState s 0 = 2 then 0 else if refState s 1 = 2 then 1 else 2

def setRef (s : State) (src v : Nat) : State :=
  { s with clk := { s.clk with refs := Tab.put 0 s.clk.refs src v, refMark := if src = 1 then secondaryOffer s else s.clk.refMark } }

/-- A report about a reference source; its Tag has no offset to give. -/
def refReport (s : State) (cls src : Nat) : State :=
  nextFree (report s { cls := cls, kind := 17, unit := src, detail := refStates s, tag := openValue s })

/-- Holdover Time up to now, in us. -/
def holdoverTime (s : State) : Nat :=
  rdE s 0x3000 7 + (if s.clk.inForce = 2 && s.boot.mainOn then (s.now - s.clk.changed) / usPs else 0)

/-- REFERENCE_CHANGE (R445): hitless; counted, and logged once. -/
def changeRef (s : State) (src : Nat) : State :=
  let s := wrE s 0x3000 7 (holdoverTime s)
  let s := { s with clk := { s.clk with inForce := src, changed := s.now, revert := none, freeRun := s.clk.freeRun && src = 2 } }
  let s := wrE s 0x3000 6 ((rdE s 0x3000 6 + 1) % 2 ^ 32)
  refReport s (if src = 2 then 0x59 else 0x58) src

/-- REFERENCE_FAILURE: the source in force gives way to the next qualified one; a secondary in force
has failed also where it is no longer usable. -/
def execReferenceFailure (src : Nat) (s : State) : Out :=
  if !s.boot.mainOn || 2 ≤ src || (refState s src = 0 && s.clk.inForce ≠ src) || refState s src = 3 then .next s
  else
    let s := setRef s src 3
    let s := match s.clk.revert with
      | some (r, _) => if r = src then { s with clk := { s.clk with revert := none } } else s
      | none => s
    .next (if s.clk.inForce = src then changeRef s (bestRef s) else s)

/-- REFERENCE_RETURN: the source qualifies from zero. -/
def execReferenceReturn (src : Nat) (s : State) : Out :=
  let st := refState s src
  if !s.boot.mainOn || 2 ≤ src || (st ≠ 0 && st ≠ 3) || (src = 1 && !secondaryUp s) then .next s
  else .next (setRef { s with clk := { s.clk with refSince := Tab.put 0 s.clk.refSince src s.now } } src 1)

/-- A reversion is posted for a better source (R446, R557): while 0x3000:05 is 1, before
READY, and while the synthesiser runs free. -/
def postReversion (s : State) (src : Nat) : State :=
  let better := src < s.clk.inForce && (match s.clk.revert with | some (r, _) => decide (src < r) | none => true)
  if better && (rdE s 0x3000 5 = 1 || s.boot.readyAt.isNone || s.clk.freeRun) then
    { s with clk := { s.clk with revert := some (src, frontAt (epoch s + 8192)) } }
  else s

/-- REFERENCE_QUALIFIED. -/
def execReferenceQualified (src : Nat) (s : State) : Out :=
  if !s.boot.mainOn || 2 ≤ src || refState s src ≠ 1 then .next s
  else .next (postReversion (setRef (advanceTo s (Tab.get 0 s.clk.refSince src + 10 * secPs)) src 2) src)

/-- HOLDOVER_FAILURE (R533). -/
def execHoldoverFailure (s : State) : Out :=
  if !s.boot.mainOn || s.clk.inForce ≠ 2 || s.clk.freeRun then .next s
  else .next (refReport { (setRef s 2 3) with clk := { (setRef s 2 3).clk with freeRun := true } } 0x5A 2)

/-! ### The epoch (R450 to R453) -/

/-- 0x3100:03: the lane group that a follower follows, or 0xFFFF. -/
def epochSource (s : State) : Nat :=
  let e := rdE s 0x3000 3
  if rdE s 0x3100 2 = 0 && !s.clk.freeRun && e < 1024 && (getGroup s (e / 16) (e % 16)).state = 2 then e else 0xFFFF

/-- The nearest whole number of counts to an offset in ps. -/
def countsOf (x : Int) : Int := (x + 3200) / 6400

/-- EPOCH_STEP: the count moves by whole counts; what is left of the offset is slewed. -/
def stepEpoch (s : State) (off : Int) : State :=
  let n := countsOf off
  let s := { s with epochOff := unsigned 64 ((s.epochOff : Int) - n), clk := { s.clk with stepAt := none, slewLeft := n * 6400 - off, aligned := true } }
  let s := wrE s 0x3100 5 ((rdE s 0x3100 5 + 1) % 2 ^ 32)
  report s { cls := 0x5B, detail := refStates s, tag := unsigned 64 (-(n * 6400)) }

/-- An offset beyond 64 ns while a slice is admitted is logged once (R453). -/
def noteOffset (s : State) (avg : Int) : State :=
  let far := avg < -64000 || 64000 < avg
  if far && !noJobs s && !s.clk.offLogged then
    report { s with clk := { s.clk with offLogged := true } } { cls := 0x5C, detail := refStates s, tag := unsigned 64 avg }
  else if !far then { s with clk := { s.clk with offLogged := false } }
  else s

/-- EPOCH_OFFSET_AVERAGE: the first alignment steps at once; later an offset beyond 64 ns
steps at the next front while no slice is admitted, and any other is slewed (R452). -/
def execEpochOffsetAverage (s : State) : Out :=
  if epochSource s = 0xFFFF || s.clk.offN = 0 then .next s
  else
    let avg := s.clk.offSum / (s.clk.offN : Int)
    let s := wrE { s with clk := { s.clk with offSum := 0, offN := 0 } } 0x3100 4 (unsigned 32 avg)
    let far := avg < -64000 || 64000 < avg
    if !s.clk.aligned then .next (stepEpoch s avg)
    else if far && noJobs s then .next { s with clk := { s.clk with stepAt := some (frontAt (epoch s + 1)), stepBy := avg, slewLeft := 0 } }
    else .next (noteOffset { s with clk := { s.clk with slewLeft := -avg } } avg)

/-- What `n` fronts slew of an offset: at most 100 ps each. -/
def slewPart (left : Int) (n : Nat) : Int := max (-100 * (n : Int)) (min (100 * (n : Int)) left)

/-- The slew of `n` fronts, at least one; an unaligned follower keeps its last rate. -/
def slewFronts (s : State) (n : Nat) : State :=
  let c := s.clk
  if epochSource s = 0xFFFF then
    (if rdE s 0x3100 2 = 0 then { s with clk := { c with phase := c.phase + c.slewStep * (n : Int) } } else s)
  else
    let d := slewPart c.slewLeft n
    let last := slewPart (c.slewLeft - slewPart c.slewLeft (n - 1)) 1
    { s with clk := { c with phase := c.phase + d, slewLeft := c.slewLeft - d, slewStep := last } }

/-! ### Tile clocks (R454, R475, R481) -/

/-- The mode in force (0x2000:02). -/
def modeNow (s : State) : Nat := rdE s 0x2000 2

/-- The mode's allowance in MHz (R475); in Still the pinned clock. -/
def allowance (mode : Nat) : Nat := [1200, 1800, 2000, 1600].getD mode 1800

/-- The mode's cap in W. -/
def modeCap (mode : Nat) : Nat := [3500, 6000, 8000, 6000].getD mode 6000

/-- The cap in force (R381). -/
def capInForce (s : State) : Nat := min (rdE s 0x2100 1) (modeCap (modeNow s))

/-- The clock of a tile without the cap loop's term. -/
def clockFree (s : State) (t : Nat) : Nat :=
  let tl := getTile s t
  let m := min (allowance (modeNow s)) s.clk.limit
  let m := match tl.thr.ceiling with | some c => min m c | none => m
  if modeNow s = 3 then m
  else
    match tl.fall with | some (b, n) => min m (max 800 (b - 100 * n)) | none => m

/-- The tile clock in force: the lowest of its terms (R454), or the override of 0xF000:08. -/
def clockWanted (s : State) (t : Nat) : Nat :=
  if rdE s 0xF000 8 ≠ 0 then rdE s 0xF000 8
  else if modeNow s = 3 then clockFree s t
  else min (clockFree s t) s.clk.ceiling

/-- Tiles that have a clock: enabled, their rails up. -/
def clockedTiles (s : State) : List Nat := if s.boot.mainOn then (List.range 24).filter (bit (usableTiles s)) else []

/-- Every generator takes its clock; whether any changed. -/
def setClocks (s : State) : State × Bool :=
  (clockedTiles s).foldl (fun (x : State × Bool) t =>
    let w := clockWanted x.1 t
    if (getTile x.1 t).mhz = w then x else (modTile x.1 t (fun tl => { tl with mhz := w }), true)) (s, false)

/-! ### Times held (R473, R481) -/

/-- Some tile clock is below the mode's allowance because of f. -/
def capLimits (s : State) : Bool :=
  modeNow s ≠ 3 && (clockedTiles s).any (fun t =>
    tileOpen s t && (getTile s t).mhz = s.clk.ceiling && s.clk.ceiling < clockFree s t)

/-- Some tile is held by a throttle. -/
def throttleHolds (s : State) : Bool :=
  (clockedTiles s).any (fun t => (getTile s t).thr.on || (getTile s t).thr.skip || (getTile s t).thr.ceiling.isSome)

/-- A time counter in us that runs while a condition holds. -/
def runTimer (s : State) (holds : Bool) (since : Option Nat) (index sub : Nat) : State × Option Nat :=
  match since, holds with
  | none, true => (s, some s.now)
  | some t, false => (bumpN s index sub ((s.now - t) / usPs), none)
  | x, _ => (s, x)

/-- 0x2100:04 and 0x2300:08 start or stop. -/
def settleTimers (s : State) : State :=
  let (s, a) := runTimer s (capLimits s) s.pow.limitedSince 0x2100 4
  let (s, b) := runTimer s (throttleHolds s) s.pow.heldSince 0x2300 8
  { s with pow := { s.pow with limitedSince := a, heldSince := b } }

/-! ### Fall-back requests (R456, R457) -/

/-- FALL_BACK_REQUEST: refused in Still. -/
def execFallBackRequest (t : Nat) (s : State) : Out :=
  if !tileOpen s t || modeNow s = 3 then .next s
  else
    let s := bump s 0x3200 4
    .next (modTile s t (fun tl => { tl with
      fallPost := tl.fallPost ++ [frontAt (epoch s + 313)], fallLast := s.now, fallUp := false }))

/-- FALL_BACK_WITHDRAW: one step goes at each following front. -/
def execFallBackWithdraw (t : Nat) (s : State) : Out :=
  let tl := getTile s t
  if !tileOpen s t || tl.fall.isNone || tl.fallUp then .next s
  else .next (modTile (advanceTo s (tl.fallLast + 10 * msPs)) t (fun tl => { tl with fallUp := true }))

/-- What a front does to a tile's fall-back clock. -/
def fallFront (e : Nat) (tl : Tile) : Tile :=
  let n := (tl.fallPost.filter (· ≤ e)).length
  let tl := { tl with fallPost := tl.fallPost.filter (fun f => e < f) }
  if n ≠ 0 then
    { tl with fall := some (match tl.fall with | some (b, k) => (b, k + n) | none => (tl.mhz, n)) }
  else if tl.fallUp then
    match tl.fall with
    | some (b, k) => if k ≤ 1 then { tl with fall := none, fallUp := false } else { tl with fall := some (b, k - 1) }
    | none => { tl with fallUp := false }
  else tl

/-- What a front does to a tile's throttle ceiling (R481). -/
def throttleFront (e mode : Nat) (tl : Tile) : Tile :=
  match tl.thr.post with
  | some (c, f) =>
    if e < f then tl
    else if mode = 3 then { tl with thr := { tl.thr with post := none } }
    else { tl with thr := { tl.thr with post := none, ceiling := if 2000 ≤ c then none else some c, skip := tl.thr.on && tl.thr.drop && c ≤ 800 } }
  | none => tl

/-! ### Modes and limits at their fronts (R380, R386, R459 step 4, R475) -/

/-- Write 0x2000:01, and post the mode for its front; the answer carries the front. -/
def writeMode (s : State) (_sel : Tab Nat) (v : List Byte) : Effect :=
  let front := frontAt (epoch s + 8192)
  { s := { (wrE s 0x2000 1 (leNat v)) with clk := { s.clk with modeAt := some (leNat v, front) } }, data := leBytes 8 front }

/-- MODE_SELECT. -/
def execModeSelect (r : VdpReq) (s : State) : Out :=
  .next (vdpEntry s (atEntry r 0x2000 1) (fun _ _ v => leNat v ≤ 3) writeMode)

def clockOk (n : Nat) : Bool := 800 ≤ n && n ≤ 2000 && n % 25 = 0

/-- Write 0x3200:01, and post the limit for its front. -/
def writeLimit (s : State) (_sel : Tab Nat) (v : List Byte) : Effect :=
  let front := frontAt (epoch s + 8192)
  { s := { (wrE s 0x3200 1 (leNat v)) with clk := { s.clk with limitAt := some (leNat v, front) } }, data := leBytes 8 front }

/-- TILE_CLOCK_LIMIT. -/
def execTileClockLimit (r : VdpReq) (s : State) : Out :=
  .next (vdpEntry s (atEntry r 0x3200 1) (fun _ _ v => clockOk (leNat v)) writeLimit)

/-- On entry to Still a tile not held by throttling goes to its pinned clock (R475). -/
def unheldTile (tl : Tile) : Tile := if tl.thr.on then tl else { tl with thr := { tl.thr with ceiling := none, post := none } }

/-- MODE_CHANGE: the ceiling f becomes the new allowance, or stays if it is lower; on leaving
Still it starts at 1,600 MHz. -/
def takeMode (s : State) (m : Nat) : State :=
  let old := modeNow s
  let f := if old = 3 && m ≠ 3 then min 1600 (allowance m) else min s.clk.ceiling (allowance m)
  let s := { s with clk := { s.clk with modeAt := none } }
  if old = m then s
  else
    let c := { s.clk with ceiling := if m = 3 then s.clk.ceiling else f, ceilAt := none, ceilFront := epoch s }
    let s := { s with clk := c, pow := { s.pow with skip := 0, skipFront := false, skipEnd := 0, unreachable := 0, capUsed := none } }
    let s := if m = 3 then (List.range 24).foldl (fun s t => modTile s t unheldTile) s else s
    let s := wrE (wrE s 0x2000 2 m) 0x2000 3 (epoch s)
    wrE s 0x2000 4 ((rdE s 0x2000 4 + 1) % 2 ^ 32)

/-- Step 4 of R459: mode, limit, ceiling, throttle and fall-back as posted up to count `e`, then
one clock per tile. -/
def clocksAtFront (e : Nat) (s : State) : State :=
  let s := match s.clk.modeAt with | some (m, f) => if f ≤ e then takeMode s m else s | none => s
  let s := match s.clk.limitAt with
    | some (l, f) => if f ≤ e then { s with clk := { s.clk with limit := l, limitAt := none } } else s
    | none => s
  let s := match s.clk.ceilAt with
    | some (c, f) =>
      if f ≤ e then { s with clk := { s.clk with ceiling := c, ceilAt := none },
                             pow := { s.pow with skip := if s.pow.skipFront then min 2 s.pow.unreachable else s.pow.skip, skipFront := false } }
      else s
    | none => s
  let s := (clockedTiles s).foldl (fun s t => modTile s t (fun tl => throttleFront e (modeNow s) (fallFront e tl))) s
  let (s, changed) := setClocks s
  settleTimers (if changed then bump s 0x3200 6 else s)

end Sys2Proof.Machine
end

