-- ==== Sys2Proof/Machine/Mains.lean ====
section
/-!
DEFINITION. Loss of the main rails (15_power_thermal.md R482, R487, R488, 19_bringup.md R548,
R564, R572, R573): what is lost with them, and what the standby rail keeps.
-/
namespace Sys2Proof.Machine

/-- A tile without its rails: core maps, fault counts and mat marks stay, self-tests run anew from
READY (R146); its DRAM dies stay in self-refresh where their rail stays up. -/
def darkTile (warm : Bool) (tl : Tile) : Tile :=
  { fusedM := tl.fusedM, retiredM := tl.retiredM, pendingM := tl.pendingM, fusedV := tl.fusedV,
    retiredV := tl.retiredV, pendingV := tl.pendingV, fusedS := tl.fusedS, retiredS := tl.retiredS,
    pendingS := tl.pendingS, mats := tl.mats, confTile := tl.confTile, confM := tl.confM, confV := tl.confV,
    confS := tl.confS, dies := if warm then tl.dies else [] }

/-- The Seam clock of a tile stops: its row-rate step ends, and the cycles spent at it are counted
(R130). -/
def endRowStep (s : State) (t : Nat) : State := if (getTile s t).rowStep = 0 then s else setRowStep s t 0

/-- Long operations end with the rails, but for an image upload, which the Mantle runs. -/
def abortOps (s : State) : State :=
  (List.range 9).foldl (fun s id => if opRunning s id then endOp s id 4 0 (getOp s id).position else s) s

/-- A group holds an entry of the data plane. -/
def touchesDataPlane (g : Group) : Bool := g.staged.any (fun x => 0x2000 ≤ x.index && x.index < 0x8000)

/-- A group discarded at its front, or with the rails, is logged (R356, R488); the spec names
no class. -/
def dropGroup (s : State) (n : Nat) (g : Group) : State :=
  let s := { s with mantle := { s.mantle with groups := Tab.put {} s.mantle.groups n { g with state := 3, staged := [] } } }
  nextFree (report s { cls := openValue s % 256, detail := openNth s 1 % 2 ^ 32, tag := openNth s 2 })

/-- Armed groups that would touch the data plane are discarded (R488). -/
def dropArmed (s : State) : State :=
  s.mantle.groups.foldl (fun s e => if e.2.state = 1 && touchesDataPlane e.2 then dropGroup s e.1 e.2 else s) s

/-- The entries that are empty at every start (R564): plans and schedules. -/
def emptiedKey (k : Nat) : Bool :=
  (0x7400 ≤ k / 256 && k / 256 < 0x7500) || (0x7600 ≤ k / 256 && k / 256 < 0x7640 && k % 256 ≤ 3)

/-- The data-plane tables are empty. -/
def emptyTables (s : State) : State :=
  let s := { s with dict := s.dict.filter (fun e => !emptiedKey e.1), blobs := s.blobs.filter (fun e => !emptiedKey e.1) }
  wrE s 0x7300 1 0x100

/-- The host interface without its link (R572). -/
def hostDown (s : State) : State :=
  { s with host := { perst := s.host.perst, perstAt := s.host.perstAt }, mantle := { s.mantle with mbox := [] } }

/-- The SRAM of every tile is lost, and DRAM unless its rail stays up. -/
def loseMemory (s : State) (warm : Bool) : State :=
  { s with mem := if warm then s.mem.filter (fun e => e.1 < 2 ^ 50) else [],
           cells := if warm then s.cells.filter (fun e => e.1 < 2 ^ 40) else [],
           badRows := if warm then s.badRows else [] }

/-- Thermal Stage, 0x2300:01. -/
def worstStage (s : State) : Nat := s.pow.stages.foldl (fun m e => max m e.2) 0

/-- The thermal units of the dies that keep power: the DRAM dies where their rail stays up (R120,
R122). -/
def keptDies {α : Type} (warm : Bool) (l : Tab α) : Tab α :=
  if warm then l.filter (fun e => decide (52 ≤ e.1) && decide (e.1 < 124)) else []

/-- Clocks, power estimates, lasers and calibration without the main rails; a thaw returns to
Active (R547). -/
def unitsDown (s : State) (warm : Bool) : State :=
  let p := s.pow
  let s := { s with
    clk := { changed := s.now, limit := s.clk.limit }
    pow := { p with tileEst := [], pkgEst := [], offset := 0, estSum := 0, estN := 0, capUsed := none, skip := 0, skipFront := false, unreachable := 0, stages := keptDies warm p.stages, reached := keptDies warm p.reached, suspect := keptDies warm p.suspect, failed := keptDies warm p.failed }
    las := { own := s.las.own, stored := s.las.own }
    cal := {}
    fc := { s.fc with sleep := 0, closed := false, entry := none, next := none, waking := false, held := none } }
  wrE (wrE (wrE s 0x4000 1 0) 0x4000 5 0) 0x4000 6 0

/-- The main rails go off: the module is dark (R3).  In Hibernate the DRAM rail goes off too. -/
def mainOff (s : State) (warm : Bool) : State :=
  if !s.boot.mainOn && s.fc.sleep ≠ 3 then s
  else
    let s := wrE s 0x3000 7 (holdoverTime s)
    let s := abortOps (dropArmed s)
    let s := { s with boot := { s.boot with tilesOn := false, readyAt := none, mainOn := false, shutdown := none } }
    let s := (List.range 24).foldl (fun s t => modTile (endRowStep s t) t (darkTile warm)) s
    let s := settleTimers (unitsDown (pldmEvent s 11 (worstStage s) 0) warm)
    let s := hostDown (emptyTables (loseMemory s warm))
    { s with bas := {}, col := {}, hem := {}, fab := {}, adm := {}, baseSync := [], tested := [], guestSites := 0 }

end Sys2Proof.Machine
end

