-- ==== Sys2Proof/Machine/Power.lean ====
section
/-!
DEFINITION. Power and heat (15_power_thermal.md R468 to R488, 12_dictionary_reference.md R381
to R383, 04_tile_memory.md R120, R129): estimates, the cap loop, housekeeping, stages of the
dies, throttling, thermal shutdown, rail and input faults.
-/
namespace Sys2Proof.Machine

/-! ### Estimates (R470) -/

/-- TILE_POWER_ESTIMATE. -/
def execTilePowerEstimate (t total dyn : Nat) (s : State) : Out :=
  if !(clockedTiles s).contains t then .next s
  else .next { s with pow := { s.pow with tileEst := Tab.mod [] s.pow.tileEst t (fun l => lastN 5 (l ++ [(total, dyn)])) } }

/-- The sum over the tiles of the mean of each tile's last five estimates (the first of each
pair, or the second). -/
def tilesPower (s : State) (f : Nat × Nat → Nat) : Nat :=
  (s.pow.tileEst.map (fun e => (e.2.map f).sum / e.2.length)).sum

/-- The cap that the running iteration uses (R381). -/
def capNow (s : State) : Nat := s.pow.capUsed.getD (capInForce s)

/-! ### The cap loop (R471 to R474) -/

/-- The skip demand of R472 and R474. -/
def settleSkip (s : State) : State :=
  let r472 := b2n (s.pow.skipFront || s.pow.skipEnd ≠ 0)
  { s with pow := { s.pow with skip := max r472 (min 2 s.pow.unreachable) } }

/-- The ceiling that an iteration asks for: sums of package estimates and of dynamic parts
over `n` estimates, cap, ceiling in force, allowance.  The quotient by no dynamic power is a
free value. -/
def nextCeiling (free sp sd n c f fmax : Nat) : Nat :=
  if n * c < sp then
    let k := if sd = 0 then (Config.openField free 0).toNat else ceilDiv ((sp - n * c) * f) (sd * 25)
    max 800 (f - 25 * k)
  else if 100 * sp < 97 * n * c && f < fmax then
    let k := min 4 (if sd = 0 then (Config.openField free 0).toNat else (97 * n * c - 100 * sp) * f / (sd * 2500))
    if 1 ≤ k then min fmax (f + 25 * k) else f
  else f

/-- R474: at 800 MHz above the cap, the skips rise and the event is logged; below it they end. -/
def judgeReach (s : State) (sp n c : Nat) : State :=
  if s.clk.ceiling ≤ 800 && n * c < sp then
    let k := s.pow.unreachable + 1
    let s := settleSkip { s with pow := { s.pow with unreachable := k } }
    if k = 2 then nextFree (report s { cls := 0x62, detail := sp / n, tag := openNth s 1 }) else s
  else if sp < n * c then settleSkip { s with pow := { s.pow with unreachable := 0 } }
  else s

/-- One iteration over the estimates of its window; a window that began before the front of
the last change changes nothing. -/
def iterate (s : State) : State :=
  let n := s.pow.pkgEst.length
  let late := (epoch s + 2 ^ 64 - s.pow.iterAt) % 2 ^ 64
  let sinceFront := (epoch s + 2 ^ 64 - s.clk.ceilFront) % 2 ^ 64
  if n = 0 || s.clk.ceilAt.isSome || sinceFront < late then s
  else
    let sp := (s.pow.pkgEst.map (·.1)).sum
    let sd := (s.pow.pkgEst.map (·.2)).sum
    let f := s.clk.ceiling
    let f' := nextCeiling s.free sp sd n (capNow s) f (allowance (modeNow s))
    let s := judgeReach (if sd = 0 then nextFree s else s) sp n (capNow s)
    if f' = f then s
    else
      let front := frontAt (epoch s + 313)
      { s with clk := { s.clk with ceilAt := some (f', front), ceilFront := front } }

/-- CAP_LOOP_ITERATION: in Still the loop does not run. -/
def execCapLoopIteration (s : State) : Out :=
  if !s.boot.mainOn then .next s
  else
    let s := atCount s ((s.pow.iterAt + 15625) % 2 ^ 64)
    let s := if modeNow s = 3 then s else iterate s
    .next { s with pow := { s.pow with iterAt := epoch s, capUsed := some (capInForce s), pkgEst := [] } }

/-- CAP_OUT_OF_TURN (R472). -/
def outOfTurn (s : State) : State :=
  let before := s.clk.ceilAt
  let s := iterate s
  let moved := s.clk.ceilAt ≠ before
  settleSkip { s with pow := { s.pow with skipFront := moved || s.pow.skipFront, skipEnd := if moved then 0 else s.now + 100 * usPs } }

/-- STILL_CAP_SKIP (R475). -/
def stillSkip (s : State) (p : Nat) : State :=
  let c := capInForce s
  let k := if 11 * c < 10 * p then 2 else if c < p then 1 else if 100 * p < 97 * c then 0 else s.pow.skip
  { s with pow := { s.pow with skip := k } }

/-- PACKAGE_POWER_ESTIMATE. -/
def execPackagePowerEstimate (fixed : Nat) (s : State) : Out :=
  if !s.boot.mainOn then .next s
  else
    let p := (((tilesPower s (·.1) + fixed : Nat) : Int) + s.pow.offset).toNat
    let s := wrE s 0x2100 3 p
    let w := s.pow
    let s := { s with pow := { w with pkgEst := lastN 10 (w.pkgEst ++ [(p, tilesPower s (·.2))]), estSum := w.estSum + p, estN := w.estN + 1 } }
    if modeNow s = 3 then .next (stillSkip s p)
    else if 11 * capNow s < 10 * p then .next (outOfTurn s)
    else .next s

/-- CAP_SKIP_END. -/
def execCapSkipEnd (s : State) : Out :=
  if s.pow.skipEnd = 0 then .next s
  else
    let s := advanceTo s s.pow.skipEnd
    .next (settleSkip { s with pow := { s.pow with skipEnd := 0 } })

/-- POWER_CAP (R381). -/
def execPowerCap (r : VdpReq) (s : State) : Out :=
  .next (vdpEntry s (atEntry r 0x2100 1) (fun _ _ v => 1000 ≤ leNat v && leNat v ≤ 8000) (fun s _ v => { s := wrE s 0x2100 1 (leNat v) }))

/-! ### Housekeeping (R382, R383, R470, R487) -/

/-- The energy of 10 ms at mV and mA, in 0.01 uJ, is their product; 100,000 make 1 mJ. -/
def countEnergy (s : State) (mv ma : Nat) : State :=
  let e := s.pow.energyRest + mv * ma
  let s := bumpN { s with pow := { s.pow with energyRest := e % 100000 } } 0x2200 1 (e / 100000)
  wrB s 0x2200 2 (leBytes 8 (rdE s 0x2200 1) ++ leBytes 8 (epoch s))

/-- The offset of the estimates: measured input power less their mean, within 400 W. -/
def settleOffset (s : State) (mv ma : Nat) : State :=
  if s.pow.estN = 0 then s
  else
    let n : Int := s.pow.estN
    let d : Int := (((mv * ma : Nat) : Int) * n - (s.pow.estSum : Int) * 1000000) / (1000000 * n)
    { s with pow := { s.pow with offset := max (-400) (min 400 d), estSum := 0, estN := 0 } }

/-- The input as the round finds it: within 40 to 60 V since when; an excursion is logged
once a minute while the main rails run (R487). -/
def noteInput (s : State) (mv : Nat) : State :=
  let good := 40000 ≤ mv && mv ≤ 60000
  let s := { s with pow := { s.pow with inputGood := if good then some (s.pow.inputGood.getD s.now) else none } }
  if good then { s with pow := { s.pow with noted := none } }
  else if !s.boot.mainOn || mv < 38000 || 62000 < mv then s
  else if (match s.pow.noted with | some t => decide (s.now < t + 60 * secPs) | none => false) then s
  else nextFree (report { s with pow := { s.pow with noted := some s.now } } { cls := 0x63, detail := openValue s % 2 ^ 32, tag := openNth s 1 })

/-- The die index of R383 is powered and not held in reset. -/
def diePowered (s : State) (i : Nat) : Bool :=
  if i < 24 then s.boot.mainOn && !bit s.fusedTiles i && (getTile s i).reset.isNone
  else if i < 52 then s.boot.mainOn
  else if i < 124 then
    !bit s.fusedTiles ((i - 52) / 3) && (s.boot.mainOn || (Tab.get {} (getTile s ((i - 52) / 3)).dies ((i - 52) % 3)).state ≠ 0)
  else if i < 132 then laserDie s (i - 124) = 1 || Tab.get false s.las.checks (i - 124)
  else if i = 132 then s.boot.mainOn
  else if i = 133 then s.mantle.dieA ≠ 0 && s.mantle.dieA ≠ 4
  else if i = 134 then s.mantle.dieB ≠ 0 && s.mantle.dieB ≠ 4
  else s.boot.mainOn && bit s.guestSites (24 + (i - 135))

/-- A die's temperature as read; one not yet sampled is a free value. -/
def dieReading (s : State) (i : Nat) : Nat :=
  if !diePowered s i then 0x7FFF
  else match Tab.get none s.pow.temps i with
    | some x => unsigned 16 x
    | none => openValue s % 65536

/-- The round reads every sensor into 0x2300:02 and 0x2300:03. -/
def readSensors (s : State) : State :=
  let s1 := wrB s 0x2300 2 ((List.range 139).flatMap (fun i => leBytes 2 (dieReading s i)))
  nextFree (wrB s1 0x2300 3 ((List.range 139).map (fun i =>
    if diePowered s i then BitVec.ofNat 8 (if i < 132 then stageOf s i else 0) else 0xFF#8)))

/-- HOUSEKEEPING_ROUND. -/
def execHousekeepingRound (mv ma : Nat) (s : State) : Out :=
  if !s.boot.standby then .next s
  else
    let s := wrE (wrE s 0x2200 3 (mv % 2 ^ 32)) 0x2200 4 (ma % 2 ^ 32)
    .next (readSensors (noteInput (settleOffset (countEnergy s mv ma) mv ma) mv))

/-! ### Stages (R477, R478) -/

/-- Warning, throttle and shutdown thresholds and hysteresis of a die, in 0.1 degree C. -/
def thresholds (i : Nat) : List Int × Int :=
  if i < 24 then ([950, 1050, 1180], 50)
  else if i < 52 then ([800, 850, 950], 50)
  else if i < 124 then ([850, 950, 1050], 50)
  else ([600, 650, 750], 30)

/-- Row and column of the field under a tile (R18). -/
def tileRow (t : Nat) : Nat := t / 6
def tileCol (t : Nat) : Nat := if t % 6 < 3 then t % 6 else t % 6 + 1

/-- The die index of the field under a tile. -/
def fieldUnder (t : Nat) : Nat := 24 + 7 * tileRow t + tileCol t

/-- The dies of a tile's stack. -/
def stackDies (t : Nat) : List Nat := [t, fieldUnder t, 52 + 3 * t, 53 + 3 * t, 54 + 3 * t]

/-- The tile whose stack holds a die. -/
def stackOf (i : Nat) : Option Nat := (List.range 24).find? (fun t => (stackDies t).contains i)

def sensorFailed (s : State) (i : Nat) : Bool := Tab.get false s.pow.failed i

/-- The shutdown threshold is 10 degrees lower beside a failed sensor of the stack (R515). -/
def thresholdsNow (s : State) (i : Nat) : List Int :=
  let l := (thresholds i).1
  match stackOf i with
  | some t => if (stackDies t).any (fun j => j ≠ i && sensorFailed s j) then [l.getD 0 0, l.getD 1 0, l.getD 2 0 - 100] else l
  | none => l

/-- The stages whose threshold a temperature reaches. -/
def levelOf (ths : List Int) (x : Int) : Nat := ((ths.zip [1, 2, 3]).filter (fun e => e.1 ≤ x)).foldl (fun m e => max m e.2) 0

/-- The stage after a sample: entered after two samples at or above its threshold, left below
the threshold less the hysteresis. -/
def stageAfter (ths : List Int) (hyst : Int) (old last : Nat) (x : Int) : Nat :=
  let up := min last (levelOf ths x)
  let kept := levelOf (ths.map (fun t => t - hyst)) x
  max up (min old kept)

/-! ### Throttling a tile clock (R480, R481) -/

/-- The dies whose throttle stage holds a tile clock (R479). -/
def governors (t : Nat) : List Nat :=
  [t, fieldUnder t] ++ (if tileCol t = 2 || tileCol t = 4 then [24 + 7 * tileRow t + 3] else [])

/-- A governing die is at throttle. -/
def throttled (s : State) (t : Nat) : Bool := (governors t).any (fun i => 2 ≤ stageOf s i)

/-- The hottest governing die at throttle. -/
def throttleTemp (s : State) (t : Nat) : Int :=
  ((governors t).filter (fun i => 2 ≤ stageOf s i)).foldl (fun m i => max m ((Tab.get none s.pow.temps i).getD (-2000))) (-2000)

/-- A tile clock is throttled: skips at once, and outside Still half the clock at a front. -/
def enterThrottle (s : State) (t : Nat) : State :=
  let tl := getTile s t
  let half := max 800 (tl.mhz / 2 / 25 * 25)
  let post := if modeNow s = 3 then tl.thr.post else some (half, frontAt (epoch s + 313))
  let x : Throttle := { tl.thr with on := true, skip := true, post := post, drop := false, since := s.now, temp := throttleTemp s t }
  modTile s t (fun tl => { tl with thr := x })

/-- The throttle's demand ends at once. -/
def leaveThrottle (s : State) (t : Nat) : State :=
  let still := modeNow s = 3
  modTile s t (fun tl => { tl with thr := { tl.thr with
    on := false, skip := false, drop := false, since := s.now, ceiling := if still then none else tl.thr.ceiling, post := if still then none else tl.thr.post } })

/-- A tile's throttle follows the dies that govern it: one ceiling for all of them. -/
def settleThrottle (s : State) (t : Nat) : State :=
  if throttled s t = (getTile s t).thr.on then s
  else if throttled s t then enterThrottle s t
  else leaveThrottle s t

/-- THROTTLE_CEILING_DROP: a fall of 1 degree starts the 10 ms again. -/
def execThrottleCeilingDrop (t : Nat) (s : State) : Out :=
  let x := (getTile s t).thr
  match x.ceiling, x.on && modeNow s ≠ 3 with
  | some c, true =>
    let s := advanceTo s (x.since + 10 * msPs)
    let temp := throttleTemp s t
    let y : Throttle := { x with since := s.now, temp := temp }
    let y : Throttle := if temp + 10 ≤ x.temp then y else { y with post := some (max 800 (c - 200), frontAt (epoch s + 1)), drop := true }
    .next (modTile s t (fun tl => { tl with thr := y }))
  | _, _ => .next s

/-- THROTTLE_RECOVERY_STEP. -/
def execThrottleRecoveryStep (t : Nat) (s : State) : Out :=
  let x := (getTile s t).thr
  match x.ceiling, !x.on && modeNow s ≠ 3 with
  | some c, true =>
    let s := advanceTo s (x.since + 10 * msPs)
    .next (modTile s t (fun tl => { tl with thr := { x with since := s.now, post := some (c + 100, frontAt (epoch s + 1)), drop := false } }))
  | _, _ => .next s

/-! ### What a change of stage does (R120, R129, R130, R479, R482, R484, R485) -/

/-- A report about a die's stage. -/
def stageReport (s : State) (i : Nat) (x : Int) : State :=
  let (kind, place) := if i < 24 then (1, i) else if i < 52 then (13, i - 24) else if i < 124 then (5, (i - 52) / 3) else (9, i - 124)
  report s { cls := 0x60, kind := kind, place := place, unit := if 52 ≤ i && i < 124 then (i - 52) % 3 else 0xFFFF,
             logical := if i < 24 then logicalTile s i else none, detail := unsigned 32 x, tag := i }

/-- The row-rate step falls at once to that of the stage; once no die holds it, its 10 ms run. -/
def settleRows (s : State) (t old new : Nat) : State :=
  let n := (getTile s t).rowStep
  let want := min 2 (tileStage s t)
  let needs := if n = 1 then 1 else 2
  if !s.boot.mainOn then s
  else if n < want then setRowStep s t want
  else if n ≠ 0 && needs ≤ old && new < needs && !stepHolds s t n then modTile s t (fun tl => { tl with rowCalm := s.now })
  else s

/-- The shutdowns of the last 3,600 s (0x2300:05). -/
def lastHour (s : State) : List Nat := s.pow.shutdowns.filter (fun t => s.now < t + 3600 * secPs)

/-- Module shutdown (R482): the hardware path fires, the shutdown is logged and counted, and
the third within an hour sets the latch (R484). -/
def thermalShutdown (s : State) (i : Nat) (x : Int) : State :=
  let s := mainOff s false
  let l := lastHour s ++ [s.now]
  let s := { s with pow := { s.pow with thermalOff := true, cool := none, shutdowns := l } }
  let s := report s { cls := 0x61, detail := unsigned 32 x, tag := i }
  let s := persist (wrE s 0x2300 4 ((rdE s 0x2300 4 + 1) % 2 ^ 32)) 0x2300 4
  if l.length = 3 then persist (wrE s 0x2300 6 1) 0x2300 6 else s

/-- A laser die's own shutdown (R485); it is no module shutdown. -/
def laserShutdown (s : State) (k : Nat) : State :=
  let was := laserDie s k = 1
  let s := { (setLaserDie s k 0) with las := { (setLaserDie s k 0).las with checks := Tab.put false s.las.checks k false } }
  let s := report s { cls := 0x4C, kind := 9, place := k, detail := laserLines (k / 2), tag := epoch s }
  if was then laserCause s (k / 2) else s

/-- The actions of R479 for a die whose stage has changed. -/
def stageActions (s : State) (i old new : Nat) (x : Int) : State :=
  let s := if old = 0 && 1 ≤ new && !(52 ≤ i && i < 124) then stageReport s i x else s
  if 124 ≤ i then
    if old < 3 && new = 3 then laserShutdown s (i - 124)
    else if old < 2 && new = 2 then laserThrottle s (i - 124) (unsigned 32 x)
    else s
  else if new = 3 then thermalShutdown s i x
  else
    let s := if 52 ≤ i then modDie s ((i - 52) / 3) ((i - 52) % 3) (fun d => { d with interval := [32, 16, 8].getD new 8 }) else s
    let s := if i < 24 then settleRows s i old new else if 52 ≤ i then settleRows s ((i - 52) / 3) old new else s
    ((clockedTiles s).filter (fun t => (governors t).contains i)).foldl settleThrottle s

/-- A die takes a stage; a change of the worst stage raises HB_STAT.THERMAL. -/
def takeStage (s : State) (i new : Nat) (x : Int) : State :=
  let old := stageOf s i
  if old = new then s
  else
    let w := worstStage s
    let s := { s with pow := { s.pow with stages := Tab.put 0 s.pow.stages i new } }
    let w' := worstStage s
    let s := if w = w' then s else pldmEvent (raiseAllHb s 2) 11 w w'
    settleTimers (stageActions s i old new x)

/-! ### Samples (R477, R515) -/

/-- Every diode is below its warning threshold less its hysteresis, as far as sampled. -/
def allCool (s : State) : Bool :=
  s.pow.temps.all (fun e => match e.2 with
    | some x => 132 ≤ e.1 || decide (x < (thresholds e.1).1.getD 0 0 - (thresholds e.1).2)
    | none => true)

/-- Since when every diode has been cool (R483). -/
def settleCool (s : State) : State :=
  { s with pow := { s.pow with cool := if allCool s then some (s.pow.cool.getD s.now) else none } }

/-- The range check of R515 on a sample. -/
def suspectSample (s : State) (i : Nat) (x : Int) : Bool :=
  x < -200 || 1500 < x || (match Tab.get none s.pow.temps i with | some y => x < y - 100 || y + 100 < x | none => false)

/-- A sensor found failed: its die is held at throttle until the next power-up. -/
def failSensor (s : State) (i : Nat) (x : Int) : State :=
  let s := { s with pow := { s.pow with failed := Tab.put false s.pow.failed i true } }
  let s := report s { cls := 0x64, kind := 16, place := i, detail := unsigned 32 x, tag := i }
  takeStage s i (max 2 (stageOf s i)) x

/-- One sample of a stage's die. -/
def judgeSample (s : State) (i : Nat) (x : Int) : State :=
  let bad := suspectSample s i x
  if bad && Tab.get false s.pow.suspect i then failSensor s i x
  else
    let last := Tab.get 0 s.pow.reached i
    let ths := thresholdsNow s i
    let new := stageAfter ths (thresholds i).2 (stageOf s i) last x
    let p := s.pow
    let s := { s with pow := { p with suspect := Tab.put false p.suspect i bad, reached := Tab.put 0 p.reached i (levelOf ths x),
                                      temps := if bad then p.temps else Tab.put none p.temps i (some x) } }
    takeStage s i new x

/-- TEMPERATURE_SAMPLE: a die without power is read from the standby rail for thaw alone; the
host bridge, Mantle and guest dies have no stages (R383). -/
def execTemperatureSample (die : Nat) (temp : Int) (s : State) : Out :=
  if !s.boot.standby || 139 ≤ die then .next s
  else if 132 ≤ die || !diePowered s die then
    .next (settleCool { s with pow := { s.pow with temps := Tab.put none s.pow.temps die (some temp) } })
  else if sensorFailed s die then .next s
  else .next (settleCool (judgeSample s die temp))

/-- RELEASE_THERMAL_LATCH: the 60 s of thaw run from the release (R484). -/
def releaseLatch (s : State) (_sel : Tab Nat) (_v : List Byte) : Effect :=
  if !allCool s then { s := s, status := stRefused }
  else { s := persist (wrE { s with pow := { s.pow with cool := some s.now } } 0x2300 6 0) 0x2300 6 }

def execReleaseThermalLatch (r : VdpReq) (s : State) : Out :=
  .next (vdpEntry s (atEntry r 0x2300 7) anyValue releaseLatch)

/-! ### Rail and input faults (R486 to R488) -/

/-- RAIL_FAULT: tile reset, without a confirmed fault; the throttle ceiling is reset. -/
def execRailFault (t : Nat) (s : State) : Out :=
  if !(clockedTiles s).contains t then .next s
  else
    let s := tileReport s 0x1A t 0 0
    let s := modTile s t (fun tl => { tl with railLow := true, thr := {} })
    .next (settleTimers (tileReset s t 2 0))

/-- RAIL_RECOVERY: the tile leaves reset, and the throttle applies again. -/
def execRailRecovery (t : Nat) (s : State) : Out :=
  if !(clockedTiles s).contains t || !(getTile s t).railLow then .next s
  else
    let s := finishReset (modTile s t (fun tl => { tl with railLow := false })) t
    .next (settleTimers (settleThrottle s t))

/-- INPUT_FAULT: not a thermal shutdown. -/
def execInputFault (s : State) : Out :=
  let was := s.boot.mainOn
  let s := mainOff s false
  let s := { s with pow := { s.pow with inputOff := s.boot.standby, inputGood := none } }
  .next (if was then nextFree (report s { cls := 0x63, detail := openValue s % 2 ^ 32, tag := openNth s 1 }) else s)

end Sys2Proof.Machine
end

