-- ==== Sys2Proof/Machine/Calibrate.lean ====
section
/-!
DEFINITION. Calibration (16_calibration.md R489 to R508, 12_dictionary_reference.md R387):
full calibration, units marked failed, the rotation, Seam tracking, channel recalibration.
-/
namespace Sys2Proof.Machine

/-! ### Channels (R558) -/

/-- The unit that a channel ID belongs to: a Seam channel has one for all its groups. -/
def unitOfId (id : Nat) : Nat := if 5 ≤ idKind id then id / 4096 * 4096 else id

/-! ### Units marked failed (R497) -/

/-- 0x4000:05 and :06. -/
def countMarks (s : State) : State :=
  let lanes := countP (fun id => decide (idKind id < 3)) s.cal.marked
  let seams := countP (fun id => decide (5 ≤ idKind id)) s.cal.marked
  wrE (wrE s 0x4000 5 lanes) 0x4000 6 seams

/-- A circuit-port crossing failed: the port carries no data. -/
def deadPort (s : State) (key : Nat) : State :=
  let s := modPort s key (fun p => { p with failed := 0x1FFFF })
  let s := reagree s key 0x1FFFF
  if (getPort s key).role = 3 then modPort s key (fun p => { p with up := false, far := none }) else s

/-- A row-port or command crossing's DRAM die is Failed. -/
def deadDie (s : State) (t port : Nat) : State := modDie s t (port / 6) (fun d => { d with state := 4 })

/-- The effect of a failed unit. -/
def failUnit (s : State) (id : Nat) : State :=
  let p := idPlace id
  let u := idUnit id
  let l := idDetail id % 32
  match idKind id with
  | 0 =>
    let key := portKey p u
    reagree (modPort s key (fun x => { x with failed := setBit x.failed l true })) key (2 ^ l)
  | 1 => moveMeshLane (modStation s p (fun x => { x with failed := setBit x.failed l true })) p l
  | 2 =>
    let g := lineOwner s p l
    let s := { s with hem := { s.hem with failed := Tab.mod 0 s.hem.failed p (fun m => setBit m l true) } }
    downWithoutLanes s p g
  | 5 => deadPort s (portKey p u)
  | 6 | 7 => tileReset (confirmedFault s (.tile p)) p 4 0
  | 8 | 9 => tileReset (confirmedFault (deadDie s p u) (.tile p)) p 4 0
  | _ => s

/-- The unit kind and place of a channel in a record (R519). -/
def idReport (s : State) (id quantity : Nat) : State :=
  let p := idPlace id
  let (kind, unit) := match idKind id with
    | 0 | 5 => (6, idUnit id)
    | 1 | 6 => (7, 0xFFFF)
    | 2 => (8, lineOwner s p (idDetail id % 32))
    | 8 | 9 => (5, idUnit id / 6)
    | _ => (1, 0xFFFF)
  report s { cls := 0x68, kind := kind, place := p, unit := unit, detail := s.cal.stage % 256 + quantity % 256 * 256,
             tag := (getOp s 1).position }

/-- A unit is marked failed, logged and counted, once. -/
def markUnit (s : State) (e : Nat × Nat) : State :=
  let id := unitOfId e.1
  if s.cal.marked.contains id then s
  else
    let s := idReport { s with cal := { s.cal with marked := s.cal.marked ++ [id] } } e.1 e.2
    countMarks (failUnit s id)

def countThird (s : State) (n : Nat) : State := bumpN s 0x4000 7 n

/-! ### Full calibration (R494 to R500) -/

/-- Compute dies and guest dies present. -/
def builtTiles (s : State) : Nat := (enabledTiles s).length
def guestCount (s : State) : Nat := popBelow (s.guestSites / 2 ^ 24) 4

/-- Units that end with a stage (R495). -/
def unitsOfStage (s : State) (k : Nat) : Nat :=
  match k with
  | 3 => 64 * 17
  | 4 => (16 * builtTiles s + 8 + builtTiles s + 1) * 17 + 85 * guestCount s
  | 5 => 18 * builtTiles s
  | 6 => 36 * builtTiles s
  | _ => 0

def unitsTotal (s : State) : Nat := ((List.range 7).map (unitsOfStage s)).sum

/-- Every lane is out of service: circuits wait to train, steps are abandoned. -/
def lanesOut (s : State) : State :=
  let out : Port → Port := fun p => { p with
    up := p.role = 3 && p.up, training := p.role ≠ 3 && (p.up || p.training), recal := none, switching := false }
  { s with cal := { s.cal with step := none }, bas := { s.bas with ports := s.bas.ports.map (fun e => (e.1, out e.2)) } }

/-- Failed lines and channels return for measurement, but for those of the pattern test. -/
def clearMarks (s : State) : State :=
  let port : Port → Port := fun p => { p with failed := 0 }
  let station : Station → Station := fun x => { x with failed := 0, rxSpare := [] }
  let s := { s with
    bas := { s.bas with ports := s.bas.ports.map (fun (e : Nat × Port) => (e.1, port e.2)), stations := s.bas.stations.map (fun (e : Nat × Station) => (e.1, station e.2)) }
    hem := { s.hem with failed := [] }
    cal := { s.cal with marked := s.cal.pattern } }
  countMarks (s.cal.marked.foldl failUnit s)

/-- Operation 0x0001 starts. -/
def beginCalibration (s : State) : State :=
  let s := startOp s 1 (unitsTotal s) 0
  let s := { s with cal := { s.cal with stage := 1, since := s.now, fatal := false, step := none } }
  putOp s 1 { getOp s 1 with result := 1 }

/-- START_CALIBRATION: BUSY while it runs; refused without main rails, and before calibration
in start-up. -/
def startCalibration (s : State) (_sel : Tab Nat) (_v : List Byte) : Effect :=
  if opRunning s 1 then { s := s, status := stBusy }
  else if !s.boot.mainOn || (s.boot.readyAt.isNone && s.boot.result ≠ 3) then { s := s, status := stRefused }
  else { s := beginCalibration (clearMarks (lanesOut s)) }

def execStartCalibration (r : VdpReq) (s : State) : Out :=
  .next (vdpEntry s (atEntry r 0x4000 2) anyValue startCalibration)

/-- A lane group whose transmitter is squelched: its unacknowledged frames are discarded as
R266 counts them, and its packets fail DOWN. -/
def squelchGroup (s : State) (key : Nat) : State :=
  let link := key / 16
  let g := key % 16
  if (getGroup s link g).state = 0 then s
  else dropTraffic s (linkStation s link) link g 0 1 (controlSpace s (linkStation s link))

/-- Every lane group that satisfies `p` is squelched. -/
def squelchGroups (s : State) (p : Nat → Bool) : State :=
  (s.hem.groups.map (·.1)).foldl (fun s k => if p (k / 16) then squelchGroup s k else s) s

/-! ### Settings (R489 to R493, R498, R502) -/

/-- The line of a lane's channel is lost with its laser group: it is not measured (R495, R508). -/
def lineGone (s : State) (id : Nat) : Bool := idKind id < 3 && !bit (usableLines s) (idDetail id % 32)

/-- The stage at which a quantity is calibrated (R494). -/
def stageOfMeasure (m : Measure) : Nat :=
  if m.quantity < 3 then m.quantity + 1
  else if m.quantity < 6 then 4
  else if idKind m.id < 8 then 5 else 6

/-- A quantity of a full or a channel calibration: its setting is decided and applied, or its unit is
marked failed. -/
def calibrateOne (s : State) (m : Measure) : State :=
  if lineGone s m.id then s
  else match settingOf m with
    | some v => applySetting s m v
    | none => markUnit s (m.id, m.quantity)

/-- A quantity recalibrated in service: a correction beyond its largest is not applied, and the line
is marked failed (R504, R505). -/
def recalibrateOne (s : State) (m : Measure) : State :=
  if lineGone s m.id then s
  else match settingOf m with
    | some v =>
      if resultGap m.quantity v (settingNow s m) ≤ largestCorrection m.quantity then applySetting s m v
      else markUnit s (m.id, m.quantity)
    | none => markUnit s (m.id, m.quantity)

/-- The measurement is of a receiver of a mesh receive group: by path (receiving station * 2 + group)
and line. -/
def ofMeshReceiver (k : Nat × Nat) (m : Measure) : Bool :=
  idKind m.id = 1 && 3 ≤ m.quantity && m.quantity ≤ 5 && m.path = k.1 && idDetail m.id % 32 = k.2

/-- A receiver fails, and not the lanes it was measured on: it fails on the buses of two sources or
more, and on every one that it was measured on (R166, R498; DEDUCED, log 103). -/
def receiverFails (ms : List Measure) (k : Nat × Nat) : Bool :=
  let l := ms.filter (ofMeshReceiver k)
  2 ≤ ((l.map (fun m => idPlace m.id)).eraseDups).length && l.all (fun m => (settingOf m).isNone)

/-- The spare of a receive group stands in for a failed receiver (R166), once. -/
def takeSpare (a : State × List Measure) (k : Nat × Nat) : State × List Measure :=
  let dst := k.1 / 2
  if !receiverFails a.2 k || Tab.get 0 (getStation a.1 dst).rxSpare (k.1 % 2) ≠ 0 then a
  else
    let s := modStation a.1 dst (fun x => { x with rxSpare := Tab.put 0 x.rxSpare (k.1 % 2) (k.2 + 1) })
    (wrE s (0x4300 + dst) 5 ((rdE s (0x4300 + dst) 5 + 1) % 2 ^ 32), a.2.filter (fun m => !ofMeshReceiver k m))

/-- Spare receivers stand in for those that the measurements of stage 4 find failed; what is left
decides the lanes. -/
def spareReceivers (s : State) (ms : List Measure) : State × List Measure :=
  (((ms.filter (fun m => idKind m.id = 1)).map (fun m => (m.path, idDetail m.id % 32))).eraseDups).foldl takeSpare (s, ms)

/-- A failure that ends the calibration FAILED: reference arrival of a field, or the rings of a
laser bus (R497). -/
def fatalMeasure (m : Measure) : Bool := (m.quantity = 0 || (m.quantity = 1 && idKind m.id = 4)) && (settingOf m).isNone

/-- CALIBRATION_STAGE_DONE: Hem transmitters are squelched from stage 2 on, and lane groups
train again after stage 3. -/
def execCalibrationStageDone (fields lines groups : List Measure) (s : State) : Out :=
  let k := s.cal.stage
  if !opRunning s 1 || k = 0 || 6 < k then .next s
  else
    let ms := (fields ++ lines ++ groups).filter (fun m => stageOfMeasure m = k)
    let fatal := ms.any fatalMeasure
    let x := spareReceivers s (ms.filter (fun m => !fatalMeasure m))
    let s := countThird (x.2.foldl calibrateOne x.1) (thirdPasses ms)
    let o := getOp s 1
    let next := if fatal || k = 6 then 7 else k + 1
    let s := putOp s 1 { o with position := o.position + unitsOfStage s k, result := if next = 7 then k else next }
    let s := { s with cal := { s.cal with stage := next, fatal := s.cal.fatal || fatal } }
    .next (if k = 1 then squelchGroups s (fun _ => true) else s)

/-- FAILED: every transmitter of the package stays squelched (R499). -/
def squelchAll (s : State) : State :=
  let out : Port → Port := fun p => { p with up := false, training := false }
  squelchGroups { s with bas := { s.bas with ports := s.bas.ports.map (fun e => (e.1, out e.2)) } } (fun _ => true)

/-- Tiles and DRAM dies that were held out by a failed channel, and now passed, return. -/
def releaseHeld (s : State) : State :=
  (List.range 24).foldl (fun s t =>
    if seamHeld s t then s
    else
      let s := (List.range 3).foldl (fun s d => if (getDie s t d).state = 4 then modDie s t d (fun x => { x with state := 1 }) else s) s
      match (getTile s t).reset with
      | some r => if r.cause = 4 then finishReset s t else s
      | none => s) s

/-- CALIBRATION_DONE (R496, R499). -/
def execCalibrationDone (s : State) : Out :=
  if !opRunning s 1 || s.cal.stage ≠ 7 then .next s
  else
    let v := if s.cal.fatal then 3 else if s.cal.marked.isEmpty then 1 else 2
    let o := getOp s 1
    let ready := s.boot.readyAt.isSome
    let s := wrE (wrE s 0x4000 1 v) 0x4000 8 ((s.now - s.cal.since) / msPs % 2 ^ 32)
    let s := endOp s 1 (if v = 3 then 3 else 2) (v * 2 ^ 24) (if v = 3 then o.position else o.total)
    let s := { s with cal := { s.cal with stage := 0 } }
    if v = 3 then
      let s := report (squelchAll s) { cls := 0x69, detail := o.result % 256 + (if o.result = 1 then 0 else 256), tag := o.position }
      .next (if ready then s else { s with boot := { s.boot with result := 3 } })
    else
      let s := releaseHeld s
      .next (if ready then s
        else { s with boot := { s.boot with stage := max s.boot.stage 6, result := 0, degraded := s.boot.degraded || v = 2 } })

/-! ### The rotation (R503 to R505, R508) -/

/-- A line can be taken out of service: the port runs with its spare free. -/
def spareFree (s : State) (p : Port) : Bool := p.up && p.role ≠ 3 && popBelow (linesWithout (usableLines s) p.failed) 17 = 17

/-- At a step's front the line of every circuit with a free spare takes role 2. -/
def startStep (s : State) (k : Nat) : State :=
  let e := epoch s
  let mark := fun (p : Port) => if spareFree s p then { p with recal := some k } else p
  { s with bas := { s.bas with ports := s.bas.ports.map (fun e => (e.1, mark e.2)) }
           cal := { s.cal with step := some { line := k, start := e }, rotation := if k = 0 then e else s.cal.rotation } }

/-- The step that begins at a count, if one does. -/
def stepAtCount (e : Nat) : Option Nat :=
  let r := e % 9126805504
  if r % 2 ^ 29 = 0 && r / 2 ^ 29 < 17 then some (r / 2 ^ 29) else none

/-- The rotation at a front. -/
def rotationAtFront (s : State) : State :=
  if rdE s 0x4000 3 = 0 || s.boot.readyAt.isNone || opRunning s 1 || s.cal.step.isSome then s
  else match stepAtCount (epoch s) with
    | some k => startStep s k
    | none => s

/-- ROTATION_STEP_END. -/
def execRotationStepEnd (inner links : List Measure) (s : State) : Out :=
  match s.cal.step with
  | none => .next s
  | some x =>
    let ms := (inner ++ links).filter (fun m => idKind m.id < 3 && idDetail m.id % 32 = x.line && 2 ≤ m.quantity && m.quantity ≤ 5)
    let s := countThird (ms.foldl recalibrateOne s) (thirdPasses ms)
    let back : Port → Port := fun p => { p with recal := none }
    let s := { s with bas := { s.bas with ports := s.bas.ports.map (fun e => (e.1, back e.2)) }, cal := { s.cal with step := none } }
    .next (if x.line = 16 then wrE s 0x4000 4 ((epoch s - s.cal.rotation) * countPs / msPs % 2 ^ 32) else s)

/-! ### Seam channels (R493, R506, R507) -/

/-- Tracking runs on the channel: its tile is open, and its DRAM die is not in self-refresh. -/
def tracked (s : State) (id : Nat) : Bool :=
  let t := idPlace id
  rdE s 0x4000 3 = 1 && 5 ≤ idKind id && idKind id ≤ 9 && tileOpen s t
    && (idKind id < 8 || (getDie s t (idUnit id / 6)).state = 1)

/-- A sweep that moves no tap is logged (class 0x14); the spec gives its Detail and Tag no
value. -/
def sweepLost (s : State) (id : Nat) : State :=
  nextFree (tileReport s 0x14 (idPlace id) (openValue s % 2 ^ 32) (openNth s 1))

/-- Two sweeps in turn: those that agree move the tap, by at most 4. -/
def sweepPair (s : State) (id last centre : Nat) : State :=
  let m := tapMean last centre
  if 1 < tapGap last centre || 4 < tapGap m (Tab.get 0 s.cal.taps id) then sweepLost s id
  else { s with cal := { s.cal with taps := Tab.put 0 s.cal.taps id m } }

/-- SEAM_TAP_SWEEP. -/
def execSeamTapSweep (id low high : Nat) (s : State) : Out :=
  if !tracked s id then .next s
  else
    let last := Tab.get 0 s.cal.sweeps id
    let keep := fun (n : Nat) => { s with cal := { s.cal with sweeps := Tab.put 0 s.cal.sweeps id n } }
    match tapCentre (low + 2 ^ 32 * high) with
    | none => .next (sweepLost (keep 0) id)
    | some c => .next (if last = 0 then keep (c + 1) else sweepPair (keep (c + 1)) id (last - 1) c)

/-- CHANNEL_RECALIBRATION: the exit of a die under recalibration completes, or its channel is
marked failed. -/
def execChannelRecalibration (t die : Nat) (ms : List Measure) (s : State) : Out :=
  if 24 ≤ t || 3 ≤ die || (getDie s t die).state ≠ 3 then .next s
  else
    let ms := ms.filter (fun m => idPlace m.id = t && (idKind m.id = 8 || idKind m.id = 9) && idUnit m.id / 6 = die && m.quantity = 6)
    let ok := ms.all (fun m => (settingOf m).isSome)
    let s := modDie s t die (fun d => { d with state := if ok then 1 else 4, draining := false })
    .next (countThird (ms.foldl calibrateOne s) (thirdPasses ms))

end Sys2Proof.Machine
end

