-- ==== Sys2Proof/Machine/Forecast.lean ====
section
/-!
DEFINITION. The Forecast unit (18_forecast.md R536 to R547, 12_dictionary_reference.md R397):
channels, decisions, entering a sleep state, waking.
-/
namespace Sys2Proof.Machine

/-! ### Channels (R536, R537) -/

/-- Upper, lower, action (0 none, 1 wake, 2 stay asleep) and enable of a channel. -/
def defaultChannels : List (Int × Int × Nat × Bool) := [
  (950, 900, 2, true), (800, 750, 2, true), (850, 800, 2, true), (600, 570, 2, true),
  (1000, 950, 2, true), (1000, 950, 2, true), (1000, 950, 2, true), (430, 430, 2, true),
  (6000, 5900, 2, true), (2500, 2400, 2, true), (3135, 3201, 2, true), (617, 630, 2, true),
  (1045, 1067, 2, true), (760, 776, 2, true), (1, 0, 0, false), (1, 0, 0, false),
  (4, 1, 1, false), (4, 1, 1, false), (1, 0, 1, true), (1, 0, 1, false), (1, 0, 1, true), (64, 63, 0, false)]

/-- A channel's record as 8 bytes. -/
def channelBytes (c : Int × Int × Nat × Bool) : List Byte :=
  leBytes 2 (unsigned 16 c.1) ++ leBytes 2 (unsigned 16 c.2.1) ++ leBytes 1 c.2.2.1 ++ leBytes 1 (b2n c.2.2.2) ++ leBytes 2 0

/-- The records by default, all 32. -/
def defaultRecords : List Byte := (defaultChannels.flatMap channelBytes) ++ List.replicate 80 0#8

/-- 0x9000:05. -/
def channelRecords (s : State) : List Byte :=
  let b := rdB s 0x9000 5
  if b.isEmpty then defaultRecords else b

def channelRec (s : State) (i : Nat) : List Byte := slice (channelRecords s) (8 * i) 8
def chUpper (r : List Byte) : Int := signed 16 (field r 0 2)
def chLower (r : List Byte) : Int := signed 16 (field r 2 2)
def chAction (r : List Byte) : Nat := field r 4 1
def chEnabled (r : List Byte) : Bool := bit (field r 5 1) 0

/-- Channels crossed downwards. -/
def lowBand (i : Nat) : Bool := 10 ≤ i && i ≤ 13

/-- Insert into an ascending list. -/
def insertUp (x : Int) : List Int → List Int
  | [] => [x]
  | y :: l => if x ≤ y then x :: y :: l else y :: insertUp x l

/-- The median of five samples; none before the fifth. -/
def medianOf (l : List Int) : Option Int :=
  if l.length < 5 then none else (l.foldl (fun a x => insertUp x a) [])[2]?

/-- The filtered value of a channel. -/
def filtered (s : State) (i : Nat) : Option Int := medianOf (Tab.get [] s.fc.samples i)

/-- A channel's flag after a sample. -/
def flagAfter (r : List Byte) (low old : Bool) : Option Int → Bool
  | none => false
  | some m =>
    let at_ := if low then decide (m ≤ chUpper r) else decide (chUpper r ≤ m)
    let off := if low then decide (chLower r < m) else decide (m < chLower r)
    chEnabled r && (at_ || (old && !off))

/-- The dies of channels 0 to 3, by the die index of R383. -/
def classDies (i : Nat) : Nat × Nat := [(0, 24), (24, 52), (52, 124), (124, 132)].getD i (0, 0)

/-- While the module is off, the hottest die of a class bounds the others (R482). -/
def coolByChannel (s : State) (i : Nat) (x : Int) : State :=
  if 4 ≤ i || s.boot.mainOn then s
  else
    let (lo, hi) := classDies i
    let f := fun (e : Nat × Option Int) => if lo ≤ e.1 && e.1 < hi then (e.1, e.2.map (fun y => min x y)) else e
    settleCool { s with pow := { s.pow with temps := Tab.put none (s.pow.temps.map f) lo (some x) } }

/-- CHANNEL_SAMPLE: reserved channels read 0; the logic takes no sample while it restarts. -/
def execChannelSample (ch : Nat) (x : Int) (s : State) : Out :=
  if !s.boot.standby || 22 ≤ ch || s.now < s.fc.restartAt then .next s
  else
    let s := { s with fc := { s.fc with samples := Tab.mod [] s.fc.samples ch (fun l => lastN 5 (l ++ [signed 16 (unsigned 16 x)])) } }
    let old := bit s.fc.flags ch
    let new := flagAfter (channelRec s ch) (lowBand ch) old (filtered s ch)
    .next (coolByChannel { s with fc := { s.fc with flags := setBit s.fc.flags ch new,
                                                    fresh := setBit s.fc.fresh ch (new && (!old || bit s.fc.fresh ch)) } } ch x)

/-! ### Decisions (R538) -/

/-- The channels whose record has an action. -/
def actionMask (s : State) (a : Nat) : Nat := maskOf (fun i => chAction (channelRec s i) = a) 22

/-- The state of R539, and HB_STAT.SLEEP when it changes. -/
def setSleep (s : State) (v : Nat) : State :=
  let old := s.fc.sleep
  if old = v then s
  else pldmEvent (raiseAllHb { s with fc := { s.fc with sleep := v } } 1) 12 old v

/-- A wake decided: its cause is a request's, or the lowest channel newly set. -/
def decideWake (s : State) (fresh : Nat) : State :=
  match s.fc.held with
  | some c => startWake { s with fc := { s.fc with held := none } } (c / 256) (c % 256)
  | none => startWake s 0 (((List.range 22).find? (bit fresh)).getD 0)

/-- FORECAST_DECISION: HOLD_OFF, STAY, WAKE or NONE. -/
def execForecastDecision (s : State) : Out :=
  if !s.boot.standby || s.now < s.fc.restartAt then .next s
  else if s.pow.thermalOff || s.pow.inputOff then .next { s with fc := { s.fc with fresh := 0 } }
  else if s.fc.flags &&& actionMask s 2 ≠ 0 then .next { s with fc := { s.fc with stay := true, fresh := 0 } }
  else
    let wakes := actionMask s 1
    let fresh := (if s.fc.stay then s.fc.flags else s.fc.fresh) &&& wakes
    let s := { s with fc := { s.fc with stay := false, fresh := 0 } }
    if s.fc.sleep ≠ 0 && (fresh ≠ 0 || s.fc.held.isSome) then .next (decideWake s fresh) else .next s

/-! ### Sleep requests (R540) -/

/-- A command to wake. -/
def requestWake (s : State) : State :=
  if (s.fc.sleep = 0 && s.fc.entry.isNone) || s.fc.waking then s
  else { s with fc := { s.fc with held := some (s.fc.held.getD 0x200) } }

/-- A change of state is in progress, or an orderly shutdown (R573). -/
def changing (s : State) : Bool := s.fc.entry.isSome || s.fc.waking || s.fc.next.isSome || s.boot.shutdown.isSome

/-- An entry is accepted: it takes effect at the first front at least 8,192 counts on (R541). -/
def acceptEntry (s : State) (v : Nat) : State :=
  { s with fc := { s.fc with entry := some v, front := frontAt (epoch s + 8192) } }

/-- 0x9000:02. -/
def sleepRequest (s : State) (_sel : Tab Nat) (v : List Byte) : Effect :=
  let v := leNat v
  if v = 0 then { s := requestWake s }
  else if changing s then { s := s, status := stBusy }
  else if v = s.fc.sleep then { s := s }
  else if (s.fc.stay && s.fc.sleep < v) || s.fc.flags &&& actionMask s 1 ≠ 0 then { s := s, status := stRefused, detail := 1 }
  else if v < s.fc.sleep then { s := requestWake { s with fc := { s.fc with next := some v } } }
  else if s.boot.readyAt.isNone then { s := s, status := stRefused }
  else { s := acceptEntry s v }

def execSleepRequest (r : VdpReq) (s : State) : Out :=
  .next (vdpEntry s (atEntry r 0x9000 2) (fun _ _ v => leNat v ≤ 3) sleepRequest)

/-! ### Entering (R541, R542) -/

/-- The open DRAM dies of every tile stop accepting requests, or accept them again (R122). -/
def drainDies (s : State) (on : Bool) : State :=
  ((List.range 24).filter (bit (usableTiles s))).foldl (fun s t =>
    (List.range 3).foldl (fun s d => if (getDie s t d).state = 1 then modDie s t d (fun x => { x with draining := on }) else s) s) s

/-- At the entry's front every tile closes, and its DRAM begins to drain. -/
def sleepAtFront (s : State) : State :=
  match s.fc.entry with
  | some _ => if s.fc.front ≤ epoch s && !s.fc.closed then drainDies { s with fc := { s.fc with closed := true } } true else s
  | none => s

/-- A tile drains: its running descriptors and its open tracker entries end ABORTED, and its
DRAM is in self-refresh. -/
def drainTile (s : State) (t : Nat) : State :=
  let run := fun (s : State) (kind : Nat) => (List.range (coreCount kind)).foldl (fun s p =>
    (coreQueue s t kind p).foldl (fun s e => if e.started && e.record.isNone then endEarly s t kind p e 3 0xFFFFFFFF else s) s) s
  let s := run (run s 0) 1
  let mine := s.fab.tracks.filter (fun e => e.1 / 16384 = t)
  let s := mine.foldl (fun s e => match e.2 with
    | some x => endTrack s t (e.1 % 16384) x fsAborted 0 0 0 false
    | none => s) s
  (List.range 3).foldl (fun s d => if (getDie s t d).state = 1 then modDie s t d (fun x => { x with state := 2, draining := false }) else s) s

/-- Every tile drains. -/
def drainTiles (s : State) : State := ((List.range 24).filter (bit (usableTiles s))).foldl drainTile s

/-- A stage ended: the entry is complete, or a wake stops it here. -/
def stageEnds (s : State) (v : Nat) : State :=
  let s := setSleep s v
  if s.fc.entry = some v || s.fc.waking then { s with fc := { s.fc with entry := none } } else s

/-- DOZE_STAGE_DONE. -/
def execDozeStageDone (s : State) : Out :=
  if s.fc.entry.isNone || !s.fc.closed || s.fc.sleep ≠ 0 then .next s else .next (stageEnds (drainTiles s) 1)

/-- A wake link (R546). -/
def wakeLink (s : State) (link : Nat) : Bool := bit (rdE s 0x9000 3) link

/-- Circuit ports and mesh buses go dark. -/
def circuitsDark (s : State) : State :=
  let out : Port → Port := fun p => if p.role = 3 then p else { p with up := false, training := false, switching := false }
  { s with bas := { s.bas with ports := s.bas.ports.map (fun e => (e.1, out e.2)) } }

/-- NAP_STAGE_DONE. -/
def execNapStageDone (s : State) : Out :=
  match s.fc.entry with
  | some v =>
    if s.fc.sleep ≠ 1 || v < 2 || !s.fc.closed then .next s
    else .next (stageEnds (circuitsDark (squelchGroups s (fun l => !wakeLink s l))) 2)
  | none => .next s

/-- HIBERNATE_STAGE_DONE: the main rails but the DRAM rail are off. -/
def execHibernateStageDone (s : State) : Out :=
  if s.fc.entry ≠ some 3 || s.fc.sleep ≠ 2 then .next s
  else
    let fc := s.fc
    let s := pldmEvent (mainOff (squelchGroups s (fun _ => true)) true) 12 2 3
    .next { s with fc := { fc with sleep := 3, closed := true, entry := none } }

/-! ### Waking (R544) -/

/-- A DRAM die of a tile that holds a logical number is still in self-refresh. -/
def diesAsleep (s : State) : Bool :=
  (List.range 24).any (fun t => bit (usableTiles s) t && (List.range 3).any (fun d => (getDie s t d).state = 2))

/-- The tiles open, and circuits that are dark train. -/
def openTiles (s : State) : State :=
  let light : Port → Port := fun p => if p.role ≠ 3 && p.far.isSome && !p.up then { p with training := true } else p
  let s := { s with bas := { s.bas with ports := s.bas.ports.map (fun e => (e.1, light e.2)) } }
  drainDies s false

/-- WAKE_COMPLETE: once every DRAM die has left self-refresh by its own check (R122), and from
Hibernate only once the start-up has ended; a shallower state asked for is then entered. -/
def execWakeComplete (s : State) : Out :=
  if !s.fc.waking || s.fc.entry.isSome || (s.fc.sleep = 3 && s.boot.readyAt.isNone) || diesAsleep s then .next s
  else
    let s := setSleep (openTiles s) 0
    let s := { s with fc := { s.fc with waking := false, closed := false } }
    .next (match s.fc.next with
      | some v => acceptEntry { s with fc := { s.fc with next := none } } v
      | none => s)

end Sys2Proof.Machine
end

