-- ==== Sys2Proof/Machine/Mantle.lean ====
section
/-!
DEFINITION. The control plane (11_vexga_dictionary.md R345, R350, R353, R359 to R369, 17_faults.md
R532): ownership, switch-over, NOTIFY schedules, times that release what a requester holds,
PLDM, images and the abort of operations.
-/
namespace Sys2Proof.Machine

/-! ### Mantle dies (R363 to R366, R532) -/

/-- The state of Mantle `m` (0 A, 1 B). -/
def dieState (s : State) (m : Nat) : Nat := if m = 0 then s.mantle.dieA else s.mantle.dieB

def setDieState (s : State) (m v : Nat) : State :=
  { s with mantle := if m = 0 then { s.mantle with dieA := v } else { s.mantle with dieB := v } }

/-- A report about a Mantle (R520, group 10). -/
def mantleReport (s : State) (cls m : Nat) : State :=
  report s { cls := cls, kind := 11, place := 133 + m, detail := mantleStates s, tag := refreshCount s }

/-- Operations that do not survive a switch-over end ABORTED (R365, R367). -/
def abortUnsurviving (s : State) : State :=
  let stop := fun (s : State) (id : Nat) => if opRunning s id then endOp s id 4 0 (getOp s id).position else s
  let s := if opRunning s 5 then setPlanState s (getOp s 5).arg 0 else s
  let s := if opRunning s 6 then setSchState s (getOp s 6).arg 0 else s
  let target := fun (i : Image) => { i with state := 2, version := 0 }
  let s := if opRunning s 9 then
      { s with boot := if s.boot.running = 0 then { s.boot with imageB := target s.boot.imageB } else { s.boot with imageA := target s.boot.imageA } }
    else s
  [5, 6, 8, 9].foldl stop s

/-- The line is released: open groups, snapshots and partial values are discarded (R365). -/
def releaseLine (s : State) (by_ : Option Nat) : State :=
  let close : Group → Group := fun g => if g.state = 0 then { g with state := 3, staged := [] } else g
  let m := s.mantle
  abortUnsurviving { s with mantle := { m with
    owner := none, freeSince := some s.now, handOver := by_, idle := some s.now, snapshots := [], partials := [],
    groups := m.groups.map (fun e => (e.1, close e.2)) } }

/-- NOTIFY schedules count only while a Mantle is active (R362): they go on where they stood, and
the records logged meanwhile are sent, oldest first (R532). -/
def resumeNotifies (s : State) : State :=
  let gap := match s.mantle.idle with | some t => s.now - t | none => 0
  let m := s.mantle
  let waiting := m.unsent
  let s := { s with mantle := { m with idle := none, unsent := [], notifies := m.notifies.map (fun n => { n with first := n.first + gap }) } }
  waiting.foldl (fun s e => notifyTarget s e.2 e.1) s

/-! ### The persistent store (R344, R561) -/

/-- Values that the store keeps: RWP entries, and the thermal shutdowns and latch (R484). -/
def persistentKey (k : Nat) : Bool :=
  isPersistent (k / 256) (k % 256) || k = dictKey 0x2300 4 || k = dictKey 0x2300 6

/-- A tile without its kept records (R97, R117, R154). -/
def forgetTile (tl : Tile) : Tile :=
  { tl with retiredM := 0, pendingM := 0, retiredV := 0, pendingV := 0, retiredS := 0, pendingS := 0, mats := [],
            confTile := 0, confM := [], confV := [], confS := [], testDue := [] }

/-- The live dictionary takes the values of a copy. -/
def takeCopy (s : State) (c : NvCopy) : State :=
  let s := { s with dict := s.dict.filter (fun e => !persistentKey e.1), blobs := s.blobs.filter (fun e => !persistentKey e.1) }
  let s := c.vals.foldl (fun s e => wrE s (e.1 / 256) (e.1 % 256) e.2) s
  c.blobs.foldl (fun s e => wrB s (e.1 / 256) (e.1 % 256) e.2) s

/-- Every persistent value and kept record is lost. -/
def forgetAll (s : State) : State :=
  let s := takeCopy s {}
  let s := (List.range 24).foldl (fun s t => modTile s t forgetTile) s
  { s with retiredTiles := 0, pendingTiles := 0, las := { s.las with stored := 0 }
           mantle := { s.mantle with copy0 := {}, copy1 := {}, unpersisted := [] } }

/-- The copy to load: the valid one of the later generation. -/
def pickCopy (m : Mantle) : Option NvCopy :=
  if m.copy0.valid && m.copy1.valid then some (if m.copy1.gen ≤ m.copy0.gen then m.copy0 else m.copy1)
  else if m.copy0.valid then some m.copy0
  else if m.copy1.valid then some m.copy1
  else none

/-- PERSISTENT_STORE_LOAD: the valid copy of the later generation, or defaults. -/
def loadStore (s : State) : State :=
  match pickCopy s.mantle with
  | some c => { (takeCopy s c) with boot := { s.boot with stage := 2, defaults := false } }
  | none =>
    let s := { (forgetAll s) with boot := { s.boot with stage := 2, defaults := true } }
    nextFree (report s { cls := openValue s % 256, detail := openNth s 1 % 2 ^ 32, tag := openNth s 2 })

/-- Mantle `m` holds the line and is active. -/
def becomeActive (s : State) (m : Nat) : State :=
  let s := if s.boot.stage < 2 then loadStore s else s
  let s := setDieState s m 3
  let s := { s with mantle := { s.mantle with owner := some m, refreshed := s.now, freeSince := none, handOver := none }, boot := { s.boot with alert := false } }
  pldmEvent (raiseAllHb (resumeNotifies s) 5) 13 (1 - m) m

/-- A switch-over completes: counted and logged (R364). -/
def switchMantle (s : State) (m : Nat) : State :=
  let tag := refreshCount s
  let s := becomeActive s m
  let s := wrE s 0x1200 0xA ((rdE s 0x1200 0xA + 1) % 2 ^ 32)
  report s { cls := 0x50, kind := 11, place := 133 + m, detail := mantleStates s, tag := tag }

/-- MANTLE_REFRESH. -/
def execMantleRefresh (s : State) : Out :=
  if mantleActive s then .next { s with mantle := { s.mantle with refreshed := s.now } } else .next s

/-- The Forecast unit cuts a Mantle die. -/
def cutMantle (s : State) (m : Nat) : State :=
  wrE (setDieState s m 4) 0x9000 9 ((rdE s 0x9000 9 + 1) % 2 ^ 32)

/-- MANTLE_OWNERSHIP_EXPIRY: no cut is made while the Forecast logic restarts (R515). -/
def execMantleOwnershipExpiry (s : State) : Out :=
  match s.mantle.owner with
  | none => .next s
  | some m =>
    let s := advanceTo s (max (s.mantle.refreshed + 3 * msPs) s.fc.restartAt)
    .next (releaseLine (cutMantle s m) none)

/-- The standby that may claim a line released by a switch-over. -/
def claimant (s : State) : Option Nat := [0, 1].find? (fun m => dieState s m = 2 && s.mantle.handOver ≠ some m)

/-- STANDBY_CLAIM: after a release, the standby; else Mantle B, 200 ms after it was ready
(R363). -/
def execStandbyClaim (s : State) : Out :=
  if mantleActive s || !s.boot.standby then .next s
  else
    match s.mantle.freeSince, claimant s with
    | some _, some m => .next (switchMantle s m)
    | none, some 0 => .next (becomeActive s 0)
    | none, some _ => .next (becomeActive (advanceTo s (Tab.get 0 s.mantle.readyAt 1 + 200 * msPs)) 1)
    | _, none => .next s

/-- A standby that did not claim is Failed: a latent fault (R532). -/
def latentMantle (s : State) (m : Nat) : State :=
  let s := if dieState s m = 2 then setDieState s m 5 else s
  let s := mantleReport s 0x51 m
  wrE s 0x8300 2 ((rdE s 0x8300 2 + 1) % 2 ^ 32)

/-- A hand-over that no standby took: the releasing Mantle claims again (R364). -/
def reclaim (s : State) (m : Nat) : State :=
  let other := 1 - m
  let s := if dieState s other = 2 then setDieState s other 5 else s
  latentMantle (becomeActive s m) other

/-- MANTLE_CLAIM_TIMEOUT: after an expiry no Mantle is active (R366). -/
def execMantleClaimTimeout (s : State) : Out :=
  match s.mantle.freeSince with
  | none => .next s
  | some t =>
    let s := advanceTo s (t + 2 * msPs)
    match s.mantle.handOver with
    | some m => .next (reclaim s m)
    | none =>
      let m := if s.mantle.dieA = 4 then 1 else 0
      let s := latentMantle { s with mantle := { s.mantle with freeSince := none }, boot := { s.boot with alert := true } } m
      .next (raiseAllHb s 5)

/-- HAND_OVER_RECLAIM. -/
def execHandOverReclaim (s : State) : Out :=
  match s.mantle.freeSince, s.mantle.handOver with
  | some t, some m => .next (reclaim (advanceTo s (t + 2 * msPs)) m)
  | _, _ => .next s

/-- 0x1200:0E: the active takes state Standby once it has answered. -/
def handOver (s : State) (_sel : Tab Nat) (_v : List Byte) : Effect :=
  match s.mantle.owner with
  | some m => if dieState s (1 - m) = 2 then { s := releaseLine (setDieState s m 2) (some m) } else { s := s, status := stRefused }
  | none => { s := s, status := stRefused }

def execHandOver (r : VdpReq) (s : State) : Out :=
  .next (vdpEntry s (atEntry r 0x1200 0xE) anyValue handOver)

/-- 0x1200:0F: an off, cut or failed Mantle is powered and boots. -/
def restartStandby (s : State) (_sel : Tab Nat) (_v : List Byte) : Effect :=
  match [0, 1].find? (fun m => [0, 4, 5].contains (dieState s m)) with
  | some m => { s := setDieState s m 1 }
  | none => { s := s, status := stRefused }

def execRestartStandby (r : VdpReq) (s : State) : Out :=
  .next (vdpEntry s (atEntry r 0x1200 0xF) anyValue restartStandby)

/-! ### NOTIFY schedules (R362) -/

/-- The sender of an acknowledgement is target `i`. -/
def isTarget (s : State) (i : Nat) : Party → Bool
  | .mctp _ => i = 4
  | .udp addr port =>
    let r := slice (rdB s 0x1200 3) (24 * i) 24
    i < 4 && bit (field r 22 1) 0 && addrOf (r.take 16) = addr && field r 16 2 = port
  | .mailbox _ => false

/-- A mailbox request that has no response is no longer outstanding. -/
def dropOutstanding (s : State) : Party → State
  | .mailbox fn => modFunc s fn (fun x => { x with outstanding := false })
  | _ => s

/-- An acknowledgement stops the resends, and has no response unless it is refused. -/
def notifyAck (s : State) (r0 : VdpReq) : State :=
  let r := { r0 with opcode := 0xA }
  if !answersNow s r then unanswered s r
  else
    let c := checkHead s r r.index
    if c ≠ 0 then refuse s r c 0
    else
      let keep := fun (n : Notify) => !(n.seq = r.txid && isTarget s n.target r.src)
      dropOutstanding { s with mantle := { s.mantle with notifies := s.mantle.notifies.filter keep } } r.src

/-- NOTIFY_ACK. -/
def execNotifyAck (r : VdpReq) (s : State) : Out := .next (notifyAck s r)

/-- NOTIFY_RESEND: at 100, 200 and 400 ms; at 800 ms it is counted lost. -/
def execNotifyResend (target seq : Nat) (s : State) : Out :=
  let same := fun (n : Notify) => n.target = target && n.seq = seq
  match s.mantle.notifies.find? same with
  | none => .next s
  | some n =>
    if !mantleActive s then .next s
    else
      let s := advanceTo s (n.first + [0, 100, 200, 400].getD n.sends 800 * msPs)
      if 4 ≤ n.sends then
        .next (bump { s with mantle := { s.mantle with notifies := s.mantle.notifies.filter (fun x => !same x) } } 0x1200 4)
      else
        let s := { s with mantle := { s.mantle with notifies := updFirst same (fun x => { x with sends := x.sends + 1 }) s.mantle.notifies } }
        .next (emit s (.notify target seq n.record))

/-! ### What a requester holds (R345, R350, R353) -/

/-- SNAPSHOT_RELEASE. -/
def execSnapshotRelease (id : Nat) (s : State) : Out :=
  match s.mantle.snapshots.find? (fun x => x.id = id) with
  | none => .next s
  | some x =>
    let s := advanceTo s (x.last + 2 * secPs)
    .next { s with mantle := { s.mantle with snapshots := s.mantle.snapshots.filter (fun y => y.id ≠ id) } }

/-- The image that is not running. -/
def otherImage (s : State) : Image := if s.boot.running = 0 then s.boot.imageB else s.boot.imageA

def setOtherImage (s : State) (i : Image) : State :=
  { s with boot := if s.boot.running = 0 then { s.boot with imageB := i } else { s.boot with imageA := i } }

/-- An upload that cannot complete: the operation ends, and the image is not valid. -/
def failUpload (s : State) (state : Nat) : State :=
  if !opRunning s 9 then s
  else endOp (setOtherImage s { otherImage s with state := 2, version := 0 }) 9 state 0 (getOp s 9).position

/-- PARTIAL_WRITE_DISCARD. -/
def execPartialWriteDiscard (party : Party) (index sub group : Nat) (s : State) : Out :=
  let same := fun (w : PartialWrite) => w.party = party && w.index = index && w.sub = sub && w.group = group
  match s.mantle.partials.find? same with
  | none => .next s
  | some w =>
    let s := advanceTo s (w.last + 10 * secPs)
    let s := { s with mantle := { s.mantle with partials := s.mantle.partials.filter (fun x => !same x) } }
    .next (if index = 0x1100 && sub = 5 && group = 0 then failUpload s 3 else s)

/-- Set a group's record. -/
def putGroup (s : State) (n : Nat) (g : Group) : State :=
  { s with mantle := { s.mantle with groups := Tab.put {} s.mantle.groups n g } }

/-- GROUP_EXPIRY. -/
def execGroupExpiry (n : Nat) (s : State) : Out :=
  let g := Tab.get {} s.mantle.groups n
  if g.state ≠ 0 then .next s
  else .next (putGroup (advanceTo s (g.last + 10 * secPs)) n { g with state := 3, staged := [] })

/-- With a context goes all it holds. -/
def dropContext (s : State) (party : Party) : State :=
  let m := s.mantle
  let close : Group → Group := fun g => if g.state = 0 && g.party = some party then { g with state := 3, staged := [] } else g
  { s with mantle := { m with
    contexts := m.contexts.filter (fun x => x.party ≠ party), snapshots := m.snapshots.filter (fun x => x.party ≠ party),
    partials := m.partials.filter (fun x => x.party ≠ party), groups := m.groups.map (fun e => (e.1, close e.2)) } }

/-- CONTEXT_RELEASE. -/
def execContextRelease (party : Party) (s : State) : Out :=
  match findContext s party with
  | none => .next s
  | some c => .next (dropContext (advanceTo s (c.last + 60 * secPs)) party)

/-! ### I3C and PLDM (R359, R360) -/

/-- ENTDAA: no address is taken until the dictionary answers (R550). -/
def execEntdaa (addr : Nat) (s : State) : Out :=
  if mantleActive s then .next { s with mantle := { s.mantle with i3cAddr := some (addr % 128) } } else .next s

/-- SET_ENDPOINT_ID. -/
def execSetEndpointId (eid : Nat) (s : State) : Out :=
  if mantleActive s && s.mantle.i3cAddr.isSome then .next (wrE s 0x1200 7 (eid % 256)) else .next s

/-- The hottest die of a range in the last round, in degrees C. -/
def hottest (s : State) (lo hi : Nat) : Option Int :=
  let t := rdB s 0x2300 2
  ((List.range (hi - lo)).map (fun i => field t (2 * (lo + i)) 2)).foldl (fun m x =>
    if x = 0x7FFF then m else match m with
      | none => some (signed 16 x / 10)
      | some y => some (max y (signed 16 x / 10))) none

/-- The reading of a numeric sensor. -/
def sensorReading (s : State) (id : Nat) : Option Int :=
  match id with
  | 1 => some ((rdE s 0x2200 3 * rdE s 0x2200 4 / 1000000 : Nat) : Int)
  | 2 => some ((rdE s 0x2200 3 / 10 : Nat) : Int)
  | 3 => some ((rdE s 0x2200 4 / 100 : Nat) : Int)
  | 4 => hottest s 0 24
  | 5 => hottest s 24 52
  | 6 => hottest s 52 124
  | 7 | 8 | 9 | 10 => hottest s (124 + laserOwner s (id - 7)) (125 + laserOwner s (id - 7))
  | _ => none

/-- The state of a state sensor. -/
def sensorState (s : State) (id : Nat) : Option Nat :=
  match id with
  | 11 => some (worstStage s)
  | 12 => some s.fc.sleep
  | 13 => s.mantle.owner
  | _ => none

/-- Answer a PLDM command: a first byte 0, then what the command carries; the layouts and the
codes of a refusal are those of the standards the spec names, and free values here. -/
def pldmAnswer (s : State) (eid : Nat) (data : List Byte) : State := emit s (.pldm eid (0#8 :: data))

def pldmOpen (s : State) (eid : Nat) : State := nextFree (pldmAnswer s eid (leBytes 8 (openValue s)))

/-- PLDM_REQUEST: monitoring only. -/
def execPldmRequest (eid : Nat) (cmd : PldmCmd) (s : State) : Out :=
  if !mantleActive s || s.mantle.i3cAddr.isNone then .next s
  else
    match cmd with
    | .getSensorReading id =>
      match sensorReading s id with
      | some x => .next (pldmAnswer s eid (leBytes 4 (unsigned 32 x)))
      | none => .next (pldmOpen s eid)
    | .getStateSensorReadings id =>
      match sensorState s id with
      | some x => .next (pldmAnswer s eid (leBytes 1 x))
      | none => .next (pldmOpen s eid)
    | .setEventReceiver e => .next (pldmAnswer { s with mantle := { s.mantle with pldmReceiver := some e } } eid [])
    | .getFruTable => .next (pldmAnswer s eid (leBytes 8 (rdE s 0x1000 4) ++ leBytes 8 (rdE s 0x1000 6) ++ leBytes 4 (rdE s 0x1000 7)))
    | _ => .next (pldmOpen s eid)

/-! ### Aborting an operation (R367 to R369) -/

/-- 0xA000 + ID:08. -/
def abortOperation (id units : Nat) (s : State) (_sel : Tab Nat) (_v : List Byte) : Effect :=
  if [1, 5, 6, 7, 8].contains id then { s := s, status := stRefused }
  else if !opRunning s id then { s := s }
  else if id = 9 then
    let s := failUpload s 4
    { s := { s with mantle := { s.mantle with partials := s.mantle.partials.filter (fun w => !(w.index = 0x1100 && w.sub = 5 && w.group = 0)) } } }
  else
    let n := min units (getOp s id).total
    let s := if id = 4 then fillRows s n else s
    let s := if id = 2 then { s with tested := [] } else s
    { s := endOp s id 4 0 (if id = 2 then (getOp s 2).position else n) }

/-- OPERATION_ABORT: demand scrub and fill keep the rows completed. -/
def execOperationAbort (id units : Nat) (r : VdpReq) (s : State) : Out :=
  .next (vdpEntry s (atEntry r (if 1 ≤ id && id ≤ 9 then 0xA000 + id else 0xFFFF) 8) anyValue (abortOperation id units))

/-! ### Images (R378, R379, R551) -/

/-- The check of R551. -/
def imageGood (v : List Byte) : Bool :=
  v.take 4 = [0x43#8, 0x58#8, 0x46#8, 0x57#8] && 1 ≤ field v 8 4 && field v 8 4 ≤ 16776960
    && 256 + field v 8 4 ≤ v.length && Config.signatureOk v

/-- An image as stored: VALID with its version, or BAD_SIGNATURE. -/
def imageOf (v : List Byte) : Image :=
  if v.isEmpty then {} else if imageGood v then { state := 1, version := field v 4 4, data := v } else { state := 2, data := v }

/-- The first segment starts operation 0x0009; its total is in KiB. -/
def beginUpload (s : State) (total : Nat) : State :=
  startOp (setOtherImage s { otherImage s with state := 3, version := 0 }) 9 (ceilDiv total 1024) total

/-- KiB received of the upload. -/
def uploadPosition (s : State) (src : Party) : State :=
  let segs := ((s.mantle.partials.find? (fun w => w.party = src && w.index = 0x1100 && w.sub = 5 && w.group = 0)).map (·.segs)).getD []
  let n := countP (fun i => segs.any (fun g => g.1 ≤ i && i < g.1 + g.2.length)) (List.range (getOp s 9).arg)
  putOp s 9 { getOp s 9 with position := max (getOp s 9).position (n / 1024) }

/-- The last byte has arrived: the signature decides. -/
def endUpload (s : State) (v : List Byte) : State :=
  let i := imageOf v
  endOp (setOtherImage s i) 9 (if i.state = 1 then 2 else 3) 0 (ceilDiv v.length 1024)

/-- A segment of an upload that is not staged. -/
def uploadSegment (s : State) (r : VdpReq) : State :=
  if r.total = 0 then refuse s r stRange 0
  else if !contextFree s r.src then refuse s r stBusy 0
  else if s.boot.spiSel then refuse s r stPersist 0
  else
    let mine := s.mantle.partials.any (fun w => w.party = r.src && w.index = 0x1100 && w.sub = 5 && w.group = 0)
    if opRunning s 9 && !mine then refuse s r stBusy 0
    else
      let s := if opRunning s 9 then s else beginUpload s r.total
      match takeSegment s r with
      | (s, none, 0) => answer (standbyCopy (uploadPosition s r.src) r.copyFails) r (respOf r 0 0 [])
      | (s, none, st) => refuse (failUpload s 3) r st 0
      | (s, some v, _) => answer (standbyCopy (endUpload s v) r.copyFails) r (respOf r 0 0 [])

/-- A segment written to 0x1100:05. -/
def imageUpload (s : State) (r : VdpReq) : State :=
  if !answersNow s r then unanswered s r
  else
    match duplicateOf s r with
    | some x => sendResp s r.src x
    | none =>
      let c := checkEntry s r
      if c ≠ 0 then refuse s r c 0
      else if r.opcode ≠ 2 then refuse s r stAccess 0
      else if r.group ≠ 0 then
        match takeSegment s r with
        | (s, none, 0) => answer s r (respOf r 0 0 [])
        | (s, none, st) => refuse s r st 0
        | (s, some v, _) => stage s r v (fun _ _ v => !v.isEmpty)
      else uploadSegment s r

/-- IMAGE_UPLOAD. -/
def execImageUpload (r : VdpReq) (s : State) : Out := .next (imageUpload s (atEntry r 0x1100 5))

end Sys2Proof.Machine
end

