-- ==== Sys2Proof/Machine/Bringup.lean ====
section
/-!
DEFINITION. Power-up, start-up and shutdown (19_bringup.md R548 to R574, 15_power_thermal.md
R483, R487, 20_physical.md R578), and the renumbering (01_anatomy.md R27 to R31).
-/
namespace Sys2Proof.Machine

/-! ### Renumbering (R27, R28, R97, R562) -/

/-- Pending core retirements of a tile are applied. -/
def retireCores (tl : Tile) : Tile :=
  { tl with retiredM := tl.retiredM ||| tl.pendingM, retiredV := tl.retiredV ||| tl.pendingV, retiredS := tl.retiredS ||| tl.pendingS,
            pendingM := 0, pendingV := 0, pendingS := 0 }

/-- A retirement awaits renumbering (0x6000:02). -/
def retirementPending (s : State) : Bool :=
  s.pendingTiles ≠ 0 || (List.range 24).any (fun t =>
    let tl := getTile s t
    tl.pendingM ≠ 0 || tl.pendingV ≠ 0 || tl.pendingS ≠ 0)

/-- Every pending retirement is applied and the numbers are computed anew, in one step; plans
and schedules are checked again (R177, R205). -/
def renumber (s : State) : State :=
  let s := (List.range 24).foldl (fun s t => modTile s t retireCores) s
  let s := { s with retiredTiles := s.retiredTiles ||| s.pendingTiles, pendingTiles := 0 }
  let s := wrE (wrE s 0x6000 3 ((rdE s 0x6000 3 + 1) % 2 ^ 32)) 0x6000 4 (epoch s)
  recheckSchedules (recheckPlans (report s { cls := 0x26 }))

/-- RENUMBERING. -/
def execRenumbering (s : State) : Out :=
  .next (if noJobs s && retirementPending s && s.boot.readyAt.isSome then renumber s else s)

/-! ### The standby rail (R547, R550) -/

/-- STANDBY_RAIL_UP: the Forecast unit starts with empty logs, and the Mantles leave reset. -/
def execStandbyRailUp (s : State) : Out :=
  if s.boot.standby then .next s
  else
    let boots := if s.boot.resetHigh then 1 else 0
    .next { s with
      boot := { s.boot with standby := true, stage := 0, result := 0, cause := 0, warm := false, alert := true }
      mantle := { s.mantle with dieA := boots, dieB := boots, idle := some s.now }
      pow := { s.pow with inputGood := some s.now }
      log := {} }

/-- Entries set at the factory (R372, R560). -/
def factoryKey (k : Nat) : Bool := k / 256 = 0x1000 || k / 256 = 0x1020 || k = dictKey 0x4000 9

/-- STANDBY_RAIL_LOSS: what survives is the persistent store with its kept records and the
thermal latch; the images, the part's make-up and the inputs from outside do not depend on it. -/
def execStandbyRailLoss (s : State) : Out :=
  if !s.boot.standby then .next s
  else
    let s := (List.range 24).foldl (fun s t => modTile s t (darkTile false)) s
    let b := s.boot
    .next { State.reset with
      pending := s.pending, now := s.now, part := s.part, out := s.out, free := s.free
      fusedTiles := s.fusedTiles, retiredTiles := s.retiredTiles, pendingTiles := s.pendingTiles, tiles := s.tiles
      dict := s.dict.filter (fun e => factoryKey e.1), blobs := s.blobs.filter (fun e => factoryKey e.1)
      mantle := { copy0 := s.mantle.copy0, copy1 := s.mantle.copy1 }
      las := { stored := if b.mainOn then s.las.own else s.las.stored }
      boot := { mainEnable := b.mainEnable, resetHigh := b.resetHigh, spiSel := b.spiSel, imageA := b.imageA, imageB := b.imageB }
      host := { perst := s.host.perst, perstAt := s.host.perstAt } }

/-! ### Booting a Mantle (R552, R553, R561) -/

def imageAt (s : State) (i : Nat) : Image := if i = 0 then s.boot.imageA else s.boot.imageB

/-- The image that 0x1100:04 names; before the store is loaded, as the store holds it. -/
def bootSelect (s : State) : Nat :=
  let k := dictKey 0x1100 4
  if 2 ≤ s.boot.stage then rdE s 0x1100 4 % 2 else ((pickCopy s.mantle).map (fun c => Tab.get 0 c.vals k % 2)).getD 0

/-- The first valid image, the selected one first. -/
def bootImage (s : State) : Option Nat := [bootSelect s, 1 - bootSelect s].find? (fun i => (imageAt s i).state = 1)

/-- The Mantle has booted: it is ready. -/
def mantleReady (s : State) (m : Nat) : State :=
  let s := setDieState s m 2
  { s with mantle := { s.mantle with readyAt := Tab.put 0 s.mantle.readyAt m s.now } }

/-- MANTLE_BOOT_DONE: it joins as standby while another is active; else Mantle A claims at
once, unless the line is free for a standby's claim (R364). -/
def execMantleBootDone (m : Nat) (bad0 bad1 : Bool) (s : State) : Out :=
  if 2 ≤ m || dieState s m ≠ 1 || !s.boot.standby || s.boot.spiSel then .next s
  else if mantleActive s then
    .next (if (imageAt s s.boot.running).state = 1 then mantleReady s m else setDieState s m 5)
  else
    let c0 := s.mantle.copy0
    let c1 := s.mantle.copy1
    let s := { s with mantle := { s.mantle with copy0 := { c0 with valid := c0.valid && !bad0 }, copy1 := { c1 with valid := c1.valid && !bad1 } } }
    match bootImage s with
    | none => .next { s with boot := { s.boot with alert := true } }
    | some i =>
      let s := mantleReady { s with boot := { s.boot with running := i, other := i ≠ bootSelect s } } m
      .next (if m = 0 && s.mantle.freeSince.isNone then becomeActive s 0 else s)

/-- MANTLE_RESTART_N: the die is power-cycled; a cut active Mantle releases the line. -/
def execMantleRestartN (m : Nat) (s : State) : Out :=
  if 2 ≤ m || !s.boot.standby || !s.boot.resetHigh then .next s
  else
    let s := cutMantle s m
    let s := if s.mantle.owner = some m then releaseLine s none else s
    .next (setDieState s m 1)

/-- SPI_SEL: while it is high the BMC has the SPI NOR, whose images may then differ. -/
def execSpiSel (high : Bool) (a b : Option (List Byte)) (s : State) : Out :=
  let bt := s.boot
  if !bt.spiSel || high then .next { s with boot := { bt with spiSel := high } }
  else
    let put := fun (old : Image) (x : Option (List Byte)) => (x.map imageOf).getD old
    .next { s with boot := { bt with spiSel := false, imageA := put bt.imageA a, imageB := put bt.imageB b } }

/-! ### Starting the main rails (R549, R554) -/

/-- The conditions of R554 but for MAIN_ENABLE and the input's time in range. -/
def mayStart (s : State) : Bool :=
  s.boot.standby && mantleActive s && s.boot.resetHigh && rdE s 0x2300 6 = 0 && !s.pow.thermalOff && !s.pow.inputOff
    && !s.boot.mainOn && s.boot.shutdown.isNone && (s.fc.sleep ≠ 3 || s.fc.waking)

/-- The main rails start, in the warm form at an exit from Hibernate. -/
def startMains (s : State) (cause : Nat) : State :=
  match s.pow.inputGood with
  | none => s
  | some t =>
    let s := advanceTo s (t + secPs)
    let warm := s.fc.sleep = 3
    let b := s.boot
    let s := { s with boot := { b with
      mainOn := true, mainAt := s.now, cause := if warm then 5 else cause, warm := warm, stage := 2, result := 0
      degraded := false, tilesOn := false, readyAt := none } }
    let mode := rdE s 0x2000 1
    let s := wrE s 0x2000 2 mode
    { s with clk := { s.clk with limit := rdE s 0x3200 1, ceiling := allowance mode, changed := s.now }
             pow := { s.pow with iterAt := epoch s } }

/-- MAIN_RAILS_START. -/
def execMainRailsStart (s : State) : Out :=
  let again := !s.boot.mainEnable
  let s := { s with boot := { s.boot with mainEnable := true, cause := if again then 6 else s.boot.cause } }
  .next (if mayStart s then startMains s s.boot.cause else s)

/-- THAW: every diode has been cool for 60 s, and the latch is clear (R483, R484). -/
def execThaw (s : State) : Out :=
  match s.pow.cool with
  | none => .next s
  | some t =>
    if !s.pow.thermalOff || rdE s 0x2300 6 ≠ 0 || s.pow.inputOff then .next s
    else
      let s := advanceTo s (t + 60 * secPs)
      let s := { s with pow := { s.pow with thermalOff := false }, boot := { s.boot with cause := 3 } }
      .next (if mayStart s && s.boot.mainEnable then startMains s 3 else s)

/-- INPUT_RECOVERY (R487). -/
def execInputRecovery (s : State) : Out :=
  match s.pow.inputGood with
  | none => .next s
  | some t =>
    if !s.pow.inputOff then .next s
    else
      let s := advanceTo s (t + secPs)
      let s := { s with pow := { s.pow with inputOff := false }, boot := { s.boot with cause := 4 } }
      .next (if mayStart s && s.boot.mainEnable then startMains s 4 else s)

/-! ### Start-up stages (R555 to R564) -/

/-- Stage 3: in cold form the epoch count starts at 0, and the DRAM dies have power. -/
def stageRails (s : State) : State :=
  let s := { s with pow := { s.pow with iterAt := 0 }, clk := { s.clk with inForce := 2, changed := s.now } }
  if s.boot.warm then s
  else
    let off := (2 ^ 64 - ((s.now : Int) + s.clk.phase).toNat / countPs % 2 ^ 64) % 2 ^ 64
    let s := { s with epochOff := off }
    (enabledTiles s).foldl (fun s t => (List.range 3).foldl (fun s d => modDie s t d (fun x => { x with state := 2 })) s) s

/-- A laser die that fails its check at start. -/
def laserFails (s : State) (k : Nat) : State :=
  nextFree (laserReport (setLaserDie s k 3) 0x48 9 k (k / 2) (openValue s))

/-- LASER_GROUP_START: the stored die first, then the other. -/
def startLaser (dies : Nat) (s : State) (g : Nat) : State :=
  let a := 2 * g + b2n (bit s.las.stored g)
  let b := 2 * g + (1 - b2n (bit s.las.stored g))
  let take := fun (s : State) (k : Nat) =>
    setLaserDie { s with las := { s.las with own := setBit s.las.own g (k % 2 = 1) } } k 1
  if bit dies a then
    let s := take s a
    if bit dies b then setLaserDie s b 2 else laserFails s b
  else if bit dies b then take (laserFails s a) b
  else loseGroup (laserReport s 0x4A 9 a g (epoch s)) g (epoch s)

def stageLasers (s : State) (dies : Nat) : State :=
  linesChanged ((List.range 4).foldl (startLaser dies) s) 0

/-- The record of the pattern test, 0x4000:0A; its duration is not a value of this model. -/
def patternRecord (s : State) (result : Nat) (failed : List (Nat × Nat)) : List Byte :=
  leBytes 1 1 ++ leBytes 1 result ++ leBytes 2 failed.length ++ leBytes 1 (b2n s.boot.warm) ++ leBytes 3 0
    ++ leBytes 4 (openValue s) ++ leBytes 4 0
    ++ failed.flatMap (fun e => leBytes 4 e.1 ++ leBytes 2 e.2 ++ leBytes 2 0)

/-- A mat marked by the pattern test (R117); a third failing mat is a bank fault. -/
def markTestMat (s : State) (x : MatRef) : State :=
  let marks := matsOf s x.tile x.die x.bank
  if !dieBuilt s x.tile x.die || marks.contains x.mat then s
  else if 2 ≤ marks.length then
    report s { cls := 0x11, kind := 5, place := x.tile, unit := x.die, detail := x.bank, tag := rowAddress x.die x.bank }
  else
    let s := modTile s x.tile (fun tl => { tl with mats := Tab.put [] tl.mats (x.die * 256 + x.bank) (marks ++ [x.mat]) })
    report s { cls := 0x12, kind := 5, place := x.tile, unit := x.die, detail := x.bank, tag := rowAddress x.die x.bank }

/-- PATTERN_TEST: a failed clock waveguide or laser bus stops start-up at stage 4. -/
def stagePattern (s : State) (failed : List (Nat × Nat)) (mats : List MatRef) : State :=
  let stops := failed.any (fun e => idKind e.1 = 3 || idKind e.1 = 4)
  let result := if stops then 2 else if failed.isEmpty then 0 else 1
  let s := nextFree (wrB s 0x4000 0xA (patternRecord s result failed))
  let s := (if s.boot.warm then [] else mats).foldl markTestMat s
  let s := (failed.filter (fun e => idKind e.1 ≠ 3 && idKind e.1 ≠ 4)).foldl markUnit s
  let s := { s with cal := { s.cal with pattern := s.cal.marked } }
  if stops then squelchAll { s with boot := { s.boot with result := 3 } }
  else beginCalibration { s with boot := { s.boot with stage := 5, degraded := !failed.isEmpty } }

/-- Stage 7: in cold form every row is zero and valid. -/
def stageClear (s : State) : State :=
  if s.boot.warm then s
  else
    let s := { s with mem := [], badRows := [], cells := [] }
    (enabledTiles s).foldl (fun s t => (List.range 3).foldl (fun s d =>
      if (getDie s t d).state = 2 then modDie s t d (fun x => { x with state := 1 }) else s) s) s

/-- START_UP_CONFIGURATION: numbers, roles and splits. -/
def stageConfigure (s : State) : State :=
  let s := renumber s
  let split := (List.range 64).foldl (fun t n => Tab.put 0 t n (rdE s (0x4500 + n) 1)) []
  let parts := (List.range 64).foldl (fun t n => Tab.put [] t n (rdB s (0x4500 + n) 2)) []
  settleRoles { s with hem := { s.hem with split := split, parts := parts } }

/-- The row-rate step that the stages of a tile's dies ask for as its Seam clock starts (R129). -/
def startRowStep (s : State) (t : Nat) : State :=
  let want := min 2 (tileStage s t)
  if (getTile s t).rowStep < want then setRowStep s t want else s

/-- READY (R567). -/
def stageReady (s : State) : State :=
  let b := s.boot
  let s := { s with boot := { b with stage := 10, result := if b.degraded then 2 else 1, readyAt := some s.now, tilesOn := true } }
  (setClocks ((List.range 24).foldl startRowStep s)).1

def setStage (s : State) (k : Nat) : State := { s with boot := { s.boot with stage := k } }

/-- A stage of start-up can end: an active Mantle runs it, and nothing has stopped it. -/
def starting (s : State) : Bool :=
  s.boot.mainOn && mantleActive s && s.boot.readyAt.isNone && s.boot.result ≠ 3 && s.boot.shutdown.isNone

/-- START_UP_STAGE_DONE: stage 6 ends with CALIBRATION_DONE, and stage 9 with GUEST_DISCOVERY. -/
def execStartUpStageDone (dies : Nat) (failed : List (Nat × Nat)) (mats : List MatRef) (s : State) : Out :=
  if !starting s then .next s
  else
    match s.boot.stage with
    | 2 => .next (setStage (stageRails s) 3)
    | 3 => .next (setStage (stageLasers s dies) 4)
    | 4 => .next (stagePattern s failed mats)
    | 6 => .next (setStage (stageClear s) 7)
    | 7 => .next (setStage (stageConfigure s) 8)
    | 8 => .next (if s.part = 1 then s else stageReady s)
    | 9 => .next (stageReady s)
    | _ => .next s

/-! ### Guest dies (R565, R566, R377) -/

/-- Circuit ports that a guest with `m` modules at `r` GT/s runs. -/
def guestPorts (m r : Nat) : Nat := min 4 ((4096 * m * r - 54400) / 108800)

/-- A report about a guest site; the spec gives its Detail and Tag no value. -/
def guestReport (s : State) (g : Nat) : State :=
  nextFree (report s { cls := 0x74, kind := 1, place := 24 + g, logical := logicalTile s (24 + g), detail := openValue s % 2 ^ 32, tag := openNth s 1 })

/-- A site whose partner answered; one whose modules all dropped is empty. -/
def foundGuest (s : State) (x : GuestSite) : State :=
  let g := x.site
  let m := min 4 x.modules
  if 4 ≤ g then s
  else if m = 0 then guestReport s g
  else
    let s := { s with guestSites := setBit s.guestSites (24 + g) true }
    let s := wrE (wrE (wrE s (0x1040 + g) 1 1) (0x1040 + g) 2 m) (0x1040 + g) 3 (x.rate % 256)
    let s := wrB s (0x1040 + g) 4 (fit 16 x.identity)
    ((List.range 4).filter (fun k => guestPorts m x.rate ≤ k)).foldl (fun s k =>
      modPort s (portKey (24 + g) k) (fun p => { p with failed := 0x1FFFF })) s

/-- GUEST_DISCOVERY. -/
def execGuestDiscovery (sites : List GuestSite) (s : State) : Out :=
  if !starting s || s.part ≠ 1 || s.boot.stage ≠ 8 then .next s
  else
    let empty := fun (s : State) (g : Nat) => wrB (wrE (wrE (wrE (wrE s (0x1040 + g) 1 0) (0x1040 + g) 2 0) (0x1040 + g) 3 0) (0x1040 + g) 5 0) (0x1040 + g) 4 []
    let s := (List.range 4).foldl empty { s with guestSites := 0 }
    .next (setStage (settleRoles (sites.foldl foundGuest s)) 9)

/-- GUEST_LINK_FAILURE: requests to the guest tile answer TILE_RESET. -/
def execGuestLinkFailure (g : Nat) (s : State) : Out :=
  if 4 ≤ g || !bit s.guestSites (24 + g) || (getTile s (24 + g)).reset.isSome then .next s
  else
    let r : TileReset := { cause := 0, since := s.now }
    .next (modTile s (24 + g) (fun tl => { tl with reset := some r }))

/-- GUEST_LINK_RETRAINED. -/
def execGuestLinkRetrained (g : Nat) (s : State) : Out :=
  if 4 ≤ g || !bit s.guestSites (24 + g) || (getTile s (24 + g)).reset.isNone then .next s
  else
    let s := modTile s (24 + g) (fun tl => { tl with reset := none })
    .next (guestReport (wrE s (0x1040 + g) 5 ((rdE s (0x1040 + g) 5 + 1) % 2 ^ 32)) g)

/-! ### Shutdown and reset (R548, R573, R574, R578) -/

/-- An orderly shutdown begins: READY low; during start-up it begins with the tiles. -/
def beginShutdown (s : State) : State :=
  let b := s.boot
  if b.shutdown.isSome then s
  else { s with boot := { b with shutdown := some (if b.readyAt.isSome then 0 else if b.mainOn || s.fc.sleep = 3 then 1 else 5), readyAt := none } }

/-- MAIN_ENABLE_DEASSERT. -/
def execMainEnableDeassert (s : State) : Out :=
  let s := { s with boot := { s.boot with mainEnable := false } }
  .next (if s.boot.mainOn || s.fc.sleep = 3 then beginShutdown s else s)

/-- Both Mantles are held in reset: what they hold is lost; the store and the records still
to be sent are not. -/
def holdMantles (s : State) : State :=
  let m := s.mantle
  let s := { (failUpload s 4) with mantle := { m with
    dieA := 0, dieB := 0, owner := none, freeSince := none, handOver := none, idle := some (m.idle.getD s.now), readyAt := []
    contexts := [], snapshots := [], partials := [], groups := [], notifies := [], mbox := []
    pldmReceiver := none, i3cAddr := none } }
  { (wrE s 0x1200 7 0) with boot := { s.boot with stage := 0, result := 0, alert := true } }

/-- The Mantles leave reset into their boot ROMs. -/
def freeMantles (s : State) : State := setDieState (setDieState s 0 1) 1 1

/-- ORDERLY_SHUTDOWN_STEP: teardown, tiles, Hem, host bridge, laser ownership, rails. -/
def execOrderlyShutdownStep (s : State) : Out :=
  match s.boot.shutdown with
  | none => .next s
  | some k =>
    let s := { s with boot := { s.boot with shutdown := some (k + 1) } }
    match k with
    | 0 => .next ((jobs s).foldl (fun s j => finishTeardown (startTeardown s j.1) j.1) s)
    | 1 => .next (let s := drainTiles s; { s with fc := { s.fc with closed := true } })
    | 2 => .next (squelchGroups s (fun _ => true))
    | 3 => .next (hostDown s)
    | 4 => .next { s with las := { s.las with stored := s.las.own } }
    | _ =>
      let again := s.boot.restart
      let s := mainOff s false
      let s := { s with boot := { s.boot with shutdown := none, restart := false } }
      .next (if again then let s := freeMantles (holdMantles s); { s with boot := { s.boot with cause := 2 } } else s)

/-- The orderly shutdown that a restart follows. -/
def beginRestart (s : State) : State :=
  let s := beginShutdown s
  { s with boot := { s.boot with restart := true } }

/-- 0x1100:07. -/
def restartModule (s : State) (_sel : Tab Nat) (_v : List Byte) : Effect :=
  if s.boot.shutdown.isSome then { s := s, status := stBusy } else { s := beginRestart s }

def execRestartModule (r : VdpReq) (s : State) : Out :=
  .next (vdpEntry s (atEntry r 0x1100 7) anyValue restartModule)

/-- MODULE_RESET_N: the hardware path acts at once. -/
def execModuleResetN (s : State) : Out :=
  let s := holdMantles (mainOff s false)
  .next { s with boot := { s.boot with resetHigh := false, cause := 1, shutdown := none, restart := false } }

/-- MODULE_RESET_N_RELEASE. -/
def execModuleResetNRelease (s : State) : Out :=
  if s.boot.resetHigh then .next s
  else
    let s := { s with boot := { s.boot with resetHigh := true } }
    .next (if s.boot.standby then freeMantles s else s)

/-- J1_WITHDRAWAL: the hardware path of R482; the input is gone. -/
def execJ1Withdrawal (s : State) : Out :=
  let s := mainOff s false
  .next { s with pow := { s.pow with inputOff := s.boot.standby, inputGood := none } }

/-- 0xF000:09: everything kept is erased, and the module restarts as a new part. -/
def eraseStore (s : State) (_sel : Tab Nat) (_v : List Byte) : Effect :=
  if s.boot.shutdown.isSome then { s := s, status := stBusy } else { s := beginRestart (forgetAll s) }

def execErasePersistentStore (r : VdpReq) (s : State) : Out :=
  .next (vdpEntry s (atEntry r 0xF000 9) (fun _ _ v => leNat v = 0x45524153) eraseStore)

end Sys2Proof.Machine
end

