-- ==== Sys2Proof/Machine/Values.lean ====
section
/-!
DEFINITION. The values that the dictionary computes when they are read (12_dictionary_reference.md
and the entry tables of the other chapters).
-/
namespace Sys2Proof.Machine

/-! ### Strings and defaults -/

def text (l : List Nat) : List Byte := l.map (BitVec.ofNat 8)

/-- "Maeluer Semiconductor". -/
def vendorName : List Byte :=
  text [0x4D, 0x61, 0x65, 0x6C, 0x75, 0x65, 0x72, 0x20, 0x53, 0x65, 0x6D, 0x69, 0x63, 0x6F, 0x6E, 0x64, 0x75, 0x63, 0x74, 0x6F, 0x72]

/-- "CX24-B0-N", "CX24-B0-U" or "CX22-B0-N". -/
def partNumber (part : Nat) : List Byte :=
  text [0x43, 0x58, 0x32, if part = 2 then 0x32 else 0x34, 0x2D, 0x42, 0x30, 0x2D, if part = 1 then 0x55 else 0x4E]

/-- SLAAC on both interfaces. -/
def ipv6Default : List Byte := fit 40 [1#8] ++ fit 40 [1#8]

/-- The default port roles of R390 as records. -/
def defaultRoles (s : State) (x : Nat) : List Byte :=
  (List.range (portCount x)).flatMap (fun k => let d := defaultRole s x k; leBytes 1 d.1 ++ leBytes 1 0 ++ leBytes 2 d.2)

/-- A factory record with no failed channel (R560). -/
def factoryDefault (s : State) : List Byte :=
  leBytes 16 1 ++ (List.range 139).flatMap (fun i =>
    let out := if i < 24 then bit s.fusedTiles i else 52 ≤ i && i < 124 && bit s.fusedTiles ((i - 52) / 3)
    let absent := 135 ≤ i && !bit s.guestSites (24 + (i - 135))
    leBytes 8 (if absent then 0 else if out then 3 else 1))

/-! ### Range 0x1000 -/

/-- 0x1100:03. -/
def imageStates (s : State) : Nat := s.boot.imageB.state * 256 + s.boot.imageA.state

/-- 0x1100:06 (R570). -/
def bootReport (s : State) : Nat :=
  let b := s.boot
  b.cause * 2 ^ 28 + b2n b.other * 2 ^ 26 + b2n b.defaults * 2 ^ 25 + b2n b.warm * 2 ^ 24 + b.result * 256 + b.stage

def read1000 (s : State) (index sub own : Nat) : Nat :=
  match index, sub with
  | 0x1000, 8 => (imageAt s s.boot.running).version
  | 0x1000, 9 => s.boot.running
  | 0x1010, 2 => s.fusedTiles
  | 0x1010, 3 => s.retiredTiles
  | 0x1010, 4 => s.pendingTiles
  | 0x1010, 5 => s.guestSites
  | 0x1010, 6 => popBelow (usableTiles s) 24
  | 0x1020, 1 => 6 + b2n (s.part = 1)
  | 0x1030, 1 | 0x1030, 2 | 0x1030, 3 => if s.host.linkUp then own else 0
  | 0x1100, 1 => s.boot.imageA.version
  | 0x1100, 2 => s.boot.imageB.version
  | 0x1100, 3 => imageStates s
  | 0x1100, 6 => bootReport s
  | 0x1200, 8 => s.mantle.owner.getD 2
  | 0x1200, 9 => mantleStates s
  | _, _ => own

/-! ### Ranges 0x2000 and 0x3000 -/

/-- A time counter in us with the part that is running. -/
def withRunning (s : State) (own : Nat) (since : Option Nat) : Nat :=
  match since with
  | some t => (own + (s.now - t) / usPs) % 2 ^ 64
  | none => own

def read2000 (s : State) (index sub own : Nat) : Nat :=
  match index, sub with
  | 0x2100, 2 => capInForce s
  | 0x2100, 4 => withRunning s own s.pow.limitedSince
  | 0x2300, 1 => worstStage s
  | 0x2300, 5 => (lastHour s).length % 256
  | 0x2300, 8 => withRunning s own s.pow.heldSince
  | 0x3000, 1 => s.clk.inForce
  | 0x3000, 2 => refStates s
  | 0x3000, 7 => holdoverTime s
  | 0x3100, 1 => epoch s
  | 0x3100, 3 => epochSource s
  | _, _ => own

/-- 0x3200:02: 0 for a tile that is fused, in reset or gated. -/
def tileClocks (s : State) : List Byte :=
  (List.range 24).flatMap (fun t =>
    leBytes 2 (if (clockedTiles s).contains t && (getTile s t).reset.isNone && s.fc.sleep = 0 then (getTile s t).mhz else 0))

/-- 0x2300:02 and :03 before the first round. -/
def dieTemps (s : State) : List Byte := (List.range 139).flatMap (fun i => leBytes 2 (dieReading s i))
def dieStages (s : State) : List Byte :=
  (List.range 139).map (fun i => if diePowered s i then BitVec.ofNat 8 (if i < 132 then stageOf s i else 0) else 0xFF#8)

/-! ### Range 0x4000 -/

/-- 0x4200:02. -/
def laserStates (s : State) : Nat := ((List.range 8).map (fun k => laserDie s k * 4 ^ k)).sum

/-- 0x4300+s:01. -/
def portLanes (s : State) (st : Nat) : List Byte :=
  (List.range (portCount st)).flatMap (fun k =>
    let p := getPort s (portKey st k)
    leBytes 1 (if !p.up then 0 else if p.role = 3 then dataLanes (linesWithout (usableLines s) p.failed) else dataLanes p.inUse))

/-- 0x4300+s:06. -/
def portFailed (s : State) (st : Nat) : List Byte :=
  (List.range (portCount st)).flatMap (fun k => leBytes 4 (getPort s (portKey st k)).failed)

/-- 0x4300+s:0C. -/
def meshLines (s : State) (st : Nat) : Nat :=
  if stationLive s st then leNat ((getStation s st).lines.map (BitVec.ofNat 8)) else 0

/-- 0x4400+n:01, :03, :04, :05, :06. -/
def groupStates (s : State) (n : Nat) : Nat :=
  ((List.range (groupCount s n)).map (fun g => (getGroup s n g).state * 4 ^ g)).sum
def linkPort (s : State) (n : Nat) : Nat :=
  match attachedPort s n with
  | some k => stationName s (k / 16) * 16 + k % 16
  | none => 0xFFFF
def neighbours (s : State) (n : Nat) : List Byte :=
  (List.range 16).flatMap (fun g =>
    let x := getGroup s n g
    if x.known then leBytes 2 x.farNode ++ leBytes 1 x.farLink ++ leBytes 1 x.farGroup ++ leBytes 1 x.farPart ++ leBytes 3 x.farSerial
    else List.replicate 8 0#8)
def groupLanes (s : State) (n : Nat) : List Byte :=
  (List.range (groupCount s n)).flatMap (fun g =>
    leBytes 1 (if (getGroup s n g).state < 2 then 0 else (groupDataLines s n g).length))
def groupLatency (s : State) (n : Nat) : List Byte :=
  (List.range (groupCount s n)).flatMap (fun g => leBytes 4 (getGroup s n g).latency)

/-- 0x4600+x:02. -/
def rolesInForce (s : State) (x : Nat) : List Byte :=
  (List.range (portCount x)).flatMap (fun k =>
    let r := roleRec s x k
    let fl := if (getPort s (portKey x k)).failed = 0x1FFFF then 1 else roleFlags s x k
    leBytes 1 r.1 ++ leBytes 1 fl ++ leBytes 2 r.2)

def read4000 (s : State) (index sub own : Nat) : Nat :=
  if index = 0x4200 then (match sub with | 1 => s.las.own % 16 | 2 => laserStates s | _ => own)
  else if 0x4300 ≤ index && index < 0x4400 then (if sub = 0xC then meshLines s (index - 0x4300) else own)
  else if 0x4400 ≤ index && index < 0x4500 then
    let n := index - 0x4400
    match sub with
    | 1 => groupStates s n
    | 2 => Tab.get 0 s.hem.split n
    | 3 => linkPort s n
    | 0xC => Tab.get 0 s.hem.failed n
    | _ => own
  else own

/-! ### Ranges 0x5000 and 0x6000 -/

def read5000 (s : State) (index sub own : Nat) : Nat :=
  match index, sub with
  | 0x5000, 3 => countP (fun (e : Nat × HemGroup) => decide (e.2.state = 3)) s.hem.groups
  | 0x5200, 4 => countP (fun (e : Nat × List Byte) => rValid e.2) s.fab.regions
  | 0x5400, 3 => countP (fun (e : Nat × List Byte) => groupValid e.2) s.col.groups
  | 0x5600, 2 => countP (fun (e : Nat × Option Track) => e.2.isSome && decide (e.1 / 16384 < 28)) s.fab.tracks
  | 0x5600, 5 => s.fab.quar.length
  | _, _ => own

/-- 0x6000:01 (R392). -/
def unitState (s : State) (x : Nat) : Nat :=
  if 24 ≤ x then (if !bit s.guestSites x then 7 else if (getTile s x).reset.isSome then 4 else 8)
  else if bit s.fusedTiles x then 0
  else if bit s.retiredTiles x then 6
  else if bit s.pendingTiles x then 5
  else if (getTile s x).reset.isSome || (!s.boot.tilesOn && (s.boot.mainOn || s.fc.sleep ≠ 3)) then 4
  else if 2 ≤ s.fc.sleep then 3
  else if s.fc.sleep = 1 then 2
  else 1

/-- 0x6300+t:01 and :09, a byte per die. -/
def dieBytes (s : State) (t : Nat) (f : DramDie → Nat) : Nat := f (getDie s t 0) + f (getDie s t 1) * 256 + f (getDie s t 2) * 65536

/-- 0x6300+t:0A. -/
def badRowCount (s : State) (t : Nat) : Nat := countP (fun (e : Nat × Bool) => e.2 && e.1 / 2 ^ 25 = t) s.badRows

/-- 0x6300+t:06. -/
def markedMats (s : State) (t : Nat) : List Byte :=
  (List.range 768).flatMap (fun i =>
    let l := matsOf s t (i / 256) (i % 256)
    leBytes 1 (l.getD 0 0xFF) ++ leBytes 1 (l.getD 1 0xFF))

def read6000 (s : State) (index sub own : Nat) : Nat :=
  if index = 0x6000 then (if sub = 2 then b2n (retirementPending s) else own)
  else if 0x6100 ≤ index && index < 0x6200 then
    let t := index - 0x6100
    let tl := getTile s t
    let fused := fun (f n : Nat) => if bit s.fusedTiles t then 2 ^ n - 1 else f
    match sub with
    | 4 => fused tl.fusedV 34
    | 5 => tl.retiredV
    | 6 => tl.pendingV
    | 7 => fused tl.fusedS 10
    | 8 => tl.retiredS
    | 9 => tl.pendingS
    | 0xA => coreCounts s t
    | _ => own
  else if 0x6300 ≤ index && index < 0x6400 then
    let t := index - 0x6300
    match sub with
    | 1 => dieBytes s t (·.state)
    | 7 => (getTile s t).rowStep
    | 8 => if (getTile s t).rowStep = 0 then own else (own + (s.now - (getTile s t).rowStepSince) / 1000) % 2 ^ 64
    | 9 => dieBytes s t (·.interval)
    | 0xA => badRowCount s t
    | _ => own
  else if 0x6600 ≤ index then (if sub = 1 then (getTile s (index - 0x6600)).confTile else own)
  else own

/-! ### The distance table (R69, R70, R98, R99) -/

/-- 0x6200+t:01. -/
def distanceTable (s : State) (t : Nat) : List Byte :=
  let tl := getTile s t
  let n := fun (k : Nat) => if bit (usableTiles s) t then logicalCores tl k else 0
  let row := fun (k i : Nat) => (List.range 35).flatMap (fun j => leBytes 1 (distance k ((physCore tl k i).getD 0) j))
  let rows := fun (k : Nat) => (List.range (n k)).flatMap (row k)
  leBytes 1 1 ++ leBytes 1 (n 0) ++ leBytes 1 (n 1) ++ leBytes 1 (n 2) ++ leBytes 1 35 ++ leBytes 3 0 ++ rows 0 ++ rows 1 ++ rows 2

/-! ### Ranges 0x7000 to 0xA000 -/

/-- Flows in some of the states. -/
def flowCount (s : State) (states : List Nat) : Nat := countP (fun (e : Nat × Nat) => states.contains e.2) s.adm.fstate

def read7000 (s : State) (sel : Tab Nat) (index sub own : Nat) : Nat :=
  let i := selOf sel 0x7200 1
  match index, sub with
  | 0x7000, 5 => flowCount s [2, 3]
  | 0x7000, 8 => flowCount s [3]
  | 0x7200, 3 => flowState s i
  | 0x7200, 4 => Tab.get 0 s.adm.bounds i % 2 ^ 32
  | 0x7200, 5 => Tab.get 0 s.adm.overruns i
  | 0x7300, 7 => s.bas.switches.length
  | 0x7500, 1 => countP (fun i => decide (schState s i = 4)) (List.range 64)
  | _, _ => own

/-- 0x8200:04: units with a confirmed fault. -/
def suspects (s : State) : Nat :=
  let n := fun (l : Tab Nat) => countP (fun (e : Nat × Nat) => decide (1 ≤ e.2)) l
  (s.tiles.map (fun e => b2n (1 ≤ e.2.confTile) + n e.2.confM + n e.2.confV + n e.2.confS)).sum

/-- A Mantle is in state Standby. -/
def standbyMantle (s : State) : Bool := s.mantle.dieA = 2 || s.mantle.dieB = 2

/-- 0x8300:01 (R396). -/
def degradedState (s : State) : Nat :=
  s.las.lost % 16 + b2n (!standbyMantle s) * 16 + b2n (s.clk.inForce = 2) * 32 + b2n (s.clk.inForce = 1) * 64
    + b2n (diagMode s) * 128 + b2n (retirementPending s) * 256

/-- Every redundant pair has a working standby, and the input is in its rating (R396, R525, R576). -/
def coverHeld (s : State) : Bool :=
  (rdE s 0x4000 1 = 1 || rdE s 0x4000 1 = 2) && !diagMode s && standbyMantle s
    && (List.range 4).all (fun g => (standbyDie s g).isSome && !bit s.las.lost g) && s.pow.inputGood.isSome

def read8000 (s : State) (index sub own : Nat) : Nat :=
  if index = 0x8000 || (0x8100 ≤ index && index < 0x8118) then
    let l := logOf s (if index = 0x8000 then 28 else index - 0x8100)
    match sub with
    | 1 => l.records.length
    | 3 => l.newest
    | _ => own
  else
    match index, sub with
    | 0x8200, 4 => suspects s % 65536
    | 0x8300, 1 => degradedState s
    | 0x8300, 3 => b2n (!coverHeld s)
    | 0x9000, 1 => s.fc.sleep
    | _, _ => own

/-- 0xA000 + ID, and 0xA000 for the operation last started (R368). -/
def readOp (s : State) (index sub own : Nat) : Nat :=
  let id := if index = 0xA000 then s.mantle.lastOp else index - 0xA000
  let o := getOp s id
  match sub with
  | 1 => id
  | 2 => if id = 7 && o.state ≠ 2 then (if o.total = 0 then 0 else o.position * 10000 / o.total) else progressOf o
  | 3 => o.position
  | 4 => o.state
  | 5 => o.result
  | 6 => o.started
  | 7 => o.ended
  | _ => own

/-! ### Entries that the spec leaves open -/

/-- A value that nothing in the block gives: droop cycles, skipped cycles, line powers, and the
layout of the admission inputs (R336). -/
def openEntry (index sub : Nat) : Bool :=
  (index = 0x3200 && (sub = 3 || sub = 5)) || (index = 0x4200 && sub = 5) || (index = 0x7000 && sub = 0xB)
    || (index = 0x9000 && sub = 4) || (index = 0x2300 && sub = 2)

/-! ### Every entry -/

/-- An entry of a tile that is fused off, of a silent station or of an empty guest site: it reads 0 (R131,
R188, R377). -/
def absentEntry (s : State) (index : Nat) : Bool :=
  (0x1040 ≤ index && index < 0x1044 && !bit s.guestSites (24 + (index - 0x1040))) ||
  (0x6300 ≤ index && index < 0x6318 && bit s.fusedTiles (index - 0x6300))
    || (0x4300 ≤ index && index < 0x431D && !stationLive s (index - 0x4300))

/-- The value of an entry of fixed size. -/
def scalarOf (s : State) (sel : Tab Nat) (index sub : Nat) : Nat :=
  let own := rdE s index sub
  if absentEntry s index then 0
  else if sub = 0 then own
  else if isSelect index sub then selOf sel index sub
  else if index = 0x3200 && (sub = 3 || sub = 5) then openValue s
  else if index < 0x2000 then read1000 s index sub own
  else if index < 0x4000 then read2000 s index sub own
  else if index < 0x5000 then read4000 s index sub own
  else if index < 0x6000 then read5000 s index sub own
  else if index < 0x7000 then read6000 s index sub own
  else if index < 0x8000 then read7000 s sel index sub own
  else if index < 0xA000 then read8000 s index sub own
  else if index < 0xF000 then readOp s index sub own
  else own

/-- Bytes that hold a per-core count. -/
def confBytes (t : Tab Nat) (n : Nat) : List Byte := (List.range n).flatMap (fun p => leBytes 1 (Tab.get 0 t p))

/-- The stored row that 0xF000:05 names: its data and check bytes (R115), and its stitch cell. -/
def rawRow (s : State) : List Byte :=
  let a := rdE s 0xF000 5
  let (t, d, r) := (a % 32, a / 32 % 4, a / 128 % 2 ^ 23)
  let c := Tab.get {} s.cells (rowKey t d r)
  rowBytes s t d r ++ rowCheck (rowBytes s t d r) ++ leBytes 9 (c.stitch.toNat * 256 + c.gen.toNat * 4 + c.state.toNat)

def blob1000 (s : State) (index sub : Nat) (own : List Byte) : List Byte :=
  match index, sub with
  | 0x1000, 1 => vendorName
  | 0x1000, 2 => partNumber s.part
  | 0x1000, 3 => text [0x42, 0x30]
  | 0x1200, 1 => fit 160 own
  | 0x1200, 3 => fit 96 own
  | 0x1200, 5 => fit 32 own
  | 0x1200, 6 => if own.isEmpty then ipv6Default else own
  | 0x1200, 0xD => s.mantle.unpersisted.flatMap (fun e => leBytes 2 e.1 ++ leBytes 1 e.2 ++ leBytes 1 0)
  | _, _ => if 0x1040 ≤ index && index < 0x1044 then fit 16 (if absentEntry s index then [] else own) else own

def blob2000 (s : State) (index sub : Nat) (own : List Byte) : List Byte :=
  match index, sub with
  | 0x2200, 2 => fit 16 own
  | 0x2300, 2 => if own.isEmpty then dieTemps s else own
  | 0x2300, 3 => if own.isEmpty then dieStages s else own
  | 0x3200, 2 => tileClocks s
  | _, _ => own

def blob4000 (s : State) (index sub : Nat) (own : List Byte) : List Byte :=
  if index = 0x4000 then (if sub = 9 && own.isEmpty then factoryDefault s else own)
  else if index = 0x4200 then (List.range 17).flatMap (fun i => leBytes 2 (Config.openField s.free i).toNat)
  else if 0x4300 ≤ index && index < 0x4400 then
    let st := index - 0x4300
    if absentEntry s index then List.replicate ((if sub = 1 then 1 else 4) * portCount st) 0#8
    else if sub = 1 then portLanes s st else portFailed s st
  else if 0x4400 ≤ index && index < 0x4500 then
    let n := index - 0x4400
    match sub with
    | 4 => neighbours s n
    | 5 => groupLanes s n
    | _ => groupLatency s n
  else if index < 0x4600 then fit 16 own
  else
    let x := index - 0x4600
    if sub = 2 then rolesInForce s x else if own.isEmpty then defaultRoles s x else own

def blob5000 (s : State) (sel : Tab Nat) (index sub : Nat) (own : List Byte) : List Byte :=
  match index, sub with
  | 0x5100, 2 => fit 64 (Tab.get [] s.hem.routes (selOf sel 0x5100 1))
  | 0x5200, 2 => fit 32 (Tab.get [] s.fab.regions (selOf sel 0x5200 1))
  | 0x5300, 2 => fit 32 (Tab.get [] s.hem.slices (selOf sel 0x5300 1 % 1024))
  | 0x5400, 2 => fit 16 (Tab.get [] s.col.groups (selOf sel 0x5400 1))
  | 0x5500, 3 => if own.isEmpty then leBytes 16 0 else own
  | _, _ => own

def blob6000 (s : State) (index sub : Nat) (own : List Byte) : List Byte :=
  if index = 0x6000 then (List.range 28).flatMap (fun x => leBytes 1 (unitState s x))
  else if 0x6100 ≤ index && index < 0x6200 then
    let t := index - 0x6100
    let tl := getTile s t
    leBytes 9 (match sub with
      | 1 => if bit s.fusedTiles t then 2 ^ 68 - 1 else tl.fusedM
      | 2 => tl.retiredM
      | _ => tl.pendingM)
  else if 0x6200 ≤ index && index < 0x6300 then distanceTable s (index - 0x6200)
  else if 0x6300 ≤ index && index < 0x6400 then
    if absentEntry s index then fit 1536 [] else markedMats s (index - 0x6300)
  else if 0x6600 ≤ index && index < 0x6700 then
    let tl := getTile s (index - 0x6600)
    match sub with
    | 2 => confBytes tl.confM 68
    | 3 => confBytes tl.confV 34
    | _ => confBytes tl.confS 10
  else own

def blob7000 (s : State) (sel : Tab Nat) (index sub : Nat) (own : List Byte) : List Byte :=
  let i := selOf sel 0x7200 1
  match index, sub with
  | 0x7000, 3 => fit 24 own
  | 0x7000, 4 => leBytes 32 (maskOf (fun k => (jobs s).any (fun e => e.1 = k && 2 ≤ e.2.state)) 256)
  | 0x7000, 0xB => leBytes 8 (openValue s)
  | 0x7200, 2 => fit 48 (flowRec s i)
  | 0x7200, 6 => (List.range 64).flatMap (fun j => leBytes 4 ((Tab.get [] s.adm.offsets i).getD j 0))
  | _, _ => if 0x7600 ≤ index && sub = 5 then fit 32 own else own

def blob8000 (s : State) (index sub : Nat) (own : List Byte) : List Byte :=
  match index, sub with
  | 0x8000, 2 => s.log.pkg.records.flatten
  | 0x8000, 6 => leBytes 32 (maskOf (fun c => (Tab.get none s.log.squall c).isSome) 256)
  | 0x8000, 7 => (List.range 256).flatMap (fun c => leBytes 4 (Tab.get 0 s.log.repeats c))
  | 0x9000, 4 => (List.range 32).flatMap (fun i =>
      leBytes 2 (if 22 ≤ i then 0 else match filtered s i with
        | some x => unsigned 16 x
        | none => (Config.openField s.free i).toNat))
  | 0x9000, 5 => channelRecords s
  | 0xF000, 3 => fit 16 own
  | 0xF000, 6 => rawRow s
  | _, _ => if 0x8100 ≤ index && index < 0x8118 then (logOf s (index - 0x8100)).records.flatten else own

/-- The value of a STR or BLOB entry. -/
def blobOf (s : State) (sel : Tab Nat) (index sub : Nat) : List Byte :=
  let own := rdB s index sub
  if index < 0x2000 then blob1000 s index sub own
  else if index < 0x4000 then blob2000 s index sub own
  else if index < 0x5000 then blob4000 s index sub own
  else if index < 0x6000 then blob5000 s sel index sub own
  else if index < 0x7000 then blob6000 s index sub own
  else if index < 0x8000 then blob7000 s sel index sub own
  else blob8000 s index sub own

/-- The bytes that a READ of an entry returns. -/
def valueOf (s : State) (sel : Tab Nat) (e : Entry) (index sub : Nat) : List Byte :=
  match etypeSize e.ty with
  | some n => leBytes n (scalarOf s sel index sub)
  | none => blobOf s sel index sub

end Sys2Proof.Machine
end

