-- ==== Sys2Proof/Machine/Dictionary.lean ====
section
/-!
DEFINITION. VDP messages on any entry (11_vexga_dictionary.md R344 to R356): what a write of each
entry does, reads and snapshots, commit groups, DESCRIBE and the restore to defaults.
-/
namespace Sys2Proof.Machine

/-! ### What a write of each entry does -/

/-- The range of an entry's values, and the effect of a value (R349 steps 9 and 15). -/
structure Writer where
  ok : State → Tab Nat → List Byte → Bool := anyValue
  effect : State → Tab Nat → List Byte → Effect

/-- A scalar entry that is only stored. -/
def storeScalar (index sub : Nat) (ok : Nat → Bool) : Writer :=
  { ok := fun _ _ v => ok (leNat v), effect := fun s _ v => { s := wrE s index sub (leNat v) } }

/-- A byte string that is only stored. -/
def storeBytes (index sub : Nat) (ok : List Byte → Bool) : Writer :=
  { ok := fun _ _ v => ok v, effect := fun s _ v => { s := wrB s index sub v } }

/-- An entry of 0xF000 that diagnostic mode opens (R398). -/
def diagOnly (w : Writer) : Writer :=
  { ok := w.ok, effect := fun s sel v => if diagMode s then w.effect s sel v else { s := s, status := stRefused } }

/-- A select: the value is the context's (R345). -/
def selectWriter (src : Party) (index sub limit : Nat) : Writer :=
  { ok := fun _ _ v => leNat v < limit
    effect := fun s _ v =>
      let c := contextOf s src
      { s := putContext s { c with sel := Tab.put 0 c.sel (dictKey index sub) (leNat v) } } }

/-- Records of `n` bytes that all pass. -/
def records (n k : Nat) (ok : List Byte → Bool) (v : List Byte) : Bool :=
  v.length = n * k && (List.range k).all (fun i => ok (slice v (n * i) n))

def peerOk (r : List Byte) : Bool := field r 16 1 ≤ 128 && field r 17 1 ≤ 3
def ipv4Ok (r : List Byte) : Bool := field r 0 1 ≤ 2 && field r 8 1 ≤ 32
def ipv6Ok (r : List Byte) : Bool := field r 24 1 ≤ 128

/-- Ranges 0x1000. -/
def writer1000 (r : VdpReq) (index sub : Nat) (restore : State → Tab Nat → List Byte → Effect) : Writer :=
  match index, sub with
  | 0x1100, 4 => storeScalar index sub (· ≤ 1)
  | 0x1100, 5 =>
    { ok := fun _ _ v => !v.isEmpty
      effect := fun s _ v =>
        if opRunning s 9 then { s := s, status := stBusy }
        else if s.boot.spiSel then { s := s, status := stPersist }
        else { s := endUpload (beginUpload s v.length) v } }
  | 0x1100, 7 => { effect := restartModule }
  | 0x1200, 1 => storeBytes index sub (records 20 8 peerOk)
  | 0x1200, 2 => storeScalar index sub (· ≤ 3)
  | 0x1200, 3 => storeBytes index sub (fun v => v.length = 96)
  | 0x1200, 5 => storeBytes index sub (records 16 2 ipv4Ok)
  | 0x1200, 6 => storeBytes index sub (records 40 2 ipv6Ok)
  | 0x1200, 0xB =>
    { effect := fun s sel v => if r.nvFails then { s := s, status := stPersist } else restore s sel v }
  | 0x1200, 0xE => { effect := handOver }
  | 0x1200, 0xF => { effect := restartStandby }
  | _, _ => storeScalar index sub (fun _ => true)

/-- Ranges 0x2000 to 0x4000. -/
def writer2000 (index sub : Nat) : Writer :=
  if 0x4600 ≤ index then
    { ok := fun _ _ v => rolesOk (index - 0x4600) v, effect := writeRoles (index - 0x4600) }
  else if 0x4500 ≤ index then
    (if sub = 1 then storeScalar index sub (· ≤ 4) else storeBytes index sub (fun v => v.length = 16))
  else
    match index, sub with
    | 0x2000, 1 => { ok := fun _ _ v => leNat v ≤ 3, effect := writeMode }
    | 0x2100, 1 => storeScalar index sub (fun n => 1000 ≤ n && n ≤ 8000)
    | 0x2300, 7 => { effect := releaseLatch }
    | 0x3000, 3 => storeScalar index sub (fun n => n < 1024 || n = 0xFFFF)
    | 0x3000, 8 | 0x3100, 2 => storeScalar index sub (· ≤ 1)
    | 0x3200, 1 => { ok := fun _ _ v => clockOk (leNat v), effect := writeLimit }
    | 0x4000, 2 => { effect := startCalibration }
    | 0x4200, 6 => { ok := fun _ _ v => leNat v < 4, effect := switchGroup }
    | 0x4200, 7 => { ok := fun _ _ v => leNat v < 8, effect := restartDie }
    | _, _ => storeScalar index sub (fun _ => true)

/-- Ranges 0x5000 and 0x6000. -/
def writer5000 (src : Party) (index sub : Nat) : Writer :=
  if 0x6600 ≤ index then { effect := fun s _ _ => { s := clearCounts s (index - 0x6600) } }
  else
    match index, sub with
    | 0x5000, 1 => { ok := fun _ _ v => nodeOk v, effect := writeNode }
    | 0x5000, 2 => { effect := clearQuarantine }
    | 0x5300, 1 => selectWriter src index sub 1024
    | 0x5100, 1 | 0x5200, 1 | 0x5400, 1 => selectWriter src index sub 4096
    | 0x5100, 2 => { ok := fun _ _ v => routeSetOk v, effect := writeRouteSet }
    | 0x5200, 2 => { ok := fun _ _ v => regionRecordOk v, effect := writeRegion }
    | 0x5200, 3 => { ok := fun _ _ v => leNat v < 4096 || leNat v = 0xFFFF, effect := setOwnerEntry }
    | 0x5300, 2 => { ok := fun _ _ v => v.length = 32, effect := writeSlices }
    | 0x5400, 2 => { ok := fun _ _ v => groupOk v, effect := writeMulticast }
    | 0x5500, 2 => { effect := startSweep }
    | 0x5600, 1 => storeScalar index sub (fun n => 1 ≤ n && n ≤ 1000)
    | 0x5600, 8 => { ok := fun _ _ v => leNat v < 8192, effect := revokeLease }
    | 0x5600, 9 => { effect := tearDown }
    | 0x6400, 1 => storeScalar index sub (fun n => 60 ≤ n && n ≤ 86400)
    | 0x6400, 2 => { effect := startDemandScrub }
    | 0x6400, 4 | 0x6400, 5 => storeScalar index sub (fun n => n % 1024 = 0)
    | 0x6400, 6 => { effect := startFill }
    | 0x6500, 1 => storeScalar index sub (· ≤ 1)
    | _, _ => storeScalar index sub (fun _ => true)

/-- Range 0x7000. -/
def writer7000 (src : Party) (index sub : Nat) : Writer :=
  if 0x7600 ≤ index then { ok := fun _ _ v => v.length ≤ 66624, effect := writeSchedule (index - 0x7600) }
  else if 0x7400 ≤ index && index < 0x7500 then { ok := planBodyOk, effect := writePlanBody (index - 0x7400) }
  else
    match index, sub with
    | 0x7000, 1 => { effect := startAdmission }
    | 0x7000, 2 => { effect := withdraw }
    | 0x7200, 1 => selectWriter src index sub 4096
    | 0x7200, 2 => { ok := fun _ _ v => v.length = 48, effect := writeFlow }
    | 0x7300, 2 =>
      { effect := fun s _ v =>
          let (s, c) := requestSwitch s (leNat v)
          { s := s, data := leBytes 8 c } }
    | 0x7300, 3 => { effect := startLoadPlan }
    | 0x7500, 0xA => { ok := fun _ _ v => leNat v < 64, effect := startLoadSchedule }
    | _, _ => storeScalar index sub (fun _ => true)

/-- The 32 records of 0x9000:05 without what is written to their reserved fields and to the reserved
records (R12, R397). -/
def keptThresholds (v : List Byte) : List Byte :=
  (List.range 32).flatMap (fun i =>
    if 22 ≤ i then leBytes 8 0 else slice v (8 * i) 5 ++ leBytes 1 (field v (8 * i + 5) 1 % 2) ++ leBytes 2 0)

/-- 0x9000:05: a fixed record that changes refuses the write (R397). -/
def writeThresholds (s : State) (_sel : Tab Nat) (v : List Byte) : Effect :=
  if (keptThresholds v).take 112 = (channelRecords s).take 112 then { s := wrB s 0x9000 5 (keptThresholds v) }
  else { s := s, status := stRefused }

/-- Its length, and the action of every channel, have a range. -/
def thresholdsOk (v : List Byte) : Bool := v.length = 256 && (List.range 22).all (fun i => field v (8 * i + 4) 1 ≤ 2)

/-- Ranges 0x8000 to 0xF000. -/
def writer8000 (index sub : Nat) : Writer :=
  if 0xA000 ≤ index && index < 0xF000 then
    { effect := fun s sel v => abortOperation (index - 0xA000) (getOp s (index - 0xA000)).position s sel v }
  else if index = 0x8000 || (0x8100 ≤ index && index < 0x8118) then
    let k := if index = 0x8000 then 28 else index - 0x8100
    { ok := fun s _ v => atOrBefore (leNat v) (logOf s k).newest, effect := fun s _ v => { s := clearLog s k (leNat v) } }
  else
    match index, sub with
    | 0x8200, 1 => { ok := fun _ _ v => leNat v < 2 ^ 24, effect := startSelfTest }
    | 0x9000, 2 => { ok := fun _ _ v => leNat v ≤ 3, effect := sleepRequest }
    | 0x9000, 5 => { ok := fun _ _ v => thresholdsOk v, effect := writeThresholds }
    | 0xF000, 1 => { effect := setDiag }
    | 0xF000, 2 => { ok := fun s _ v => injectionOk s v, effect := queueInjection }
    | 0xF000, 3 => diagOnly (storeBytes index sub (fun v => v.length = 16))
    | 0xF000, 4 => { ok := fun s _ v => tapOk s v, effect := overrideTap }
    | 0xF000, 5 => diagOnly (storeScalar index sub (fun _ => true))
    | 0xF000, 7 =>
      diagOnly { ok := fun _ _ v => leNat v < 2 ^ 17
                 effect := fun s _ v => { s := linesChanged (wrE s 0xF000 7 (leNat v)) 0 } }
    | 0xF000, 8 =>
      diagOnly { ok := fun _ _ v => leNat v = 0 || clockOk (leNat v)
                 effect := fun s _ v => { s := (setClocks (wrE s 0xF000 8 (leNat v))).1 } }
    | 0xF000, 9 => { ok := fun _ _ v => leNat v = 0x45524153, effect := eraseStore }
    | 0xF000, 0xA => diagOnly (storeScalar index sub (fun _ => true))
    | _, _ => storeScalar index sub (fun _ => true)

/-! ### The restore to defaults (R344) -/

/-- Keys that the restore rewrites: every RWP entry outside 0x1200. -/
def restoredKey (k : Nat) : Bool := isPersistent (k / 256) (k % 256) && k / 256 ≠ 0x1200

/-- A copy of the store with defaults in place of what the restore rewrites. -/
def restoreCopy (c : NvCopy) : NvCopy :=
  { c with vals := c.vals.filter (fun e => !restoredKey e.1), blobs := c.blobs.filter (fun e => !restoredKey e.1), gen := c.gen + 1 }

/-- Every restored value takes effect as a written one: mode and limit at their fronts, port
roles at once (R391). -/
def restoreDefaults (s : State) (sel : Tab Nat) (_v : List Byte) : Effect :=
  let m := s.mantle
  let s := { s with
    dict := s.dict.filter (fun e => !restoredKey e.1)
    blobs := s.blobs.filter (fun e => !restoredKey e.1)
    mantle := { m with copy0 := restoreCopy m.copy0, copy1 := restoreCopy m.copy1,
                       unpersisted := m.unpersisted.filter (fun x => x.1 = 0x1200) } }
  let s := (writeMode s sel (leBytes 1 1)).s
  let s := (writeLimit s sel (leBytes 2 2000)).s
  { s := settleRoles s }

/-- What a write of an entry does. -/
def writerOf (r : VdpReq) (index sub : Nat) : Writer :=
  if index < 0x2000 then writer1000 r index sub restoreDefaults
  else if index < 0x5000 then writer2000 index sub
  else if index < 0x7000 then writer5000 r.src index sub
  else if index < 0x8000 then writer7000 r.src index sub
  else writer8000 index sub

/-- RESTORE_DEFAULTS. -/
def execRestoreDefaults (r : VdpReq) (s : State) : Out :=
  let r := atEntry r 0x1200 0xB
  .next (vdpEntry s r anyValue (writerOf r 0x1200 0xB).effect)

/-! ### Reads (R349, R350) -/

/-- Which free values a read used. -/
def readFree (s : State) (index sub : Nat) : State :=
  if openEntry index sub then nextFree s else s

/-- The next snapshot ID after `n`: 1 to 0xFFFF in turn. -/
def nextSnap (n : Nat) : Nat := n % 0xFFFF + 1

/-- A segment of a value. -/
def segmentOf (r : VdpReq) (id : Nat) (value : List Byte) : VdpResp :=
  { respOf r 0 id ((value.drop r.offset).take 1024) with total := value.length }

/-- A READ from a snapshot. -/
def readSnapshot (s : State) (r : VdpReq) : State :=
  let same := fun (x : Snapshot) => x.id = r.detail && x.party = r.src && x.index = r.index && x.sub = r.sub
  match s.mantle.snapshots.find? same with
  | none => refuse s r stStale 0
  | some x =>
    if r.dataLen ≠ 0 || x.value.length ≤ r.offset then refuse s r stLength 0
    else if r.group ≠ 0 then refuse s r stGroup 0
    else
      let s := { s with mantle := { s.mantle with snapshots := updFirst same (fun y => { y with last := s.now }) s.mantle.snapshots } }
      answer s r (segmentOf r x.id x.value)

/-- A READ from Offset 0. -/
def readValue (s : State) (r : VdpReq) (e : Entry) : State :=
  if r.dataLen ≠ 0 || r.offset ≠ 0 then refuse s r stLength 0
  else if r.group ≠ 0 then refuse s r stGroup 0
  else if !contextFree s r.src then refuse s r stBusy 0
  else
    let v := valueOf s (contextOf s r.src).sel e r.index r.sub
    let s := readFree s r.index r.sub
    if v.length ≤ 1024 then answer s r (segmentOf r 0 v)
    else if 16 ≤ s.mantle.snapshots.length then refuse s r stBusy 0
    else
      let id := s.mantle.snapNext
      let x : Snapshot := { id := id, party := r.src, index := r.index, sub := r.sub, value := v, last := s.now }
      let s := { s with mantle := { s.mantle with snapshots := s.mantle.snapshots ++ [x], snapNext := nextSnap id } }
      answer s r (segmentOf r id v)

/-- Steps 1 to 7 (R349). -/
def checkAccess (s : State) (r : VdpReq) : Nat :=
  checkEntry s { r with data := [], dataLen := 0, offset := 0, total := 0 }

/-- Answer a request that no earlier answer repeats (R351). -/
def unlessRepeated (s : State) (r : VdpReq) (f : State → State) : State :=
  if !answersNow s r then unanswered s r
  else
    match duplicateOf s r with
    | some x => sendResp s r.src x
    | none => f s

/-- A READ. -/
def vdpReadAny (s : State) (r0 : VdpReq) : State :=
  let r := { r0 with opcode := 1 }
  unlessRepeated s r (fun s =>
    let c := checkAccess s r
    if c ≠ 0 then refuse s r c 0
    else
      match findEntry r.index r.sub with
      | none => refuse s r stNoSubindex 0
      | some e => if r.offset ≠ 0 && e.ty = .blob then readSnapshot s r else readValue s r e)

/-! ### DESCRIBE (R348) -/

/-- The largest length of a byte string that has one. -/
def blobLimit (index sub : Nat) : Nat :=
  if index = 0x1200 then (match sub with | 1 => 160 | 3 => 96 | 5 => 32 | 6 => 80 | _ => 16777216)
  else if 0x4500 ≤ index && index < 0x4540 then 16
  else if 0x4600 ≤ index && index < 0x461C then 4 * portCount (index - 0x4600)
  else if 0x7400 ≤ index && index < 0x7500 then 808
  else if 0x7600 ≤ index && index < 0x7640 && sub = 1 then 66624
  else
    match index, sub with
    | 0x5100, 2 => 64
    | 0x5200, 2 | 0x5300, 2 => 32
    | 0x5400, 2 => 16
    | 0x7200, 2 => 48
    | 0x9000, 5 => 256
    | 0xF000, 2 | 0xF000, 3 => 16
    | 0xF000, 4 => 8
    | _, _ => 16777216

/-- The 16 bytes of DESCRIBE. -/
def describeData (e : Entry) (index sub : Nat) : List Byte :=
  let level := if 0xF000 ≤ index then 3 else if e.acc = .ro then 1 else 2
  let longest := if e.ty = .blob then blobLimit index sub else maxLen e
  let dflt := if e.ty = .blob || e.ty = .str then 0 else e.dflt
  leBytes 1 (etypeCode e.ty) ++ leBytes 1 (eaccessCode e.acc) ++ leBytes 1 (b2n e.betweenJobs) ++ leBytes 1 level
    ++ leBytes 4 longest ++ leBytes 8 dflt

/-- DESCRIBE. -/
def describe (s : State) (r0 : VdpReq) : State :=
  let r := { r0 with opcode := 8 }
  unlessRepeated s r (fun s =>
    let c := checkEntry s r
    if c ≠ 0 then refuse s r c 0
    else if !contextFree s r.src then refuse s r stBusy 0
    else
      match findEntry r.index r.sub with
      | none => refuse s r stNoSubindex 0
      | some e => answer s r (respOf r 0 0 (describeData e r.index r.sub)))

def execDescribe (r : VdpReq) (s : State) : Out := .next (describe s r)

/-! ### Commit groups (R353 to R356) -/

def getCommit (s : State) (n : Nat) : Group := Tab.get {} s.mantle.groups n

/-- Groups in a state. -/
def groupsIn (s : State) (state : Nat) : List (Nat × Group) := s.mantle.groups.filter (fun e => e.2.state = state)

/-- The data that a group opcode carries. -/
def groupData (r : VdpReq) (n : Nat) : Bool := r.dataLen = n && r.data.length = n

/-- Steps 1 to 4 and 8 of a group opcode. -/
def checkGroup (s : State) (r : VdpReq) (n : Nat) : Nat :=
  let h := checkHead s r r.index
  if h ≠ 0 then h else if !groupData r n then stLength else 0

/-- The next free group number after `n`. -/
def nextGroup (s : State) (n : Nat) : Option Nat :=
  ((List.range 255).map (fun i => (n + i) % 255 + 1)).find? (fun k => !((getCommit s k).state ≤ 1))

/-- GROUP_OPEN. -/
def groupOpen (s : State) (r0 : VdpReq) : State :=
  let r := { r0 with opcode := 4 }
  unlessRepeated s r (fun s =>
    let c := checkGroup s r 0
    if c ≠ 0 then refuse s r c 0
    else if 8 ≤ (groupsIn s 0).length || !contextFree s r.src then refuse s r stBusy 0
    else
      match nextGroup s s.mantle.groupLast with
      | none => refuse s r stBusy 0
      | some n =>
        let s := putGroup s n { state := 0, party := some r.src, last := s.now }
        let s := { s with mantle := { s.mantle with groupLast := n } }
        answer (standbyCopy s r.copyFails) r (respOf r 0 0 (leBytes 1 n)))

def execGroupOpen (r : VdpReq) (s : State) : Out := .next (groupOpen s r)

/-- Staged writes by ascending index and subindex. -/
def insertStaged (x : Staged) : List Staged → List Staged
  | [] => [x]
  | y :: l => if dictKey x.index x.sub < dictKey y.index y.sub then x :: y :: l else y :: insertStaged x l

def sortStaged (l : List Staged) : List Staged := l.foldl (fun l x => insertStaged x l) []

def stagedType (x : Staged) : Bool :=
  match findEntry x.index x.sub with
  | some e => typeRange e x.value
  | none => false

/-- The write behind a staged value. -/
def stagedWriter (party : Party) (x : Staged) : Writer := writerOf { src := party } x.index x.sub

/-- Step 15 on a group as a whole: the first staged value that its entry refuses after those before it. -/
def stagedFault (party : Party) (sel : Tab Nat) : List Staged → State → Option (Nat × Nat × Staged)
  | [], _ => none
  | x :: l, s =>
    let e := (stagedWriter party x).effect s sel x.value
    if e.status ≠ 0 then some (e.status, e.detail, x) else stagedFault party sel l e.s

/-- R354 item 1: the first value that cannot be committed, with status and detail. -/
def commitFault (s : State) (r : VdpReq) (sel : Tab Nat) (l : List Staged) : Option (Nat × Nat × Staged) :=
  match l.find? (fun x => !stagedType x || !(stagedWriter r.src x).ok s sel x.value) with
  | some x => some (stRange, 0, x)
  | none =>
    let between := fun (x : Staged) => match findEntry x.index x.sub with | some e => e.betweenJobs | none => false
    match (if noJobs s then none else l.find? between) with
    | some x => some (stBetweenJobs, 0, x)
    | none => stagedFault r.src sel l s

/-- R354 item 2: the status of a front. -/
def frontFault (s : State) (g : Group) (front : Nat) : Nat :=
  if front = 0 then 0
  else if front % 4096 ≠ 0 then stRange
  else if groupBetweenJobs g && epoch s + 262144 < front then stRange
  else if front < epoch s + 8192 then stLate
  else 0

/-- Arm an open group. -/
def armGroup (s : State) (r : VdpReq) (g : Group) (sel : Tab Nat) (front : Nat) : State :=
  let order := 1 + (groupsIn s 1).foldl (fun n e => max n e.2.order) 0
  let staged := (sortStaged g.staged).map (fun x => { x with sel := sel })
  let s := putGroup s r.group { g with state := 1, staged := staged, front := front, order := order, last := s.now }
  answer (standbyCopy s r.copyFails) r (respOf r 0 0 (leBytes 8 front))

/-- GROUP_COMMIT. -/
def groupCommit (s : State) (r0 : VdpReq) : State :=
  let r := { r0 with opcode := 5 }
  unlessRepeated s r (fun s =>
    let c := checkGroup s r 8
    if c ≠ 0 then refuse s r c 0
    else if !ownGroup s r then refuse s r stGroup 0
    else
      let g := getCommit s r.group
      let s := putGroup s r.group { g with last := s.now }
      let sel := (contextOf s r.src).sel
      match commitFault s r sel (sortStaged g.staged) with
      | some (st, d, x) => answer s r { respOf r st d [] with index := x.index, sub := x.sub }
      | none =>
        let asked := leNat r.data
        let f := frontFault s g asked
        if f ≠ 0 then refuse s r f 0
        else
          match (sortStaged g.staged).find? (fun x => heldByGroup s x.index x.sub) with
          | some x => answer s r { respOf r stConflict 0 [] with index := x.index, sub := x.sub }
          | none =>
            if 8 ≤ (groupsIn s 1).length then refuse s r stBusy 0
            else armGroup s r g sel (if asked = 0 then frontAt (epoch s + 8192) else asked))

def execGroupCommit (r : VdpReq) (s : State) : Out := .next (groupCommit s r)

/-- GROUP_DISCARD. -/
def groupDiscard (s : State) (r0 : VdpReq) : State :=
  let r := { r0 with opcode := 6 }
  unlessRepeated s r (fun s =>
    let c := checkGroup s r 0
    if c ≠ 0 then refuse s r c 0
    else if !ownGroup s r then refuse s r stGroup 0
    else
      let s := putGroup s r.group { getCommit s r.group with state := 3, staged := [] }
      answer (standbyCopy s r.copyFails) r (respOf r 0 0 []))

def execGroupDiscard (r : VdpReq) (s : State) : Out := .next (groupDiscard s r)

/-- The 16 bytes of GROUP_STATUS. -/
def groupStatusData (g : Group) : List Byte := leBytes 1 g.state ++ leBytes 1 g.staged.length ++ leBytes 6 0 ++ leBytes 8 g.front

/-- GROUP_STATUS: a group of another context is answered GROUP; asking renews an open group. -/
def groupStatus (s : State) (r0 : VdpReq) : State :=
  let r := { r0 with opcode := 7 }
  unlessRepeated s r (fun s =>
    let c := checkGroup s r 0
    let g := getCommit s r.group
    if c ≠ 0 then refuse s r c 0
    else if g.party.isSome && g.party ≠ some r.src then refuse s r stGroup 0
    else if !contextFree s r.src then refuse s r stBusy 0
    else
      let s := if g.state = 0 then putGroup s r.group { g with last := s.now } else s
      answer s r (respOf r 0 0 (groupStatusData g)))

def execGroupStatus (r : VdpReq) (s : State) : Out := .next (groupStatus s r)

/-- A mode or a limit of a group takes effect at the group's own front. -/
def atGroupFront (s : State) (x : Staged) : State :=
  let f := fun (p : Nat × Nat) => (p.1, epoch s)
  if x.index = 0x2000 then { s with clk := { s.clk with modeAt := s.clk.modeAt.map f } }
  else if x.index = 0x3200 then { s with clk := { s.clk with limitAt := s.clk.limitAt.map f } }
  else s

/-- Every staged value takes effect, or none does. -/
def applyStaged (party : Party) : List Staged → State → Option State
  | [], s => some s
  | x :: l, s =>
    let e := (stagedWriter party x).effect s x.sel x.value
    if e.status ≠ 0 then none else applyStaged party l (atGroupFront e.s x)

/-- RWP values of a group after its front: stored, or reported in 0x1200:0D and logged; the
spec names no class (R356). -/
def persistStaged (s : State) (fails : Bool) (l : List Staged) : State :=
  let kept := l.filter (fun x => isPersistent x.index x.sub)
  if !fails then kept.foldl (fun s x => persist s x.index x.sub) s
  else if kept.isEmpty then s
  else
    let new := (kept.map (fun x => (x.index, x.sub))).filter (fun x => !s.mantle.unpersisted.contains x)
    let s := { s with mantle := { s.mantle with unpersisted := s.mantle.unpersisted ++ new } }
    nextFree (report s { cls := openValue s % 256, detail := openNth s 1 % 2 ^ 32, tag := openNth s 2 })

/-- GROUP_APPLY (R356). -/
def applyGroup (nvFails : Bool) (s : State) (n : Nat) (g : Group) : State :=
  match applyStaged (g.party.getD (.mailbox 0)) g.staged s with
  | some s => persistStaged (putGroup s n { g with state := 2 }) nvFails g.staged
  | none => dropGroup s n g

/-! ### Any message -/

/-- A WRITE or COMMAND of the entry that the message names. -/
def vdpWriteAny (s : State) (r : VdpReq) : State :=
  if r.index = 0x1100 && r.sub = 5 then imageUpload s r
  else
    let w := writerOf r r.index r.sub
    vdpEntry s r w.ok w.effect

/-- A message as it arrives. -/
def vdpAny (s : State) (r : VdpReq) : State :=
  match r.opcode with
  | 1 => vdpReadAny s r
  | 2 | 3 => vdpWriteAny s r
  | 4 => groupOpen s r
  | 5 => groupCommit s r
  | 6 => groupDiscard s r
  | 7 => groupStatus s r
  | 8 => describe s r
  | 10 => notifyAck s r
  | _ => unlessRepeated s r (fun s => refuse s r (checkHead s r r.index) 0)

/-- VDP_READ: an opcode that R348 does not list is answered as such. -/
def execVdpRead (r : VdpReq) (s : State) : Out :=
  .next (if r.opcode = 0 || knownVdpOp r.opcode then vdpReadAny s r else vdpAny s r)

/-- VDP_WRITE, and COMMANDs of entries without a row. -/
def execVdpWrite (r : VdpReq) (s : State) : Out :=
  .next (if r.opcode = 3 then vdpWriteAny s r
    else if r.opcode = 0 || knownVdpOp r.opcode then vdpWriteAny s { r with opcode := 2 }
    else vdpAny s r)

end Sys2Proof.Machine
end

