-- ==== Sys2Proof/Machine/Front.lean ====
section
/-!
DEFINITION. Clock fronts (14_clocks_crossings.md R458 to R461) and the tick of the block's clock.
-/
namespace Sys2Proof.Machine

/-- EPOCH_STEP at its front: only while no slice is admitted (R452); else the offset is slewed. -/
def epochAtFront (s : State) : State :=
  match s.clk.stepAt with
  | some f =>
    if epoch s < f then s
    else if noJobs s then stepEpoch s s.clk.stepBy
    else { s with clk := { s.clk with stepAt := none, slewLeft := -s.clk.stepBy } }
  | none => s

/-- Groups by the order of their commits. -/
def insertGroup (x : Nat × Group) : List (Nat × Group) → List (Nat × Group)
  | [] => [x]
  | y :: l => if x.2.order < y.2.order then x :: y :: l else y :: insertGroup x l

/-- Armed groups whose front has come at count `n`. -/
def groupsAtFront (nvFails : Bool) (n : Nat) (s : State) : State :=
  let due := ((groupsIn s 1).filter (fun e => e.2.front ≤ n)).foldl (fun l x => insertGroup x l) []
  due.foldl (fun s e => applyGroup nvFails s e.1 e.2) s

/-- REFERENCE_REVERSION: to a source that is still qualified (R447). -/
def reversionAtFront (n : Nat) (s : State) : State :=
  match s.clk.revert with
  | some (src, f) =>
    if n < f then s
    else if refState s src = 2 then changeRef s src
    else { s with clk := { s.clk with revert := none } }
  | none => s

/-- Switches by their fronts. -/
def insertSwitch (x : Switch) : List Switch → List Switch
  | [] => [x]
  | y :: l => if x.front < y.front then x :: y :: l else y :: insertSwitch x l

/-- Plan switches whose front has come, in front order (R178). -/
def switchesAtFront (s : State) : State :=
  let due := (s.bas.switches.filter (fun w => w.front ≤ epoch s)).foldl (fun l w => insertSwitch w l) []
  due.foldl switchAtFront s

/-- REPLICA_MISMATCH (R515): the replica is reloaded at the front. -/
def replicaAtFront (s : State) : Option Int → State
  | some x => report s { cls := 0x5D, detail := refStates s, tag := unsigned 64 x }
  | none => s

/-- Every change whose front has come, in the order of R459; then recalibration steps and sleep
entry.  What an epoch step forward skips takes effect at the first front after it (R461). -/
def frontWork (s : State) (nvFails : Bool) (replica : Option Int) : State :=
  let u := epochAtFront (replicaAtFront s replica)
  let n := min (epoch s) (epoch u)
  let s := reversionAtFront n (groupsAtFront nvFails n u)
  let s := switchesAtFront (jobsAtFront (clocksAtFront n s))
  sleepAtFront (rotationAtFront s)

/-- The next front after the present count. -/
def nextFront (s : State) : Nat := (epoch s / 4096 + 1) * 4096

/-- The count reaches a front ahead, slewed on its way. -/
def toFront (s : State) (f : Nat) : State := atCount (slewFronts s (f / 4096 - epoch s / 4096)) f

/-- CLOCK_FRONT. -/
def execClockFront (front : Nat) (nvFails : Bool) (replica : Option Int) (s : State) : Out :=
  let f := if front % 4096 = 0 && epoch s < front && front < 2 ^ 64 then front else nextFront s
  .next (frontWork (toFront s f) nvFails replica)

/-- One count passes with no command waiting; a front on the way takes effect. -/
def tick (s : State) : State :=
  if epoch s % 4096 = 4095 then frontWork (toFront s (nextFront s)) false none
  else advanceTo s (s.now + countPs)

end Sys2Proof.Machine
end

