-- ==== Sys2Proof/Machine/HostRegs.lean ====
section
/-!
DEFINITION. Registers of the host interface (13_host_interface.md R400 to R421, R426, R437,
R440): the register map, windows, domains, status registers, the mailbox, resets.
-/
namespace Sys2Proof.Machine

/-! ### The register map (R415, R426) -/

/-- A 32-bit register of a function's plain window. -/
inductive Reg where
  | absent
  | hbId | hbCap | hbStat | hbMask | epochLo | epochHi
  | barCtrl | barKey | barLo | barHi | barStat | barFence | barFail | barFailLo | barFailHi
  | domStat (d : Nat)
  | mboxStat | mboxBell
  | mboxReq (off : Nat)
  | mboxRsp (off : Nat)
  | queue (q r : Nat)
  | dom (d r : Nat)
  | msix (i : Nat)
  | pba (i : Nat)
  deriving DecidableEq, Repr

/-- MSI-X vectors of a function (R402). -/
def vectors (fn : Nat) : Nat := if fn = 0 then 64 else 9

/-- The words of the configuration header of a function that R401 gives: Device and Vendor ID,
Class Code and Revision ID, Subsystem ID and Subsystem Vendor ID, by their offset. -/
def configWord (fn off : Nat) : Option Nat :=
  match off with
  | 0x00 => some (if fn = 0 then 0x0C241F3D else 0xFFFFFFFF)
  | 0x08 => some 0x120000B0
  | 0x2C => some 0x00001F3D
  | _ => none

/-- The block of a queue in a function's map: the PF reaches every queue. -/
def blockQueue (fn i : Nat) : Option Nat :=
  if fn = 0 then (if i < 536 then some i else none) else globalQueue fn i

/-- A register that only the PF has. -/
def pfReg (off : Nat) : Reg :=
  if 0x100 ≤ off && off < 0x16C then .domStat ((off - 0x100) / 4)
  else if 0x40000 ≤ off && off < 0x40600 then (if off % 64 < 12 then .dom (1 + (off - 0x40000) / 64) (off % 64 / 4) else .absent)
  else
    match off with
    | 0x30 => .barCtrl
    | 0x34 => .barKey
    | 0x38 => .barLo
    | 0x3C => .barHi
    | 0x40 => .barStat
    | 0x44 => .barFence
    | 0x48 => .barFail
    | 0x50 => .barFailLo
    | 0x54 => .barFailHi
    | 0x40600 => .dom 25 0
    | 0x40604 => .dom 25 1
    | 0x40608 => .dom 25 2
    | 0x41000 => .dom 26 0
    | 0x41004 => .dom 26 1
    | _ => .absent

/-- The register at an offset of a function's plain window. -/
def regAt (fn off : Nat) : Reg :=
  if 0x2000 ≤ off && off < 0x3000 then .mboxReq (off - 0x2000)
  else if 0x3000 ≤ off && off < 0x4000 then .mboxRsp (off - 0x3000)
  else if 0x10000 ≤ off && off < 0x40000 && off % 64 < 0x28 then
    match blockQueue fn ((off - 0x10000) / 64) with
    | some q => .queue q (off % 64)
    | none => .absent
  else if 0x80000 ≤ off && off < 0x80000 + 16 * vectors fn then .msix ((off - 0x80000) / 4)
  else if 0x88000 ≤ off && off < 0x88008 then .pba ((off - 0x88000) / 4)
  else
    match off with
    | 0x0 => .hbId
    | 0x4 => .hbCap
    | 0x10 => .hbStat
    | 0x14 => .hbMask
    | 0x20 => .epochLo
    | 0x24 => .epochHi
    | 0x1000 => .mboxStat
    | 0x1004 => .mboxBell
    | _ => if fn = 0 then pfReg off else .absent

/-- Status registers (R412). -/
def isStatus : Reg → Bool
  | .hbStat | .barStat | .domStat _ | .mboxStat => true
  | .queue _ r => r = 0x1C
  | _ => false

/-- WO registers and doorbells (R407, R415). -/
def isWriteOnly : Reg → Bool
  | .mboxBell => true
  | .dom d r => (d ≤ 25 && r = 0) || (d = 26 && r = 1)
  | _ => false

/-- The RW bits of a register. -/
def rwMask (fn : Nat) : Reg → Nat
  | .hbMask => 0xF00FF
  | .barCtrl => 0x800001FF
  | .barKey | .mboxReq _ => 0xFFFFFFFF
  | .barLo => 0xC0000000
  | .barHi => 0xFF
  | .queue _ r =>
    if r = 0 then 0x803FFFFF else if r = 4 then 0xFF010000 else if r = 0x18 then (if fn = 0 then 0x1FF else 0)
    else if 8 ≤ r && r ≤ 0x14 then 0xFFFFFFFF else 0
  | .dom d r => if r ≠ 1 || 26 ≤ d then 0 else if d = 25 then 0x1FFF else 0x3FF
  | .msix i => if i % 4 = 3 then 1 else 0xFFFFFFFF
  | _ => 0

/-! ### Domains (R408 to R411) -/

/-- The domain's clock runs and its crossing answers; before READY only that of the Forecast
unit (R572). -/
def domainRuns (s : State) (d : Nat) : Bool :=
  if d = 0 || d = 26 then true
  else if d = 25 then s.boot.readyAt.isSome && s.fc.sleep ≠ 3
  else s.boot.readyAt.isSome && s.fc.sleep = 0 && tileOpen s (d - 1)

def getDomain (s : State) (d : Nat) : HDomain := Tab.get {} s.host.domains d

/-- The value of a register of a domain (R420, R421). -/
def domainValue (s : State) (d r : Nat) : Nat :=
  let sel := (getDomain s d).sel
  if d = 26 then (if r = 0 then s.fc.sleep else 0)
  else if r = 1 then sel
  else if r = 2 then (if d = 25 then (syncGet s 0 (0x8000 + sel)).toNat else (syncGet s (d - 1) sel).toNat)
  else 0

/-! ### Reading a register -/

/-- A status register with its state fields. -/
def statusWord (x : StatReg) (state : Nat) : Nat := x.seq * 2 ^ 24 + x.ev + state

/-- Entries taken and not yet completed. -/
def takenCount (x : HQueue) : Nat := x.ents.length

def queueWord (x : HQueue) (r : Nat) : Nat :=
  match r with
  | 0x00 => x.ctrl
  | 0x04 => x.size
  | 0x08 => x.sqBase % 2 ^ 32
  | 0x0C => x.sqBase / 2 ^ 32
  | 0x10 => x.cqBase % 2 ^ 32
  | 0x14 => x.cqBase / 2 ^ 32
  | 0x18 => x.qslice
  | 0x1C => statusWord x.stat (32 * b2n x.running)
  | 0x20 => x.cqTail * 65536 + x.sqHead
  | _ => takenCount x

/-- The value of a register, as a read through any window returns it. -/
def regValue (s : State) (fn : Nat) (r : Reg) : Nat :=
  let h := s.host
  let x := getFunc s fn
  match r with
  | .hbId => 0x01B00000 + fn * 256
  | .hbCap => ((globalQueue fn 0).getD 0) * 65536 + (if fn = 0 then 32 else 8) * 256 + vectors fn
  | .hbStat => statusWord x.stat 0
  | .hbMask => x.mask
  | .epochLo => epoch s % 2 ^ 32
  | .epochHi => x.latch / 2 ^ 32
  | .barCtrl => h.barCtrl
  | .barKey => h.barKey
  | .barLo => h.barBase % 2 ^ 32
  | .barHi => h.barBase / 2 ^ 32
  | .barStat => statusWord h.barStat 0
  | .barFence => h.barFailed
  | .barFail => match h.barFirst with | some f => 256 + f.1 | none => 0
  | .barFailLo => match h.barFirst with | some f => f.2 % 2 ^ 32 | none => 0
  | .barFailHi => match h.barFirst with | some f => f.2 / 2 ^ 32 | none => 0
  | .domStat d => statusWord (getDomain s d).stat (2 * b2n (getDomain s d).write.isSome + b2n (domainRuns s d))
  | .mboxStat => statusWord x.mbox (4 * b2n x.outstanding)
  | .mboxReq off => leNat (rdBytes x.req off 4)
  | .mboxRsp off => leNat (slice x.rsp off 4)
  | .queue q i => queueWord (getHQ s q) i
  | .dom d i => domainValue s d i
  | .msix i => msixWord x i
  | .pba i => x.pba / 2 ^ (32 * i) % 2 ^ 32
  | .mboxBell | .absent => 0

/-! ### Status registers (R412) -/

/-- A write with the current SEQ clears the events it names; any other sets STALE. -/
def clearStatus (x : StatReg) (w : Nat) : StatReg :=
  if w / 2 ^ 24 = x.seq then { x with ev := x.ev - (x.ev &&& (w % 2 ^ 24)) } else { x with ev := setBit x.ev 23 true }

def statusWrite (s : State) (fn : Nat) (r : Reg) (w : Nat) : State :=
  match r with
  | .hbStat => modFunc s fn (fun x => { x with stat := clearStatus x.stat w })
  | .mboxStat => modFunc s fn (fun x => { x with mbox := clearStatus x.mbox w })
  | .barStat => { s with host := { s.host with barStat := clearStatus s.host.barStat w } }
  | .domStat d => modDomain s d (fun x => { x with stat := clearStatus x.stat w })
  | .queue q _ => modHQ s q (fun x => { x with stat := clearStatus x.stat w })
  | _ => s

/-! ### Posted writes and held reads of domains -/

/-- The value that a window writes (R405). -/
def windowValue (window old w : Nat) : Nat :=
  match window with
  | 0 => w
  | 1 => old ||| w
  | 2 => old - (old &&& w)
  | _ => old ^^^ w

/-- The domain applies a write (R420, R421). -/
def applyDomain (s : State) (d : Nat) (x : PostedWrite) : State :=
  match regAt 0 x.off with
  | .dom _ 0 =>
    if d < 25 then syncAdd s (d - 1) (x.value / 2 ^ 22 % 1024) (BitVec.ofNat 32 (x.value % 2 ^ 22))
    else if d = 25 then syncAdd s 0 (0x8000 + x.value / 2 ^ 19 % 8192) (BitVec.ofNat 32 (x.value % 2 ^ 19))
    else s
  | .dom d' 1 =>
    if d = 26 then (if bit x.value 0 then requestWake s else s)
    else modDomain s d (fun y => { y with sel := windowValue x.window y.sel x.value % (rwMask 0 (.dom d' 1) + 1) })
  | _ => s

/-- Held reads complete once their domain runs again. -/
def releaseReads (s : State) (d : Nat) : State :=
  if !domainRuns s d then s
  else
    let l := (getDomain s d).reads
    let s := modDomain s d (fun x => { x with reads := [] })
    l.foldl (fun s r => emit s (.readDone r.1 r.2 (regValue s r.1 (regAt r.1 r.2)))) s

/-- Post a write: BUSY, or discarded with WRITE_LOST while BUSY is 1. -/
def postWrite (s : State) (d : Nat) (x : PostedWrite) : State :=
  let s := releaseReads s d
  if (getDomain s d).write.isSome then raiseDomain s d 3 else modDomain s d (fun y => { y with write := some x })

/-- The posted write takes effect while the domain runs. -/
def settleWrite (s : State) (d : Nat) : State :=
  let s := releaseReads s d
  match (getDomain s d).write with
  | some x => if domainRuns s d then applyDomain (modDomain s d (fun y => { y with write := none })) d x else s
  | none => s

/-! ### Queues (R427) -/

/-- What an enable needs. -/
def enableOk (x : HQueue) : Bool :=
  let sq := x.size / 2 ^ 28 % 16
  let cq := x.size / 2 ^ 24 % 16
  let inDevice := bit x.size 16
  bit x.qslice 8 && 4 ≤ sq && sq ≤ (if inDevice then 7 else 12) && 4 ≤ cq && cq ≤ 12
    && (inDevice || x.sqBase % 4096 = 0) && x.cqBase % 4096 = 0 && !x.running

/-- A write of QCTRL. -/
def writeQctrl (s : State) (q v : Nat) : State :=
  let x := getHQ s q
  let was := bit x.ctrl 31
  if bit v 31 && !was then
    if enableOk x then
      modHQ s q (fun x => { x with ctrl := v, running := true, sqHead := 0, sqTail := 0, cqTail := 0, cqHead := 0, phase := true,
                                   fullRaised := false, ents := [], unsignalled := 0 })
    else raiseQueue (modHQ s q (fun x => { x with ctrl := setBit v 31 false })) q 3
  else modHQ s q (fun x => { x with ctrl := v })

/-- Half of a 64-bit register. -/
def setHalf (old : Nat) (hi : Bool) (v : Nat) : Nat := if hi then old % 2 ^ 32 + v * 2 ^ 32 else old / 2 ^ 32 * 2 ^ 32 + v

/-- A write of the RW bits of a queue's register. -/
def writeQueueReg (s : State) (q r v : Nat) : State :=
  if r = 0 then writeQctrl s q v
  else if bit (getHQ s q).ctrl 31 then raiseQueue s q 3
  else modHQ s q (fun x => match r with
    | 0x04 => { x with size := v }
    | 0x08 => { x with sqBase := setHalf x.sqBase false v }
    | 0x0C => { x with sqBase := setHalf x.sqBase true v }
    | 0x10 => { x with cqBase := setHalf x.cqBase false v }
    | 0x14 => { x with cqBase := setHalf x.cqBase true v }
    | _ => { x with qslice := v })

/-! ### The mailbox (R361, R419) -/

/-- The VDP message in a buffer of `n` bytes. -/
def requestOf (fn n : Nat) (b : List Byte) : VdpReq :=
  { src := .mailbox fn, version := field b 0 1, opcode := field b 1 1, flags := field b 3 1, txid := field b 4 4, index := field b 8 2,
    sub := field b 10 1, group := field b 11 1, offset := field b 12 4, total := field b 16 4, dataLen := field b 20 2,
    detail := field b 22 2, data := slice b 24 (n - 24) }

/-- A response as its bytes stand in MBOX_RSP (R347). -/
def responseBytes (r : VdpResp) : List Byte :=
  leBytes 1 1 ++ leBytes 1 r.opcode ++ leBytes 1 r.status ++ leBytes 1 1 ++ leBytes 4 r.txid ++ leBytes 2 r.index ++ leBytes 1 r.sub
    ++ leBytes 1 r.group ++ leBytes 4 r.offset ++ leBytes 4 r.total ++ leBytes 2 r.data.length ++ leBytes 2 r.detail ++ r.data

/-- The line is free and a Mantle may still claim it: requests are held (R364). -/
def betweenMantles (s : State) : Bool := s.mantle.owner.isNone && s.mantle.freeSince.isSome

/-- A doorbell. -/
def ringMailbox (s : State) (fn v : Nat) (nvFails copyFails : Bool) : State :=
  let n := v % 2048
  let x := getFunc s fn
  if x.outstanding then raiseMbox s fn 1
  else if n < 24 || 1048 < n then raiseMbox s fn 3
  else
    let r := { requestOf fn n (rdBytes x.req 0 n) with nvFails := nvFails, copyFails := copyFails }
    let s := modFunc s fn (fun x => { x with outstanding := true })
    if betweenMantles s then modFunc s fn (fun x => { x with held := some r }) else vdpAny s r

/-- MBOX_DOORBELL. -/
def bell (s : State) (fn v : Nat) : State := ringMailbox s fn v false false

/-- A held request goes to the Mantle that claimed, or is answered NO_CONTROL. -/
def takeHeld (s : State) (fn : Nat) : State :=
  match (getFunc s fn).held with
  | some r => if betweenMantles s then s else vdpAny (modFunc s fn (fun x => { x with held := none })) r
  | none => s

/-! ### MSI-X (R402) -/

/-- A write of a word of the table; a vector that is unmasked sends what is pending. -/
def writeMsix (s : State) (fn i v : Nat) : State :=
  let s := modFunc s fn (fun x => { x with msix := Tab.put (if i % 4 = 3 then 1 else 0) x.msix i v })
  let k := i / 4
  if i % 4 = 3 && !bit v 0 && bit (getFunc s fn).pba k then
    raiseVector (modFunc s fn (fun x => { x with pba := setBit x.pba k false })) fn k
  else s

/-! ### Writes (R405 to R407) -/

/-- Write the RW bits of a register of domain 0. -/
def setReg (s : State) (fn : Nat) (r : Reg) (v : Nat) : State :=
  let h := s.host
  match r with
  | .hbMask => modFunc s fn (fun x => { x with mask := v })
  | .barCtrl => { s with host := { h with barCtrl := v } }
  | .barKey => { s with host := { h with barKey := v } }
  | .barLo => { s with host := { h with barBase := setHalf h.barBase false v } }
  | .barHi => { s with host := { h with barBase := setHalf h.barBase true v } }
  | .mboxReq off => modFunc s fn (fun x => { x with req := wrBytes x.req off (leBytes 4 v) })
  | .queue q i => writeQueueReg s q i v
  | .msix i => writeMsix s fn i v
  | _ => s

/-- An aligned 4-byte write through a window. -/
def regWrite (s : State) (fn window off w : Nat) : State :=
  let r := regAt fn off
  if window ≠ 0 && (isStatus r || isWriteOnly r) then raiseHb s fn 7
  else if isStatus r then statusWrite s fn r w
  else
    match r with
    | .dom d _ => postWrite s d { off := off, value := w, window := window }
    | .mboxBell => bell s fn w
    | r =>
      let m := rwMask fn r
      if m = 0 then s else setReg s fn r (windowValue window (regValue s fn r) (w &&& m) &&& m)

/-- The function answers: the link is up, and no reset of it runs.  A VF in use is enabled
(0x1030:04). -/
def fnLive (s : State) (fn : Nat) : Bool := s.host.linkUp && fn < 64 && (getFunc s fn).reset.isNone

def useFn (s : State) (fn : Nat) : State := if rdE s 0x1030 4 < fn then wrE s 0x1030 4 fn else s

/-- Run an access of a live function. -/
def hostAccess (s : State) (fn : Nat) (f : State → State) : Out := .next (if fnLive s fn then f (useFn s fn) else s)

/-- A write of 4 or 8 aligned bytes, the lower address first; any other is ignored. -/
def windowWrite (s : State) (fn window off : Nat) (data : List Byte) : State :=
  if data.length = 4 && off % 4 = 0 then regWrite s fn window off (leNat data)
  else if data.length = 8 && off % 8 = 0 then
    regWrite (regWrite s fn window off (leNat (data.take 4))) fn window (off + 4) (leNat (data.drop 4))
  else raiseHb s fn 7

/-! ### BAR2 (R428, R429) -/

def sqSize (x : HQueue) : Nat := 2 ^ (x.size / 2 ^ 28 % 16)

/-- A doorbell that is ignored. -/
def badBell (x : HQueue) (v size : Nat) : Bool := !bit x.ctrl 31 || size ≤ v % 65536 || 65536 ≤ v

def writeTail (s : State) (q v : Nat) : State :=
  if badBell (getHQ s q) v (sqSize (getHQ s q)) then raiseQueue s q 4 else modHQ s q (fun x => { x with sqTail := v })

def writeHead (s : State) (q v : Nat) : State :=
  if badBell (getHQ s q) v (cqSize (getHQ s q)) then raiseQueue s q 4
  else modHQ s q (fun x => { x with cqHead := v, fullRaised := x.fullRaised && cqFull { x with cqHead := v } })

/-- A write to BAR2. -/
def bar2Write (s : State) (fn off : Nat) (data : List Byte) : State :=
  match globalQueue fn (off / 65536) with
  | none => s
  | some q =>
    let o := off % 65536
    if 0x8000 ≤ o && o + data.length ≤ 0xA000 then modHQ s q (fun x => { x with window := wrBytes x.window (o - 0x8000) data })
    else if o < 8 && (data.length ≠ 4 || o % 4 ≠ 0) then raiseHb s fn 7
    else if o = 0 then writeTail s q (leNat data)
    else if o = 4 then writeHead s q (leNat data)
    else s

/-! ### The commands -/

/-- REG_PLAIN_WRITE. -/
def execRegPlainWrite (fn bar off : Nat) (data : List Byte) (s : State) : Out :=
  hostAccess s fn (fun s => if bar = 2 then bar2Write s fn off data else windowWrite s fn 0 off data)

def execSetAliasWrite (fn off : Nat) (data : List Byte) (s : State) : Out := hostAccess s fn (fun s => windowWrite s fn 1 off data)
def execClearAliasWrite (fn off : Nat) (data : List Byte) (s : State) : Out := hostAccess s fn (fun s => windowWrite s fn 2 off data)
def execToggleAliasWrite (fn off : Nat) (data : List Byte) (s : State) : Out := hostAccess s fn (fun s => windowWrite s fn 3 off data)

/-- STATUS_REGISTER_WRITE. -/
def execStatusRegisterWrite (fn off value : Nat) (s : State) : Out :=
  hostAccess s fn (fun s => if isStatus (regAt fn off) then windowWrite s fn 0 off (leBytes 4 value) else s)

/-- The domain of an offset. -/
def domainOf (fn off : Nat) : Option Nat :=
  match regAt fn off with
  | .dom d _ => some d
  | _ => none

/-- DOMAIN_WRITE. -/
def execDomainWrite (fn window off value : Nat) (s : State) : Out :=
  hostAccess s fn (fun s => if (domainOf fn off).isSome then windowWrite s fn window off (leBytes 4 value) else s)

/-- DOMAIN_WRITE_APPLIED. -/
def execDomainWriteApplied (d : Nat) (s : State) : Out := .next (settleWrite s d)

/-- A read of a register that is not in a stopped domain. -/
def readNow (s : State) (fn off : Nat) : State := emit s (.readDone fn off (regValue s fn (regAt fn off)))

/-- EPOCH_LO_READ: the count is latched for EPOCH_HI. -/
def readEpoch (s : State) (fn : Nat) : State :=
  readNow (modFunc s fn (fun x => { x with latch := epoch s })) fn 0x20

def execEpochLoRead (fn : Nat) (s : State) : Out := hostAccess s fn (fun s => readEpoch s fn)

/-- A read of BAR4_FENCE waits for the writes before it (R439). -/
def readFence (s : State) : State := settleFences { s with host := { s.host with fences := s.host.fences ++ [s.host.barNext] } }

def execBar4FenceRead (s : State) : Out := hostAccess s 0 readFence

/-- DOMAIN_REGISTER_READ: held while its domain is stopped, and behind a held read. -/
def readReg (s : State) (fn off : Nat) : State :=
  match regAt fn off with
  | .dom d _ =>
    let s := releaseReads s d
    if domainRuns s d then readNow s fn off
    else modDomain s d (fun x => { x with reads := x.reads ++ [(fn, off)], since := if x.reads.isEmpty then s.now else x.since })
  | .epochLo => readEpoch s fn
  | .barFence => readFence s
  | _ => readNow s fn off

def execDomainRegisterRead (fn off : Nat) (s : State) : Out :=
  hostAccess s fn (fun s => if off % 4 = 0 then readReg s fn off else emit (raiseHb s fn 7) (.readDone fn off 0xFFFFFFFF))

/-- DOMAIN_READ_RECOVERY (R410): the register block returns to reset, and the reads complete
with all ones. -/
def recoverDomain (s : State) (d : Nat) : State :=
  let x := getDomain s d
  let s := modDomain s d (fun y => { y with sel := 0, write := none, reads := [] })
  let s := x.reads.foldl (fun s r => emit s (.readDone r.1 r.2 0xFFFFFFFF)) s
  let s := raiseDomain (if x.write.isSome then raiseDomain s d 3 else s) d 2
  let tile := 1 ≤ d && d ≤ 24
  let s := report s { cls := 0x54, kind := b2n tile, place := if tile then d - 1 else 0xFF, detail := mantleStates s, tag := refreshCount s }
  wrE s 0x9000 8 ((rdE s 0x9000 8 + 1) % 2 ^ 32)

/-- DOMAIN_READ_RECOVERY: the Forecast unit makes it once its logic runs (R515). -/
def execDomainReadRecovery (d : Nat) (s : State) : Out :=
  let s := releaseReads s d
  let x := getDomain s d
  .next (if x.reads.isEmpty then s else recoverDomain (advanceTo s (max (x.since + 100 * msPs) s.fc.restartAt)) d)

/-- MBOX_DOORBELL. -/
def execMboxDoorbell (fn value : Nat) (nvFails copyFails : Bool) (s : State) : Out :=
  hostAccess s fn (fun s => ringMailbox s fn value nvFails copyFails)

/-- MAILBOX_RESPONSE. -/
def deliverResponse (s : State) (fn : Nat) : State :=
  let s := takeHeld s fn
  match s.mantle.mbox.find? (fun e => e.1 = fn) with
  | none => s
  | some e =>
    let s := { s with mantle := { s.mantle with mbox := dropFirst (fun x => x.1 = fn) s.mantle.mbox } }
    raiseMbox (modFunc s fn (fun x => { x with outstanding := false, rsp := responseBytes e.2 })) fn 0

def execMailboxResponse (fn : Nat) (s : State) : Out := hostAccess s fn (fun s => deliverResponse s fn)

/-- A write that its domain applies as it arrives, within the 2 us of R409. -/
def writeThrough (s : State) (off value : Nat) : State :=
  match domainOf 0 off with
  | some d => settleWrite (regWrite s 0 0 off (value % 2 ^ 32)) d
  | none => s

/-- TILE_SYNC_ADD. -/
def execTileSyncAdd (t value : Nat) (s : State) : Out :=
  hostAccess s 0 (fun s => if t < 24 then writeThrough s (0x40000 + 64 * t) value else s)

/-- BASE_SYNC_ADD. -/
def execBaseSyncAdd (value : Nat) (s : State) : Out := hostAccess s 0 (fun s => writeThrough s 0x40600 value)

/-- FC_WAKE. -/
def execFcWake (value : Nat) (s : State) : Out := hostAccess s 0 (fun s => writeThrough s 0x41004 value)

/-- A write of QCTRL of a function's queue. -/
def qctrlWrite (s : State) (fn i value : Nat) : State :=
  match globalQueue fn i with
  | some q => writeQctrl s q (value &&& 0x803FFFFF)
  | none => s

/-- QUEUE_ENABLE. -/
def execQueueEnable (fn i value : Nat) (s : State) : Out := hostAccess s fn (fun s => qctrlWrite s fn i (setBit value 31 true))

/-- QUEUE_DISABLE. -/
def execQueueDisable (fn i value : Nat) (s : State) : Out := hostAccess s fn (fun s => qctrlWrite s fn i (setBit value 31 false))

/-- QUEUE_DISABLED. -/
def execQueueDisabled (q : Nat) (s : State) : Out :=
  let x := getHQ s q
  .next (if x.running && !bit x.ctrl 31 && x.ents.isEmpty then raiseQueue (modHQ s q (fun x => { x with running := false })) q 0 else s)

/-- SQ_TAIL. -/
def execSqTail (fn i value : Nat) (s : State) : Out :=
  hostAccess s fn (fun s => match globalQueue fn i with | some q => writeTail s q value | none => s)

/-- CQ_HEAD. -/
def execCqHead (fn i value : Nat) (s : State) : Out :=
  hostAccess s fn (fun s => match globalQueue fn i with | some q => writeHead s q value | none => s)

/-! ### The link and resets (R400, R440, R308) -/

/-- PERST_DEASSERT. -/
def execPerstDeassert (s : State) : Out :=
  .next (if s.host.perst then s else { s with host := { s.host with perst := true, perstAt := s.now } })

/-- PCIE_LINK_TRAINING: from 10 ms after the rails and from PERST# on. -/
def execPcieLinkTraining (width rate : Nat) (flit : Bool) (s : State) : Out :=
  if !s.boot.mainOn || !s.host.perst || width = 0 then .next s
  else
    let s := advanceTo s (max (s.boot.mainAt + 10 * msPs) s.host.perstAt)
    let s := wrE (wrE (wrE s 0x1030 1 (width % 256)) 0x1030 2 (rate % 256)) 0x1030 3 (b2n flit)
    let s := { s with host := { s.host with linkUp := true } }
    .next (if width < 16 || rate < 64 then report (raiseHb s 0 0) { cls := 0x72, kind := 12 } else s)

/-- A queue stops without records: the tags of what is outstanding are quarantined (R434). -/
def stopQueue (s : State) (q : Nat) : State :=
  let mine := s.fab.tracks.filter (fun e => e.1 / 16384 = 28 && (match e.2 with | some x => decide (x.queue = q) | none => false))
  let s := mine.foldl (fun s e => quarantineTag (putTrack s 28 (e.1 % 16384) none) 28 (e.1 % 16384)) s
  modHQ s q (fun x => { x with ctrl := setBit x.ctrl 31 false, running := false, ents := [], unsignalled := 0 })

/-- A failure at the host (R434): `addr`, the address that failed. -/
def dmaFault (s : State) (q addr : Nat) : State :=
  let fn := queueOwner q
  report (raiseQueue (stopQueue s q) q 1) { cls := 0x70, kind := 12, unit := fn, detail := fn + 32 * 256, tag := addr }

/-- QUEUE_DMA_FAULT. -/
def execQueueDmaFault (q : Nat) (cq : Bool) (s : State) : Out :=
  let x := getHQ s q
  .next (if x.running then dmaFault s q (if cq then x.cqBase + 32 * x.cqTail else x.sqBase + 64 * x.sqHead) else s)

/-- Queues of a function. -/
def queuesOf (fn : Nat) : List Nat := if fn = 0 then List.range 32 else (List.range 8).map (fun i => 32 + 8 * (fn - 1) + i)

/-- BUS_MASTER_DISABLE. -/
def execBusMasterDisable (fn : Nat) (s : State) : Out :=
  hostAccess s fn (fun s => (queuesOf fn).foldl (fun s q =>
    let x := getHQ s q
    if x.running then dmaFault s q (x.sqBase + 64 * x.sqHead) else s) s)

/-- Requests of a function that the bridge's tracker still counts. -/
def trackedBy (s : State) (fn : Nat) : List (Nat × Option Track) :=
  s.fab.tracks.filter (fun e => e.1 / 16384 = 28 && (match e.2 with
    | some x => (if x.queue = barQueue then decide (fn = 0) else decide (queueOwner x.queue = fn))
    | none => false))

/-- A reset of a function: its registers, queues and vectors, and its mailbox with its context.
`waits`, the reset lasts until VF_RESET_COMPLETE. -/
def resetFn (s : State) (fn : Nat) (waits : Bool) : State :=
  let s := (queuesOf fn).foldl (fun s q => { s with host := { s.host with queues := Tab.erase s.host.queues q } }) s
  let s := modFunc s fn (fun _ => { reset := if waits then some s.now else none })
  let s := { s with mantle := { s.mantle with mbox := s.mantle.mbox.filter (fun e => e.1 ≠ fn) } }
  dropContext s (.mailbox fn)

/-- VF_RESET. -/
def resetVf (s : State) (v : Nat) : State := if 1 ≤ v && v < 64 && (getFunc s v).reset.isNone then resetFn s v true else s

def execVfReset (v : Nat) (s : State) : Out := .next (if s.host.linkUp then resetVf s v else s)

/-- VF_RESET_COMPLETE: at once where nothing is tracked, else at 10 ms, with the tags left
quarantined, counted and logged. -/
def execVfResetComplete (fn : Nat) (s : State) : Out :=
  match (getFunc s fn).reset with
  | none => .next s
  | some t =>
    let done := fun (s : State) => modFunc s fn (fun x => { x with reset := none })
    let left := trackedBy s fn
    if left.isEmpty then .next (done s)
    else
      let s := advanceTo s (t + 10 * msPs)
      let s := left.foldl (fun s e => quarantineTag (putTrack s 28 (e.1 % 16384) none) 28 (e.1 % 16384)) s
      let s := wrE s 0x5600 0xB ((rdE s 0x5600 0xB + 1) % 2 ^ 32)
      let s := report s { cls := 0x71, kind := 12, unit := fn, detail := fn }
      .next (done (raiseHb s 0 6))

/-- HOT_RESET: every function, every register of domain 0; posted writes of the domains stay. -/
def resetAll (s : State) : State :=
  let s := (List.range 64).foldl (fun s fn => resetFn s fn (!(trackedBy s fn).isEmpty)) s
  let keep : HDomain → HDomain := fun d => { write := d.write, sel := d.sel }
  let h := s.host
  let s := { s with host := { h with
    domains := (h.domains.map (fun e => (e.1, keep e.2))).filter (fun e => e.2 ≠ {}), barCtrl := 0, barKey := 0, barBase := 0, barStat := {}, barFailed := 0,
    barFirst := none, barOps := [], fences := [] } }
  wrE s 0x1030 4 0

def execHotReset (linkLost : Bool) (s : State) : Out :=
  if !s.host.linkUp then .next s
  else
    let s := resetAll s
    .next { s with host := { s.host with linkUp := s.host.linkUp && !linkLost } }

/-- An FLR: that of the PF acts on every function. -/
def flr (s : State) (fn : Nat) : State := if fn = 0 then resetAll s else resetVf s fn

def execFunctionLevelReset (fn : Nat) (s : State) : Out := .next (if s.host.linkUp then flr s fn else s)

/-- D3HOT_ENTRY. -/
def execD3hotEntry (fn : Nat) (s : State) : Out :=
  .next (if s.host.linkUp && (queuesOf fn).any (fun q => bit (getHQ s q).ctrl 31) then flr s fn else s)

end Sys2Proof.Machine
end

