-- ==== Sys2Proof/Machine/HostQueue.lean ====
section
/-!
DEFINITION. Host queues and the BAR4 window (13_host_interface.md R422 to R439): entries, what
each kind issues, records, watches, and BAR4 accesses.
-/
namespace Sys2Proof.Machine

/-! ### Taking entries (R427 to R431) -/

/-- A field that the kind does not use: 0, and for a Signal Sync also none. -/
def unusedSync (e : List Byte) : Bool := (qeSync e = 0 || qeSync e = 0xFFFF) && qeCount e = 0

def unusedData (e : List Byte) : Bool := qeLength e = 0 && qeHost e = 0 && qeKey e = 0 && qeTid e = 0 && qeBlk e = 0

def unusedStream (e : List Byte) : Bool := qeStream e = 0 && qeSeq e = 0

def unusedWait (e : List Byte) : Bool := qeWait e = 0 && qeTimeout e = 0

/-- Length and addresses of a WRITE or a READ. -/
def dataOk (e : List Byte) : Bool :=
  8 ≤ qeLength e && qeLength e ≤ 16777216 && qeLength e % 8 = 0 && qeHost e % 8 = 0
    && (isRaw (qeTid e) || (qeDevice e % 4096 = 0 && qeLength e % 4096 = 0))

/-- The object of a SIGNAL or WAIT. -/
def objectOk (e : List Byte) : Bool := gaOffset (qeDevice e) = 0 && syncNameOk (qeSync e)

/-- An entry keeps the rules of R430 and R431. -/
def sqEntryOk (e : List Byte) : Bool :=
  field e 1 3 = 0 && field e 54 2 = 0 && field e 60 4 = 0 &&
  match qeKind e with
  | 1 =>
    dataOk e && unusedWait e && (qeSync e = 0xFFFF || syncNameOk (qeSync e))
      && (if qeStream e = 0 then qeSeq e = 0 else qeLength e ≤ 4096)
  | 2 => dataOk e && unusedWait e && unusedSync e && unusedStream e
  | 3 => objectOk e && unusedData e && unusedWait e && unusedStream e
  | 4 => objectOk e && unusedData e && qeCount e = 0 && 1 ≤ qeTimeout e && qeTimeout e ≤ 60000 && unusedStream e
  | 5 => qeDevice e = 0 && unusedData e && unusedSync e && unusedWait e && unusedStream e
  | _ => false

/-- An entry may be taken: the queue runs and is enabled, one is posted, the CQ has room, and
no BARRIER waits. -/
def canTake (x : HQueue) : Bool :=
  x.running && bit x.ctrl 31 && x.sqHead ≠ x.sqTail && !cqFull x && x.ents.all (fun e => qeKind e.data ≠ 5)

/-- SQ_ENTRY_FETCH: from host memory, or from the window in BAR2. -/
def fetchEntry (s : State) (q : Nat) (entry : List Byte) : State :=
  let x := getHQ s q
  if !canTake x then s
  else
    let d := if bit x.size 16 then rdBytes x.window (64 * x.sqHead) 64 else fit 64 entry
    let e : HEntry := { idx := x.sqHead, data := d, ended := if sqEntryOk d then none else some (fsBadEntry, 0) }
    modHQ s q (fun x => { x with sqHead := (x.sqHead + 1) % sqSize x, ents := x.ents ++ [e] })

def execSqEntryFetch (q : Nat) (entry : List Byte) (s : State) : Out := .next (fetchEntry s q entry)

/-! ### Issuing (R423, R431) -/

/-- Requests of a queue outstanding in the tracker. -/
def queueRequests (s : State) (q : Nat) : Nat :=
  countP (fun (e : Nat × Option Track) => e.1 / 16384 = 28 && (match e.2 with | some x => decide (x.queue = q) | none => false)) s.fab.tracks

/-- The queue may issue a request. -/
def mayIssue (s : State) (q : Nat) : Bool :=
  let x := getHQ s q
  x.running && !cqFull x && queueRequests s q < 256

/-- The entry at an index, of a kind, not yet ended. -/
def openEnt (s : State) (q idx kind : Nat) : Option HEntry :=
  (getEnt s q idx).filter (fun e => qeKind e.data = kind && e.ended.isNone && mayIssue s q)

/-- An address that no request can name (R287). -/
def badTarget (a : Nat) : Bool := 2 ^ 52 ≤ a || 28 ≤ gaTile a

def sliceOf (s : State) (q : Nat) : Nat := (getHQ s q).qslice % 256

/-- Issue piece `i` of a WRITE or READ: `kind`, that of its request. -/
def issuePiece (s : State) (q idx i kind : Nat) (e : HEntry) (data : List Byte) (c : Option DWord) : State :=
  let d := e.data
  let a := qeDevice d + pieceStart (qeDevice d) i
  let n := if qeStream d ≠ 0 then qeLength d else pieceLen (qeDevice d) (qeLength d) i
  let f := bridgeEntry kind a n (qeKey d) (qeTid d) (qeBlk d + i) (if kind = 1 then n else 0) (qeStream d) (qeSeq d)
  if badTarget a then pieceEnd s q idx i fsAddress 0
  else
    match sendBridge s q (idx * 65536 + i) (sliceOf s q) f (fit n data) with
    | none => s
    | some (s, 0) => (match c with | some c => markTwice s q (idx * 65536 + i) c | none => s)
    | some (s, why) => pieceEnd s q idx i fsRoute why

/-- One SYNC_ADD or WATCH for an entry. -/
def issueSignal (s : State) (q idx kind : Nat) (e : HEntry) (operand : Nat) (data : List Byte) : State :=
  let a := qeDevice e.data
  let f := bridgeEntry kind (if kind = 6 && qeKind e.data = 1 then a / 2 ^ 35 * 2 ^ 35 else a) 0 0 0 0 operand 0 0
  let stop := fun (s : State) (st d : Nat) => modEnt s q idx (fun e => { e with signal := 2, ended := some (st, d) })
  if badTarget a then stop s fsAddress 0
  else
    match sendBridge s q (idx * 65536 + signalPiece) (sliceOf s q) f data with
    | none => s
    | some (s, 0) => modEnt s q idx (fun e => { e with signal := 1 })
    | some (s, why) => stop s fsRoute why

/-- The SYNC_ADD of an entry. -/
def issueAdd (s : State) (q idx : Nat) (e : HEntry) : State :=
  issueSignal s q idx 6 e (qeSync e.data * 2 ^ 32 + qeCount e.data) []

/-- WRITE: a block sent again; its next piece; or, once every piece is OK, its SYNC_ADD.  It
waits while the tracker is full. -/
def stepWrite (s : State) (q idx : Nat) (e : HEntry) (data : List Byte) (fault : Bool) : State :=
  if !fault && (nextTag s 28).isNone then s
  else
    match e.again with
    | (i, c) :: l =>
      let s := modEnt s q idx (fun e => { e with again := l })
      if fault then pieceEnd s q idx i 32 0 else issuePiece s q idx i 2 e data (some c)
    | [] =>
      if e.sent < entryPieces e.data then
        let s := modEnt s q idx (fun e => { e with sent := e.sent + 1 })
        if fault then pieceEnd s q idx e.sent 32 0 else issuePiece s q idx e.sent 2 e data none
      else if e.answered = entryPieces e.data && e.signal = 0 then issueAdd s q idx e
      else s

def execWrite (q idx : Nat) (data : List Byte) (fault : Bool) (s : State) : Out :=
  .next (match openEnt s q idx 1 with | some e => stepWrite s q idx e data fault | none => s)

/-- READ: its next piece. -/
def stepRead (s : State) (q idx : Nat) (e : HEntry) : State :=
  if e.sent < entryPieces e.data && (nextTag s 28).isSome then
    issuePiece (modEnt s q idx (fun e => { e with sent := e.sent + 1 })) q idx e.sent 1 e [] none
  else s

def execRead (q idx : Nat) (s : State) : Out :=
  .next (match openEnt s q idx 2 with | some e => stepRead s q idx e | none => s)

/-- SIGNAL. -/
def execSignal (q idx : Nat) (s : State) : Out :=
  .next (match openEnt s q idx 3 with | some e => if e.signal = 0 then issueAdd s q idx e else s | none => s)

/-- The timeout of a WAIT, in ps. -/
def waitPs (e : HEntry) : Nat := qeTimeout e.data * msPs

/-- WAIT: a WATCH that expires with the Timeout. -/
def stepWait (s : State) (q idx : Nat) (e : HEntry) : State :=
  if e.signal ≠ 0 then s
  else
    let s := modEnt s q idx (fun x => { x with deadline := s.now + waitPs x })
    issueSignal s q idx 0x60 e (qeSync e.data * 2 ^ 32 + qeWait e.data) (leBytes 8 (epoch s + waitPs e / countPs))

def execWait (q idx : Nat) (s : State) : Out :=
  .next (match openEnt s q idx 4 with | some e => stepWait s q idx e | none => s)

/-- The tag under which an entry's signal is outstanding. -/
def signalTag (s : State) (q idx : Nat) : Option Nat :=
  (s.fab.tracks.find? (fun e => e.1 / 16384 = 28 && (match e.2 with
    | some x => decide (x.queue = q) && decide (x.index = idx * 65536 + signalPiece)
    | none => false))).map (fun e => e.1 % 16384)

/-- WAIT_TIMEOUT: the entry ends, and its tag is quarantined. -/
def execWaitTimeout (q idx : Nat) (s : State) : Out :=
  match getEnt s q idx, signalTag s q idx with
  | some e, some tag =>
    if qeKind e.data ≠ 4 then .next s
    else
      let s := quarantineTag (putTrack (advanceTo s e.deadline) 28 tag none) 28 tag
      .next (modEnt s q idx (fun x => { x with signal := 2, ended := some (35, 0) }))
  | _, _ => .next s

/-- BARRIER: once every entry before it has written its record. -/
def execBarrier (q idx : Nat) (s : State) : Out :=
  .next (match (getHQ s q).ents with
    | e :: _ => if e.idx = idx && qeKind e.data = 5 && e.ended.isNone then modEnt s q idx (fun x => { x with ended := some (0, 0) }) else s
    | [] => s)

/-! ### Records (R432, R433) -/

/-- The 32-byte record of an entry. -/
def hostRecord (e : HEntry) (st d : Nat) (phase : Bool) : List Byte :=
  let off := match e.first with | some f => f.1 | none => 2 ^ 64 - 1
  leBytes 4 (qeUser e.data) ++ leBytes 1 st ++ leBytes 1 (if st ≤ 20 then d else 0) ++ leBytes 2 e.idx ++ leBytes 4 e.failed
    ++ leBytes 4 0 ++ leBytes 8 off ++ leBytes 4 e.value ++ leBytes 3 0 ++ leBytes 1 (b2n phase)

/-- The queue raises its vector. -/
def signalQueue (s : State) (q : Nat) : State :=
  let v := (getHQ s q).ctrl / 65536 % 64
  let s := modHQ s q (fun x => { x with unsignalled := 0 })
  if v < vectors (queueOwner q) then raiseVector s (queueOwner q) v else s

/-- A record is written at CQ_TAIL. -/
def writeRecord (s : State) (q : Nat) (e : HEntry) (st d : Nat) : State :=
  let x := getHQ s q
  let s := emit s (.hostWrite (queueOwner q) (x.cqBase + 32 * x.cqTail) (hostRecord e st d x.phase))
  let last := x.cqTail + 1 = cqSize x
  let s := modHQ s q (fun x => { x with
    cqTail := if last then 0 else x.cqTail + 1, phase := x.phase != last, ents := dropFirst (fun y => y.idx = e.idx) x.ents,
    coalSince := if x.unsignalled = 0 then s.now else x.coalSince, unsignalled := x.unsignalled + 1 })
  if max 1 (x.ctrl / 256 % 256) ≤ (getHQ s q).unsignalled then signalQueue s q else s

/-- CQ_RECORD_WRITE: held while the CQ is full, which is raised once. -/
def execCqRecordWrite (q idx : Nat) (s : State) : Out :=
  let x := getHQ s q
  match getEnt s q idx with
  | none => .next s
  | some e =>
    match e.ended with
    | none => .next s
    | some (st, d) =>
      if cqFull x then .next (if x.fullRaised then s else raiseQueue (modHQ s q (fun x => { x with fullRaised := true })) q 2)
      else .next (writeRecord s q e st d)

/-- CQ_COALESCE_TIMER. -/
def execCqCoalesceTimer (q : Nat) (s : State) : Out :=
  let x := getHQ s q
  let us := x.ctrl % 256
  .next (if us = 0 || x.unsignalled = 0 then s else signalQueue (advanceTo s (x.coalSince + us * usPs)) q)

/-! ### Watches (R436) -/

/-- WATCH at the home: answered at once where the count qualifies, else held, at most four on an
object. -/
def watchAt (s : State) (st : Nat) (p : Pkt) : State :=
  let name := qOperand p / 2 ^ 32 % 65536
  let v : Word := BitVec.ofNat 32 (qOperand p)
  let body := fun (status value : Nat) => leBytes 1 status ++ leBytes 1 0 ++ leBytes 2 (qNonce p) ++ leBytes 4 0 ++ leBytes 8 value
  let send := fun (s : State) (status value : Nat) => enqueue s st (replyTo s p 0x61 (body status value))
  let why := if tornDown s p then fsAborted else syncRefusal s st p name
  let c := syncGet s st name
  let key := watchKey st name
  let ws := Tab.get [] s.fab.watches key
  if why ≠ 0 then send (if why = fsAsleep then bump s 0x9000 0xA else s) why 0
  else if reaches c v then send s 0 c.toNat
  else if 4 ≤ ws.length then send s 34 0
  else
    let w : Watch := { value := v, slice := p.slice, expiry := field (qData p) 0 8, station := st, reply := replyTo s p 0x61 (body 0 0) }
    { s with fab := { s.fab with watches := Tab.put [] s.fab.watches key (ws ++ [w]) } }

def execWatch (st : Nat) (p : Pkt) (s : State) : Out := .next (watchAt s st p)

/-- WATCH_FIRE at the host bridge: it ends the WAIT as a COMPLETION ends a request. -/
def execWatchFire (p : Pkt) (s : State) : Out := execCompletion 28 p [] [] s

/-- WATCH_EXPIRY: the watches of an object that expire first are discarded. -/
def execWatchExpiry (t name : Nat) (s : State) : Out :=
  let key := watchKey t name
  match Tab.get [] s.fab.watches key with
  | [] => .next s
  | w :: ws =>
    let first := ws.foldl (fun m x => min m x.expiry) w.expiry
    let s := atCount s first
    .next { s with fab := { s.fab with watches := Tab.put [] s.fab.watches key ((w :: ws).filter (fun x => first < x.expiry)) } }

/-! ### The BAR4 window (R437, R438) -/

/-- Size of BAR4 (R402, R404): 16 GiB by default. -/
def barSize (s : State) : Nat := 2 ^ s.host.barLog

def barOpen (s : State) : Bool := bit s.host.barCtrl 31 && bit s.host.barCtrl 8

/-- The global address that a BAR4 offset names, within this module. -/
def barAddress (s : State) (off : Nat) : Nat :=
  (ownNode s % 4096) * 2 ^ 40 + s.host.barBase % 2 ^ 40 / barSize s * barSize s + off

/-- Send the pieces of an access from `i` on. -/
def sendBar (s : State) (o : BarOp) (data : List Byte) : Nat → Nat → State
  | 0, _ => s
  | n + 1, i =>
    let start := pieceStart o.off i
    let len := pieceLen o.off o.len i
    let f := bridgeEntry (if o.write then 2 else 1) (barAddress s (o.off + start)) len s.host.barKey 0 0 (if o.write then 0 else len) 0 0
    let s := match sendBridge s barQueue (o.id * 65536 + i) (s.host.barCtrl % 256) f (if o.write then slice data start len else []) with
      | some (s, 0) => s
      | some (s, why) => barPiece s o.id i { track := { queue := barQueue, index := 0, entry := f, nonce := 0, deadline := 0, slice := 0 }, status := fsRoute, detail := why, value := 0 }
      | none => s
    sendBar s o data n (i + 1)

/-- Tracker entries that are free, up to `k`. -/
def freeTags (s : State) (k : Nat) : Bool :=
  bridgeUsed s + k ≤ trackSize 28

/-- Start an access: its TLP waits outside while the tracker has no room for it. -/
def startBar (s : State) (write : Bool) (off len : Nat) (data : List Byte) : State :=
  let n := pieceCount off len
  if !freeTags s n then s
  else
    let h := s.host
    let o : BarOp := { id := h.barNext, write := write, off := off, len := len, pieces := n }
    sendBar { s with host := { h with barNext := h.barNext + 1, barOps := h.barOps ++ [o] } } o data n 0

/-- Address and length are multiples of 8. -/
def barAligned (s : State) (off len : Nat) : Bool := off % 8 = 0 && len % 8 = 0 && len ≠ 0 && off + len ≤ barSize s

/-- BAR4_WRITE. -/
def execBar4Write (off : Nat) (data : List Byte) (s : State) : Out :=
  hostAccess s 0 (fun s =>
    if !barOpen s then s
    else if !barAligned s off data.length then raiseBar s 2
    else startBar s true off data.length data)

/-- BAR4_READ. -/
def execBar4Read (off len : Nat) (s : State) : Out :=
  hostAccess s 0 (fun s =>
    let ones := Output.barRead off (List.replicate len 0xFF#8)
    if !barOpen s then emit s ones
    else if !barAligned s off len then emit (raiseBar s 2) ones
    else startBar s false off len [])

end Sys2Proof.Machine
end

