-- ==== Sys2Proof/Machine/Dispatch.lean ====
section
/-!
DEFINITION. One arm per command: a direct call of its meaning.
-/
namespace Sys2Proof.Machine

def exec (i : Instr) (s : State) : Host.Outcome State Fault Refusal :=
  match i with
  | .tdIssue t p rd rs1 rs2 pmpDenied => Sys2Proof.Machine.execTdIssue t p rd rs1 rs2 pmpDenied s
  | .tdAbort t p rd rs1 rs2 => Sys2Proof.Machine.execTdAbort t p rd rs1 rs2 s
  | .tdPoll t p rd rs1 => Sys2Proof.Machine.execTdPoll t p rd rs1 s
  | .tdPop t p rs1 => Sys2Proof.Machine.execTdPop t p rs1 s
  | .sySignal t p rs1 rs2 => Sys2Proof.Machine.execSySignal t p rs1 rs2 s
  | .syWait t p rd rs1 rs2 tdwait => Sys2Proof.Machine.execSyWait t p rd rs1 rs2 tdwait s
  | .syWaitRelease t p => Sys2Proof.Machine.execSyWaitRelease t p s
  | .syWaitTimeout t p => Sys2Proof.Machine.execSyWaitTimeout t p s
  | .tdFence t p => Sys2Proof.Machine.execTdFence t p s
  | .tdFenceRelease t p => Sys2Proof.Machine.execTdFenceRelease t p s
  | .tdcqWrite t p q v => Sys2Proof.Machine.execTdcqWrite t p q v s
  | .sCoreCheckReplay t p passes => Sys2Proof.Machine.execSCoreCheckReplay t p passes s
  | .descriptorStart t kind p flips => Sys2Proof.Machine.execDescriptorStart t kind p flips s
  | .descriptorComplete t kind p flips res wfail upTo => Sys2Proof.Machine.execDescriptorComplete t kind p flips res wfail upTo s
  | .completionRecordDeferred t p q => Sys2Proof.Machine.execCompletionRecordDeferred t p q s
  | .stitchRepeatFetch t kind p flips => Sys2Proof.Machine.execStitchRepeatFetch t kind p flips s
  | .selfTest u passes => Sys2Proof.Machine.execSelfTest u passes s
  | .rowRead t die row ask errs fails => Sys2Proof.Machine.execRowRead t die row ask errs fails s
  | .tileResetComplete t => Sys2Proof.Machine.execTileResetComplete t s
  | .rowWrite t die row ask data cell fails => Sys2Proof.Machine.execRowWrite t die row ask data cell fails s
  | .maskedRowWrite t die row ask mask data cell errs fails => Sys2Proof.Machine.execMaskedRowWrite t die row ask mask data cell errs fails s
  | .refresh t die bank due waiting => Sys2Proof.Machine.execRefresh t die bank due waiting s
  | .patrolScrubRow t die errs => Sys2Proof.Machine.execPatrolScrubRow t die errs s
  | .selfRefreshDrainDone t die => Sys2Proof.Machine.execSelfRefreshDrainDone t die s
  | .selfRefreshExit t die fails => Sys2Proof.Machine.execSelfRefreshExit t die fails s
  | .demandScrub r => Sys2Proof.Machine.execDemandScrub r s
  | .demandScrubDone errs => Sys2Proof.Machine.execDemandScrubDone errs s
  | .fill r => Sys2Proof.Machine.execFill r s
  | .rowRateStepEscalate t => Sys2Proof.Machine.execRowRateStepEscalate t s
  | .rowRateStepUp t => Sys2Proof.Machine.execRowRateStepUp t s
  | .clearConfirmedFaults t r => Sys2Proof.Machine.execClearConfirmedFaults t r s
  | .codewordReceive st port line seq data errs locked => Sys2Proof.Machine.execCodewordReceive st port line seq data errs locked s
  | .laneControlCodeword st port line ack naks credits lineMap errs => Sys2Proof.Machine.execLaneControlCodeword st port line ack naks credits lineMap errs s
  | .codewordResend st port => Sys2Proof.Machine.execCodewordResend st port s
  | .meshSlotAck src seq dst ok => Sys2Proof.Machine.execMeshSlotAck src seq dst ok s
  | .packetSend st crossing space => Sys2Proof.Machine.execPacketSend st crossing space s
  | .shaperRelease slot crossing space => Sys2Proof.Machine.execShaperRelease slot crossing space s
  | .loadPlan r => Sys2Proof.Machine.execLoadPlan r s
  | .planBodyWrite p r => Sys2Proof.Machine.execPlanBodyWrite p r s
  | .switchRequest r => Sys2Proof.Machine.execSwitchRequest r s
  | .planSwitchFirstData st port ns failedLanes farLanes => Sys2Proof.Machine.execPlanSwitchFirstData st port ns failedLanes farLanes s
  | .loadSchedule r => Sys2Proof.Machine.execLoadSchedule r s
  | .scheduleBodyWrite slot r => Sys2Proof.Machine.execScheduleBodyWrite slot r s
  | .runStart slot => Sys2Proof.Machine.execRunStart slot s
  | .exponentScanDone slot t => Sys2Proof.Machine.execExponentScanDone slot t s
  | .exponent t p => Sys2Proof.Machine.execExponent t p s
  | .anchor t p => Sys2Proof.Machine.execAnchor t p s
  | .phaseBegin slot => Sys2Proof.Machine.execPhaseBegin slot s
  | .contributeSend slot step first again => Sys2Proof.Machine.execContributeSend slot step first again s
  | .partialBlock t p dual err => Sys2Proof.Machine.execPartialBlock t p dual err s
  | .grant t p => Sys2Proof.Machine.execGrant t p s
  | .result t p => Sys2Proof.Machine.execResult t p s
  | .refetch t p => Sys2Proof.Machine.execRefetch t p s
  | .resend t p first again => Sys2Proof.Machine.execResend t p first again s
  | .phaseComplete slot => Sys2Proof.Machine.execPhaseComplete slot s
  | .runEnd slot => Sys2Proof.Machine.execRunEnd slot s
  | .runTimeout slot => Sys2Proof.Machine.execRunTimeout slot s
  | .multicastCopyReceive link p => Sys2Proof.Machine.execMulticastCopyReceive link p s
  | .multicastGroupWrite r => Sys2Proof.Machine.execMulticastGroupWrite r s
  | .hemFrameReceive link line seq frame errs => Sys2Proof.Machine.execHemFrameReceive link line seq frame errs s
  | .hemControlFrame link line frame errs => Sys2Proof.Machine.execHemControlFrame link line frame errs s
  | .hemFrameResend link group => Sys2Proof.Machine.execHemFrameResend link group s
  | .hemLaneFailed link line => Sys2Proof.Machine.execHemLaneFailed link line s
  | .hemTrainingStart link group ms => Sys2Proof.Machine.execHemTrainingStart link group ms s
  | .hemGroupUp link group latency => Sys2Proof.Machine.execHemGroupUp link group latency s
  | .lossOfLight link group space => Sys2Proof.Machine.execLossOfLight link group space s
  | .hemPacketReceive link group data space => Sys2Proof.Machine.execHemPacketReceive link group data space s
  | .routeFail st p => Sys2Proof.Machine.execRouteFail st p s
  | .sliceFail st p => Sys2Proof.Machine.execSliceFail st p s
  | .clearQuarantine r => Sys2Proof.Machine.execClearQuarantine r s
  | .nodeNumberWrite r => Sys2Proof.Machine.execNodeNumberWrite r s
  | .routeSetWrite r => Sys2Proof.Machine.execRouteSetWrite r s
  | .allowedSlicesWrite r => Sys2Proof.Machine.execAllowedSlicesWrite r s
  | .startSweep r => Sys2Proof.Machine.execStartSweep r s
  | .sweep link group p => Sys2Proof.Machine.execSweep link group p s
  | .sweepReply p => Sys2Proof.Machine.execSweepReply p s
  | .fabricQueueEnable t q => Sys2Proof.Machine.execFabricQueueEnable t q s
  | .fabricQueueDisabled t q => Sys2Proof.Machine.execFabricQueueDisabled t q s
  | .fabricEntryIssue t q first again => Sys2Proof.Machine.execFabricEntryIssue t q first again s
  | .loadReq st p first again => Sys2Proof.Machine.execLoadReq st p first again s
  | .storeReq st p fails => Sys2Proof.Machine.execStoreReq st p fails s
  | .atomicReq st p fl fails => Sys2Proof.Machine.execAtomicReq st p fl fails s
  | .reduceReq st p first again fails => Sys2Proof.Machine.execReduceReq st p first again fails s
  | .mstoreReq st p fails => Sys2Proof.Machine.execMstoreReq st p fails s
  | .syncAdd st p => Sys2Proof.Machine.execSyncAdd st p s
  | .syncRead st p => Sys2Proof.Machine.execSyncRead st p s
  | .acquire st p => Sys2Proof.Machine.execAcquire st p s
  | .renew st p => Sys2Proof.Machine.execRenew st p s
  | .release st p => Sys2Proof.Machine.execRelease st p s
  | .ownGive st p => Sys2Proof.Machine.execOwnGive st p s
  | .fence t q => Sys2Proof.Machine.execFence t q s
  | .fenceComplete t q => Sys2Proof.Machine.execFenceComplete t q s
  | .completion st p first again => Sys2Proof.Machine.execCompletion st p first again s
  | .requestTimeout st tag => Sys2Proof.Machine.execRequestTimeout st tag s
  | .tagQuarantineExpiry st tag => Sys2Proof.Machine.execTagQuarantineExpiry st tag s
  | .leaseExpiry index => Sys2Proof.Machine.execLeaseExpiry index s
  | .revokeLease r => Sys2Proof.Machine.execRevokeLease r s
  | .tearDownSlice r => Sys2Proof.Machine.execTearDownSlice r s
  | .setOwner r => Sys2Proof.Machine.execSetOwner r s
  | .regionRecordWrite r => Sys2Proof.Machine.execRegionRecordWrite r s
  | .vfReset v => Sys2Proof.Machine.execVfReset v s
  | .vfResetComplete fn => Sys2Proof.Machine.execVfResetComplete fn s
  | .admitSlice r => Sys2Proof.Machine.execAdmitSlice r s
  | .withdrawSlice r => Sys2Proof.Machine.execWithdrawSlice r s
  | .flowRecordWrite r => Sys2Proof.Machine.execFlowRecordWrite r s
  | .vdpRead r => Sys2Proof.Machine.execVdpRead r s
  | .vdpWrite r => Sys2Proof.Machine.execVdpWrite r s
  | .groupOpen r => Sys2Proof.Machine.execGroupOpen r s
  | .groupCommit r => Sys2Proof.Machine.execGroupCommit r s
  | .groupDiscard r => Sys2Proof.Machine.execGroupDiscard r s
  | .groupStatus r => Sys2Proof.Machine.execGroupStatus r s
  | .describe r => Sys2Proof.Machine.execDescribe r s
  | .notifyAck r => Sys2Proof.Machine.execNotifyAck r s
  | .notifyResend target seq => Sys2Proof.Machine.execNotifyResend target seq s
  | .snapshotRelease id => Sys2Proof.Machine.execSnapshotRelease id s
  | .partialWriteDiscard party index sub group => Sys2Proof.Machine.execPartialWriteDiscard party index sub group s
  | .groupExpiry n => Sys2Proof.Machine.execGroupExpiry n s
  | .contextRelease party => Sys2Proof.Machine.execContextRelease party s
  | .handOver r => Sys2Proof.Machine.execHandOver r s
  | .restartStandby r => Sys2Proof.Machine.execRestartStandby r s
  | .restoreDefaults r => Sys2Proof.Machine.execRestoreDefaults r s
  | .pldmRequest eid cmd => Sys2Proof.Machine.execPldmRequest eid cmd s
  | .setEndpointId eid => Sys2Proof.Machine.execSetEndpointId eid s
  | .operationAbort id units r => Sys2Proof.Machine.execOperationAbort id units r s
  | .imageUpload r => Sys2Proof.Machine.execImageUpload r s
  | .restartModule r => Sys2Proof.Machine.execRestartModule r s
  | .modeSelect r => Sys2Proof.Machine.execModeSelect r s
  | .powerCap r => Sys2Proof.Machine.execPowerCap r s
  | .releaseThermalLatch r => Sys2Proof.Machine.execReleaseThermalLatch r s
  | .tileClockLimit r => Sys2Proof.Machine.execTileClockLimit r s
  | .startCalibration r => Sys2Proof.Machine.execStartCalibration r s
  | .switchLaserGroup r => Sys2Proof.Machine.execSwitchLaserGroup r s
  | .restartLaserDie r => Sys2Proof.Machine.execRestartLaserDie r s
  | .laserRestartCheckDone k passes => Sys2Proof.Machine.execLaserRestartCheckDone k passes s
  | .portRolesWrite x r => Sys2Proof.Machine.execPortRolesWrite x r s
  | .clearThrough k r => Sys2Proof.Machine.execClearThrough k r s
  | .startSelfTest r => Sys2Proof.Machine.execStartSelfTest r s
  | .sleepRequest r => Sys2Proof.Machine.execSleepRequest r s
  | .diagnosticMode r => Sys2Proof.Machine.execDiagnosticMode r s
  | .faultInjection r => Sys2Proof.Machine.execFaultInjection r s
  | .seamTapOverride r => Sys2Proof.Machine.execSeamTapOverride r s
  | .erasePersistentStore r => Sys2Proof.Machine.execErasePersistentStore r s
  | .pcieLinkTraining width rate flit => Sys2Proof.Machine.execPcieLinkTraining width rate flit s
  | .regPlainWrite fn bar off data => Sys2Proof.Machine.execRegPlainWrite fn bar off data s
  | .setAliasWrite fn off data => Sys2Proof.Machine.execSetAliasWrite fn off data s
  | .clearAliasWrite fn off data => Sys2Proof.Machine.execClearAliasWrite fn off data s
  | .toggleAliasWrite fn off data => Sys2Proof.Machine.execToggleAliasWrite fn off data s
  | .statusRegisterWrite fn off value => Sys2Proof.Machine.execStatusRegisterWrite fn off value s
  | .domainWrite fn window off value => Sys2Proof.Machine.execDomainWrite fn window off value s
  | .domainWriteApplied d => Sys2Proof.Machine.execDomainWriteApplied d s
  | .domainRegisterRead fn off => Sys2Proof.Machine.execDomainRegisterRead fn off s
  | .domainReadRecovery d => Sys2Proof.Machine.execDomainReadRecovery d s
  | .epochLoRead fn => Sys2Proof.Machine.execEpochLoRead fn s
  | .mboxDoorbell fn value nvFails copyFails => Sys2Proof.Machine.execMboxDoorbell fn value nvFails copyFails s
  | .mailboxResponse fn => Sys2Proof.Machine.execMailboxResponse fn s
  | .tileSyncAdd t value => Sys2Proof.Machine.execTileSyncAdd t value s
  | .baseSyncAdd value => Sys2Proof.Machine.execBaseSyncAdd value s
  | .fcWake value => Sys2Proof.Machine.execFcWake value s
  | .queueEnable fn index value => Sys2Proof.Machine.execQueueEnable fn index value s
  | .queueDisable fn index value => Sys2Proof.Machine.execQueueDisable fn index value s
  | .queueDisabled q => Sys2Proof.Machine.execQueueDisabled q s
  | .sqTail fn index value => Sys2Proof.Machine.execSqTail fn index value s
  | .cqHead fn index value => Sys2Proof.Machine.execCqHead fn index value s
  | .sqEntryFetch q entry => Sys2Proof.Machine.execSqEntryFetch q entry s
  | .write q idx data fault => Sys2Proof.Machine.execWrite q idx data fault s
  | .read q idx => Sys2Proof.Machine.execRead q idx s
  | .signal q idx => Sys2Proof.Machine.execSignal q idx s
  | .wait q idx => Sys2Proof.Machine.execWait q idx s
  | .barrier q idx => Sys2Proof.Machine.execBarrier q idx s
  | .cqRecordWrite q idx => Sys2Proof.Machine.execCqRecordWrite q idx s
  | .cqCoalesceTimer q => Sys2Proof.Machine.execCqCoalesceTimer q s
  | .queueDmaFault q cq => Sys2Proof.Machine.execQueueDmaFault q cq s
  | .watch st p => Sys2Proof.Machine.execWatch st p s
  | .watchFire p => Sys2Proof.Machine.execWatchFire p s
  | .watchExpiry t name => Sys2Proof.Machine.execWatchExpiry t name s
  | .bar4Write off data => Sys2Proof.Machine.execBar4Write off data s
  | .bar4Read off len => Sys2Proof.Machine.execBar4Read off len s
  | .functionLevelReset fn => Sys2Proof.Machine.execFunctionLevelReset fn s
  | .hotReset linkLost => Sys2Proof.Machine.execHotReset linkLost s
  | .busMasterDisable fn => Sys2Proof.Machine.execBusMasterDisable fn s
  | .d3hotEntry fn => Sys2Proof.Machine.execD3hotEntry fn s
  | .referenceFailure src => Sys2Proof.Machine.execReferenceFailure src s
  | .referenceQualified src => Sys2Proof.Machine.execReferenceQualified src s
  | .clockFront front nvFails replica => Sys2Proof.Machine.execClockFront front nvFails replica s
  | .fallBackRequest t => Sys2Proof.Machine.execFallBackRequest t s
  | .fallBackWithdraw t => Sys2Proof.Machine.execFallBackWithdraw t s
  | .tilePowerEstimate t total dyn => Sys2Proof.Machine.execTilePowerEstimate t total dyn s
  | .packagePowerEstimate fixed => Sys2Proof.Machine.execPackagePowerEstimate fixed s
  | .housekeepingRound mv ma => Sys2Proof.Machine.execHousekeepingRound mv ma s
  | .temperatureSample die temp => Sys2Proof.Machine.execTemperatureSample die temp s
  | .throttleCeilingDrop t => Sys2Proof.Machine.execThrottleCeilingDrop t s
  | .throttleRecoveryStep t => Sys2Proof.Machine.execThrottleRecoveryStep t s
  | .railFault t => Sys2Proof.Machine.execRailFault t s
  | .railRecovery t => Sys2Proof.Machine.execRailRecovery t s
  | .calibrationStageDone fields lines groups => Sys2Proof.Machine.execCalibrationStageDone fields lines groups s
  | .rotationStepEnd inner links => Sys2Proof.Machine.execRotationStepEnd inner links s
  | .seamTapSweep id low high => Sys2Proof.Machine.execSeamTapSweep id low high s
  | .channelRecalibration t die ms => Sys2Proof.Machine.execChannelRecalibration t die ms s
  | .tableScrub fixed bad => Sys2Proof.Machine.execTableScrub fixed bad s
  | .clockLockLoss t => Sys2Proof.Machine.execClockLockLoss t s
  | .errorReport k => Sys2Proof.Machine.execErrorReport k s
  | .squallEnd cls => Sys2Proof.Machine.execSquallEnd cls s
  | .laserMonitorSample g lowLines => Sys2Proof.Machine.execLaserMonitorSample g lowLines s
  | .laserDriveApply g => Sys2Proof.Machine.execLaserDriveApply g s
  | .laserLineCheck g bad => Sys2Proof.Machine.execLaserLineCheck g bad s
  | .laserGapEnd g => Sys2Proof.Machine.execLaserGapEnd g s
  | .channelSample ch x => Sys2Proof.Machine.execChannelSample ch x s
  | .mantleBootDone m bad0 bad1 => Sys2Proof.Machine.execMantleBootDone m bad0 bad1 s
  | .startUpStageDone dies failed mats => Sys2Proof.Machine.execStartUpStageDone dies failed mats s
  | .guestDiscovery sites => Sys2Proof.Machine.execGuestDiscovery sites s
  | .guestLinkFailure g => Sys2Proof.Machine.execGuestLinkFailure g s
  | .mantleRestartN m => Sys2Proof.Machine.execMantleRestartN m s
  | .spiSel high a b => Sys2Proof.Machine.execSpiSel high a b s
  | .sCoreLoadStore t p store addr size data rd signExt pmpDenied flips fails => Sys2Proof.Machine.execSCoreLoadStore t p store addr size data rd signExt pmpDenied flips fails s
  | .referenceReturn src => Sys2Proof.Machine.execReferenceReturn src s
  | .waitTimeout q idx => Sys2Proof.Machine.execWaitTimeout q idx s
  | .guestLinkRetrained g => Sys2Proof.Machine.execGuestLinkRetrained g s
  | .entdaa addr => Sys2Proof.Machine.execEntdaa addr s
  | .renumbering => Sys2Proof.Machine.execRenumbering s
  | .fillDone => Sys2Proof.Machine.execFillDone s
  | .meshSlot => Sys2Proof.Machine.execMeshSlot s
  | .planLoadDone => Sys2Proof.Machine.execPlanLoadDone s
  | .planSwitchDrain => Sys2Proof.Machine.execPlanSwitchDrain s
  | .scheduleLoadDone => Sys2Proof.Machine.execScheduleLoadDone s
  | .sweepLost => Sys2Proof.Machine.execSweepLost s
  | .teardownDone => Sys2Proof.Machine.execTeardownDone s
  | .admissionDone => Sys2Proof.Machine.execAdmissionDone s
  | .admissionRecompute => Sys2Proof.Machine.execAdmissionRecompute s
  | .mantleRefresh => Sys2Proof.Machine.execMantleRefresh s
  | .mantleOwnershipExpiry => Sys2Proof.Machine.execMantleOwnershipExpiry s
  | .standbyClaim => Sys2Proof.Machine.execStandbyClaim s
  | .mantleClaimTimeout => Sys2Proof.Machine.execMantleClaimTimeout s
  | .handOverReclaim => Sys2Proof.Machine.execHandOverReclaim s
  | .perstDeassert => Sys2Proof.Machine.execPerstDeassert s
  | .bar4FenceRead => Sys2Proof.Machine.execBar4FenceRead s
  | .holdoverFailure => Sys2Proof.Machine.execHoldoverFailure s
  | .epochOffsetAverage => Sys2Proof.Machine.execEpochOffsetAverage s
  | .capSkipEnd => Sys2Proof.Machine.execCapSkipEnd s
  | .capLoopIteration => Sys2Proof.Machine.execCapLoopIteration s
  | .thaw => Sys2Proof.Machine.execThaw s
  | .inputFault => Sys2Proof.Machine.execInputFault s
  | .inputRecovery => Sys2Proof.Machine.execInputRecovery s
  | .calibrationDone => Sys2Proof.Machine.execCalibrationDone s
  | .forecastHeartbeatMiss => Sys2Proof.Machine.execForecastHeartbeatMiss s
  | .forecastDecision => Sys2Proof.Machine.execForecastDecision s
  | .wakeComplete => Sys2Proof.Machine.execWakeComplete s
  | .dozeStageDone => Sys2Proof.Machine.execDozeStageDone s
  | .napStageDone => Sys2Proof.Machine.execNapStageDone s
  | .hibernateStageDone => Sys2Proof.Machine.execHibernateStageDone s
  | .standbyRailUp => Sys2Proof.Machine.execStandbyRailUp s
  | .mainRailsStart => Sys2Proof.Machine.execMainRailsStart s
  | .mainEnableDeassert => Sys2Proof.Machine.execMainEnableDeassert s
  | .orderlyShutdownStep => Sys2Proof.Machine.execOrderlyShutdownStep s
  | .moduleResetN => Sys2Proof.Machine.execModuleResetN s
  | .j1Withdrawal => Sys2Proof.Machine.execJ1Withdrawal s
  | .moduleResetNRelease => Sys2Proof.Machine.execModuleResetNRelease s
  | .standbyRailLoss => Sys2Proof.Machine.execStandbyRailLoss s

end Sys2Proof.Machine
end

