-- ==== Sys2Proof/Safety.lean ====
section
/-!
DEFINITION. What the statements speak of: commands that complete, requests that the Vexga
Dictionary serves, what two states have in common, and the invariant of every step.
-/
namespace Sys2Proof.Machine

/-! ### Observations -/

/-- The value that a write of `v` leaves in a register. -/
def xAfter (r : Nat) (v : DWord) : DWord := if r % 32 = 0 then 0#64 else v

/-- Every byte of the module's memory reads as before. -/
def sameBytes (s u : State) : Prop := ∀ k, rd8 u.mem k = rd8 s.mem k

/-- Every byte but the `n` from `k` on reads as before. -/
def sameBytesBut (k n : Nat) (s u : State) : Prop := ∀ j, j < k ∨ k + n ≤ j → rd8 u.mem j = rd8 s.mem j

/-- The dictionary, its byte strings and the error logs are as before. -/
def sameBooks (s u : State) : Prop := u.dict = s.dict ∧ u.blobs = s.blobs ∧ u.log = s.log

/-- Everything outside the tiles is as before. -/
def sameOutsideTiles (s u : State) : Prop :=
  sameBooks s u ∧ u.bas = s.bas ∧ u.col = s.col ∧ u.hem = s.hem ∧ u.adm = s.adm ∧ u.mantle = s.mantle
    ∧ u.clk = s.clk ∧ u.pow = s.pow ∧ u.las = s.las ∧ u.host = s.host

/-! ### Requests that the dictionary serves (R346 to R356) -/

/-- The message is a WRITE or COMMAND of one whole value that passes the checks of R349 up to
its entry's own rules: an answer is due and none repeats, the entry exists, may be written by
this sender and is not held, the value has its type, and neither copy of the store fails. -/
def granted (s : State) (r : VdpReq) : Bool :=
  answersNow s r && (duplicateOf s r).isNone && checkEntry s r = 0 && (r.opcode = 2 || r.opcode = 3)
    && (((findEntry r.index r.sub).bind (fun e => etypeSize e.ty)).isSome || (r.offset = 0 && r.dataLen = r.total)) && r.group = 0
    && (match findEntry r.index r.sub with
      | some e => typeRange e r.data && (!e.betweenJobs || noJobs s) && !(e.acc = .rwp && r.nvFails)
      | none => false)
    && !heldByGroup s r.index r.sub && contextFree s r.src && !r.copyFails

/-- What is left of a granted request once its entry's rules have taken effect: an RWP value is
stored, and the answer leaves. -/
def served (x : Effect) (r : VdpReq) : State :=
  answer (if isPersistent r.index r.sub then persist x.s r.index r.sub else x.s) r (respOf r 0 x.detail x.data)

/-- The selects of the sender's context (R345). -/
def selects (s : State) (r : VdpReq) : Tab Nat := (contextOf s r.src).sel

/-! ### Exact sums (R45, R61, R62, R66) -/

/-- A finite value as a count of `2^base`; 0 for a special value. -/
def scaledVal (base : Int) : Val → Int
  | .fin n m e => (if n then -(m : Int) else m) * 2 ^ (e - base).toNat
  | _ => 0

/-- The values entered, in order, into an empty accumulator. -/
def ceaTotal (anchor : Int) (l : List Val) : Cea := l.foldl ceaEnter { anchor := anchor }

/-- The codes added, in order, from 0; whether some sum left the range. -/
def anchoredTotal (l : List Nat) : Nat × Bool :=
  l.foldl (fun a x => ((anchoredAdd a.1 x).1, a.2 || (anchoredAdd a.1 x).2)) (0, false)

/-- A code of headroom `h`: NaR, or a value within the bound of R61. -/
def anchoredValid (h x : Nat) : Prop := x < 2 ^ 64 ∧ (x = narCode ∨ (signed 64 x).natAbs ≤ 2 ^ (63 - h) - 1)

/-! ### The invariant -/

/-- Memory keeps its canonical form (addresses strictly rising, no listed byte 0), and at most 16
injection records are pending (R602). -/
def State.Inv (s : State) : Prop := Memory.wf s.mem = true ∧ s.injections.length ≤ 16

/-- The commands that may write memory: those that store for the fabric, the cores, the row ports or
a collective, those that wake or clear a die, and those that reach one of them. -/
def writesMemory : Instr → Bool
  | .hemPacketReceive .. | .routeFail .. | .sliceFail .. | .lossOfLight .. | .packetSend ..
  | .shaperRelease .. | .tdIssue .. | .tdAbort .. | .tdcqWrite ..
  | .completionRecordDeferred .. | .sCoreCheckReplay .. | .descriptorStart ..
  | .descriptorComplete .. | .stitchRepeatFetch .. | .sCoreLoadStore .. | .contributeSend ..
  | .exponent .. | .anchor .. | .partialBlock .. | .result .. | .resend .. | .phaseBegin ..
  | .phaseComplete .. | .runStart .. | .runEnd .. | .runTimeout .. | .loadReq .. | .storeReq ..
  | .mstoreReq .. | .atomicReq .. | .reduceReq .. | .fabricQueueEnable ..
  | .fabricEntryIssue .. | .fence .. | .fenceComplete .. | .completion .. | .requestTimeout ..
  | .tearDownSlice .. | .teardownDone .. | .rowWrite .. | .maskedRowWrite ..
  | .patrolScrubRow .. | .demandScrubDone .. | .fillDone .. | .tileResetComplete ..
  | .tableScrub .. | .clockLockLoss .. | .selfTest .. | .temperatureSample ..
  | .railRecovery .. | .inputFault .. | .startCalibration .. | .calibrationStageDone ..
  | .calibrationDone .. | .rotationStepEnd .. | .channelRecalibration .. | .dozeStageDone ..
  | .napStageDone .. | .hibernateStageDone .. | .operationAbort .. | .standbyRailLoss ..
  | .startUpStageDone .. | .orderlyShutdownStep .. | .moduleResetN .. | .j1Withdrawal ..
  | .restoreDefaults .. | .vdpRead .. | .vdpWrite .. | .clockFront .. | .regPlainWrite ..
  | .setAliasWrite .. | .clearAliasWrite .. | .toggleAliasWrite .. | .statusRegisterWrite ..
  | .domainWrite .. | .mboxDoorbell .. | .mailboxResponse .. | .tileSyncAdd ..
  | .baseSyncAdd .. | .fcWake .. | .watchFire .. | .exponentScanDone .. | .grant .. | .refetch ..
  | .multicastCopyReceive .. | .hemFrameReceive .. | .hemControlFrame .. | .hemLaneFailed ..
  | .sweep .. | .switchLaserGroup .. | .portRolesWrite .. | .diagnosticMode ..
  | .laserMonitorSample .. | .laserGapEnd .. | .guestDiscovery .. => true
  | _ => false

/-- What no command undoes: the queue behind it, the part and its fused tiles, the time, the
messages that have left, the number of free values used, and the two parts of the invariant. -/
structure Follows (s u : State) : Prop where
  pending : u.pending = s.pending
  part : u.part = s.part
  fused : u.fusedTiles = s.fusedTiles
  now : s.now ≤ u.now
  out : s.out <+: u.out
  free : s.free ≤ u.free
  wf : Memory.wf s.mem = true → Memory.wf u.mem = true
  inj : s.injections.length ≤ 16 → u.injections.length ≤ 16

end Sys2Proof.Machine
end

