-- ==== Sys2Proof/WellFormed.lean ====
section
/-!
DEFINITION. Which commands are well formed: every number names a unit, an object or a register
field that the module has (R26, R28, R70, R93, R164, R171, R228, R285, R404, R408, R425), and the
fields of VDP messages (R347) and packets (R247) keep their widths.  A command that is not well
formed still has a meaning: the unit that it names does not exist, and nothing happens.
-/
namespace Sys2Proof

/-- The header's fields keep their widths (R347). -/
def VdpReq.wf (r : VdpReq) : Bool :=
  decide (r.version < 2 ^ 8) && decide (r.opcode < 2 ^ 8) && decide (r.flags < 2 ^ 8) && decide (r.txid < 2 ^ 32)
    && decide (r.index < 2 ^ 16) && decide (r.sub < 2 ^ 8) && decide (r.group < 2 ^ 8) && decide (r.offset < 2 ^ 32)
    && decide (r.total < 2 ^ 32) && decide (r.dataLen < 2 ^ 16) && decide (r.detail < 2 ^ 16)

/-- The header's fields keep their widths (R247). -/
def Pkt.wf (p : Pkt) : Bool :=
  decide (p.hops < 8) && decide (p.next < 8) && decide (p.route < 2 ^ 40) && decide (p.slice < 2 ^ 8) && decide (p.kind < 2 ^ 8)
    && decide (p.destNode < 2 ^ 12) && decide (p.destStation < 2 ^ 5) && decide (p.srcStation < 2 ^ 5) && decide (p.srcNode < 2 ^ 12)
    && decide (p.tag < 2 ^ 14) && decide (p.stream < 2 ^ 16) && decide (p.seq < 2 ^ 32) && decide (p.sigSync < 2 ^ 16)
    && decide (p.sigCount < 2 ^ 16) && decide (p.body.length < 2 ^ 14)

/-- The unit can exist: core numbers stay below the physical counts (R28, R70). -/
def UnitId.wf : UnitId → Bool
  | .tile t => decide (t < 24)
  | .mCore t p => decide (t < 24) && decide (p < 68)
  | .vCore t p => decide (t < 24) && decide (p < 34)
  | .sCore t p => decide (t < 24) && decide (p < 10)

/-- Every operand is in its range. -/
def Instr.wf : Instr → Bool
  | .tdIssue t p rd _ _ _ => decide (t < 28) && decide (p < 10) && decide (rd < 32)
  | .tdAbort t p rd _ _ => decide (t < 28) && decide (p < 10) && decide (rd < 32)
  | .tdPoll t p rd _ => decide (t < 28) && decide (p < 10) && decide (rd < 32)
  | .tdPop t p _ => decide (t < 28) && decide (p < 10)
  | .sySignal t p _ _ => decide (t < 28) && decide (p < 10)
  | .syWait t p rd _ _ _ => decide (t < 28) && decide (p < 10) && decide (rd < 32)
  | .syWaitRelease t p => decide (t < 28) && decide (p < 10)
  | .syWaitTimeout t p => decide (t < 28) && decide (p < 10)
  | .tdFence t p => decide (t < 28) && decide (p < 10)
  | .tdFenceRelease t p => decide (t < 28) && decide (p < 10)
  | .tdcqWrite t p q _ => decide (t < 28) && decide (p < 10) && decide (q < 4)
  | .sCoreCheckReplay t p _ => decide (t < 28) && decide (p < 10)
  | .descriptorStart t _ p _ => decide (t < 28) && decide (p < 68)
  | .descriptorComplete t _ p _ _ _ _ => decide (t < 28) && decide (p < 68)
  | .completionRecordDeferred t p q => decide (t < 28) && decide (p < 10) && decide (q < 4)
  | .stitchRepeatFetch t _ p _ => decide (t < 28) && decide (p < 68)
  | .selfTest u _ => u.wf
  | .rowRead t die row _ _ _ => decide (t < 28) && decide (die < 3) && decide (row < 8388608)
  | .tileResetComplete t => decide (t < 28)
  | .rowWrite t die row _ _ _ _ => decide (t < 28) && decide (die < 3) && decide (row < 8388608)
  | .maskedRowWrite t die row _ _ _ _ _ _ => decide (t < 28) && decide (die < 3) && decide (row < 8388608)
  | .refresh t die bank _ _ => decide (t < 28) && decide (die < 3) && decide (bank < 256)
  | .patrolScrubRow t die _ => decide (t < 28) && decide (die < 3)
  | .selfRefreshDrainDone t die => decide (t < 28) && decide (die < 3)
  | .selfRefreshExit t die _ => decide (t < 28) && decide (die < 3)
  | .demandScrub r => r.wf
  | .demandScrubDone _ => true
  | .fill r => r.wf
  | .rowRateStepEscalate t => decide (t < 28)
  | .rowRateStepUp t => decide (t < 28)
  | .clearConfirmedFaults t r => decide (t < 28) && r.wf
  | .codewordReceive st port line _ _ _ _ => decide (st < 29) && decide (port < 45) && decide (line < 17)
  | .laneControlCodeword st port line _ _ _ _ _ => decide (st < 29) && decide (port < 17) && decide (line < 17)
  | .codewordResend st port => decide (st < 29) && decide (port < 17)
  | .meshSlotAck src _ dst _ => decide (src < 29) && decide (dst < 29)
  | .packetSend st _ _ => decide (st < 29)
  | .shaperRelease slot _ _ => decide (slot < 4096)
  | .loadPlan r => r.wf
  | .planBodyWrite p r => decide (p < 256) && r.wf
  | .switchRequest r => r.wf
  | .planSwitchFirstData st port _ _ _ => decide (st < 29) && decide (port < 17)
  | .loadSchedule r => r.wf
  | .scheduleBodyWrite slot r => decide (slot < 64) && r.wf
  | .runStart slot => decide (slot < 64)
  | .exponentScanDone slot t => decide (slot < 64) && decide (t < 28)
  | .exponent t p => decide (t < 28) && p.wf
  | .anchor t p => decide (t < 28) && p.wf
  | .phaseBegin slot => decide (slot < 64)
  | .contributeSend slot _ _ _ => decide (slot < 64)
  | .partialBlock t p dual _ => decide (t < 28) && p.wf && decide (dual < 3)
  | .grant t p => decide (t < 28) && p.wf
  | .result t p => decide (t < 28) && p.wf
  | .refetch t p => decide (t < 28) && p.wf
  | .resend t p _ _ => decide (t < 28) && p.wf
  | .phaseComplete slot => decide (slot < 64)
  | .runEnd slot => decide (slot < 64)
  | .runTimeout slot => decide (slot < 64)
  | .multicastCopyReceive link p => decide (link < 64) && p.wf
  | .multicastGroupWrite r => r.wf
  | .hemFrameReceive link line _ _ _ => decide (link < 64) && decide (line < 17)
  | .hemControlFrame link line _ _ => decide (link < 64) && decide (line < 17)
  | .hemFrameResend link group => decide (link < 64) && decide (group < 16)
  | .hemLaneFailed link line => decide (link < 64) && decide (line < 17)
  | .hemTrainingStart link group _ => decide (link < 64) && decide (group < 16)
  | .hemGroupUp link group _ => decide (link < 64) && decide (group < 16)
  | .lossOfLight link group _ => decide (link < 64) && decide (group < 16)
  | .hemPacketReceive link group _ _ => decide (link < 64) && decide (group < 16)
  | .routeFail st p => decide (st < 29) && p.wf
  | .sliceFail st p => decide (st < 29) && p.wf
  | .clearQuarantine r => r.wf
  | .nodeNumberWrite r => r.wf
  | .routeSetWrite r => r.wf
  | .allowedSlicesWrite r => r.wf
  | .startSweep r => r.wf
  | .sweep link group p => decide (link < 64) && decide (group < 16) && p.wf
  | .sweepReply p => p.wf
  | .fabricQueueEnable t q => decide (t < 28) && decide (q < 8)
  | .fabricQueueDisabled t q => decide (t < 28) && decide (q < 8)
  | .fabricEntryIssue t q _ _ => decide (t < 28) && decide (q < 8)
  | .loadReq st p _ _ => decide (st < 29) && p.wf
  | .storeReq st p _ => decide (st < 29) && p.wf
  | .atomicReq st p _ _ => decide (st < 29) && p.wf
  | .reduceReq st p _ _ _ => decide (st < 29) && p.wf
  | .mstoreReq st p _ => decide (st < 29) && p.wf
  | .syncAdd st p => decide (st < 29) && p.wf
  | .syncRead st p => decide (st < 29) && p.wf
  | .acquire st p => decide (st < 29) && p.wf
  | .renew st p => decide (st < 29) && p.wf
  | .release st p => decide (st < 29) && p.wf
  | .ownGive st p => decide (st < 29) && p.wf
  | .fence t q => decide (t < 28) && decide (q < 8)
  | .fenceComplete t q => decide (t < 28) && decide (q < 8)
  | .completion st p _ _ => decide (st < 29) && p.wf
  | .requestTimeout st tag => decide (st < 29) && decide (tag < 16384)
  | .tagQuarantineExpiry st tag => decide (st < 29) && decide (tag < 16384)
  | .leaseExpiry i => decide (i < 8192)
  | .revokeLease r => r.wf
  | .tearDownSlice r => r.wf
  | .setOwner r => r.wf
  | .regionRecordWrite r => r.wf
  | .vfReset v => decide (v < 64)
  | .vfResetComplete fn => decide (fn < 64)
  | .admitSlice r => r.wf
  | .withdrawSlice r => r.wf
  | .flowRecordWrite r => r.wf
  | .vdpRead r => r.wf
  | .vdpWrite r => r.wf
  | .groupOpen r => r.wf
  | .groupCommit r => r.wf
  | .groupDiscard r => r.wf
  | .groupStatus r => r.wf
  | .describe r => r.wf
  | .notifyAck r => r.wf
  | .notifyResend _ _ => true
  | .snapshotRelease _ => true
  | .partialWriteDiscard _ _ _ group => decide (group < 256)
  | .groupExpiry _ => true
  | .contextRelease _ => true
  | .handOver r => r.wf
  | .restartStandby r => r.wf
  | .restoreDefaults r => r.wf
  | .pldmRequest _ _ => true
  | .setEndpointId _ => true
  | .operationAbort _ _ r => r.wf
  | .imageUpload r => r.wf
  | .restartModule r => r.wf
  | .modeSelect r => r.wf
  | .powerCap r => r.wf
  | .releaseThermalLatch r => r.wf
  | .tileClockLimit r => r.wf
  | .startCalibration r => r.wf
  | .switchLaserGroup r => r.wf
  | .restartLaserDie r => r.wf
  | .laserRestartCheckDone k _ => decide (k < 8)
  | .portRolesWrite x r => decide (x < 28) && r.wf
  | .clearThrough k r => decide (k < 29) && r.wf
  | .startSelfTest r => r.wf
  | .sleepRequest r => r.wf
  | .diagnosticMode r => r.wf
  | .faultInjection r => r.wf
  | .seamTapOverride r => r.wf
  | .erasePersistentStore r => r.wf
  | .pcieLinkTraining _ _ _ => true
  | .regPlainWrite fn bar _ _ => decide (fn < 64) && decide (bar < 5)
  | .setAliasWrite fn _ _ => decide (fn < 64)
  | .clearAliasWrite fn _ _ => decide (fn < 64)
  | .toggleAliasWrite fn _ _ => decide (fn < 64)
  | .statusRegisterWrite fn _ value => decide (fn < 64) && decide (value < 4294967296)
  | .domainWrite fn window _ value => decide (fn < 64) && decide (window < 4) && decide (value < 4294967296)
  | .domainWriteApplied d => decide (d < 27)
  | .domainRegisterRead fn _ => decide (fn < 64)
  | .domainReadRecovery d => decide (d < 27)
  | .epochLoRead fn => decide (fn < 64)
  | .mboxDoorbell fn value _ _ => decide (fn < 64) && decide (value < 4294967296)
  | .mailboxResponse fn => decide (fn < 64)
  | .tileSyncAdd t value => decide (t < 28) && decide (value < 4294967296)
  | .baseSyncAdd value => decide (value < 4294967296)
  | .fcWake value => decide (value < 4294967296)
  | .queueEnable fn i value => decide (fn < 64) && decide (i < 32) && decide (value < 4294967296)
  | .queueDisable fn i value => decide (fn < 64) && decide (i < 32) && decide (value < 4294967296)
  | .queueDisabled q => decide (q < 536)
  | .sqTail fn i value => decide (fn < 64) && decide (i < 32) && decide (value < 4294967296)
  | .cqHead fn i value => decide (fn < 64) && decide (i < 32) && decide (value < 4294967296)
  | .sqEntryFetch q _ => decide (q < 536)
  | .write q _ _ _ => decide (q < 536)
  | .read q _ => decide (q < 536)
  | .signal q _ => decide (q < 536)
  | .wait q _ => decide (q < 536)
  | .barrier q _ => decide (q < 536)
  | .cqRecordWrite q _ => decide (q < 536)
  | .cqCoalesceTimer q => decide (q < 536)
  | .queueDmaFault q _ => decide (q < 536)
  | .watch st p => decide (st < 29) && p.wf
  | .watchFire p => p.wf
  | .watchExpiry t _ => decide (t < 28)
  | .bar4Write _ _ => true
  | .bar4Read _ _ => true
  | .functionLevelReset fn => decide (fn < 64)
  | .hotReset _ => true
  | .busMasterDisable fn => decide (fn < 64)
  | .d3hotEntry fn => decide (fn < 64)
  | .referenceFailure src => decide (src < 2)
  | .referenceQualified src => decide (src < 2)
  | .clockFront _ _ _ => true
  | .fallBackRequest t => decide (t < 28)
  | .fallBackWithdraw t => decide (t < 28)
  | .tilePowerEstimate t _ _ => decide (t < 28)
  | .packagePowerEstimate _ => true
  | .housekeepingRound _ _ => true
  | .temperatureSample die _ => decide (die < 139)
  | .throttleCeilingDrop t => decide (t < 28)
  | .throttleRecoveryStep t => decide (t < 28)
  | .railFault t => decide (t < 28)
  | .railRecovery t => decide (t < 28)
  | .calibrationStageDone _ _ _ => true
  | .rotationStepEnd _ _ => true
  | .seamTapSweep _ low high => decide (low < 4294967296) && decide (high < 4294967296)
  | .channelRecalibration t die _ => decide (t < 28) && decide (die < 3)
  | .tableScrub _ _ => true
  | .clockLockLoss t => decide (t < 28)
  | .errorReport k => decide (k < 29)
  | .squallEnd cls => decide (cls < 256)
  | .laserMonitorSample g _ => decide (g < 4)
  | .laserDriveApply g => decide (g < 4)
  | .laserLineCheck g _ => decide (g < 4)
  | .laserGapEnd g => decide (g < 4)
  | .channelSample ch _ => decide (ch < 32)
  | .mantleBootDone m _ _ => decide (m < 2)
  | .startUpStageDone _ _ _ => true
  | .guestDiscovery _ => true
  | .guestLinkFailure g => decide (g < 4)
  | .mantleRestartN m => decide (m < 2)
  | .spiSel _ _ _ => true
  | .sCoreLoadStore t p _ _ _ _ rd _ _ _ _ => decide (t < 28) && decide (p < 10) && decide (rd < 32)
  | .referenceReturn src => decide (src < 2)
  | .waitTimeout q _ => decide (q < 536)
  | .guestLinkRetrained g => decide (g < 4)
  | .entdaa _ => true
  | .renumbering => true
  | .fillDone => true
  | .meshSlot => true
  | .planLoadDone => true
  | .planSwitchDrain => true
  | .scheduleLoadDone => true
  | .sweepLost => true
  | .teardownDone => true
  | .admissionDone => true
  | .admissionRecompute => true
  | .mantleRefresh => true
  | .mantleOwnershipExpiry => true
  | .standbyClaim => true
  | .mantleClaimTimeout => true
  | .handOverReclaim => true
  | .perstDeassert => true
  | .bar4FenceRead => true
  | .holdoverFailure => true
  | .epochOffsetAverage => true
  | .capSkipEnd => true
  | .capLoopIteration => true
  | .thaw => true
  | .inputFault => true
  | .inputRecovery => true
  | .calibrationDone => true
  | .forecastHeartbeatMiss => true
  | .forecastDecision => true
  | .wakeComplete => true
  | .dozeStageDone => true
  | .napStageDone => true
  | .hibernateStageDone => true
  | .standbyRailUp => true
  | .mainRailsStart => true
  | .mainEnableDeassert => true
  | .orderlyShutdownStep => true
  | .moduleResetN => true
  | .j1Withdrawal => true
  | .moduleResetNRelease => true
  | .standbyRailLoss => true

end Sys2Proof
end

