-- ==== Sys2Proof/Certificates/Slice0/Obligations.lean ====
section
/-!
DEFINITION. The statements for the provers, in the order of OBLIGATIONS.json.
-/
open Sys2Proof Sys2Proof.Machine

/-- For every command c, list of commands and state s whose queue is c followed by that list, step
of s is exec of c on s with the rest as its queue. On an empty queue step answers the state after
one tick of the block's clock. The queue and the tick are the model's own choice (log entry 1), not
the spec's. (00_scope.md, R9) -/
def Obligations.StepRunsTheFrontCommand : Prop :=
  (∀ (c : Instr) (rest : List Instr) (s : State), s.pending = c :: rest →
    step s = exec c { s with pending := rest }) ∧
  (∀ s : State, s.pending = [] → step s = .next (tick s)) ∧
  (∀ s : State, s.pending = [] → epoch s % 4096 ≠ 4095 →
    step s = .next { s with now := s.now + 6400 })

/-- For an S-core that runs: td.issue of a descriptor address that is not a multiple of 128 or
leaves the pool writes -11 to rd; a read that PMP denies raises a load access fault; for an address
inside the pool that may be read and rs2 naming no core of the tile, rd takes -2. For one naming a
core: if the checks of the issue answer 0, the core's queue becomes the old queue followed by one
entry with the 128 bytes at the address, the S-core's ticket and number, the S-core's next ticket is
one higher modulo 2^31, and rd takes the ticket; where the core's retirement is pending that entry
is then ended ABORTED. If the checks answer a code, rd takes minus that code. (R77, R91, R71,
03_cores.md) -/
def Obligations.TdIssueQueuesTheDescriptor : Prop :=
  ∀ (t p rd : Nat) (rs1 rs2 : DWord) (denied : Bool) (s : State), sCoreRuns s t p = true →
    let a := rs1.toNat
    let inPool : Prop := a % 128 = 0 ∧ onDieBase ≤ a ∧ a + 128 ≤ onDieBase + poolBytes
    let deny := denied || pmpDenies (getSCore s t p) a 128 false
    let kind := bits rs2.toNat 8 2
    let core := if kind ≤ 1 then physCore (getTile s t) kind (bits rs2.toNat 0 8) else none
    let d := leNat (bytesAt s t a 128)
    let ticket := (getSCore s t p).ticket
    (¬ inPool → exec (.tdIssue t p rd rs1 rs2 denied) s = .next (setRd s t p rd (negCode 11))) ∧
    (inPool → deny = true → exec (.tdIssue t p rd rs1 rs2 denied) s = .next (raiseExc s t p .loadAccess)) ∧
    (inPool → deny = false → core = none →
      exec (.tdIssue t p rd rs1 rs2 denied) s = .next (setRd s t p rd (negCode 2))) ∧
    (∀ c, inPool → deny = false → core = some c →
      let q := coreQueue s t kind c
      let code := issueCode (getTile s t) d kind (some c) (countP (fun e => e.record.isNone) q)
      let e : QDesc := { d := d, ticket := ticket, score := p }
      let u := setRd (modSCore (setCoreQueue s t kind c (q ++ [e])) t p
        (fun x => { x with ticket := (ticket + 1) % 2 ^ 31 })) t p rd (BitVec.ofNat 64 ticket)
      (code = 0 → bit (pendingCores (getTile s t) kind) c = false →
        exec (.tdIssue t p rd rs1 rs2 denied) s = .next u) ∧
      (code = 0 → bit (pendingCores (getTile s t) kind) c = true →
        exec (.tdIssue t p rd rs1 rs2 denied) s = .next (abortDescriptor u t kind c e)) ∧
      (code ≠ 0 → exec (.tdIssue t p rd rs1 rs2 denied) s = .next (setRd s t p rd (negCode code))))

/-- For an S-core that runs and a queue number up to 3: td.poll writes rd with the pool address of
the oldest unread record where the queue is enabled and holds one, else with 0; td.pop frees that
record's slot, else does nothing but complete; a queue number above 3 raises illegal instruction for
both. td.abort of a core that has no such descriptor, or of no core of the tile, writes 1; of a
running descriptor it writes 0 and marks it to stop at its next block; of a waiting one it writes 0
and ends it as ABORTED. td.fence passes where the S-core has nothing outstanding and stalls it
otherwise; td_fence_release ends that stall once nothing is outstanding. A machine-mode write of
tdcq restarts the ring at the written base, enabled only inside the pool, and held-back records
follow into an enabled ring; a user-mode write raises illegal instruction. A write of another CSR
sets it where the S-core may write it, and raises illegal instruction where it may not. (R91, R93,
R90, 03_cores.md) -/
def Obligations.XmtdReadsAndWritesItsQueues : Prop :=
  ∀ (t p rd : Nat) (rs1 rs2 : DWord) (s : State), sCoreRuns s t p = true →
    let q := Tab.get {} (getSCore s t p).cq rs1.toNat
    let unread := cqEnabled q && decide (0 < q.count)
    let mine := fun (e : QDesc) => e.ticket = rs1.toNat && e.score = p && e.record.isNone
    let kind := bits rs2.toNat 8 2
    let core := if kind ≤ 1 then physCore (getTile s t) kind (bits rs2.toNat 0 8) else none
    (3 < rs1.toNat → exec (.tdPoll t p rd rs1) s = .next (raiseExc s t p .illegalInstruction)
      ∧ exec (.tdPop t p rs1) s = .next (raiseExc s t p .illegalInstruction)) ∧
    (rs1.toNat ≤ 3 → exec (.tdPoll t p rd rs1) s = .next (setRd s t p rd
      (if unread then BitVec.ofNat 64 (onDieBase + cqBase q + 32 * q.oldest) else 0#64))) ∧
    (rs1.toNat ≤ 3 → unread = false → exec (.tdPop t p rs1) s = .next (clearExc s t p)) ∧
    (rs1.toNat ≤ 3 → unread = true → exec (.tdPop t p rs1) s = .next (modSCore (clearExc s t p) t p (fun c =>
      { c with cq := Tab.put {} c.cq rs1.toNat { q with oldest := (q.oldest + 1) % 256, count := q.count - 1 } }))) ∧
    (core = none → exec (.tdAbort t p rd rs1 rs2) s = .next (setRd s t p rd 1#64)) ∧
    (∀ c, core = some c →
      ((coreQueue s t kind c).find? mine = none → exec (.tdAbort t p rd rs1 rs2) s = .next (setRd s t p rd 1#64)) ∧
      (∀ e, (coreQueue s t kind c).find? mine = some e → e.started = false →
        exec (.tdAbort t p rd rs1 rs2) s = .next (abortDescriptor (setRd s t p rd 0#64) t kind c e)) ∧
      (∀ e, (coreQueue s t kind c).find? mine = some e → e.started = true →
        exec (.tdAbort t p rd rs1 rs2) s = .next (setCoreQueue (setRd s t p rd 0#64) t kind c
          (updFirst mine (fun x => { x with abort := true }) (coreQueue (setRd s t p rd 0#64) t kind c))))) ∧
    (outstanding (clearExc s t p) t p = 0 → exec (.tdFence t p) s = .next (clearExc s t p)) ∧
    (outstanding (clearExc s t p) t p ≠ 0 → exec (.tdFence t p) s = .next (modSCore (clearExc s t p) t p (fun c =>
      { c with stalls := .fence :: c.stalls }))) ∧
    (∀ rest, (getSCore s t p).stalls = .fence :: rest → outstanding s t p = 0 →
      exec (.tdFenceRelease t p) s = .next (modSCore s t p (fun c => { c with stalls := rest }))) ∧
    (∀ k v, k ≤ 3 → (getSCore s t p).user = false →
      let base := v.toNat / 8192 * 8192
      let en := decide (v.toNat % 2 = 1) && decide (base + 8192 ≤ poolBytes)
      let u := modSCore (clearExc s t p) t p (fun c => { c with cq := Tab.put {} c.cq k { csr := BitVec.ofNat 64 (base + b2n en) } })
      exec (.tdcqWrite t p k v) s = .next (if en then writeHeldAll t p k (heldFor u t p k).length u else u)) ∧
    (∀ k v, k ≤ 3 → (getSCore s t p).user = true →
      exec (.tdcqWrite t p k v) s = .next (raiseExc s t p .illegalInstruction)) ∧
    (∀ k v, 3 < k →
      (∀ c, csrWrite (getSCore s t p) k v = some c →
        exec (.tdcqWrite t p k v) s = .next (clearExc (modSCore s t p (fun _ => c)) t p)) ∧
      (csrWrite (getSCore s t p) k v = none → exec (.tdcqWrite t p k v) s = .next (raiseExc s t p .illegalInstruction)))

/-- For an S-core that runs: an invalid sync-object name raises illegal instruction for sy.signal
and sy.wait. sy.signal adds the low word of rs2 to the count, modulo 2^32. sy.wait keeps tdwait in
its CSR; where the count minus the awaited value is below 2^31 modulo 2^32 it writes rd with the
count at once, else the S-core stalls, without limit where tdwait is 0, else for tdwait tile clocks.
The release of a stalled S-core whose count is reached writes rd with the count and ends the stall;
the timeout of one whose count is not reached runs time on to its limit, writes -1 and ends the
stall. (R91, R92, R71, 03_cores.md) -/
def Obligations.SyncInstructionsCountAndWait : Prop :=
  ∀ (t p rd : Nat) (rs1 rs2 tdwait : DWord) (s : State), sCoreRuns s t p = true →
    let w := modSCore s t p (fun c => { c with tdwait := tdwait, exc := none })
    let v : Word := rs2.setWidth 32
    (syncNameOk rs1.toNat = false →
      exec (.sySignal t p rs1 rs2) s = .next (raiseExc s t p .illegalInstruction) ∧
      exec (.syWait t p rd rs1 rs2 tdwait) s = .next (raiseExc s t p .illegalInstruction)) ∧
    (syncNameOk rs1.toNat = true →
      exec (.sySignal t p rs1 rs2) s = .next
        (syncPut (clearExc s t p) t rs1.toNat (syncGet (clearExc s t p) t rs1.toNat + v))) ∧
    (syncNameOk rs1.toNat = true →
      let c := syncGet w t rs1.toNat
      ((c - v).toNat < 2 ^ 31 → exec (.syWait t p rd rs1 rs2 tdwait) s = .next (setRd w t p rd (c.setWidth 64))) ∧
      (2 ^ 31 ≤ (c - v).toNat → tdwait = 0#64 →
        exec (.syWait t p rd rs1 rs2 tdwait) s = .next (modSCore w t p (fun x =>
          { x with stalls := .sync rs1.toNat v rd none :: x.stalls }))) ∧
      (2 ^ 31 ≤ (c - v).toNat → tdwait ≠ 0#64 →
        let limit := w.now + ceilDiv (tdwait.toNat * 1000000) (max 1 (getTile w t).mhz)
        exec (.syWait t p rd rs1 rs2 tdwait) s = .next (modSCore w t p (fun x =>
          { x with stalls := .sync rs1.toNat v rd (some limit) :: x.stalls })))) ∧
    (∀ name value r limit rest, (getSCore s t p).stalls = .sync name value r limit :: rest →
      ((syncGet s t name - value).toNat < 2 ^ 31 → exec (.syWaitRelease t p) s = .next
        (setRd (modSCore s t p (fun x => { x with stalls := rest })) t p r ((syncGet s t name).setWidth 64))) ∧
      (∀ l, limit = some l → 2 ^ 31 ≤ (syncGet s t name - value).toNat → exec (.syWaitTimeout t p) s = .next
        (setRd (modSCore (advanceTo s l) t p (fun x => { x with stalls := rest })) t p r (negCode 1))))

/-- For an S-core that runs and a size of 1, 2, 4 or 8 bytes: an access that PMP denies, outside the
S-core's own ranges, or in a sleeping DRAM die, raises a load or store access fault. Otherwise a
crossing to a DRAM die counts up to two repeats. Where fewer than three crossings fail and no row of
the range is marked bad, a store writes its low bytes little-endian as a raw write; a load without a
disturbance, outside poison mode, writes the register it names with the bytes, sign-extended or
zero-extended. A store that meets a marked row is counted as refused and raises a store access
fault. A replay of a failed check that passes is logged as class 0x22; one that fails is logged as
class 0x23, raises a machine check in machine mode, ends the user's code and counts one confirmed
fault of the S-core. (R90, R94, R111, R119, R140, R513, R145) -/
def Obligations.SCoreLoadsStoresAndCheckReplays : Prop :=
  ∀ (t p addr size rd fails : Nat) (data : DWord) (sx denied : Bool) (flips : List Flip) (s : State), sCoreRuns s t p = true →
    (size = 1 ∨ size = 2 ∨ size = 4 ∨ size = 8) →
    let there := sCoreRange s t addr size && rangeAwake (getTile s t) addr size
    let deny := fun (store : Bool) => denied || pmpDenies (getSCore s t p) addr size store
    let dram := !(diesOf (getTile s t) addr size).isEmpty
    let good := dram = false ∨ (fails < 3 ∧ anyBadRow (bumpN s (0x6300 + t) 5 (min fails 2)) t addr size = false)
    let u := if dram then bumpN s (0x6300 + t) 5 (min fails 2) else s
    let v := leNat (bytesAt u t addr size)
    (deny true = true ∨ there = false →
      exec (.sCoreLoadStore t p true addr size data rd sx denied flips fails) s = .next (raiseExc s t p .storeAccess)) ∧
    (deny false = true ∨ there = false →
      exec (.sCoreLoadStore t p false addr size data rd sx denied flips fails) s = .next (raiseExc s t p .loadAccess)) ∧
    (deny true = false → there = true → good →
      exec (.sCoreLoadStore t p true addr size data rd sx denied flips fails) s = .next
        (clearExc (rawWrite u t addr (leBytes size data.toNat)) t p)) ∧
    (deny true = false → there = true → dram = true → fails < 3 → anyBadRow u t addr size = true →
      exec (.sCoreLoadStore t p true addr size data rd sx denied flips fails) s = .next
        (raiseExc (countRefused u t addr size) t p .storeAccess)) ∧
    (deny false = false → there = true → good → poisonMode u = false →
      exec (.sCoreLoadStore t p false addr size data rd sx denied [] fails) s = .next
        (setLoaded u t p rd size (BitVec.ofNat 64 (if sx then unsigned 64 (signed (8 * size) v) else v)))) ∧
    exec (.sCoreCheckReplay t p true) s = .next (coreReport s 0x22 t 2 p 0 0) ∧
    exec (.sCoreCheckReplay t p false) s = .next (confirmedFault (modSCore (coreReport s 0x23 t 2 p 0 0) t p
      (fun c => { c with exc := some .machineCheck, user := false, userEnded := true })) (.sCore t p))

/-- For the head descriptor of a core of a tile that runs, no record of the core being held back:
where it has not started and its awaited count is not reached, nothing changes; where the count is
reached and an operand lies in a sleeping DRAM die it ends with status 4 and Anchor Used and Cycles
0; where no operand sleeps and the module's tiles are not closed it starts with its anchor, after
the scan for it where it has one (that stops on no block). On a tile that works, of a head that has
started: where an operand sleeps it ends with status 4; where none does, the run of its remaining
output blocks stops nowhere and no abort is asked, it ends DONE with its anchor and clocks. On an
open tile the oldest held-back completion record of an open queue is written. A repeat fetch that
passes marks the block as verified, counts 0x6500:02, logs class 0x08 and charges the unit that fed
the block with a confirmed fault. (R78, R79, R93, R123, R142, R143, R144) -/
def Obligations.DescriptorsStartRunAndEnd : Prop :=
  ∀ (t p : Nat) (kind : CoreKind) (flips : List Flip) (s : State),
    let k := kindNat kind
    (∀ e, tileRuns s t = true → holdsRecord s t k p = false → headOf s t k p = some e → e.started = false →
      let ready := dWaitSync e.d = 0xFFFF ∨ reaches (syncGet s t (dWaitSync e.d)) (BitVec.ofNat 32 (dWaitValue e.d)) = true
      (¬ ready → exec (.descriptorStart t kind p flips) s = .next s) ∧
      (∀ bad, ready → asleepOperand s t false e.d = some bad →
        exec (.descriptorStart t kind p flips) s = .next (endDescriptor s t k p e 4 0 0 bad)) ∧
      (ready → asleepOperand s t false e.d = none → s.fc.closed = false → scans e.d = false →
        exec (.descriptorStart t kind p flips) s = .next (keepDesc s t k p { e with started := true, anchor := anchorOf s t e.d })) ∧
      (∀ r, ready → asleepOperand s t false e.d = none → s.fc.closed = false → scans e.d = true →
        r = takeBlocks t k p false flips (scanBlocks e.d) { s := s, e := e } → r.stop = none →
        exec (.descriptorStart t kind p flips) s = .next (keepDesc r.s t k p { e with started := true, anchor := anchorOf r.s t e.d }))) ∧
    (∀ e res wfail upTo, tileWorks s t = true → headOf s t k p = some e → e.started = true →
      (∀ bad, asleepOperand s t true e.d = some bad →
        exec (.descriptorComplete t kind p flips res wfail upTo) s = .next (endEarly s t k p e 4 bad)) ∧
      (∀ r, asleepOperand s t true e.d = none → e.abort = false →
        r = runBlocks t k p flips res wfail upTo (outBlocks e.d - e.blocksDone) { s := s, e := e } → r.stop = none →
        exec (.descriptorComplete t kind p flips res wfail upTo) s = .next
          (endDescriptor r.s t k p r.e 0 (anchorUsed r.e.d r.e.anchor) (cyclesOf r.s t k p r.e.d r.e.extra) 0xFFFFFFFF))) ∧
    (∀ q c j e r, tileOpen s t = true → cqOpen s t p q = true → oldestHeld (heldFor s t p q) = some (j, c, e) → e.record = some r →
      exec (.completionRecordDeferred t p q) s = .next (signalDone (cqPush
        (setCoreQueue s t j c (dropFirst (fun x => x.ticket = e.ticket && x.score = p) (coreQueue s t j c))) t p q r) t e.d (field r 8 1))) ∧
    (∀ e rest m u data poison, tileWorks s t = true → coreQueue s t k p = e :: rest → e.mismatch = some m →
      fetch s t m.addr m.tid m.blk flips [] = (u, .ok data poison) →
      let v := coreReport (bump (keepDesc u t k p { e with mismatch := none, verified := m.addr :: e.verified }) 0x6500 2)
        0x08 t k p m.blk (blockTag m.tid m.blk)
      exec (.stitchRepeatFetch t kind p flips) s = .next (confirmedFault v (chargedUnit v t k p m.addr)))

/-- For a row whose tile and die take requests and an initiator that the scan of the row's port
chooses among those that are ready there: ROW_READ of an unmarked row without a disturbance, of
whose crossings fewer than three fail, answers its 1,024 bytes to the initiator. ROW_WRITE whose
crossing fails fewer than three times stores the 1,024 bytes, clears the row's mark, stores the
stitch cell that crosses beside it and answers ok. MASKED_ROW_WRITE of an unmarked undisturbed row
stores the named 8-byte words over the row's old bytes; of a marked row it stores nothing, counts
the row and answers the failure to its initiator. A write whose crossing fails three times is
answered as failed. Each notes the initiator as the port's last and counts the crossings that fail,
and a read counts the symbols of pending injections as corrected. (R107, R109, R110, R111, R112,
R118, R148, 04_tile_memory.md) -/
def Obligations.RowPortsReadAndWriteRows : Prop :=
  ∀ (t die row ini mask fails : Nat) (data : List Byte) (cell : Option CellWord) (errs : List Flip) (rivals : List Nat) (s : State),
    rowOpen s t die row = true → portTakes s t (portOf die row) ini rivals = true →
    let k := rowKey t die row
    let a := portAccept s t (portOf die row) ini
    let u := crossing a t die row fails
    let v := rowInjections a t die (rowBytes a t die row)
    let w := rowInjections u t die (rowBytes u t die row)
    (Tab.get false v.badRows k = false → fails < 3 → exec (.rowRead t die row ⟨ini, rivals⟩ [] fails) s = .next
      (portAnswer (crossing v t die row fails) t die row { initiator := ini, data := rowBytes a t die row, bad := false, ok := true })) ∧
    (fails < 3 → exec (.rowWrite t die row ⟨ini, rivals⟩ data cell fails) s = .next
      (portAnswer (putCell (setBadRow { u with mem := wrBytes u.mem (k * 1024) (fit 1024 data) } k false) t die row cell)
        t die row { initiator := ini, data := [], bad := false, ok := true })) ∧
    (3 ≤ fails → exec (.rowWrite t die row ⟨ini, rivals⟩ data cell fails) s = .next (writeFailure u t die row ini) ∧
      exec (.maskedRowWrite t die row ⟨ini, rivals⟩ mask data cell errs fails) s = .next (writeFailure u t die row ini)) ∧
    (Tab.get false u.badRows k = true → fails < 3 →
      exec (.maskedRowWrite t die row ⟨ini, rivals⟩ mask data cell errs fails) s = .next (writeFailure (foundBad u t die row) t die row ini)) ∧
    (Tab.get false u.badRows k = false → fails < 3 →
      let merged := (List.range 1024).map (fun i =>
        if bit mask (i / 8) then (fit 1024 data).getD i 0#8 else (rowBytes w t die row).getD i 0#8)
      exec (.maskedRowWrite t die row ⟨ini, rivals⟩ mask data cell [] fails) s = .next
        (portAnswer (putCell { w with mem := wrBytes w.mem (k * 1024) merged } t die row cell)
          t die row { initiator := ini, data := [], bad := false, ok := true }))

/-- For a die of a tile that is not fused off: of a die that is not off, a refresh due for a bank
with requests waiting is owed while at most 8 are; otherwise one owed refresh is made and the bank's
next refresh row moves on modulo 4,096. Patrol scrub of a die that is neither off nor in
self-refresh, while 0xF000:0A does not stop it, scrubs the row at its position and moves on modulo
2^23, a new pass beginning at 0. An active draining die whose tile runs no descriptor enters
self-refresh. A die in self-refresh, the rails on and its tiles open or waking, leaves it for Active
where no port fails, else for recalibration with the failures counted. Row-rate step 2 or 3 at
throttle moves to the next after 1 ms; a step whose condition no longer holds moves back by one
after 10 ms. (R121, R122, R124, R129, R130, R507) -/
def Obligations.RefreshScrubAndSelfRefreshKeepADie : Prop :=
  ∀ (t die bank : Nat) (due waiting : Bool) (errs : List Flip) (fails : Nat) (s : State), dieBuilt s t die = true →
    let x := getDie s t die
    let owed := Tab.get 0 x.owed bank + b2n due
    (x.state ≠ 0 → bank < 256 → waiting = true → 1 ≤ owed → owed ≤ 8 → exec (.refresh t die bank due waiting) s = .next
      (modDie s t die (fun x => { x with owed := Tab.put 0 x.owed bank owed }))) ∧
    (x.state ≠ 0 → bank < 256 → 1 ≤ owed → (waiting = false ∨ 8 < owed) → exec (.refresh t die bank due waiting) s = .next
      (modDie s t die (fun x => { x with owed := Tab.put 0 x.owed bank (owed - 1),
                                         refreshNext := Tab.mod 0 x.refreshNext bank (fun n => (n + 1) % 4096) }))) ∧
    (x.state ≠ 0 → x.state ≠ 2 → rdE s 0xF000 0xA ≠ 1 →
      let n := (x.scrubPos + 1) % 2 ^ 23
      exec (.patrolScrubRow t die errs) s = .next
        (modDie (scrubRow s 0 t die x.scrubPos errs) t die (fun y => { (if n = 0 then newPass 0 y else y) with scrubPos := n }))) ∧
    (x.state = 1 → x.draining = true → runsDescriptor s t = false → exec (.selfRefreshDrainDone t die) s = .next
      (modDie s t die (fun x => { x with state := 2, draining := false }))) ∧
    (x.state = 2 → s.boot.mainOn = true → (s.fc.closed = false ∨ s.fc.waking = true) →
      exec (.selfRefreshExit t die 0) s = .next (modDie s t die (fun x => { x with state := 1 }))) ∧
    (x.state = 2 → s.boot.mainOn = true → (s.fc.closed = false ∨ s.fc.waking = true) → 0 < fails →
      exec (.selfRefreshExit t die fails) s = .next
        (modDie (bumpN s (0x6300 + t) 5 fails) t die (fun x => { x with state := 3 }))) ∧
    ((getTile s t).rowStep = 2 ∨ (getTile s t).rowStep = 3 → 2 ≤ tileStage s t → exec (.rowRateStepEscalate t) s = .next
      (setRowStep (advanceTo s ((getTile s t).rowStepSince + msPs)) t ((getTile s t).rowStep + 1))) ∧
    ((getTile s t).rowStep ≠ 0 → stepHolds s t (getTile s t).rowStep = false → exec (.rowRateStepUp t) s = .next
      (setRowStep (advanceTo s ((getTile s t).rowCalm + 10 * msPs)) t ((getTile s t).rowStep - 1)))

/-- A granted DEMAND_SCRUB whose operation does not run starts operation 3 over the named tiles with
3 x 2^23 rows a tile as its total, and ends it at once where no tile is named. The end of a demand
scrub scrubs, tile by tile, every reported row of the named tiles, reads the tile's rows already
marked again, starts a new count of corrected rows for its dies, and ends the operation DONE at its
total. A granted FILL whose operation does not run and whose range of 0x6400 is whole rows of one
view starts operation 4 over the named tiles with the range's rows a tile as its total and the
pattern and range of that moment held, and ends it at once where no tile is named; one whose range
is not is refused and changes nothing. The end of a fill fills every row and ends DONE. A granted
CLEAR_CONFIRMED_FAULTS clears the counts of the tile's units that are neither retired nor pending.
(R119, R126, R127, R128, R154, R369, 12_dictionary_reference.md) -/
def Obligations.ScrubFillAndClearCommandsRun : Prop :=
  (∀ (r : VdpReq) (s : State), granted s (atEntry r 0x6400 2) = true → opRunning s 3 = false →
    let n := (namedTiles s (leNat r.data)).length
    let u := startOp s 3 (n * 3 * 2 ^ 23) (leNat r.data)
    exec (.demandScrub r) s = .next (served { s := if n = 0 then endOp u 3 2 0 0 else u } (atEntry r 0x6400 2))) ∧
  (∀ (errs : List RowErr) (s : State), opRunning s 3 = true →
    let tile := fun (u : State) (t : Nat) =>
      let v := errs.foldl (fun v e =>
        if e.tile = t && e.die < 3 && e.row < 2 ^ 23 then scrubRow v 256 t e.die e.row e.errs else v) u
      let w := (markedBeside u t errs).foldl (fun w k => foundBad w t (k / 2 ^ 23 % 4) (k % 2 ^ 23)) v
      (List.range 3).foldl (fun w d => modDie w t d (newPass 256)) w
    let u := (namedTiles s (getOp s 3).arg).foldl tile s
    exec (.demandScrubDone errs) s = .next (endOp u 3 2 0 (getOp u 3).total)) ∧
  (∀ (r : VdpReq) (s : State), granted s (atEntry r 0x6400 6) = true → opRunning s 4 = false →
    (fillRangeOk (rdE s 0x6400 4) (rdE s 0x6400 5) = true →
      let n := (namedTiles s (leNat r.data)).length
      let u := startOp s 4 (n * (rdE s 0x6400 5 / 1024)) (leNat r.data)
      let v := putOp u 4 { getOp u 4 with latched := [rdE s 0x6400 3, rdE s 0x6400 4, rdE s 0x6400 5] }
      exec (.fill r) s = .next (served { s := if n = 0 then endOp v 4 2 0 0 else v } (atEntry r 0x6400 6))) ∧
    (fillRangeOk (rdE s 0x6400 4) (rdE s 0x6400 5) = false →
      exec (.fill r) s = .next (answer s (atEntry r 0x6400 6) (respOf (atEntry r 0x6400 6) stRefused 0 [])))) ∧
  (∀ s : State, opRunning s 4 = true →
    exec .fillDone s = .next (endOp (fillRows s (getOp s 4).total) 4 2 0 (getOp s 4).total)) ∧
  (∀ (t : Nat) (r : VdpReq) (s : State), granted s (atEntry r (instIndex 0x6600 24 t) 6) = true →
    exec (.clearConfirmedFaults t r) s = .next (served { s := clearCounts s t } (atEntry r (instIndex 0x6600 24 t) 6)))

/-- The reset of a tile whose rail is good and whose Seam passed ends with its on-die memory
cleared, its sync objects, S-cores, queues, port answers and mip bit 17 as at reset; it stays in
reset where its retirement is pending or made. For a module that is READY and a unit of an open tile
that no commanded test awaits, the periodic self-test advances to its due time, runs, and the next
is due 600 s later, 10 s for a unit with a confirmed fault; one that a commanded self-test awaits
counts towards that. Between jobs, with a retirement pending in a READY module, renumbering applies
it. A granted 0x8200:01 starts operation 0x0002 over the units of the named tiles. Loss of clock
lock on an open tile logs class 0x1B, counts a confirmed fault of the tile and resets it. (R146,
R149, R27, R395, R515, 05_tensor_blocks.md) -/
def Obligations.TileResetSelfTestAndRenumberingEndAsStated : Prop :=
  (∀ (t : Nat) (x : TileReset) (s : State), (getTile s t).reset = some x → (getTile s t).railLow = false → seamHeld s t = false →
    let u := clearOnDie s t
    exec (.tileResetComplete t) s = .next (modTile u t (fun tl =>
      { tl with sync := [], sCores := [], mQueue := [], vQueue := [], mip17 := false, portResp := [],
                reset := if bit u.pendingTiles t || bit u.retiredTiles t then some x else none }))) ∧
  (∀ (u : UnitId) (passes : Bool) (t0 : Nat) (s : State), s.boot.readyAt = some t0 → unitOpen s u = true →
    (testWanted s u = true → exec (.selfTest u passes) s = .next (commandedTest s u passes)) ∧
    (testWanted s u = false →
      let due := Tab.get 0 (getTile s (unitTile u)).testDue (unitKey u)
      let v := runSelfTest (advanceTo s (if due = 0 then t0 + 600 * secPs else due)) u passes
      exec (.selfTest u passes) s = .next (modTile v (unitTile u) (fun tl =>
        { tl with testDue := Tab.put 0 tl.testDue (unitKey u) (v.now + (if 1 ≤ confCount v u then 10 else 600) * secPs) })))) ∧
  (∀ s : State, noJobs s = true → retirementPending s = true → s.boot.readyAt.isSome = true →
    exec .renumbering s = .next (renumber s)) ∧
  (∀ (r : VdpReq) (s : State), granted s (atEntry r 0x8200 1) = true → opRunning s 2 = false → leNat r.data < 2 ^ 24 →
    exec (.startSelfTest r) s = .next (served
      { s := endTests { startOp s 2 (maskUnits s (leNat r.data)).length (leNat r.data) with tested := [] } } (atEntry r 0x8200 1))) ∧
  (∀ (t : Nat) (s : State), tileOpen s t = true →
    exec (.clockLockLoss t) s = .next (tileReset (confirmedFault (tileReport s 0x1B t 0 0) (.tile t)) t 3 0))

/-- At a live station, from a lane that holds lock and with no injection pending there: on a circuit
port that is up, a data codeword with 7 to 9 symbol errors is uncorrectable and its SEQ joins the
SEQs to name in the next Nak List; one without errors whose SEQ is not old leaves that list, enters
the reorder buffer, and everything in order is delivered; in both cases the lane's window counts it,
a lane that the window fails is taken out, and what the port has to tell its far end goes out. A
codeword of another station's mesh bus with up to 9 symbol errors counts as corrected where it has 1
to 6, and the bus's lane window counts it. A lane-control codeword without errors on an up port
counts in its lane's window, drops the acknowledged codewords, marks those named in its Nak List,
takes the credits, drops codewords named after eight sends, fails the lanes its Line Map lacks and
sends what waits. A codeword named in a Nak List is sent again at least 150 ns after its last send
and in its lane's next free place, and counted. (R157, R160, R161, R162, R173, 06_basusk_layer.md)
-/
def Obligations.CodewordsAreDeliveredAcknowledgedAndResent : Prop :=
  ∀ (st port line seq : Nat) (data : List Byte) (s : State), st ≤ 28 →
    let key := portKey st port
    let p := getPort s key
    let sq := seq % 1024
    (∀ errs, stationLive s st = true → port < 16 → port < portCount st → p.up = true → line ≤ 16 →
      pendingAt s 5 st line = [] → 7 ≤ errs → errs ≤ 9 →
      let u := useInjections s 5 st line
      let v := modPort u key (fun p => { p with naks := if p.naks.contains sq then p.naks else p.naks ++ [sq] })
      exec (.codewordReceive st port line seq data errs true) s = .next (tell st port 64 (portWindow' v st port line true))) ∧
    (stationLive s st = true → port < 16 → port < portCount st → p.up = true → line ≤ 16 → pendingAt s 5 st line = [] →
      (sq + 1024 - p.rxNext) % 1024 < 512 →
      let u := noteCorrected (useInjections s 5 st line) st port line 0
      let v := deliverInOrder st port 512 (modPort u key (fun p =>
        { p with naks := p.naks.filter (· ≠ sq), reorder := Tab.insert (Tab.erase p.reorder sq) sq (fit 320 data) }))
      exec (.codewordReceive st port line seq data 0 true) s = .next (tell st port 64 (portWindow' v st port line false))) ∧
    (∀ src errs, stationLive s st = true → src ≤ 28 → src ≠ st → line ≤ 16 → errs ≤ 9 →
      let u := if 1 ≤ errs && decide (errs ≤ 6) then bump s (0x4300 + st) 2 else s
      exec (.codewordReceive st (16 + src) line seq data errs true) s = .next (meshWindow u st src line (decide (7 ≤ errs)))) ∧
    (∀ a naks credits lineMap, port < portCount st → p.up = true →
      let w := noteCorrected (portWindow' s st port line false) st port line 0
      let q := getPort w key
      let kept := q.retry.filter (fun (c : TxCw) => 512 ≤ (a % 1024 + 1024 - c.seq) % 1024)
      let dead := (kept.filter (fun (c : TxCw) => naks.contains c.seq && 8 ≤ c.sends)).map (·.seq)
      let retry := kept.map (fun (c : TxCw) => if naks.contains c.seq then { c with nak := true } else c)
      let freed := [0, 1, 2, 3].foldl (fun t c => Tab.put 0 t c (credits.getD c (Tab.get 0 q.freed c) % 65536)) q.freed
      let u := modPort w key (fun q => { q with retry := retry, freed := freed })
      let v := dead.foldl (fun s q => dropCodeword s st port q) u
      let lost := linesWithout (getPort v key).inUse lineMap
      let x := (List.range 17).foldl (fun s l => if bit lost l then failCircuitLane s st port l else s) v
      exec (.laneControlCodeword st port line (some a) naks credits lineMap 0) s = .next
        (tell st port 64 (pump (if lost = 0 then x else reagree x key (2 ^ line)) st port))) ∧
    (∀ c, p.up = true → p.retry.find? (·.nak) = some c →
      let u := advanceTo s (c.last + 150000)
      let when := max u.now (laneTime p (dataPlace u p).1)
      let sent : TxCw → TxCw := fun x => { x with sends := x.sends + 1, last := when, nak := false }
      exec (.codewordResend st port) s = .next (placeCodeword (bump
        (modPort u key (fun q => { q with retry := updFirst (fun x => x.seq = c.seq) sent q.retry })) (0x4300 + st) 3)
        st port c.seq c.data))

/-- A mesh slot transmits at every station by the grants made in the slot before, grants the
requests of that slot, posts new requests and counts the slot modulo 1,024. With no injection
pending there, a receiver's acknowledgement of a slot that waits for it frees the slot there and
delivers it in order; a rejection after fewer than eight sends marks the slot to be sent again, one
after eight drops it there. A live station's router, its replicator settled, takes the first packet
that reached it and can be taken, else the first copy from a link that its replicator can take, else
lets the first of its waiting packets that can go, by tier and class, leave; a packet whose route
ends there and that asks no response is handed over. The shaper of a flow, once its bucket holds the
first waiting packet's cost, takes it from the bucket, counts an overrun where it came too late, and
sends it by the flow's Leg where its way is free. (R164, R166, R167, R168, R183, R256, R257, R316,
R317, R332) -/
def Obligations.MeshSlotsAndPacketsMove : Prop :=
  (∀ s : State,
    let u := (List.range 29).foldl (transmit s.bas.grants) s
    let v := grantAll u (u.bas.slot + 1) u.bas.requests
    exec .meshSlot s = .next { v.1 with bas := { v.1.bas with
      grants := v.2, slot := (u.bas.slot + 1) % 1024
      requests := (List.range 29).flatMap (fun st => if stationLive v.1 st then postRequests (getStation v.1 st) st else []) } }) ∧
  (∀ (src seq dst : Nat) (m : MeshSlot) (s : State), pendingAt s 8 src 0 = [] →
    (getStation s src).unacked.find? (fun u => u.seq = seq && u.waitAck.contains dst) = some m →
    let i := useInjections s 8 src 0
    let heard := fun (y : MeshSlot) => { y with waitAck := y.waitAck.filter (· ≠ dst), rejected := y.rejected.filter (· ≠ dst) }
    let settle := fun (u : State) => modStation u src (fun x =>
      { x with unacked := (updFirst (fun y => y.seq = seq) heard x.unacked).filter (fun y => !y.waitAck.isEmpty) })
    let refused := fun (y : MeshSlot) => { y with rejected := if y.rejected.contains dst then y.rejected else y.rejected ++ [dst] }
    (let u := settle i
     exec (.meshSlotAck src seq dst true) s = .next (deliverSlots dst src 1024 { u with bas := { u.bas with rx := u.bas.rx.map (fun e =>
        if e.dst = dst && e.src = src && e.seq = seq then { e with ok := true } else e) } })) ∧
    (8 ≤ m.sends → exec (.meshSlotAck src seq dst false) s = .next (deliverSlots dst src 1024 (settle (dropSlot i src seq dst)))) ∧
    (m.sends < 8 → exec (.meshSlotAck src seq dst false) s = .next (modStation i src (fun x =>
      { x with unacked := updFirst (fun y => y.seq = seq) refused x.unacked })))) ∧
  (∀ (st crossing : Nat) (space : Bool) (s : State), st ≤ 28 → stationLive s st = true →
    let u := settleReplicator s st
    let arrived := takeFirst u st space [] (Tab.get [] u.bas.inbox st)
    let copy := copyFirst u st [] (Tab.get [] u.bas.copies st)
    (∀ v, arrived = some v → exec (.packetSend st crossing space) s = .next v) ∧
    (∀ v, arrived = none → copy = some v → exec (.packetSend st crossing space) s = .next v) ∧
    (∀ v, arrived = none → copy = none →
      releaseFirst u st crossing space (byRank u (Tab.get [] u.fab.routers st)) = some v →
      exec (.packetSend st crossing space) s = .next v) ∧
    (∀ x l p, Tab.get [] u.bas.inbox st = x :: l → parsePkt x.data = some p → (classOf p).isSome = true → x.via ≠ 32 →
      p.mcast = false → p.hops ≤ p.next → causesReply p = false →
      exec (.packetSend st crossing space) s = .next
        (takeIn (emit { u with bas := { u.bas with inbox := Tab.put [] u.bas.inbox st l } } (.arrived st p)) st x))) ∧
  (∀ (slot crossing : Nat) (space : Bool) (n : Nat) (f : List Byte) (x : Shaper) (p : Pkt) (l : List Pkt) (s : State),
    s.adm.flows.find? (fun e => e.1 = slot) = some (n, f) → Tab.get none s.adm.shapers slot = some x → x.queue = p :: l →
    let u := advanceTo s (s.now + ceilDiv (pktCost p - (shaperNow s slot f).tokens) (max 1 (fRate f)))
    let y := shaperNow u slot f
    let v := countOverrun (putShaper u slot { y with tokens := y.tokens - pktCost p, queue := l }) slot f
      ((epoch u - p.stamp) * countPs + crossing)
    let st := if fEntry f < 16384 then (stationOf u (fEntry f % 32)).getD 28 else linkStation u (fEntry f % 1024 / 16)
    let w := depart v st (legOf f) p space
    exec (.shaperRelease slot crossing space) s = .next (if w.2 then w.1 else u))

/-- A granted write of a plan body of at most 808 bytes stores it and leaves the plan EMPTY, and
aborts a load of it. A granted LOAD_PLAN starts operation 0x0005 with the plan LOADING; its end
leaves the plan READY with code 0, else REJECTED with the code and pair index of the first rule that
fails. A granted SWITCH_REQUEST is answered with the switch controller's code, the switch being
posted for code 0. Before the earliest pending front its changing ports start no new packet. With no
line of the module in a laser gap, a training port whose far end is ready takes the lanes that
failed to relock out, reports and counts them; while that leaves four data lanes it agrees the set
of lines with its far end, counts the switch's time, and comes up with empty buffers and that set,
else it stays down and is reported. A granted record of port roles is stored and the roles of the
module are settled. (R175, R176, R178, R180, R181, R189, R391, R348) -/
def Obligations.PlansLoadAndSwitchAtTheirFronts : Prop :=
  (∀ (p : Nat) (r : VdpReq) (s : State), granted s (atEntry r (instIndex 0x7400 256 p) 1) = true → r.data.length ≤ 808 →
    let u := setPlanState (wrB s (0x7400 + p) 1 r.data) p 0
    exec (.planBodyWrite p r) s = .next (served
      { s := if opRunning u 5 && (getOp u 5).arg = p then endOp u 5 4 0 (getOp u 5).position else u }
      (atEntry r (instIndex 0x7400 256 p) 1))) ∧
  (∀ (r : VdpReq) (s : State), granted s (atEntry r 0x7300 3) = true → opRunning s 5 = false →
    exec (.loadPlan r) s = .next (served
      { s := setPlanState (startOp s 5 (pairCount (planBody s (leNat r.data % 256))) (leNat r.data % 256)) (leNat r.data % 256) 1 }
      (atEntry r 0x7300 3))) ∧
  (∀ s : State, opRunning s 5 = true →
    let p := (getOp s 5).arg
    let c := planCheck s (planBody s p)
    let u := wrE s (0x7400 + p) 3 (c.1 * 2 ^ 24 + c.2)
    (c.1 = 0 → exec .planLoadDone s = .next (endOp (setPlanState u p 2) 5 2 0 (getOp u 5).total)) ∧
    (c.1 ≠ 0 → exec .planLoadDone s = .next (endOp (setPlanState u p 3) 5 3 c.1 c.2))) ∧
  (∀ (r : VdpReq) (s : State), granted s (atEntry r 0x7300 2) = true →
    exec (.switchRequest r) s = .next (served
      { s := (requestSwitch s (leNat r.data)).1, data := leBytes 8 (requestSwitch s (leNat r.data)).2 } (atEntry r 0x7300 2))) ∧
  (∀ (w : Switch) (s : State), nextSwitch s = some w →
    let u := advanceTo s (s.now + (w.front - epoch s - 125) * countPs)
    exec .planSwitchDrain s = .next ((changingPorts u (planFars u w.dark w.plan)).foldl
      (fun s k => modPort s k (fun p => { p with draining := true })) u)) ∧
  (∀ (st port ns failedLanes farLanes : Nat) (s : State), st ≤ 28 → port < portCount st → gapLines s = 0 →
    farReady s (portKey st port) = true → (getPort s (portKey st port)).training = true →
    let key := portKey st port
    let p := getPort s key
    let other := match p.far with | some f => getPort s f | none => {}
    let new := linesWithout (failedLanes % 2 ^ 17) p.failed
    let i := linesWithout (linesWithout (linesWithout (linesWithout (usableLines s) p.failed) other.failed) failedLanes) farLanes
    let u := modPort s key (fun p => { p with failed := maskOf (fun l => bit p.failed l || bit failedLanes l) 17 })
    let v := if new = 0 then u else portReport u 0x30 st port new
    let w := if new ≠ 0 && popBelow new 17 = 1 && dataLanes i = 16 then
      wrE v (0x4300 + st) 5 ((rdE v (0x4300 + st) 5 + 1) % 2 ^ 32) else v
    let x := agreeLines (switchTimed w key ns) key i
    (4 ≤ dataLanes i → exec (.planSwitchFirstData st port ns failedLanes farLanes) s = .next (tell st port 64 (pump (modPort x key (fun p =>
      { p with up := true, training := false, draining := false, inUse := i, txSeq := 0, retry := [], sent := [], freed := [],
               rxNext := 0, reorder := [], naks := [], rxFreed := [], rxHeld := [], asm := [], switching := false, delayed := false,
               trainedAt := x.now, txPos := [], ctlPos := [], corr := [], told := [], heard := false })) st port))) ∧
    (dataLanes i < 4 → exec (.planSwitchFirstData st port ns failedLanes farLanes) s = .next (stayDown w key new))) ∧
  (∀ (x : Nat) (r : VdpReq) (s : State), granted s (atEntry r (instIndex 0x4600 28 x) 1) = true → rolesOk x r.data = true →
    exec (.portRolesWrite x r) s = .next (served { s := settleRoles (wrB s (0x4600 + x) 1 r.data) }
      (atEntry r (instIndex 0x4600 28 x) 1)))

/-- A granted write of a schedule body of at most 66,624 bytes stores it, leaves the slot EMPTY and
aborts a load of it. A granted LOAD_SCHEDULE starts operation 0x0006; its end leaves the slot READY,
or REJECTED with code and index of the first failing rule. With its flow, no run in progress and
Start Sync reached, the next run of a READY slot starts at the present count, the switches of its
OFFSET phases are posted, and that of the first phase in NEXT mode unless it still scans; a run of a
REJECTED slot ends at once with status 12. A phase that has not begun begins once its plan is in
force and its front has come; until then its switch is posted where it still must be. A phase whose
sending steps have sent everything completes, and the switch of the next is posted. A run past its
last phase with every block delivered and no repeat ends with its status. A timeout runs time on to
the run's limit and ends it with status 6. (R198, R204, R206, R208, R210, R212, R224,
07_collectives.md) -/
def Obligations.SchedulesLoadAndRunsStart : Prop :=
  (∀ (i : Nat) (r : VdpReq) (s : State), granted s (atEntry r (instIndex 0x7600 64 i) 1) = true → r.data.length ≤ 66624 →
    let u := setSchState (wrB s (0x7600 + i) 1 r.data) i 0
    exec (.scheduleBodyWrite i r) s = .next (served
      { s := if opRunning u 6 && (getOp u 6).arg = i then endOp u 6 4 0 (getOp u 6).position else u }
      (atEntry r (instIndex 0x7600 64 i) 1))) ∧
  (∀ (r : VdpReq) (s : State), granted s (atEntry r 0x7500 0xA) = true → leNat r.data < 64 → opRunning s 6 = false →
    exec (.loadSchedule r) s = .next (served
      { s := setSchState (startOp s 6 (hSteps (schBody s (leNat r.data))) (leNat r.data)) (leNat r.data) 1 } (atEntry r 0x7500 0xA))) ∧
  (∀ s : State, opRunning s 6 = true →
    let i := (getOp s 6).arg
    let c := schCheck s (schBody s i)
    let u := wrE s (0x7600 + i) 3 (c.1 * 2 ^ 24 + c.2)
    (c.1 = 0 → exec .scheduleLoadDone s = .next (endOp (setSchState u i 2) 6 2 0 (getOp u 6).total)) ∧
    (c.1 ≠ 0 → exec .scheduleLoadDone s = .next (endOp (setSchState u i 3) 6 3 c.1 (if c.2 < 65536 then c.2 else 0)))) ∧
  (∀ (slot : Nat) (s : State), slot < 64 → (scheduleFlow s slot).isSome = true → getRun s slot = none →
    let b := schBody s slot
    let n := rdE s (0x7600 + slot) 4
    startReached s b n = true →
    let r : CRun := { run := n, start := epoch s, startPs := s.now, exponents := hStats b,
                      scanning := if hStats b then contributors s b else [], anchor := if hStats b then 0 else hAnchor b }
    (schState s slot = 3 → exec (.runStart slot) s = .next (finishRun (putRun s slot (some r)) slot 12)) ∧
    (schState s slot = 2 →
      let u := putRun (setSchState s slot 4) slot (some r)
      let v := ((List.range (hPhases b)).filter (fun j => (phaseAt b j).offsetMode)).foldl
        (fun v j => postOffset v slot (epoch u / 4096 * 4096) j (offsetUsed v slot j)) u
      let w := settleStage v slot
      exec (.runStart slot) s = .next (if ((getRun w slot).map (·.exponents)).getD true then w else postNext w slot))) ∧
  (∀ (slot : Nat) (r : CRun) (s : State), getRun s slot = some r →
    let b := schBody s slot
    (r.begun = false → r.exponents = false → r.phase < hPhases b → inForce s (phaseAt b r.phase) = true →
      Tab.get 0 r.posted r.phase - 1 ≤ epoch s →
      exec (.phaseBegin slot) s = .next (pumpForward (modRun s slot (fun r => { r with begun := true })) slot)) ∧
    (r.begun = false → r.exponents = false → r.phase < hPhases b →
      (inForce s (phaseAt b r.phase) = false ∨ epoch s < Tab.get 0 r.posted r.phase - 1) →
      exec (.phaseBegin slot) s = .next (postNext s slot)) ∧
    (r.begun = true → phaseSent b r = true →
      exec (.phaseComplete slot) s = .next (postNext (modRun s slot (fun r => { r with phase := r.phase + 1, begun := false })) slot)) ∧
    (hPhases b ≤ r.phase → allDelivered b r = true → repeating r = false →
      exec (.runEnd slot) s = .next (finishRun s slot r.status)) ∧
    exec (.runTimeout slot) s = .next (failRun (advanceTo s (r.startPs + hTimeout b * usPs)) slot 6))

/-- A CONTRIBUTE step of a tile that takes part, whose phase is open, whose grant covers its next
block and whose anchor is known sends that block and counts it. A tile that takes part and has
scanned its contributions, every block of them read well, sends their exponent by each of its
CONTRIBUTE steps and leaves the scan; a block that does not read well ends the scan as that read
does. At an open tile with the run's node: an EXPONENT of a slot below the fan-in not yet heard is
noted; the last one at the root sets the node's anchor and sends it to its sources, the last one at
another node goes on by its FORWARD steps. The first PARTIAL of a block of the node, in range and
window and with its stitch, is held as the block under way and answered with a grant where its slot
sends its first block, and is emitted at once where the fan-in is 1. A GRANT raises the sender's
grant of the steps that feed it and forwarding goes on. A RESULT is taken by every DELIVER step of
the tile that has not finished the block; of one such step, a summing schedule's RESULT whose stitch
and both digests match passes. Under STATS an ANCHOR is taken by every step that feeds its sender. A
REFETCH of a block that the root has and reads well is answered with it; a RESEND of a block makes
the steps that feed its sender send it again, and one to the root of a block that it has is answered
with it. (R202, R203, R207, R209, R212, R219, R220, R221, R247) -/
def Obligations.CollectiveBlocksAreSentCombinedAndDelivered : Prop :=
  (∀ (slot m : Nat) (first again : List Flip) (r : CRun) (s : State), getRun s slot = some r →
    let b := schBody s slot
    let x := stepAt b m
    let i := Tab.get 0 r.sent m
    m < hSteps b → x.kind = 1 → (physTile s x.tile).any (engineIn s r) = true → phaseOpen r x = true → i < x.count →
    mayRun s b r m x i = true → (stepAnchor b r m).isSome = true →
    exec (.contributeSend slot m first again) s = .next
      (modRun (contributeBlock s slot m x (x.first + i) none first again) slot (fun r => { r with sent := Tab.put 0 r.sent m (i + 1) }))) ∧
  (∀ (slot t : Nat) (r : CRun) (s u : State), getRun s slot = some r → r.exponents = true → r.scanning.contains t = true →
    engineIn s r t = true →
    let b := schBody s slot
    let mine := (stepsOfKind b 1).filter (fun e => physTile s e.2.tile = some t)
    let scan := (mine.map (·.2)).foldl (scanStep slot t) (s, some [])
    (scan = (u, none) → exec (.exponentScanDone slot t) s = .next u) ∧
    (∀ vals, scan = (u, some vals) →
      let e : Int := (maxTop vals).getD (-32768)
      let v := modRun u slot (fun r => { r with scanning := r.scanning.filter (· ≠ t) })
      exec (.exponentScanDone slot t) s = .next (settleStage
        (mine.foldl (fun s x => stepSend s slot t b x.2 (plainBody s slot r (targetOf s b x.2) x.2.slot 0 0 e)) v) slot))) ∧
  (∀ (t slot : Nat) (p : Pkt) (r : CRun) (x : Step) (s : State), closedStatus s t = 0 → nodeAt s t p = some (slot, r, x) →
    let n := getNode r x.node
    let es := n.exps ++ [(rSlot p, rAnchor p)]
    let u := modNode s slot x.node (fun n => { n with exps := n.exps ++ [(rSlot p, rAnchor p)], srcs := addSource n.srcs p })
    let b := schBody u slot
    let e := es.foldl (fun m y => max m y.2) (-32768)
    rSlot p < x.fanIn → n.exps.any (fun e => e.1 = rSlot p) = false →
    (es.length < x.fanIn → exec (.exponent t p) s = .next u) ∧
    (x.fanIn ≤ es.length → x.root = true →
      let a := if e = -32768 then 0 else clampAnchor (e + (hHead b : Int) - 61)
      exec (.exponent t p) s = .next (settleStage (sendAnchor (anchorNode u slot x.node a) slot t x.node a) slot)) ∧
    (x.fanIn ≤ es.length → x.root = false →
      exec (.exponent t p) s = .next (((stepsOfKind b 3).filter (fun y => y.2.node = x.node)).foldl
        (fun s y => stepSend s slot t b y.2 (plainBody s slot r (targetOf s b y.2) y.2.slot 0 0 e)) u))) ∧
  (∀ (t slot : Nat) (p : Pkt) (r : CRun) (s : State), closedStatus s t = 0 → runOf s (rTag p) (rRun p) = some (slot, r) →
    let fs := feeders s r (schBody s slot) t p
    fs ≠ [] → hStats (schBody s slot) = true →
    exec (.anchor t p) s = .next (settleStage (fs.foldl (fun s e => takeAnchor s slot t e (rAnchor p)) s) slot)) ∧
  (∀ (t slot dual : Nat) (p : Pkt) (err : Option (Nat × DWord)) (r : CRun) (x : Step) (s : State),
    closedStatus s t = 0 → nodeAt s t p = some (slot, r, x) →
    let n := { getNode r x.node with low := max (getNode r x.node).low x.first, granted := max (getNode r x.node).granted x.first }
    let blk := rBlock p
    let w := rBlk p
    let fresh := !n.seen.contains (rSlot p)
    rSlot p < x.fanIn → inRange x blk = true → Tab.get none n.parts blk = none → (blockDone n blk && !n.checked.contains blk) = false →
    blk < n.low + 512 → stitchOf w.data (hTidWire (schBody s slot) r.run) blk = rStitch p →
    n.again.find? (fun e => e.1 = rSlot p && e.2.1 = blk) = none →
    let u := modNode s slot x.node (fun _ =>
      { n with again := n.again.filter (fun e => !(e.1 = rSlot p && e.2.1 = blk)), srcs := addSource n.srcs p,
               seen := if fresh then n.seen ++ [rSlot p] else n.seen,
               parts := Tab.put none n.parts blk (some { slots := [rSlot p], blk := w }) })
    let v := if fresh then replySend u slot t (p.srcNode, p.srcStation) (plainBody u slot r x.node (rSlot p) 4 (n.low + 511) 0) else u
    exec (.partialBlock t p dual err) s = .next (if 1 < x.fanIn then v else emitBlock v slot t x blk (rAnchor p) w)) ∧
  (∀ (t slot : Nat) (p : Pkt) (r : CRun) (s : State), closedStatus s t = 0 → runOf s (rTag p) (rRun p) = some (slot, r) →
    let fs := feeders s r (schBody s slot) t p
    let who := p.srcNode * 32 + p.srcStation
    let best := fun (r : CRun) (m : Nat) => ((Tab.get [] r.grants m).filter (fun g => g.1 = who)).foldl (fun m g => max m g.2) (rBlock p)
    let raised := fun (r : CRun) (m : Nat) => (Tab.get [] r.grants m).filter (fun g => g.1 ≠ who) ++ [(who, best r m)]
    fs ≠ [] → exec (.grant t p) s = .next (pumpForward (fs.foldl (fun s e => modRun s slot (fun r =>
      { r with grants := Tab.put [] r.grants e.1 (raised r e.1) })) s) slot)) ∧
  (∀ (t slot : Nat) (p : Pkt) (r : CRun) (s : State), closedStatus s t = 0 → runOf s (rTag p) (rRun p) = some (slot, r) →
    let b := schBody s slot
    let blk := rBlock p
    let w := rBlk p
    let tid := hTidWire b r.run
    let hits := (stepsOfKind b 4).filter (fun e => e.2.node = rNode p && physTile s e.2.tile = some t && !r.lost.contains t
      && inRange e.2 blk && decide ((getDeliv r e.1 blk).state < 4))
    (hits ≠ [] → exec (.result t p) s = .next (hits.foldl (takeDeliver slot t p) s)) ∧
    (∀ m x, hits = [(m, x)] → getRun s slot = some r → (getDeliv r m blk).bad = none →
      stitchOf w.data tid blk = rStitch p → hOp b = 0 → w.poison = false → (wordsOf w.data).contains narCode = false →
      let u := bump (putDeliv s slot m blk { getDeliv r m blk with bad := none }) 0x7500 2
      digest 0 (scheduleSeed u slot) (blockTag tid blk) (wordsOf w.data) = w.d0 →
      digest 1 (scheduleSeed u slot) (blockTag tid blk) (wordsOf w.data) = w.d1 →
      exec (.result t p) s = .next (passResult u slot m t x blk (rAnchor p) w (decide (2 ≤ (getDeliv r m blk).state))))) ∧
  (∀ (t slot : Nat) (p : Pkt) (r : CRun) (x : Step) (w : WireBlk) (a : Int) (s u : State), closedStatus s t = 0 →
    nodeAt s t p = some (slot, r, x) → x.root = true → inRange x (rBlock p) = true → blockDone (getNode r x.node) (rBlock p) = true →
    let answered := replySend u slot t (p.srcNode, p.srcStation) (wireBody u slot r x.node 0xFF 3 (rBlock p) a w)
    (nodeOut s slot t r x (rBlock p) [] [] = (u, some (w, a)) → exec (.refetch t p) s = .next answered) ∧
    (∀ first again, rSlot p = 0xFF → ofRepeat p = false → nodeOut s slot t r x (rBlock p) first again = (u, some (w, a)) →
      exec (.resend t p first again) s = .next answered)) ∧
  (∀ (t slot : Nat) (p : Pkt) (first again : List Flip) (r : CRun) (s : State), closedStatus s t = 0 →
    runOf s (rTag p) (rRun p) = some (slot, r) →
    let fs := (feeders s r (schBody s slot) t p).filter (fun e => inRange e.2 (rBlock p))
    rSlot p ≠ 0xFF → fs ≠ [] →
    exec (.resend t p first again) s = .next (fs.foldl (resendStep slot t p first again) s))

/-- On a lane group that is UP, with no injection pending on the line: a frame is decoded, its
corrected symbols and its line's loss window counted, and where the group is still UP, a frame that
is lost or whose check is wrong is counted and its FSEQ joins those to name as lost; of a good one
that is no training frame the piggyback is applied, and a good data frame whose FSEQ is not old
leaves that list (to which the FSEQs it skips are added), enters the reorder buffer, and everything
in FSEQ order is delivered. A good control frame on a lit group that is not DOWN refreshes what is
known of the far end, which is checked; the group goes DOWN where no data line is left; then it
acknowledges, marks the frames its Nak List names, sets the cumulative credits, drops named frames
after eight sends, and takes the epoch sample and the piggyback. A frame waiting for its resend is
sent again after its round trip plus 1 microsecond (at once where named lost) and not before the gap
of its send count, on a line of another laser group where one is left, and counted; after eight
sends it is dropped and what waits goes on. (R231, R233, R234, R235, R237, R238, R241, R244,
08_hem_links.md) -/
def Obligations.FramesAreTakenNakkedAndResent : Prop :=
  ∀ (link line g : Nat) (s : State), link < 64 → line ≤ 16 → lineOwner s link line = g →
    (∀ seq frame errs, (getGroup s link g).state = 2 → pendingAt s 6 link line = [] →
      let v := frameDecode errs s.free
      let u := useInjections s 6 link line
      let f := decodedFrame frame v u.free
      let c := if v = 1 then u else noteSymbols u link g line (countedErrs u v errs 16)
      let n := if 15 < errs then nextFree c else c
      let w := frameWindow n link g line (!frameGood f v)
      (getGroup w link g).state = 2 →
      (frameGood f v = false → exec (.hemFrameReceive link line seq frame errs) s = .next
        (tellGroup link g 64 (modGroup (bump w (0x4400 + link) 8) link g (fun x => { x with
          naks := if x.naks.contains (seq % 4096) then x.naks else x.naks ++ [seq % 4096]
          lost := x.lost.filter (fun t => (bump w (0x4400 + link) 8).now < t + secPs) ++ [(bump w (0x4400 + link) 8).now] })))) ∧
      (frameGood f v = true →
        let x := if frameType f = 3 then w else piggyback w link g (field f 2562 4)
        let q := field f 0 2 % 4096
        (frameType f ≠ 1 → exec (.hemFrameReceive link line seq frame errs) s = .next (tellGroup link g 64 x)) ∧
        (frameType f = 1 → 2048 ≤ (q + 4096 - (getGroup x link g).rxNext) % 4096 →
          exec (.hemFrameReceive link line seq frame errs) s = .next (tellGroup link g 64 x)) ∧
        (frameType f = 1 → (q + 4096 - (getGroup x link g).rxNext) % 4096 < 2048 →
          exec (.hemFrameReceive link line seq frame errs) s = .next (tellGroup link g 64 (deliverFrames link g 2048
            (modGroup x link g (fun x => { x with
              naks := (x.naks ++ skipped x q).filter (· ≠ q)
              reorder := Tab.insert (Tab.erase x.reorder q) q (slice f 2 2560) }))))))) ∧
    (∀ f errs, (getGroup s link g).state ≠ 0 → (getGroup s link g).dark = false → pendingAt s 6 link line = [] → errs ≤ 15 →
      let n := noteSymbols (useInjections s 6 link line) link g line errs
      let w := if (getGroup s link g).state = 2 then frameWindow n link g line false else n
      frameGood f 0 = true → frameType f = 2 → (getGroup w link g).state ≠ 0 →
      let i := downWithoutLanes (checkIdentity (modGroup w link g (fun x => takeIdentity x f)) link g (getGroup s link g)) link g
      let a := if field f 4 2 / 32768 = 1 then hemAck i link g (field f 4 2 % 4096) else i
      let named := ((List.range 8).map (fun i => field f (6 + 2 * i) 2)).filter (fun v => bit v 15) |>.map (· % 4096)
      let dead := ((getGroup a link g).retry.filter (fun y => named.contains y.seq && 8 ≤ y.sends)).map (·.seq)
      let m := modGroup a link g (fun x => { x with
        retry := x.retry.map (fun (y : TxFrame) => if named.contains y.seq then { y with nak := true } else y)
        freed := (List.range 16).foldl (fun t k => Tab.put 0 t k (field f (22 + 2 * k) 2)) x.freed })
      exec (.hemControlFrame link line f errs) s = .next (tellGroup link g 64 (piggyback
        (offsetStamp (dead.foldl (fun s q => dropFrame s link g q) m) link g (field f 60 8)) link g (field f 2562 4)))) ∧
    (∀ f, (getGroup s link g).state = 2 → frameLines s link g ≠ [] →
      firstDue (getGroup s link g) (getGroup s link g).retry = some f →
      let x := getGroup s link g
      let wait := if f.nak then 0 else 2 * x.latency * 1000 + usPs
      let u := advanceTo s (f.last + max wait (resendGap f.sends))
      (8 ≤ f.sends → exec (.hemFrameResend link g) s = .next (hemPumpAll (dropFrame u link g f.seq) link g)) ∧
      (f.sends < 8 →
        let lines := frameLines u link g
        let line := (lines.find? (fun l => lineGroup l ≠ lineGroup f.line)).getD (lines.headD f.line)
        let when := frameTime x (dataFramePos u x line)
        let again : TxFrame → TxFrame := fun y => { y with sends := y.sends + 1, last := when, line := line, nak := false }
        let v := modGroup u link g (fun x => { x with
          retry := updFirst (fun y => y.seq = f.seq) again x.retry, resent := x.resent + 1 })
        exec (.hemFrameResend link g) s = .next (placeFrame (bump v (0x4400 + link) 9) link g line f.seq f.data)))

/-- On a link below 64 whose port is attached: a lane that has not failed is marked failed and
reported, and its group, unless quarantined, goes DOWN with its packets failed where no data line is
left. Training starts in a group that is DOWN, or quarantined and dark: the group is in TRAINING
since now, a first training frame leaves on each usable line of its own, the receiver settings
measured are applied, and the receivers whose calibration failed are marked and reported. The end of
training in a group whose far end is known and agrees in split code and group sets the measured
latency; with a data line left a group in TRAINING is UP with its counts at 0 and its buffers empty,
so waiting packets start; without one it is DOWN; a quarantined group takes the latency alone. Loss
of light of a lit group is counted and reported, its retry and reorder buffers are counted as
discarded, the group is DOWN, dark and its far end unknown, and the packets in flight or waiting
fail: a copy is counted, any other fails with reason 1. (R227, R230, R241, R243, R244, R264, R266,
R501, 08_hem_links.md) -/
def Obligations.LaneGroupsTrainFailAndLoseLight : Prop :=
  ∀ (link g : Nat) (s : State), link < 64 → (attachedPort s link).isSome = true →
    (∀ line, line ≤ 16 → bit (Tab.get 0 s.hem.failed link) line = false →
      let o := lineOwner s link line
      let u := { s with hem := { s.hem with failed := Tab.mod 0 s.hem.failed link (fun m => setBit m line true) } }
      let same := decide ((groupDataLines u link o).length = (groupDataLines s link o).length)
      let v := report u { cls := 0x38, kind := 8, place := link, unit := o, detail := 2 ^ line
                          tag := (getGroup s link o).farNode % 4096, masked := same }
      let down := (getGroup v link o).state ≠ 0 && (getGroup v link o).state ≠ 3 && (groupDataLines v link o).isEmpty
      exec (.hemLaneFailed link line) s = .next (tellGroup link o 64 (if down then
        dropTraffic v (linkStation v link) link o 0 1 (controlSpace v (linkStation v link)) else v))) ∧
    (∀ ms, g < groupCount s link → ((getGroup s link g).state = 0 ∨ (getGroup s link g).state = 3 ∧ (getGroup s link g).dark = true) →
      let t := modGroup s link g (trainingGroup s.now)
      let u := (linesOf (groupLines t link g)).foldl (fun s l =>
        if bit (usableLines s) l then emitFrame s link g l 0 trainingFrame else s) t
      let v := modGroup u link g (fun x => { x with
        txPos := (List.range 17).map (fun l => (l, 1)), ctlPos := (List.range 17).map (fun l => (l, 1)) })
      let w := (ms.filter (fun m => ofReceiver link m && bit (groupLines v link g) (idDetail m.id))).foldl applyDecided v
      exec (.hemTrainingStart link g ms) s = .next (tellGroup link g 64 ((List.range 17).foldl (fun s l =>
        if bit (failedReceivers link ms) l && bit (groupLines s link g) l && !bit (Tab.get 0 s.hem.failed link) l then
          hemReport { s with hem := { s.hem with failed := Tab.mod 0 s.hem.failed link (fun m => setBit m l true) } } 0x38 link g (2 ^ l)
        else s) w))) ∧
    (∀ latency, (getGroup s link g).known = true → (getGroup s link g).trained = false → splitAgrees s link g = true →
      let u := modGroup s link g (upGroup (frameNow s (getGroup s link g)) latency)
      ((getGroup s link g).state = 3 → exec (.hemGroupUp link g latency) s = .next (tellGroup link g 64 u)) ∧
      ((getGroup s link g).state = 1 → groupDataLines u link g = [] →
        exec (.hemGroupUp link g latency) s = .next (modGroup u link g (fun x => emptyGroup x 0))) ∧
      ((getGroup s link g).state = 1 → groupDataLines u link g ≠ [] →
        exec (.hemGroupUp link g latency) s = .next
          (tellGroup link g 64 (hemPumpAll (modGroup u link g (fun x => { x with state := 2 })) link g)))) ∧
    (∀ space, (getGroup s link g).dark = false →
      let u := wrE s (0x4400 + link) 0xB ((rdE s (0x4400 + link) 0xB + 1) % 2 ^ 32)
      let v := hemReport u 0x3A link g (groupHealthy u link g)
      let x := getGroup v link g
      let st := linkStation v link
      let d := x.waiting.foldl (fun s w => leaveTransmit s st w.pkt) (bumpN v (0x4400 + link) 0xA (x.retry.length + x.reorder.length))
      let e := (x.inFlight.map (·.2) ++ x.waiting.map (·.pkt)).foldl
        (fun s p => if p.mcast then copyFailed s 1 else failPkt s st p 1 space) (modGroup d link g (fun x => emptyGroup x 0))
      exec (.lossOfLight link g space) s = .next (modGroup e link g (fun x => { x with known := false, dark := true })))

/-- A packet that arrives on an UP lane group of an attached link is dropped and reported where its
header check fails, and dropped and counted where its kind has no class; where its slice is not
allowed there it fails the slice check and leaves its buffer; a multicast copy is handled by its
group; a SWEEP adds this module's record and leaves its buffer; every other packet whose route and
destination are good has its arrival written into its route and goes to the station's router; at a
module without a node number, with more than 4 hops or a wrong count of them, or at its last hop for
another node it fails with the reason and leaves its buffer. A copy at a module without a node
number, of a group that is not valid or of another slice is counted as failed and leaves its buffer;
else, where its replicator has room, its remaining count falls by one, it leaves its buffer and goes
to the group's stations and, while hops remain, to the group's other links; else it waits there. A
granted 16-byte multicast record is stored at the selected group. A ROUTE_FAIL ends the request that
it names with the failure's reason, a SLICE_FAIL with the slice refusal. (R214, R215, R216, R225,
R251, R253, R255, R259, R269, 08_hem_links.md) -/
def Obligations.PacketsFromLaneGroupsAreCheckedInOrder : Prop :=
  (∀ (link g key : Nat) (data : List Byte) (space : Bool) (s : State), link < 64 → attachedPort s link = some key →
    (getGroup s link g).state = 2 →
    (parsePkt data = none →
      exec (.hemPacketReceive link g data space) s = .next (hemReport (bump s 0x5100 5) 0x3E link g 0)) ∧
    (∀ p, parsePkt data = some p → classOf p = none →
      exec (.hemPacketReceive link g data space) s = .next (bump s 0x5100 5)) ∧
    (∀ p, parsePkt data = some p → (classOf p).isSome = true →
      let q := rewrite p link g
      let why := if ownNode s = 0xFFFF && q.kind ≠ 0x53 then 6
        else if 4 < q.hops || q.hops < q.next then 7
        else if q.next = q.hops && !isOwn s q.destNode && !(q.kind = 0x53 && ownNode s = 0xFFFF) then 4 else 0
      (sliceAllowed s link g p.slice = false → exec (.hemPacketReceive link g data space) s = .next
        (leaveBuffer (sliceFail s link g (key / 16) q space) link g p)) ∧
      (sliceAllowed s link g p.slice = true → p.mcast = true →
        exec (.hemPacketReceive link g data space) s = .next (arriveCopy s link g p)) ∧
      (sliceAllowed s link g p.slice = true → p.mcast = false → p.kind = 0x52 →
        exec (.hemPacketReceive link g data space) s = .next (leaveBuffer (sweepArrive s link g p) link g p)) ∧
      (sliceAllowed s link g p.slice = true → p.mcast = false → p.kind ≠ 0x52 → why = 0 →
        exec (.hemPacketReceive link g data space) s = .next (enqueue s (key / 16) q)) ∧
      (sliceAllowed s link g p.slice = true → p.mcast = false → p.kind ≠ 0x52 → why ≠ 0 →
        exec (.hemPacketReceive link g data space) s = .next (freeArrival (failPkt s (key / 16) q why space) q)))) ∧
  (∀ (link : Nat) (p : Pkt) (s : State), link < 64 → (attachedPort s link).isSome = true → p.mcast = true →
    let rec' := groupRecord s p.route
    let st := linkStation s link
    let left := p.route / 4096 % 8 - 1
    let u := settleReplicator s st
    let leave := fun (v : State) => freeBuffer v link 0 (arrivalKey ((classOf p).getD 0) (pktBytes p)) (pktFlits p)
    let good := ownNode u ≠ 0xFFFF ∧ groupValid rec' = true ∧ field rec' 12 1 = p.slice
    (¬ good → exec (.multicastCopyReceive link p) s = .next (leave (bumpN u 0x5400 4 1))) ∧
    (good → replicatorRoom u st p = true →
      let q := { p with route := p.route % 4096 + left * 4096 }
      exec (.multicastCopyReceive link p) s = .next
        (leave (copyOut u st rec' (if left = 0 then [] else (groupLinks rec').filter (· ≠ link)) none q))) ∧
    (good → replicatorRoom u st p = false → exec (.multicastCopyReceive link p) s = .next
      { s with bas := { s.bas with copies := Tab.mod [] s.bas.copies st (fun l => l ++ [(link * 16, p)]) } })) ∧
  (∀ (r : VdpReq) (s : State), granted s (atEntry r 0x5400 2) = true → r.data.length = 16 →
    exec (.multicastGroupWrite r) s = .next (served
      { s := { s with col := { s.col with groups := Tab.put [] s.col.groups (selOf (selects s (atEntry r 0x5400 2)) 0x5400 1) r.data } } }
      (atEntry r 0x5400 2))) ∧
  (∀ (st : Nat) (p : Pkt) (x : Track) (s : State), getTrack s st (field p.body 6 2 % 16384) = some x →
    eKind x.entry = field p.body 4 1 →
    (p.kind = 0x50 → exec (.routeFail st p) s = .next
      (endTrack s st (field p.body 6 2 % 16384) x fsRoute (field p.body 0 1) 0 0 true)) ∧
    (p.kind = 0x51 → exec (.sliceFail st p) s = .next
      (endTrack s st (field p.body 6 2 % 16384) x fsSliceRefused 0 0 0 true)))

/-- A granted CLEAR_QUARANTINE ends the quarantine of the groups it names: back to training where
training has not ended, UP with full send pools where they are lit and a data line is left, else
DOWN. A granted node number below 4,096 or 0xFFFF, a 64-byte route set whose used entries name 1 to
4 hops, and a 32-byte slice map are stored at the selected place. A granted START_SWEEP of 1 to 4
hops whose first hop is open starts operation 7 and sends a SWEEP from the Base. One of another
count of hops is refused with the operation REFUSED; one whose first hop is not open ends BROKEN
with this module's record. A SWEEP that ends here, or whose next hop is not open, is answered with
the records that it carries and this module's own; one whose next hop is open goes on with them; one
of a wrong count of hops fails. The reply of a sweep ends it COMPLETE where every hop answered
without a break, else BROKEN; with no reply it ends LOST at 10 ms. (R246, R250, R259, R269, R270,
R273, 08_hem_links.md) -/
def Obligations.RoutesSlicesAndSweepsAreSetAndAnswered : Prop :=
  (∀ (r : VdpReq) (s : State), granted s (atEntry r 0x5000 2) = true →
    let n := leNat r.data
    let hit := s.hem.groups.filter (fun e => e.2.state = 3 && (n = 0xFFFF || e.1 = n % 1024))
    exec (.clearQuarantine r) s = .next (served
      { s := hit.foldl (fun s e => tellGroup (e.1 / 16) (e.1 % 16) 64 (modGroup s (e.1 / 16) (e.1 % 16)
          (clearedGroup (!(groupDataLines s (e.1 / 16) (e.1 % 16)).isEmpty)))) s }
      (atEntry r 0x5000 2))) ∧
  (∀ (r : VdpReq) (s : State), granted s (atEntry r 0x5000 1) = true → leNat r.data < 4096 ∨ leNat r.data = 0xFFFF →
    exec (.nodeNumberWrite r) s = .next (served { s := wrE s 0x5000 1 (leNat r.data) } (atEntry r 0x5000 1))) ∧
  (∀ (r : VdpReq) (s : State), granted s (atEntry r 0x5100 2) = true → r.data.length = 64 →
    (∀ i < 8, (routeEntry r.data i).1 = 0 ∨ 1 ≤ (routeEntry r.data i).2.1 ∧ (routeEntry r.data i).2.1 ≤ 4) →
    exec (.routeSetWrite r) s = .next (served
      { s := { s with hem := { s.hem with routes := Tab.put [] s.hem.routes (selOf (selects s (atEntry r 0x5100 2)) 0x5100 1) r.data } } }
      (atEntry r 0x5100 2))) ∧
  (∀ (r : VdpReq) (s : State), granted s (atEntry r 0x5300 2) = true → r.data.length = 32 →
    exec (.allowedSlicesWrite r) s = .next (served
      { s := { s with hem := { s.hem with slices := Tab.put [] s.hem.slices (selOf (selects s (atEntry r 0x5300 2)) 0x5300 1 % 1024) r.data } } }
      (atEntry r 0x5300 2))) ∧
  (∀ (r : VdpReq) (s : State), granted s (atEntry r 0x5500 2) = true → opRunning s 7 = false →
    let v := rdE s 0x5500 1
    let hops := bits v 40 3
    1 ≤ hops → hops ≤ 4 →
    let u := wrE (startOp s 7 hops hops) 0x5500 4 1
    let w := { u with hem := { u.hem with sweepStart := epoch u, sweepPs := u.now } }
    let e := hopEntry (v % 2 ^ 40) 0
    let why := hopReason w e 0x52
    (why = 0 → exec (.startSweep r) s = .next (served
      { s := enqueue w 28 { hops := hops, route := v % 2 ^ 40, slice := v / 2 ^ 56, kind := 0x52, srcStation := 28
                            srcNode := ownNode w % 4096 } }
      (atEntry r 0x5500 2))) ∧
    (why ≠ 0 → exec (.startSweep r) s = .next (served
      { s := endSweep w 3 (hopRecord w none (some (e / 16, e % 16)) why) } (atEntry r 0x5500 2)))) ∧
  (∀ (r : VdpReq) (s : State), granted s (atEntry r 0x5500 2) = true → opRunning s 7 = false →
    (bits (rdE s 0x5500 1) 40 3 = 0 ∨ 4 < bits (rdE s 0x5500 1) 40 3) →
    exec (.startSweep r) s = .next (answer (wrE (endOp (startOp s 7 0 0) 7 5 5 0) 0x5500 4 5) (atEntry r 0x5500 2)
      (respOf (atEntry r 0x5500 2) stRefused 0 []))) ∧
  (∀ (link g : Nat) (p : Pkt) (s : State), link < 64 → (getGroup s link g).state = 2 → p.kind = 0x52 →
    let st := linkStation s link
    let q := rewrite p link g
    let e := hopEntry q.route q.next
    let why := hopReason s e 0x52
    let reply := fun (rec' : List Byte) => enqueue s st (replyTo s q 0x53 (q.body ++ rec'))
    (4 < q.hops ∨ q.hops < q.next → exec (.sweep link g p) s = .next (failPkt s st q 7 false)) ∧
    (q.hops ≤ 4 → q.hops = q.next → exec (.sweep link g p) s = .next (reply (hopRecord s (some (link, g)) none 0))) ∧
    (q.hops ≤ 4 → q.next < q.hops → why ≠ 0 →
      exec (.sweep link g p) s = .next (reply (hopRecord s (some (link, g)) (some (e / 16, e % 16)) why))) ∧
    (q.hops ≤ 4 → q.next < q.hops → why = 0 → exec (.sweep link g p) s = .next
      (enqueue s st { q with body := q.body ++ hopRecord s (some (link, g)) (some (e / 16, e % 16)) 0 }))) ∧
  (∀ (p : Pkt) (s : State), opRunning s 7 = true → p.kind = 0x53 →
    let n := p.body.length / 32
    (n = (getOp s 7).arg → field p.body (32 * (n - 1) + 7) 1 = 0 → exec (.sweepReply p) s = .next (endSweep s 2 p.body)) ∧
    (n ≠ (getOp s 7).arg ∨ field p.body (32 * (n - 1) + 7) 1 ≠ 0 → exec (.sweepReply p) s = .next (endSweep s 3 p.body))) ∧
  (∀ s : State, opRunning s 7 = true →
    exec .sweepLost s = .next (endSweep (advanceTo s (s.hem.sweepPs + 10 * msPs)) 4 []))

/-- A request whose slice is not torn down and whose checks pass on tile t and address a of a
compute tile: a raw LOAD without marked rows or disturbances answers OK with the bytes there, and
one of a marked row starts containment and answers MEMORY, or in POISON mode answers OK and
poisoned; a LOAD of a whole tagged block answers OK with the block and its stitch, or the status and
detail of the block's read; a STORE writes its bytes, or its block under its tag where the block's
stitch is the one it carries, and answers OK; a block whose stitch differs is answered STITCH with
the stitch found; a write that fails in the rows, or that would write part of a marked row, is
answered MEMORY; OWN_GIVE sets the owner, advances the generation and answers it; an MSTORE writes
and answers nothing. Every OK answer first adds the packet's signal where its object is of the same
slice, else the status is SLICE. A memory request of a guest's region that passes its checks is
handed to the guest. A request refused by the checks, for a reason other than sleep, is answered
with its status and changes nothing else but the count of refusals. (R118, R282, R283, R284, R291,
R292, R293, R296, R297, 09_memory_fabric.md) -/
def Obligations.AdmittedRequestsReadAndWriteTheirTarget : Prop :=
  ∀ (st : Nat) (p : Pkt) (x : Target) (s : State), tornDown s p = false →
    let off := gaOffset (qAddr p)
    let n := (qData p).length
    (checkRequest s st p (loadLength p) (rangeAligned off (loadLength p)) = .ok x → isGuest st = false →
      (isBlockReq off (loadLength p) (qTid p) = false → anyBadRow s x.tile x.addr (loadLength p) = false →
        exec (.loadReq st p [] []) s = .next (performed s st p 0 0 (bytesAt s x.tile x.addr (loadLength p))
          (poisonMode s && (cellAt s x.tile x.addr).state = 2#2))) ∧
      (∀ first again, isBlockReq off (loadLength p) (qTid p) = false → anyBadRow s x.tile x.addr (loadLength p) = true →
        let u := readBadRows s x.tile x.addr (loadLength p)
        (poisonMode u = true → exec (.loadReq st p first again) s = .next
          (performed u st p 0 0 (bytesAt s x.tile x.addr (loadLength p)) true)) ∧
        (poisonMode u = false → exec (.loadReq st p first again) s = .next
          (refuseReq (containRange u x.tile x.addr (loadLength p)) st p fsMemory 0))) ∧
      (∀ first again u d poison, isBlockReq off (loadLength p) (qTid p) = true →
        routerFetch s x.tile x.addr (qTid p) (qBlk p) first again = (u, .ok (d, poison)) →
        exec (.loadReq st p first again) s = .next (performed u st p 0 (stitchOf d (qTid p) (qBlk p)).toNat d poison)) ∧
      (∀ first again u status detail, isBlockReq off (loadLength p) (qTid p) = true →
        routerFetch s x.tile x.addr (qTid p) (qBlk p) first again = (u, .error (status, detail)) →
        exec (.loadReq st p first again) s = .next (refuseReq u st p status detail))) ∧
    (checkRequest s st p n (rangeAligned off n) = .ok x → isGuest st = false →
      let blockM := isBlockReq off n (qTid p)
      let block := blockM && x.addr % 4096 = 0
      let raw := rawWrite s x.tile x.addr (qData p)
      let put := writeBlock s x.tile x.addr (qTid p) (qBlk p) (qData p) p.poison
      let c := stitchOf (qData p) (qTid p) (qBlk p)
      (block = false → writeRefused s x.tile x.addr n = false → exec (.storeReq st p false) s = .next (performed raw st p 0 0 [] false)) ∧
      (blockM = false → writeRefused s x.tile x.addr n = false → exec (.mstoreReq st p false) s = .next (signalPacket raw st p).1) ∧
      (block = false → writeRefused s x.tile x.addr n = true →
        exec (.storeReq st p false) s = .next (refuseReq (countRefused s x.tile x.addr n) st p fsMemory 0)) ∧
      (block = true → c.toNat = qOperand p →
        exec (.storeReq st p false) s = .next (performed put st p 0 0 [] false)) ∧
      (blockM = true → c.toNat = qOperand p → exec (.mstoreReq st p false) s = .next (signalPacket put st p).1) ∧
      (∀ fails, block = true → c.toNat ≠ qOperand p →
        exec (.storeReq st p fails) s = .next (complete s st p fsStitch 0 c.toNat [] false)) ∧
      (block = false ∨ c.toNat = qOperand p → exec (.storeReq st p true) s = .next (refuseReq s st p fsMemory 0))) ∧
    (isGuest st = true → ∀ first again fails,
      (checkRequest s st p (loadLength p) (rangeAligned off (loadLength p)) = .ok x →
        exec (.loadReq st p first again) s = .next (emit s (.arrived st p))) ∧
      (checkRequest s st p n (rangeAligned off n) = .ok x →
        exec (.storeReq st p fails) s = .next (emit s (.arrived st p)) ∧ exec (.mstoreReq st p fails) s = .next (emit s (.arrived st p)))) ∧
    (checkRequest s st p 1 true = .ok x →
      let r := setOwner x.record (qOperand p % 65536)
      exec (.ownGive st p) s = .next (performed (putRegion s x.region r) st p 0 (rGen r) [] false)) ∧
    (∀ e : Refused, e.status ≠ fsAsleep → ∀ first again fails,
      (checkRequest s st p (loadLength p) (rangeAligned off (loadLength p)) = .error e →
        exec (.loadReq st p first again) s = .next (refuseReq s st p e.status e.detail)) ∧
      (checkRequest s st p n (rangeAligned off n) = .error e →
        exec (.storeReq st p fails) s = .next (refuseReq s st p e.status e.detail)) ∧
      (checkRequest s st p 1 true = .error e → exec (.ownGive st p) s = .next (refuseReq s st p e.status e.detail)))

/-- For a request whose checks pass on an unmarked target of a compute tile without disturbances:
ATOMIC answers the old 4 or 8 bytes in Value, having written the value that its code gives (a
compare that does not match writes nothing, whether or not a write would fail); REDUCE combines the
stored elements, of raw bytes or of a tagged block that reads well, elementwise with its own;
consumes poison of the elements or of the operands in POISON mode; writes the result, a block under
the same tag; and answers OK with the flag of a sum that left the range and of poison. A SUM with a
headroom outside 1 to 24 or an operand outside its bound is answered OPERAND with no effect. A write
that fails in the rows is answered MEMORY. (R61, R152, R191, R217, R282, R294, R295, R297) -/
def Obligations.AtomicsAndReductionsUpdateTheirTarget : Prop :=
  ∀ (st : Nat) (p : Pkt) (x : Target) (s : State), tornDown s p = false → isGuest st = false →
    let off := gaOffset (qAddr p)
    (let n := if bit (qDetail p) 7 then 4 else 8
     let code := qDetail p % 16
     let d := bytesAt s x.tile x.addr n
     let miss := code = 2 ∧ leNat d ≠ qOperand p % 2 ^ (8 * n)
     checkRequest s st p n (off % n = 0) = .ok x → anyBadRow s x.tile x.addr n = false →
      (¬ miss → writeRefused s x.tile x.addr n = false →
        exec (.atomicReq st p [] false) s = .next (performed (rawWrite s x.tile x.addr
          (leBytes n (atomicOp code (8 * n) (leNat d) (qOperand p) (field (qData p) 0 8)))) st p 0 (leNat d) [] false)) ∧
      (∀ fails, miss → exec (.atomicReq st p [] fails) s = .next (performed s st p 0 (leNat d) [] false)) ∧
      (¬ miss → exec (.atomicReq st p [] true) s = .next (refuseReq s st p fsMemory 0))) ∧
    (let n := (qData p).length
     let op := qDetail p % 8
     let h := qOperand p % 32
     let ops := (List.range (n / 8)).map (fun i => field (qData p) (8 * i) 8)
     let good := op = 0 → 1 ≤ h ∧ h ≤ 24 ∧ ops.all (operandOk h) = true
     let block := isBlockReq off n (qTid p)
     checkRequest s st p n (rangeAligned off n) = .ok x →
      (∀ first again fails u d mark, good →
        (block = false ∧ anyBadRow s x.tile x.addr n = false ∧ first = [] ∧ u = s ∧ d = bytesAt s x.tile x.addr n
            ∧ mark = (poisonMode s && (cellAt s x.tile x.addr).state = 2#2)
          ∨ block = true ∧ routerFetch s x.tile x.addr (qTid p) (qBlk p) first again = (u, .ok (d, mark))) →
        let poison := mark || p.poison
        let zs := (List.range (n / 8)).map (fun i => combineElem op (field d (8 * i) 8) (ops.getD i 0))
        let v := if (poison && poisonMode u) = true then engineConsumes u x.tile p.slice x.addr else u
        let w := engineInjected v x.tile op ((zs.map (·.1)).flatMap (leBytes 8))
        (fails = false → block = true → exec (.reduceReq st p first again fails) s = .next
          (performed (writeBlock w.1 x.tile x.addr (qTid p) (qBlk p) w.2 poison) st p (b2n (zs.any (·.2)) + 2 * b2n poison) 0 [] false)) ∧
        (fails = false → block = false → writeRefused w.1 x.tile x.addr w.2.length = false →
          exec (.reduceReq st p first again fails) s = .next
            (performed (rawWriteMarked w.1 x.tile x.addr (qTid p) (qBlk p) w.2 poison) st p
              (b2n (zs.any (·.2)) + 2 * b2n poison) 0 [] false)) ∧
        (fails = true → exec (.reduceReq st p first again fails) s = .next (refuseReq w.1 st p fsMemory 0))) ∧
      (∀ first again fails, op = 0 → (h = 0 ∨ 24 < h ∨ ops.all (operandOk h) = false) →
        exec (.reduceReq st p first again fails) s = .next (refuseReq s st p fsOperand 0)))

/-- A sync request of a slice that is not torn down on an object it may use: SYNC_ADD adds Operand
[31:0] modulo 2^32 and answers the new count, SYNC_READ the count. For a lease request on a base
object, after a lease whose 1,562,500 counts have passed has expired: ACQUIRE of a free lease gives
it to the requester with the generation advanced; of one the requester holds it renews it; of
another's it answers LEASE_HELD with the holder's node and the counts left. RENEW and RELEASE by the
holder at the generation named renew or free it, else answer LEASE_LOST. At its count a held lease
is free with its generation advanced, and is counted; a granted REVOKE_LEASE frees a held lease the
same way. (R297, R298, R299, 09_memory_fabric.md) -/
def Obligations.SyncObjectsAndLeasesAnswerTheFabric : Prop :=
  (∀ (st : Nat) (p : Pkt) (s : State), tornDown s p = false →
    let name := qOperand p / 2 ^ 32 % 65536
    let i := name % 8192
    syncRefusal s st p name = 0 →
    (let u := syncAdd s st name (BitVec.ofNat 32 (qOperand p))
     exec (.syncAdd st p) s = .next (performed u st p 0 (syncGet u st name).toNat [] false)) ∧
    exec (.syncRead st p) s = .next (performed s st p 0 (syncGet s st name).toNat [] false) ∧
    (bit name 15 = true →
      let u := settleLease s i
      let l := getLease u i
      let mine := l.holder = some (holderOf p) ∧ l.gen = qOperand p % 65536
      (l.holder = none → exec (.acquire st p) s = .next
        (performed (putLease u i { holder := some (holderOf p), gen := (l.gen + 1) % 65536, since := epoch u }) st p 0
          ((l.gen + 1) % 65536) [] false)) ∧
      (l.holder = some (holderOf p) →
        exec (.acquire st p) s = .next (performed (putLease u i { l with since := epoch u }) st p 0 l.gen [] false)) ∧
      (∀ h, l.holder = some h → h ≠ holderOf p → exec (.acquire st p) s = .next (complete u st p fsLeaseHeld 0
        (h.1 + (leaseTime - (epoch u + 2 ^ 64 - l.since) % 2 ^ 64) * 2 ^ 32) [] false)) ∧
      (mine → exec (.renew st p) s = .next (performed (putLease u i { l with since := epoch u }) st p 0 l.gen [] false)) ∧
      (mine → exec (.release st p) s = .next (performed (putLease u i { l with holder := none }) st p 0 l.gen [] false)) ∧
      (¬ mine → exec (.renew st p) s = .next (refuseReq u st p fsLeaseLost 0)
        ∧ exec (.release st p) s = .next (refuseReq u st p fsLeaseLost 0)))) ∧
  (∀ (i : Nat) (s : State), (getLease s i).holder.isSome = true →
    leaseTime ≤ (epoch s + 2 ^ 64 - (getLease s i).since) % 2 ^ 64 →
    exec (.leaseExpiry i) s = .next (bump (putLease s i { getLease s i with
      holder := none, gen := ((getLease s i).gen + 1) % 65536 }) 0x5600 7)) ∧
  (∀ (r : VdpReq) (s : State), granted s (atEntry r 0x5600 8) = true → leNat r.data < 8192 →
    (getLease s (leNat r.data)).holder.isSome = true →
    exec (.revokeLease r) s = .next (served { s := freeLease s (leNat r.data) } (atEntry r 0x5600 8)))

/-- A granted region record that is valid, placed and overlaps none, of a region no admitted job
uses, is stored with the owner and generation as they were; a granted SET_OWNER of a node or 0xFFFF
sets the owner and advances the generation. A queue of an open tile whose block is accepted is
enabled empty with its three counts at 0; a refused block turns its error bit on and is reported. A
disabled queue with nothing outstanding is closed, else it closes once that has ended. An entry that
may issue and is refused ends with its status, one of a slice under teardown with ABORTED; one that
is good and whose data reads well takes a tracker entry and its packet leaves, or ends ROUTE where
no way is open; one whose data does not ends with the status of that read; a fence waits. A fence
whose earlier entries have all ended writes its record, and takes the failures and flags it covers
out of the accumulator. (R280, R281, R284, R285, R286, R287, R289, R302, R303, R307,
09_memory_fabric.md) -/
def Obligations.RegionsAndFabricQueuesAreSetUp : Prop :=
  (∀ (r : VdpReq) (s : State), granted s (atEntry r 0x5200 2) = true → regionRecordOk r.data = true →
    let i := selOf (selects s (atEntry r 0x5200 2)) 0x5200 1
    let old := fit 32 (Tab.get [] s.fab.regions i)
    (rValid old && (jobs s).any (fun e => e.1 = rSlice old && 2 ≤ e.2.state)) = false →
    (rValid r.data = true → regionPlaceOk r.data = true ∧ regionOverlaps s i r.data = false) →
    let w := patch r.data 18 (leBytes 2 (rOwner old) ++ leBytes 2 (rGen old))
    exec (.regionRecordWrite r) s = .next (served { s := putRegion s i (if w.all (fun b => b = 0#8) then [] else w) }
      (atEntry r 0x5200 2))) ∧
  (∀ (r : VdpReq) (s : State), granted s (atEntry r 0x5200 3) = true → leNat r.data < 4096 ∨ leNat r.data = 0xFFFF →
    let i := selOf (selects s (atEntry r 0x5200 3)) 0x5200 1
    exec (.setOwner r) s = .next (served { s := putRegion s i (setOwner (fit 32 (Tab.get [] s.fab.regions i)) (leNat r.data)) }
      (atEntry r 0x5200 3))) ∧
  (∀ (t q : Nat) (s : State), q < 8 →
    let x := getQueue s t q
    let b := ctlBlock s t q
    let e := nextEntry s t q
    let i := x.read % 2 ^ 32
    let u := syncAdd (modQueue s t q (fun x => { x with read := x.read + 1 })) t (1000 + q) 1#32
    (tileOpen s t = true → x.enabled = false → ctlOk s t q b = true →
      let v := modQueue (putCtl s t q 1#8) t q (fun _ =>
        { enabled := true, reqRing := field b 0 4, compRing := field b 4 4, reqEntries := field b 8 2
          compEntries := field b 10 2, slice := field b 12 1 })
      exec (.fabricQueueEnable t q) s = .next
        (syncPut (syncPut (syncPut v t (1000 + q) 0#32) t (1008 + q) 0#32) t (1016 + q) 0#32)) ∧
    (tileOpen s t = true → x.enabled = false → ctlOk s t q b = false →
      exec (.fabricQueueEnable t q) s = .next (tileReport (putCtl s t q 2#8) 0x02 t 0 0)) ∧
    (x.enabled = true → bit (field b 13 1) 0 = false → x.out = [] → x.fences = [] →
      exec (.fabricQueueDisabled t q) s = .next (modQueue s t q (fun _ => {}))) ∧
    (x.enabled = true → bit (field b 13 1) 0 = false → x.out ≠ [] ∨ x.fences ≠ [] →
      exec (.fabricQueueDisabled t q) s = .next (modQueue s t q (fun x => { x with closing := true }))) ∧
    (∀ first again, canIssue s t q = true → s.fab.torn.contains x.slice = true →
      exec (.fabricEntryIssue t q first again) s = .next (endEntry u t q i e fsAborted 0 0 0)) ∧
    (∀ first again, canIssue s t q = true → s.fab.torn.contains x.slice = false →
      (issueRefusal s t e ≠ 0 →
        exec (.fabricEntryIssue t q first again) s = .next (endEntry u t q i e (issueRefusal s t e) 0 0 0)) ∧
      (issueRefusal s t e = 0 → eKind e ≠ 0x0F →
        (∀ v status detail, sourceData u t e first again = (v, .error (status, detail)) →
          exec (.fabricEntryIssue t q first again) s = .next (endEntry v t q i e status detail 0 0)) ∧
        (∀ v data poison w tag nonce y why, sourceData u t e first again = (v, .ok (data, poison)) →
          takeTag v t q i e (getQueue u t q).slice = some (w, tag, nonce) →
          sendNewPkt w t (entryPkt q (getQueue u t q).slice tag nonce e data poison) = (y, why) →
          (why = 0 → exec (.fabricEntryIssue t q first again) s = .next (addOut y t q i)) ∧
          (why ≠ 0 → exec (.fabricEntryIssue t q first again) s = .next (endEntry v t q i e fsRoute why 0 0)))) ∧
      (issueRefusal s t e = 0 → eKind e = 0x0F →
        let v := modQueue u t q (fun x => { x with fences := x.fences ++ [{ index := i, user := eUser e }] })
        exec (.fence t q) s = .next v ∧ exec (.fabricEntryIssue t q first again) s = .next v)) ∧
    (∀ f fs, x.fences = f :: fs → x.out.any (fun i => i < f.index) = false →
      exec (.fenceComplete t q) s = .next (pushRecord (modQueue s t q (fun x =>
        { x with fences := fs, fails := x.fails.filter (fun y => !fenceTakes f y), flags := 0 })) t q (fenceRecord x f))))

/-- An answer whose nonce is its entry's, of a slice that is not torn down, ends the entry at a tile
as its kind says: a LOAD of bytes that was OK writes them and ends OK; one of a block whose stitch
matches writes the block, and one whose stitch does not is sent once more, then ends STITCH; a STORE
of a block that is answered STITCH is sent once more, then ends STITCH; every other kind that was OK
ends OK, a REDUCE with the answer's flags, and all but it and a STORE with the answer's value; any
other status ends the entry with that status and detail. An answer with another nonce or of a torn
slice is counted; one for a tag without an entry is counted and frees a quarantined tag; a negative
answer of the fabric to a collective's packet fails its run. At its deadline an entry is counted,
reported and ended TIMEOUT, its tag quarantined; a tag leaves quarantine at its time. A granted
TEAR_DOWN_SLICE, with none in progress, marks the slice, aborts what its queues have posted, raises
mip bit 17 at its tiles and tells its hosts; its end ends the slice's entries ABORTED, stops its
runs, frees its leases, reports, posts its job's withdrawal and sets the state to done. (R143, R212,
R288, R300, R301, R307, R329, 09_memory_fabric.md) -/
def Obligations.AnswersTimeoutsAndTeardownEndEntries : Prop :=
  (∀ (st : Nat) (p : Pkt) (first again : List Flip) (x : Track) (s : State), p.fabric = false → getTrack s st p.tag = some x →
    let e := x.entry
    let k := eKind e
    let ended := fun (u : State) (status detail value flags : Nat) =>
      endEntry (putTrack u st p.tag none) st x.queue x.index e status detail value flags
    let mask := fun (u : State) => if x.twice = true then pathFault (bump u 0x6500 2) st 0x08 e else u
    let resent := fun (c : DWord) (f g : List Flip) => match sourceData s st e f g with
      | (u, .error (status, detail)) => ended u status detail 0 0
      | (u, .ok (data, poison)) =>
        match sendNewPkt (putTrack u st p.tag (some { x with twice := true, first := c })) st
            (entryPkt x.queue x.slice p.tag x.nonce e data poison) with
        | (v, 0) => v
        | (v, why) => ended v fsRoute why 0 0
    let again2 := fun (c : DWord) (f g : List Flip) =>
      if x.twice = false then resent c f g
      else if x.first = c then ended (pathFault (bump s 0x6500 3) st 0x09 e) fsStitch 1 0 0
      else ended (pathFault (bump s 0x6500 4) st 0x0A e) fsStitch 2 0 0
    (x.nonce = aNonce p → s.fab.torn.contains p.slice = false → st < 24 →
      (k = 1 → aStatus p = fsOk → entryBlock e = false → writeRefused s st (eLocal e) (aData p).length = false →
        exec (.completion st p first again) s = .next
          (ended (rawWriteMarked s st (eLocal e) (eTid e) (eBlk e) (aData p) p.poison) fsOk 0 0 0)) ∧
      (k = 1 → aStatus p = fsOk → entryBlock e = true →
        ((stitchOf (aData p) (eTid e) (eBlk e)).toNat = aValue p → exec (.completion st p first again) s = .next
          (ended (writeBlock (mask s) st (eLocal e) (eTid e) (eBlk e) (aData p) p.poison) fsOk 0 0 0)) ∧
        ((stitchOf (aData p) (eTid e) (eBlk e)).toNat ≠ aValue p →
          exec (.completion st p first again) s = .next (again2 (stitchOf (aData p) (eTid e) (eBlk e)) [] []))) ∧
      (k = 2 → entryBlock e = true → aStatus p = fsStitch → aDetail p = 0 →
        exec (.completion st p first again) s = .next (again2 (BitVec.ofNat 64 (aValue p)) first again)) ∧
      (k = 2 → aStatus p = fsOk → exec (.completion st p first again) s = .next (ended (mask s) fsOk 0 0 0)) ∧
      (k = 4 → aStatus p = fsOk → exec (.completion st p first again) s = .next (ended s fsOk 0 0 (aDetail p))) ∧
      (k = 3 ∨ 5 ≤ k → aStatus p = fsOk → exec (.completion st p first again) s = .next (ended s fsOk 0 (aValue p) 0)) ∧
      (aStatus p ≠ fsOk → (k = 2 ∧ aStatus p = fsStitch → entryBlock e = false ∨ aDetail p ≠ 0) →
        exec (.completion st p first again) s = .next
          (ended s (aStatus p) (aDetail p) (if aStatus p = fsLeaseHeld then aValue p else 0) 0))) ∧
    (x.nonce ≠ aNonce p ∨ s.fab.torn.contains p.slice = true →
      exec (.completion st p first again) s = .next (bump s 0x5600 4))) ∧
  (∀ (st : Nat) (p : Pkt) (first again : List Flip) (s : State), p.fabric = false → getTrack s st p.tag = none →
    exec (.completion st p first again) s = .next (releaseTag (bump s 0x5600 4) st p.tag)) ∧
  (∀ (st : Nat) (p : Pkt) (first again : List Flip) (s : State) (slot : Nat) (x : CRun), p.fabric = true →
    runOf s (field p.body 12 4) (field p.body 8 4) = some (slot, x) →
    exec (.completion st p first again) s = .next (failRun s slot (if aStatus p = fsTileReset then 8 else 9))) ∧
  (∀ (st tag : Nat) (x : Track) (s : State), getTrack s st tag = some x → eKind x.entry ≠ 0x60 →
    let u := bump (advanceTo s x.deadline) 0x5600 3
    let v := report u { cls := 0x40, kind := if st = 28 then 12 else 1, place := st, logical := logicalTile u st, slice := some x.slice
                        detail := fsTimeout, tag := eAddr x.entry }
    exec (.requestTimeout st tag) s = .next (drainEnded (endTrack v st tag x fsTimeout 0 0 0 false))) ∧
  (∀ (st tag : Nat) (s : State), Tab.get 0 s.fab.quar (trackKey st tag) ≠ 0 →
    exec (.tagQuarantineExpiry st tag) s = .next
      (releaseTag (advanceTo s (Tab.get 0 s.fab.quar (trackKey st tag))) st tag)) ∧
  (∀ (r : VdpReq) (s : State), granted s (atEntry r 0x5600 9) = true → rdE s 0x5600 0xA % 4 ≠ 1 →
    let sl := leNat r.data
    let u := wrE s 0x5600 0xA (sl * 256 + 1)
    let u := { u with fab := { u.fab with torn := sl :: u.fab.torn.filter (· ≠ sl), tearAt := u.now } }
    let u := (u.fab.queues.filter (fun e => e.2.enabled && e.2.slice = sl)).foldl (fun u e =>
      abortPosted (e.1 / 8) (e.1 % 8) (min (postedLeft u (e.1 / 8) (e.1 % 8)) e.2.reqEntries) u) u
    let u := (sliceTiles u sl).foldl (fun u t => modTile u t (fun tl => { tl with mip17 := true })) u
    exec (.tearDownSlice r) s = .next (served { s := tellHosts u sl } (atEntry r 0x5600 9))) ∧
  (∀ s : State, rdE s 0x5600 0xA % 4 = 1 →
    let sl := rdE s 0x5600 0xA / 256
    let ofSlice := fun (e : Nat × Option Track) => match e.2 with | some x => decide (x.slice = sl) | none => false
    let u := (s.fab.tracks.filter ofSlice).foldl (fun u e => match e.2 with
      | some x => endTrack u (e.1 / 16384) (e.1 % 16384) x fsAborted 0 0 0 false
      | none => u) s
    let u := ((List.range 64).filter (fun slot => (getRun u slot).isSome && scheduleSlice u slot = sl)).foldl (fun u slot => failRun u slot 6) u
    let u := (u.fab.leases.filter (fun e => e.2.holder.isSome && syncSlice u 0 (32768 + e.1) = some sl)).foldl (fun u e => freeLease u e.1) u
    let u := report u { cls := 0x42, slice := some sl, detail := fsAborted }
    exec .teardownDone s = .next (postWithdrawal (wrE (drainEnded u) 0x5600 0xA (sl * 256 + 2)) sl))

/-- A granted 48-byte flow record for a slot that is EMPTY or STAGED is stored and the slot STAGED,
or EMPTY for zeros. A granted ADMIT_SLICE with no admission under way starts operation 8 over the
slice's staged flows. While no committed group that changes entries between jobs waits, the end of
an admission stores its result: with code 0 the job is accepted and the operation succeeds, else the
refusal is counted and the operation fails with the code. A granted WITHDRAW_SLICE of a job without
a running schedule posts its withdrawal. A recomputation with no admission under way and a job
admitted stores the bounds of every admitted flow, rechecks each in ascending slot and counts
itself; with no job admitted it changes nothing. (R311, R314, R323, R326, R327, R328, R329, R333,
10_admission.md) -/
def Obligations.AdmissionsAreDecidedAndWithdrawn : Prop :=
  (∀ (r : VdpReq) (s : State), granted s (atEntry r 0x7200 2) = true → r.data.length = 48 →
    let i := selOf (selects s (atEntry r 0x7200 2)) 0x7200 1
    let zero := r.data.all (fun b => b = 0#8)
    let a := s.adm
    flowState s i < 2 → exec (.flowRecordWrite r) s = .next (served
      { s := { s with adm := { a with
          flows := Tab.put [] a.flows i (if zero then [] else r.data), fstate := Tab.put 0 a.fstate i (if zero then 0 else 1),
          bounds := Tab.erase a.bounds i, overruns := Tab.erase a.overruns i, offsets := Tab.erase a.offsets i } } }
      (atEntry r 0x7200 2))) ∧
  (∀ (r : VdpReq) (s : State), granted s (atEntry r 0x7000 1) = true → opRunning s 8 = false →
    exec (.admitSlice r) s = .next (served
      { s := startOp s 8 (flowsOf s (leNat r.data) [1]).length (leNat r.data) } (atEntry r 0x7000 1))) ∧
  (∀ s : State, opRunning s 8 = true → s.mantle.groups.any (fun e => e.2.state = 1 && groupBetweenJobs e.2) = false →
    let sl := (getOp s 8).arg
    let n := (flowsOf s sl [1]).length
    let a := admission s sl
    let u := wrB s 0x7000 3 a.bytes
    (a.code = 0 → exec .admissionDone s = .next (endOp (acceptJob u sl a.front) 8 2 0 n)) ∧
    (a.code ≠ 0 → exec .admissionDone s = .next (endOp (bump u 0x7000 7) 8 3 a.code n))) ∧
  (∀ (r : VdpReq) (s : State), granted s (atEntry r 0x7000 2) = true →
    (Tab.get none s.adm.jobs (leNat r.data)).isSome = true → sliceRunning s (leNat r.data) = false →
    exec (.withdrawSlice r) s = .next (served { s := postWithdrawal s (leNat r.data) } (atEntry r 0x7000 2))) ∧
  (∀ s : State, opRunning s 8 = false →
    let fs := (jobs s).filter (fun e => 2 ≤ e.2.state)
    let all := bySlot (fs.flatMap (fun j => flowsOf s j.1 [2, 3]))
    let x := inputsOf s all []
    (fs ≠ [] → exec .admissionRecompute s = .next (bump (all.foldl (recheckFlow x) (storeBounds s x all)) 0x7000 0xC)) ∧
    (fs = [] → exec .admissionRecompute s = .next s))

/-- A request that is answered, repeats none and passes the checks of R349: a READ from offset 0 of
at most 1,024 bytes answers the value and its length; of more, with a snapshot free, it makes the
snapshot and answers the first 1,024 bytes; a READ further on answers the next bytes of its snapshot
and renews it. A granted WRITE takes the effect of its entry's rules where they accept the value,
and is answered with their status where they refuse it. DESCRIBE answers the entry's type, access,
level, length and default. A granted restore to defaults removes every RWP value outside 0x1200 from
the live dictionary and both copies of the store, posts mode 1 and limit 2,000 and settles the port
roles. (R341, R344, R346, R348, R349, R350, R352, 11_vexga_dictionary.md) -/
def Obligations.ReadsWritesAndDescribesAreAnswered : Prop :=
  (∀ (r : VdpReq) (e : Entry) (s : State), r.opcode = 1 → answersNow s r = true → duplicateOf s r = none → checkAccess s r = 0 →
    findEntry r.index r.sub = some e → r.dataLen = 0 → r.group = 0 →
    let v := valueOf s (contextOf s r.src).sel e r.index r.sub
    let u := readFree s r.index r.sub
    (r.offset = 0 → contextFree s r.src = true → v.length ≤ 1024 →
      exec (.vdpRead r) s = .next (answer u r (segmentOf r 0 v))) ∧
    (r.offset = 0 → contextFree s r.src = true → 1024 < v.length → u.mantle.snapshots.length < 16 →
      let id := u.mantle.snapNext
      let m := { u.mantle with
        snapshots := u.mantle.snapshots ++ [{ id := id, party := r.src, index := r.index, sub := r.sub, value := v, last := u.now }]
        snapNext := nextSnap id }
      exec (.vdpRead r) s = .next (answer { u with mantle := m } r (segmentOf r id v))) ∧
    (∀ x, r.offset ≠ 0 → e.ty = .blob →
      let same := fun (x : Snapshot) => x.id = r.detail && x.party = r.src && x.index = r.index && x.sub = r.sub
      s.mantle.snapshots.find? same = some x → r.offset < x.value.length →
      let m := { s.mantle with snapshots := updFirst same (fun y => { y with last := s.now }) s.mantle.snapshots }
      exec (.vdpRead r) s = .next (answer { s with mantle := m } r (segmentOf r x.id x.value)))) ∧
  (∀ (r : VdpReq) (s : State), granted s r = true → (r.index ≠ 0x1100 ∨ r.sub ≠ 5) →
    let w := writerOf r r.index r.sub
    let x := w.effect s (selects s r) r.data
    w.ok s (selects s r) r.data = true →
    (x.status = 0 → exec (.vdpWrite r) s = .next (served x r)) ∧
    (x.status ≠ 0 → exec (.vdpWrite r) s = .next (answer x.s r (respOf r x.status x.detail x.data)))) ∧
  (∀ (r : VdpReq) (e : Entry) (s : State), r.opcode = 8 → answersNow s r = true → duplicateOf s r = none → checkEntry s r = 0 →
    contextFree s r.src = true → findEntry r.index r.sub = some e →
    exec (.describe r) s = .next (answer s r (respOf r 0 0 (describeData e r.index r.sub)))) ∧
  (∀ (r : VdpReq) (s : State), granted s (atEntry r 0x1200 0xB) = true → r.nvFails = false →
    let q := atEntry r 0x1200 0xB
    let out := fun (k : Nat) => !(isPersistent (k / 256) (k % 256) && k / 256 ≠ 0x1200)
    let m := s.mantle
    let copy := fun (c : NvCopy) => { c with vals := c.vals.filter (fun e => out e.1), blobs := c.blobs.filter (fun e => out e.1), gen := c.gen + 1 }
    let u := { s with
      dict := s.dict.filter (fun e => out e.1), blobs := s.blobs.filter (fun e => out e.1)
      mantle := { m with copy0 := copy m.copy0, copy1 := copy m.copy1, unpersisted := m.unpersisted.filter (fun x => x.1 = 0x1200) } }
    exec (.restoreDefaults r) s = .next (served
      { s := settleRoles (writeLimit (writeMode u (selects s q) (leBytes 1 1)).s (selects s q) (leBytes 2 2000)).s } q))

/-- A group request that is answered, repeats none, and passes steps 1 to 4 and 8, from a context
that exists or can be made, with the standby's copy taken: GROUP_OPEN with fewer than eight open
groups opens the next free number for the sender and answers it. GROUP_COMMIT of the sender's own
open group whose staged values can all be committed, whose front is good, which holds no entry of a
committed group, with fewer than eight committed, arms it in ascending order of its entries for the
front asked, or the first at least 8,192 counts away, and answers that front. GROUP_DISCARD of the
sender's own open group empties it. GROUP_STATUS answers state, staged count and front of the
sender's own group or of a free number, and renews an open one. (R353, R354, R355, R346, R349,
11_vexga_dictionary.md) -/
def Obligations.CommitGroupsOpenCommitDiscardAndReport : Prop :=
  ∀ (r : VdpReq) (s : State), answersNow s r = true → duplicateOf s r = none → r.copyFails = false →
    (∀ n, r.opcode = 4 → checkGroup s r 0 = 0 → (groupsIn s 0).length < 8 → contextFree s r.src = true →
      nextGroup s s.mantle.groupLast = some n →
      let u := putGroup s n { state := 0, party := some r.src, last := s.now }
      let v := { u with mantle := { u.mantle with groupLast := n } }
      exec (.groupOpen r) s = .next (answer v r (respOf r 0 0 (leBytes 1 n)))) ∧
    (r.opcode = 5 → checkGroup s r 8 = 0 → ownGroup s r = true →
      let g := getCommit s r.group
      let u := putGroup s r.group { g with last := s.now }
      let sel := (contextOf u r.src).sel
      let asked := leNat r.data
      let front := if asked = 0 then frontAt (epoch u + 8192) else asked
      commitFault u r sel (sortStaged g.staged) = none → frontFault u g asked = 0 →
      (sortStaged g.staged).find? (fun x => heldByGroup u x.index x.sub) = none → (groupsIn u 1).length < 8 →
      let order := 1 + (groupsIn u 1).foldl (fun n e => max n e.2.order) 0
      let v := putGroup u r.group { g with
        state := 1, staged := (sortStaged g.staged).map (fun x => { x with sel := sel }), front := front, order := order, last := u.now }
      exec (.groupCommit r) s = .next (answer v r (respOf r 0 0 (leBytes 8 front)))) ∧
    (r.opcode = 6 → checkGroup s r 0 = 0 → ownGroup s r = true →
      exec (.groupDiscard r) s = .next (answer
        (putGroup s r.group { getCommit s r.group with state := 3, staged := [] }) r (respOf r 0 0 []))) ∧
    (r.opcode = 7 → checkGroup s r 0 = 0 → contextFree s r.src = true →
      let g := getCommit s r.group
      g.party = none ∨ g.party = some r.src →
      exec (.groupStatus r) s = .next (answer
        (if g.state = 0 then putGroup s r.group { g with last := s.now } else s) r (respOf r 0 0 (groupStatusData g))))

/-- A refresh of an active Mantle renews its time. An owner that is not refreshed for 3 ms (not
before the end of a Forecast restart) is cut, counted, and the line is free. Where no Mantle is
active and the standby rail is up, a standby claims a released line and the switch-over is counted
and logged; with no release yet, Mantle A claims at once and Mantle B 200 ms after it was ready. A
release not claimed within 2 ms after an expiry raises the alert and a latent fault, and no Mantle
is active; after a hand-over the releasing Mantle takes the line again and the other, where it was
in Standby, is Failed and a latent fault. A granted HAND_OVER with the other in Standby puts the
active in Standby and releases the line; a granted RESTART_STANDBY boots the first die that is off,
cut or failed. With an active Mantle ENTDAA gives it an I3C address, and SETEID then sets its
endpoint. (R359, R363, R364, R366, R515, R532, R550, 11_vexga_dictionary.md) -/
def Obligations.MantleOwnershipPassesAsStated : Prop :=
  (∀ s : State, mantleActive s = true →
    exec .mantleRefresh s = .next { s with mantle := { s.mantle with refreshed := s.now } }) ∧
  (∀ (m : Nat) (s : State), s.mantle.owner = some m →
    let u := advanceTo s (max (s.mantle.refreshed + 3 * msPs) s.fc.restartAt)
    let v := wrE (setDieState u m 4) 0x9000 9 ((rdE (setDieState u m 4) 0x9000 9 + 1) % 2 ^ 32)
    exec .mantleOwnershipExpiry s = .next (releaseLine v none)) ∧
  (∀ (s : State), mantleActive s = false → s.boot.standby = true →
    (∀ t m, s.mantle.freeSince = some t → claimant s = some m →
      let u := becomeActive s m
      let v := wrE u 0x1200 0xA ((rdE u 0x1200 0xA + 1) % 2 ^ 32)
      exec .standbyClaim s = .next (report v { cls := 0x50, kind := 11, place := 133 + m, detail := mantleStates v, tag := refreshCount s })) ∧
    (s.mantle.freeSince = none → claimant s = some 0 → exec .standbyClaim s = .next (becomeActive s 0)) ∧
    (s.mantle.freeSince = none → claimant s = some 1 →
      exec .standbyClaim s = .next (becomeActive (advanceTo s (Tab.get 0 s.mantle.readyAt 1 + 200 * msPs)) 1))) ∧
  (∀ (t : Nat) (s : State), s.mantle.freeSince = some t →
    let u := advanceTo s (t + 2 * msPs)
    (∀ m, s.mantle.handOver = some m →
      let o := 1 - m
      let v := becomeActive (if dieState u o = 2 then setDieState u o 5 else u) m
      exec .mantleClaimTimeout s = .next (latentMantle v o) ∧ exec .handOverReclaim s = .next (latentMantle v o)) ∧
    (s.mantle.handOver = none → exec .mantleClaimTimeout s = .next (raiseAllHb (latentMantle
      { u with mantle := { u.mantle with freeSince := none }, boot := { u.boot with alert := true } }
      (if u.mantle.dieA = 4 then 1 else 0)) 5))) ∧
  (∀ (r : VdpReq) (m : Nat) (s : State), granted s (atEntry r 0x1200 0xE) = true → s.mantle.owner = some m → dieState s (1 - m) = 2 →
    exec (.handOver r) s = .next (served { s := releaseLine (setDieState s m 2) (some m) } (atEntry r 0x1200 0xE))) ∧
  (∀ (r : VdpReq) (m : Nat) (s : State), granted s (atEntry r 0x1200 0xF) = true →
    [0, 1].find? (fun m => [0, 4, 5].contains (dieState s m)) = some m →
    exec (.restartStandby r) s = .next (served { s := setDieState s m 1 } (atEntry r 0x1200 0xF))) ∧
  (∀ (a : Nat) (s : State), mantleActive s = true →
    exec (.entdaa a) s = .next { s with mantle := { s.mantle with i3cAddr := some (a % 128) } }) ∧
  (∀ (eid : Nat) (s : State), mantleActive s = true → s.mantle.i3cAddr.isSome = true →
    exec (.setEndpointId eid) s = .next (wrE s 0x1200 7 (eid % 256)))

/-- An acknowledgement that a Mantle can take removes the notices of that number to its sender and
ends a mailbox's outstanding request. A notice is sent again at 100, 200 and 400 ms, and after its
fourth send is counted lost at 800 ms. A snapshot ends 2 s after its last read. A partial write ends
10 s after its last segment, and with it the upload it belongs to. An open group 10 s after its last
use is free and empty. A context 60 s after its last request goes, with its snapshots, partial
writes and open groups. (R345, R350, R353, R362, R378, 11_vexga_dictionary.md) -/
def Obligations.WhatARequesterHoldsIsReleasedInTime : Prop :=
  (∀ (r : VdpReq) (s : State), r.opcode = 0xA → answersNow s r = true → checkHead s r r.index = 0 →
    let keep := fun (n : Notify) => !(n.seq = r.txid && isTarget s n.target r.src)
    exec (.notifyAck r) s = .next (dropOutstanding
      { s with mantle := { s.mantle with notifies := s.mantle.notifies.filter keep } } r.src)) ∧
  (∀ (target seq : Nat) (n : Notify) (s : State), mantleActive s = true →
    let same := fun (n : Notify) => n.target = target && n.seq = seq
    s.mantle.notifies.find? same = some n →
    let u := advanceTo s (n.first + [0, 100, 200, 400].getD n.sends 800 * msPs)
    (4 ≤ n.sends → exec (.notifyResend target seq) s = .next
      (bump { u with mantle := { u.mantle with notifies := u.mantle.notifies.filter (fun x => !same x) } } 0x1200 4)) ∧
    (n.sends < 4 → exec (.notifyResend target seq) s = .next (emit
      { u with mantle := { u.mantle with notifies := updFirst same (fun x => { x with sends := x.sends + 1 }) u.mantle.notifies } }
      (.notify target seq n.record)))) ∧
  (∀ (id : Nat) (x : Snapshot) (s : State), s.mantle.snapshots.find? (fun x => x.id = id) = some x →
    let u := advanceTo s (x.last + 2 * secPs)
    exec (.snapshotRelease id) s = .next
      { u with mantle := { u.mantle with snapshots := u.mantle.snapshots.filter (fun y => y.id ≠ id) } }) ∧
  (∀ (party : Party) (index sub group : Nat) (w : PartialWrite) (s : State),
    let same := fun (w : PartialWrite) => w.party = party && w.index = index && w.sub = sub && w.group = group
    s.mantle.partials.find? same = some w →
    let u := advanceTo s (w.last + 10 * secPs)
    let v := { u with mantle := { u.mantle with partials := u.mantle.partials.filter (fun x => !same x) } }
    exec (.partialWriteDiscard party index sub group) s = .next
      (if index = 0x1100 && sub = 5 && group = 0 then failUpload v 3 else v)) ∧
  (∀ (n : Nat) (s : State), (Tab.get {} s.mantle.groups n).state = 0 →
    let g := Tab.get {} s.mantle.groups n
    exec (.groupExpiry n) s = .next (putGroup (advanceTo s (g.last + 10 * secPs)) n { g with state := 3, staged := [] })) ∧
  (∀ (party : Party) (c : Context) (s : State), findContext s party = some c →
    exec (.contextRelease party) s = .next (dropContext (advanceTo s (c.last + 60 * secPs)) party))

/-- With an active Mantle and an I3C address, a PLDM sensor reading, state sensor, receiver or FRU
request is answered with its value; every other one with an open value. A granted abort of a running
operation 2, 3 or 4 ends it ABORTED with the units completed, a fill keeping its rows; one of a
running upload ends it ABORTED with the image BAD_SIGNATURE and what was sent of it dropped; of one
that does not run it changes nothing; of an operation that cannot be aborted it is refused. A
granted upload of a whole image in one segment, with no upload under way and the flash not shared,
starts operation 9 and stores the image, VALID where its check passes and else BAD_SIGNATURE, and
ends the operation; a segment that completes nothing is held and moves the position. (R359, R360,
R367, R368, R369, R378, R379, R551, 11_vexga_dictionary.md) -/
def Obligations.SensorsAbortsAndImagesAreServed : Prop :=
  (∀ (eid : Nat) (s : State), mantleActive s = true → s.mantle.i3cAddr.isSome = true →
    (∀ id x, sensorReading s id = some x →
      exec (.pldmRequest eid (.getSensorReading id)) s = .next (emit s (.pldm eid (0#8 :: leBytes 4 (unsigned 32 x))))) ∧
    (∀ id, sensorReading s id = none → exec (.pldmRequest eid (.getSensorReading id)) s = .next
      (nextFree (emit s (.pldm eid (0#8 :: leBytes 8 (openValue s)))))) ∧
    (∀ id x, sensorState s id = some x →
      exec (.pldmRequest eid (.getStateSensorReadings id)) s = .next (emit s (.pldm eid (0#8 :: leBytes 1 x)))) ∧
    (∀ id, sensorState s id = none → exec (.pldmRequest eid (.getStateSensorReadings id)) s = .next
      (nextFree (emit s (.pldm eid (0#8 :: leBytes 8 (openValue s)))))) ∧
    (∀ cmd, cmd ∈ [PldmCmd.getTid, .getVersion, .getTypes, .getCommands, .getPdrRepositoryInfo, .getPdr, .getFruTableMetadata, .other] →
      exec (.pldmRequest eid cmd) s = .next (nextFree (emit s (.pldm eid (0#8 :: leBytes 8 (openValue s)))))) ∧
    (∀ e, exec (.pldmRequest eid (.setEventReceiver e)) s = .next
      (emit { s with mantle := { s.mantle with pldmReceiver := some e } } (.pldm eid [0#8]))) ∧
    exec (.pldmRequest eid .getFruTable) s = .next
      (emit s (.pldm eid (0#8 :: (leBytes 8 (rdE s 0x1000 4) ++ leBytes 8 (rdE s 0x1000 6) ++ leBytes 4 (rdE s 0x1000 7)))))) ∧
  (∀ (id units : Nat) (r : VdpReq) (s : State), 2 ≤ id → id ≤ 4 → granted s (atEntry r (0xA000 + id) 8) = true →
    (opRunning s id = false → exec (.operationAbort id units r) s = .next (served { s := s } (atEntry r (0xA000 + id) 8))) ∧
    (opRunning s id = true →
      let n := min units (getOp s id).total
      let u := if id = 4 then fillRows s n else s
      let v := if id = 2 then { u with tested := [] } else u
      exec (.operationAbort id units r) s = .next (served
        { s := endOp v id 4 0 (if id = 2 then (getOp v 2).position else n) } (atEntry r (0xA000 + id) 8)))) ∧
  (∀ (id units : Nat) (r : VdpReq) (s : State), id = 1 ∨ (5 ≤ id ∧ id ≤ 8) → granted s (atEntry r (0xA000 + id) 8) = true →
    exec (.operationAbort id units r) s = .next (answer s (atEntry r (0xA000 + id) 8) (respOf (atEntry r (0xA000 + id) 8) stRefused 0 []))) ∧
  (∀ (units : Nat) (r : VdpReq) (s : State), granted s (atEntry r 0xA009 8) = true →
    (opRunning s 9 = false → exec (.operationAbort 9 units r) s = .next (served { s := s } (atEntry r 0xA009 8))) ∧
    (opRunning s 9 = true →
      let u := endOp (setOtherImage s { otherImage s with state := 2, version := 0 }) 9 4 0 (getOp s 9).position
      let left := u.mantle.partials.filter (fun w => !(w.index = 0x1100 && w.sub = 5 && w.group = 0))
      exec (.operationAbort 9 units r) s = .next (served { s := { u with mantle := { u.mantle with partials := left } } }
        (atEntry r 0xA009 8)))) ∧
  (∀ (r : VdpReq) (s : State), granted s (atEntry r 0x1100 5) = true → r.opcode = 2 → 0 < r.total → s.boot.spiSel = false →
    opRunning s 9 = false →
    let q := atEntry r 0x1100 5
    let u := beginUpload s r.total
    let i := imageOf r.data
    exec (.imageUpload r) s = .next (answer (endOp (setOtherImage u i) 9 (if i.state = 1 then 2 else 3) 0 (ceilDiv r.data.length 1024))
      q (respOf q 0 0 []))) ∧
  (∀ (r : VdpReq) (s u : State), answersNow s (atEntry r 0x1100 5) = true → duplicateOf s (atEntry r 0x1100 5) = none →
    checkEntry s (atEntry r 0x1100 5) = 0 → contextFree s r.src = true → r.opcode = 2 → r.group = 0 → r.total ≠ 0 → s.boot.spiSel = false →
    opRunning s 9 = false → r.copyFails = false → takeSegment (beginUpload s r.total) (atEntry r 0x1100 5) = (u, none, 0) →
    exec (.imageUpload r) s = .next (answer (uploadPosition u r.src) (atEntry r 0x1100 5) (respOf (atEntry r 0x1100 5) 0 0 [])))

/-- For a function whose link is up and which is not in reset: an aligned 4-byte write of a register
of domain 0 with writable bits leaves in them the value written, or the old value with the bits set,
cleared or toggled, by its window; an aligned 8-byte write acts as its two halves, the lower first,
and a write of another length or alignment raises the access error. A write of a queue's page stores
into its entry window, or rings its tail or head. A write of a status register through the plain
window clears the events it names where its SEQ is current, else sets STALE; through another window
it changes no event register and raises the access error. A write to a domain is posted where none
waits, else WRITE_LOST is raised; once the domain runs the posted write takes effect. TILE_SYNC_ADD,
BASE_SYNC_ADD and FC_WAKE post and apply at once where their domain runs. (R405, R406, R407, R408,
R409, R410, R412, R420, R421, R426, 13_host_interface.md) -/
def Obligations.HostRegisterWritesReachTheirRegisters : Prop :=
  (∀ (fn off : Nat) (data : List Byte) (s : State), fnLive s fn = true → off % 4 = 0 →
    let u := useFn s fn
    let r := regAt fn off
    (data.length = 4 → isStatus r = false → isWriteOnly r = false → (∀ d i, r ≠ .dom d i) → rwMask fn r ≠ 0 →
      let put := fun (window : Nat) =>
        setReg u fn r (windowValue window (regValue u fn r) (leNat data &&& rwMask fn r) &&& rwMask fn r)
      (∀ bar, bar ≠ 2 → exec (.regPlainWrite fn bar off data) s = .next (put 0)) ∧
      exec (.setAliasWrite fn off data) s = .next (put 1) ∧ exec (.clearAliasWrite fn off data) s = .next (put 2) ∧
      exec (.toggleAliasWrite fn off data) s = .next (put 3)) ∧
    (data.length = 4 → isStatus r = true → exec (.setAliasWrite fn off data) s = .next (raiseHb u fn 7)
      ∧ exec (.clearAliasWrite fn off data) s = .next (raiseHb u fn 7)
      ∧ exec (.toggleAliasWrite fn off data) s = .next (raiseHb u fn 7))) ∧
  (∀ (fn off : Nat) (data : List Byte) (s : State), fnLive s fn = true →
    let u := useFn s fn
    let two := fun (window : Nat) => regWrite (regWrite u fn window off (leNat (data.take 4))) fn window (off + 4) (leNat (data.drop 4))
    (data.length = 8 → off % 8 = 0 →
      (∀ bar, bar ≠ 2 → exec (.regPlainWrite fn bar off data) s = .next (two 0)) ∧
      exec (.setAliasWrite fn off data) s = .next (two 1) ∧ exec (.clearAliasWrite fn off data) s = .next (two 2) ∧
      exec (.toggleAliasWrite fn off data) s = .next (two 3)) ∧
    ((data.length = 4 → off % 4 ≠ 0) → (data.length = 8 → off % 8 ≠ 0) →
      (∀ bar, bar ≠ 2 → exec (.regPlainWrite fn bar off data) s = .next (raiseHb u fn 7)) ∧
      exec (.setAliasWrite fn off data) s = .next (raiseHb u fn 7) ∧ exec (.clearAliasWrite fn off data) s = .next (raiseHb u fn 7) ∧
      exec (.toggleAliasWrite fn off data) s = .next (raiseHb u fn 7)) ∧
    (∀ q, globalQueue fn (off / 65536) = some q →
      let o := off % 65536
      (0x8000 ≤ o → o + data.length ≤ 0xA000 → exec (.regPlainWrite fn 2 off data) s = .next
        (modHQ u q (fun x => { x with window := wrBytes x.window (o - 0x8000) data }))) ∧
      (o = 0 → data.length = 4 → exec (.regPlainWrite fn 2 off data) s = .next (writeTail u q (leNat data))) ∧
      (o = 4 → data.length = 4 → exec (.regPlainWrite fn 2 off data) s = .next (writeHead u q (leNat data))))) ∧
  (∀ (off value : Nat) (s : State), value < 2 ^ 32 → off % 4 = 0 →
    (∀ fn, fnLive s fn = true →
      let u := useFn s fn
      let clear := fun (x : StatReg) =>
        if value / 2 ^ 24 = x.seq then { x with ev := x.ev - (x.ev &&& (value % 2 ^ 24)) } else { x with ev := setBit x.ev 23 true }
      (regAt fn off = .hbStat → exec (.statusRegisterWrite fn off value) s = .next
        (modFunc u fn (fun x => { x with stat := clear x.stat }))) ∧
      (regAt fn off = .mboxStat → exec (.statusRegisterWrite fn off value) s = .next
        (modFunc u fn (fun x => { x with mbox := clear x.mbox }))) ∧
      (regAt fn off = .barStat → exec (.statusRegisterWrite fn off value) s = .next
        { u with host := { u.host with barStat := clear u.host.barStat } }) ∧
      (∀ d, regAt fn off = .domStat d → exec (.statusRegisterWrite fn off value) s = .next
        (modDomain u d (fun x => { x with stat := clear x.stat }))) ∧
      (∀ q, regAt fn off = .queue q 0x1C → exec (.statusRegisterWrite fn off value) s = .next
        (modHQ u q (fun x => { x with stat := clear x.stat })))) ∧
    (∀ fn window d i, fnLive s fn = true → window < 4 → regAt fn off = .dom d i → (window = 0 ∨ isWriteOnly (.dom d i) = false) →
      let u := releaseReads (useFn s fn) d
      exec (.domainWrite fn window off value) s = .next
        (if (getDomain u d).write.isSome then raiseDomain u d 3
         else modDomain u d (fun y => { y with write := some { off := off, value := value, window := window } })))) ∧
  (∀ (d : Nat) (x : PostedWrite) (s : State), domainRuns s d = true → (getDomain (releaseReads s d) d).write = some x →
    domainRuns (releaseReads s d) d = true →
    exec (.domainWriteApplied d) s = .next (applyDomain (modDomain (releaseReads s d) d (fun y => { y with write := none })) d x)) ∧
  (∀ (value : Nat) (s : State), fnLive s 0 = true →
    (∀ t d, t < 24 → domainOf 0 (0x40000 + 64 * t) = some d → exec (.tileSyncAdd t value) s = .next
      (settleWrite (regWrite (useFn s 0) 0 0 (0x40000 + 64 * t) (value % 2 ^ 32)) d)) ∧
    exec (.baseSyncAdd value) s = .next (settleWrite (regWrite (useFn s 0) 0 0 0x40600 (value % 2 ^ 32)) 25) ∧
    exec (.fcWake value) s = .next (settleWrite (regWrite (useFn s 0) 0 0 0x41004 (value % 2 ^ 32)) 26))

/-- For a live function: a read of a register outside the stopped domains answers its value; a read
of a stopped domain is held with those before it; a read that is not aligned raises the access
error. Held reads 100 ms old are completed with all ones (not before the end of a Forecast restart),
the register block returns to reset, a posted write is reported lost, and the recovery is logged and
counted. A read of EPOCH_LO latches the count for EPOCH_HI; a read of BAR4_FENCE waits for the
writes before it. A doorbell of a mailbox without an outstanding request, of a length from 24 to
1,048, takes the request: it is performed, or held while the Mantle line is between owners; another
doorbell or length raises its error. A waiting response is put in MBOX_RSP and raises its event.
(R361, R364, R409, R410, R411, R419, R439, R515, 13_host_interface.md) -/
def Obligations.HostReadsAndMailboxesComplete : Prop :=
  (∀ (fn off : Nat) (s : State), fnLive s fn = true → off % 4 = 0 →
    let u := useFn s fn
    ((∀ d i, regAt fn off ≠ .dom d i) → regAt fn off ≠ .epochLo → regAt fn off ≠ .barFence →
      exec (.domainRegisterRead fn off) s = .next (emit u (.readDone fn off (regValue u fn (regAt fn off))))) ∧
    (∀ d i, regAt fn off = .dom d i →
      let v := releaseReads u d
      (domainRuns v d = true →
        exec (.domainRegisterRead fn off) s = .next (emit v (.readDone fn off (regValue v fn (.dom d i))))) ∧
      (domainRuns v d = false → exec (.domainRegisterRead fn off) s = .next (modDomain v d (fun x =>
        { x with reads := x.reads ++ [(fn, off)], since := if x.reads.isEmpty then v.now else x.since })))) ∧
    (let v := modFunc u fn (fun x => { x with latch := epoch u })
     exec (.epochLoRead fn) s = .next (emit v (.readDone fn 0x20 (regValue v fn (regAt fn 0x20)))))) ∧
  (∀ (fn off : Nat) (s : State), fnLive s fn = true → off % 4 ≠ 0 →
    exec (.domainRegisterRead fn off) s = .next (emit (raiseHb (useFn s fn) fn 7) (.readDone fn off 0xFFFFFFFF))) ∧
  (∀ (d : Nat) (s : State), (getDomain (releaseReads s d) d).reads ≠ [] →
    let u := advanceTo (releaseReads s d) (max ((getDomain (releaseReads s d) d).since + 100 * msPs) s.fc.restartAt)
    (releaseReads s d).fc.restartAt = s.fc.restartAt →
    let x := getDomain u d
    let v := x.reads.foldl (fun v r => emit v (.readDone r.1 r.2 0xFFFFFFFF))
      (modDomain u d (fun y => { y with sel := 0, write := none, reads := [] }))
    let v := raiseDomain (if x.write.isSome then raiseDomain v d 3 else v) d 2
    let v := report v { cls := 0x54, kind := b2n (1 ≤ d && d ≤ 24), place := if 1 ≤ d && d ≤ 24 then d - 1 else 0xFF
                        detail := mantleStates v, tag := refreshCount v }
    exec (.domainReadRecovery d) s = .next (wrE v 0x9000 8 ((rdE v 0x9000 8 + 1) % 2 ^ 32))) ∧
  (∀ s : State, fnLive s 0 = true →
    let u := useFn s 0
    exec .bar4FenceRead s = .next (settleFences { u with host := { u.host with fences := u.host.fences ++ [u.host.barNext] } })) ∧
  (∀ (fn value : Nat) (nvFails copyFails : Bool) (s : State), fnLive s fn = true →
    let u := useFn s fn
    let n := value % 2048
    let r := { requestOf fn n (rdBytes (getFunc u fn).req 0 n) with nvFails := nvFails, copyFails := copyFails }
    let v := modFunc u fn (fun x => { x with outstanding := true })
    ((getFunc u fn).outstanding = true → exec (.mboxDoorbell fn value nvFails copyFails) s = .next (raiseMbox u fn 1)) ∧
    ((getFunc u fn).outstanding = false → n < 24 ∨ 1048 < n →
      exec (.mboxDoorbell fn value nvFails copyFails) s = .next (raiseMbox u fn 3)) ∧
    ((getFunc u fn).outstanding = false → 24 ≤ n → n ≤ 1048 → betweenMantles v = false →
      exec (.mboxDoorbell fn value nvFails copyFails) s = .next (vdpAny v r)) ∧
    ((getFunc u fn).outstanding = false → 24 ≤ n → n ≤ 1048 → betweenMantles v = true →
      exec (.mboxDoorbell fn value nvFails copyFails) s = .next (modFunc v fn (fun x => { x with held := some r })))) ∧
  (∀ (fn : Nat) (e : Nat × VdpResp) (s : State), fnLive s fn = true →
    let u := takeHeld (useFn s fn) fn
    u.mantle.mbox.find? (fun e => e.1 = fn) = some e →
    let v := { u with mantle := { u.mantle with mbox := dropFirst (fun x => x.1 = fn) u.mantle.mbox } }
    exec (.mailboxResponse fn) s = .next
      (raiseMbox (modFunc v fn (fun x => { x with outstanding := false, rsp := responseBytes e.2 })) fn 0))

/-- For a live function and a queue of its own: an enable with sizes, bases and slice in their
ranges starts the queue empty with its counts at 0 and its phase at 1; one that is not accepted
leaves it disabled and raises the error; a disable clears the enable, and the queue has stopped once
no entry is left, which is raised. A tail or head doorbell below the ring's size is stored, another
raises the error. The next entry is taken where one is posted, the completion ring has room and no
barrier waits; an entry that breaks the rules ends BAD_ENTRY. An ended entry's record is written at
the tail with the phase, which turns at the ring's end; enough records, or the coalescing time,
signal the vector. With the ring full the record is held and that is raised once. A barrier at the
queue's head ends OK. (R427, R428, R429, R430, R432, R433, 13_host_interface.md) -/
def Obligations.HostQueuesTakeEntriesAndWriteRecords : Prop :=
  (∀ (fn i value q : Nat) (s : State), fnLive s fn = true → globalQueue fn i = some q →
    let u := useFn s fn
    let x := getHQ u q
    let on := setBit value 31 true &&& 0x803FFFFF
    let off := setBit value 31 false &&& 0x803FFFFF
    (bit on 31 = true → bit x.ctrl 31 = false → enableOk x = true → exec (.queueEnable fn i value) s = .next (modHQ u q (fun x =>
      { x with ctrl := on, running := true, sqHead := 0, sqTail := 0, cqTail := 0, cqHead := 0, phase := true,
               fullRaised := false, ents := [], unsignalled := 0 }))) ∧
    (bit on 31 = true → bit x.ctrl 31 = false → enableOk x = false → exec (.queueEnable fn i value) s = .next
      (raiseQueue (modHQ u q (fun x => { x with ctrl := setBit on 31 false })) q 3)) ∧
    (bit off 31 = false → exec (.queueDisable fn i value) s = .next (modHQ u q (fun x => { x with ctrl := off }))) ∧
    (badBell x value (sqSize x) = false → exec (.sqTail fn i value) s = .next (modHQ u q (fun x => { x with sqTail := value }))) ∧
    (badBell x value (sqSize x) = true → exec (.sqTail fn i value) s = .next (raiseQueue u q 4)) ∧
    (badBell x value (cqSize x) = false → exec (.cqHead fn i value) s = .next (modHQ u q (fun x =>
      { x with cqHead := value, fullRaised := x.fullRaised && cqFull { x with cqHead := value } }))) ∧
    (badBell x value (cqSize x) = true → exec (.cqHead fn i value) s = .next (raiseQueue u q 4))) ∧
  (∀ (q : Nat) (s : State),
    let x := getHQ s q
    (x.running = true → bit x.ctrl 31 = false → x.ents = [] →
      exec (.queueDisabled q) s = .next (raiseQueue (modHQ s q (fun x => { x with running := false })) q 0)) ∧
    (∀ entry, canTake x = true →
      let d := if bit x.size 16 then rdBytes x.window (64 * x.sqHead) 64 else fit 64 entry
      let e : HEntry := { idx := x.sqHead, data := d, ended := if sqEntryOk d then none else some (fsBadEntry, 0) }
      exec (.sqEntryFetch q entry) s = .next (modHQ s q (fun x =>
        { x with sqHead := (x.sqHead + 1) % sqSize x, ents := x.ents ++ [e] }))) ∧
    (∀ idx e st d, getEnt s q idx = some e → e.ended = some (st, d) →
      (cqFull x = false →
        let u := emit s (.hostWrite (queueOwner q) (x.cqBase + 32 * x.cqTail) (hostRecord e st d x.phase))
        let last := x.cqTail + 1 = cqSize x
        let v := modHQ u q (fun x => { x with
          cqTail := if last then 0 else x.cqTail + 1, phase := x.phase != last, ents := dropFirst (fun y => y.idx = e.idx) x.ents,
          coalSince := if x.unsignalled = 0 then u.now else x.coalSince, unsignalled := x.unsignalled + 1 })
        exec (.cqRecordWrite q idx) s = .next (if max 1 (x.ctrl / 256 % 256) ≤ (getHQ v q).unsignalled then signalQueue v q else v)) ∧
      (cqFull x = true → x.fullRaised = false → exec (.cqRecordWrite q idx) s = .next
        (raiseQueue (modHQ s q (fun x => { x with fullRaised := true })) q 2))) ∧
    (x.ctrl % 256 ≠ 0 → x.unsignalled ≠ 0 →
      exec (.cqCoalesceTimer q) s = .next (signalQueue (advanceTo s (x.coalSince + x.ctrl % 256 * usPs)) q)) ∧
    (∀ e l, x.ents = e :: l → qeKind e.data = 5 → e.ended = none →
      exec (.barrier q e.idx) s = .next (modEnt s q e.idx (fun x => { x with ended := some (0, 0) }))))

/-- Of an entry in progress of a queue that may issue, with a free tracker entry: a WRITE sends its
next piece with its data, first a piece whose stitch did not match, a failed fetch ends the piece,
and with every piece answered its signal is sent; a READ sends its next piece; a SIGNAL not yet sent
sends its SYNC_ADD; a WAIT not yet sent sends a WATCH that expires with its timeout. At its deadline
a WAIT with a WATCH outstanding ends with status 35 and its tag is quarantined. A WATCH that is not
allowed is answered with the reason; one that is allowed is answered at once where the count has
reached its value, refused with 34 where four are held, else held; the answer ends the WAIT as a
completion does; watches that expire first are discarded at that count. A failure at the host stops
the queue, raises it and logs the address. (R423, R424, R425, R431, R434, R436,
13_host_interface.md) -/
def Obligations.HostEntriesIssueAndEnd : Prop :=
  (∀ (q idx : Nat) (s : State),
    (∀ e data fault, openEnt s q idx 1 = some e → (nextTag s 28).isSome = true → e.again = [] →
      (e.sent < entryPieces e.data →
        let u := modEnt s q idx (fun e => { e with sent := e.sent + 1 })
        exec (.write q idx data fault) s = .next
          (if fault then pieceEnd u q idx e.sent 32 0 else issuePiece u q idx e.sent 2 e data none)) ∧
      (entryPieces e.data ≤ e.sent → e.answered = entryPieces e.data → e.signal = 0 →
        exec (.write q idx data fault) s = .next (issueAdd s q idx e))) ∧
    (∀ e data fault i c l, openEnt s q idx 1 = some e → (nextTag s 28).isSome = true → e.again = (i, c) :: l →
      let u := modEnt s q idx (fun e => { e with again := l })
      exec (.write q idx data fault) s = .next (if fault then pieceEnd u q idx i 32 0 else issuePiece u q idx i 2 e data (some c))) ∧
    (∀ e, openEnt s q idx 2 = some e → e.sent < entryPieces e.data → (nextTag s 28).isSome = true →
      exec (.read q idx) s = .next
        (issuePiece (modEnt s q idx (fun e => { e with sent := e.sent + 1 })) q idx e.sent 1 e [] none)) ∧
    (∀ e, openEnt s q idx 3 = some e → e.signal = 0 → exec (.signal q idx) s = .next (issueAdd s q idx e)) ∧
    (∀ e, openEnt s q idx 4 = some e → e.signal = 0 →
      let u := modEnt s q idx (fun x => { x with deadline := s.now + waitPs x })
      exec (.wait q idx) s = .next (issueSignal u q idx 0x60 e (qeSync e.data * 2 ^ 32 + qeWait e.data)
        (leBytes 8 (epoch u + waitPs e / countPs)))) ∧
    (∀ e tag, getEnt s q idx = some e → signalTag s q idx = some tag → qeKind e.data = 4 →
      exec (.waitTimeout q idx) s = .next (modEnt (quarantineTag (putTrack (advanceTo s e.deadline) 28 tag none) 28 tag) q idx
        (fun x => { x with signal := 2, ended := some (35, 0) }))) ∧
    (∀ cq, (getHQ s q).running = true →
      let x := getHQ s q
      let fn := queueOwner q
      exec (.queueDmaFault q cq) s = .next (report (raiseQueue (stopQueue s q) q 1)
        { cls := 0x70, kind := 12, unit := fn, detail := fn + 32 * 256
          tag := if cq then x.cqBase + 32 * x.cqTail else x.sqBase + 64 * x.sqHead }))) ∧
  (∀ (st : Nat) (p : Pkt) (s : State),
    let name := qOperand p / 2 ^ 32 % 65536
    let reply := fun (u : State) (status : Nat) =>
      enqueue u st (replyTo u p 0x61 (leBytes 1 status ++ leBytes 1 0 ++ leBytes 2 (qNonce p) ++ leBytes 4 0 ++ leBytes 8 0))
    (tornDown s p = true → exec (.watch st p) s = .next (reply s fsAborted)) ∧
    (tornDown s p = false → syncRefusal s st p name ≠ 0 → exec (.watch st p) s = .next
      (reply (if syncRefusal s st p name = fsAsleep then bump s 0x9000 0xA else s) (syncRefusal s st p name)))) ∧
  (∀ (st : Nat) (p : Pkt) (s : State), tornDown s p = false →
    let name := qOperand p / 2 ^ 32 % 65536
    let v : Word := BitVec.ofNat 32 (qOperand p)
    let key := watchKey st name
    let c := syncGet s st name
    let reply := fun (status value : Nat) =>
      enqueue s st (replyTo s p 0x61 (leBytes 1 status ++ leBytes 1 0 ++ leBytes 2 (qNonce p) ++ leBytes 4 0 ++ leBytes 8 value))
    syncRefusal s st p name = 0 →
    (reaches c v = true → exec (.watch st p) s = .next (reply 0 c.toNat)) ∧
    (reaches c v = false → 4 ≤ (Tab.get [] s.fab.watches key).length → exec (.watch st p) s = .next (reply 34 0)) ∧
    (reaches c v = false → (Tab.get [] s.fab.watches key).length < 4 →
      let w : Watch := { value := v, slice := p.slice, expiry := field (qData p) 0 8, station := st
                         reply := replyTo s p 0x61 (leBytes 1 0 ++ leBytes 1 0 ++ leBytes 2 (qNonce p) ++ leBytes 4 0 ++ leBytes 8 0) }
      exec (.watch st p) s = .next
        { s with fab := { s.fab with watches := Tab.put [] s.fab.watches key (Tab.get [] s.fab.watches key ++ [w]) } })) ∧
  (∀ (p : Pkt) (x : Track) (s : State), p.fabric = false → getTrack s 28 p.tag = some x → x.nonce = aNonce p →
    s.fab.torn.contains p.slice = false →
    let u := putTrack s 28 p.tag none
    let r : BridgeEnd := { track := x, status := aStatus p, detail := aDetail p, value := aValue p, data := aData p, poison := p.poison }
    exec (.watchFire p) s = .next (drainEnded { u with fab := { u.fab with ended := u.fab.ended ++ [r] } })) ∧
  (∀ (t name : Nat) (w : Watch) (ws : List Watch) (s : State), Tab.get [] s.fab.watches (watchKey t name) = w :: ws →
    let first := ws.foldl (fun m x => min m x.expiry) w.expiry
    let u := atCount s first
    exec (.watchExpiry t name) s = .next { u with fab := { u.fab with
      watches := Tab.put [] u.fab.watches (watchKey t name) ((w :: ws).filter (fun x => first < x.expiry)) } })

/-- With the link up and BAR4 open, an aligned write or read takes the next number and sends its
pieces; a misaligned one raises the error, and a read of a closed window answers all ones. PERST#
high is remembered with its time; with the rails on and at least one lane the link trains no earlier
than 10 ms after the rails, stores width, rate and flit mode, is up, and below x16 or 64 GT/s raises
and logs the degraded link. Loss of bus mastering stops every running queue of the function as a
failure at the host. A reset of a VF clears its registers, queues, vectors and mailbox, and is
complete at once where the tracker counts nothing, else at 10 ms with the tags quarantined, counted
and logged. A reset of the PF, and a hot reset, act on every function; one that loses the link takes
it down. D3hot with a queue enabled acts as a reset. (R308, R400, R404, R434, R437, R438, R440,
13_host_interface.md) -/
def Obligations.Bar4LinkAndFunctionResetsAct : Prop :=
  (∀ (off : Nat) (data : List Byte) (len : Nat) (s : State), fnLive s 0 = true →
    let u := useFn s 0
    (barOpen u = true → barAligned u off data.length = true → exec (.bar4Write off data) s = .next (startBar u true off data.length data)) ∧
    (barOpen u = true → barAligned u off data.length = false → exec (.bar4Write off data) s = .next (raiseBar u 2)) ∧
    (barOpen u = true → barAligned u off len = true → exec (.bar4Read off len) s = .next (startBar u false off len [])) ∧
    (barOpen u = false → exec (.bar4Read off len) s = .next (emit u (.barRead off (List.replicate len 0xFF#8))))) ∧
  (∀ s : State, s.host.perst = false →
    exec .perstDeassert s = .next { s with host := { s.host with perst := true, perstAt := s.now } }) ∧
  (∀ (width rate : Nat) (flit : Bool) (s : State), s.boot.mainOn = true → s.host.perst = true → width ≠ 0 →
    let u := advanceTo s (max (s.boot.mainAt + 10 * msPs) s.host.perstAt)
    let v := wrE (wrE (wrE u 0x1030 1 (width % 256)) 0x1030 2 (rate % 256)) 0x1030 3 (b2n flit)
    let w := { v with host := { v.host with linkUp := true } }
    exec (.pcieLinkTraining width rate flit) s = .next
      (if width < 16 || rate < 64 then report (raiseHb w 0 0) { cls := 0x72, kind := 12 } else w)) ∧
  (∀ (fn : Nat) (s : State), fnLive s fn = true →
    exec (.busMasterDisable fn) s = .next ((queuesOf fn).foldl (fun s q =>
      if (getHQ s q).running then dmaFault s q ((getHQ s q).sqBase + 64 * (getHQ s q).sqHead) else s) (useFn s fn))) ∧
  (∀ (v : Nat) (s : State), s.host.linkUp = true → 1 ≤ v → v < 64 → (getFunc s v).reset = none →
    exec (.vfReset v) s = .next (resetFn s v true) ∧ exec (.functionLevelReset v) s = .next (resetFn s v true) ∧
    ((queuesOf v).any (fun q => bit (getHQ s q).ctrl 31) = true → exec (.d3hotEntry v) s = .next (resetFn s v true))) ∧
  (∀ s : State, s.host.linkUp = true →
    exec (.functionLevelReset 0) s = .next (resetAll s) ∧
    (∀ lost, exec (.hotReset lost) s = .next
      { resetAll s with host := { (resetAll s).host with linkUp := (resetAll s).host.linkUp && !lost } })) ∧
  (∀ (fn t : Nat) (s : State), (getFunc s fn).reset = some t →
    (trackedBy s fn = [] → exec (.vfResetComplete fn) s = .next (modFunc s fn (fun x => { x with reset := none }))) ∧
    (trackedBy s fn ≠ [] →
      let u := (trackedBy s fn).foldl (fun s e => quarantineTag (putTrack s 28 (e.1 % 16384) none) 28 (e.1 % 16384))
        (advanceTo s (t + 10 * msPs))
      let v := wrE u 0x5600 0xB ((rdE u 0x5600 0xB + 1) % 2 ^ 32)
      exec (.vfResetComplete fn) s = .next (modFunc (raiseHb (report v { cls := 0x71, kind := 12, unit := fn, detail := fn }) 0 6) fn
        (fun x => { x with reset := none }))))

/-- With the main rails on: a source that is present, or in force, and not failed fails; where it is
the one in force the best qualified source takes its place, counted and logged, and a reversion
posted to it is dropped. A source that is absent or failed (the secondary only while usable) starts
qualifying at its return, and is qualified 10 s later, a reversion being posted where it is better
and reverting is allowed. Holdover in force fails once: logged, and the synthesiser runs free. A
follower with samples stores their average in 0x3100:04: unaligned it steps at once; beyond 64 ns
with no slice admitted the step is set for the next front; else the offset is slewed. (R442, R444,
R445, R446, R450, R451, R452, R453, R533, R557, 14_clocks_crossings.md) -/
def Obligations.ReferencesFailReturnAndAlignTheEpoch : Prop :=
  (∀ (src : Nat) (s : State), s.boot.mainOn = true → src < 2 →
    (refState s src ≠ 0 ∨ s.clk.inForce = src → refState s src ≠ 3 →
      let u := setRef s src 3
      let v := match u.clk.revert with
        | some (r, _) => if r = src then { u with clk := { u.clk with revert := none } } else u
        | none => u
      exec (.referenceFailure src) s = .next (if v.clk.inForce = src then changeRef v (bestRef v) else v)) ∧
    ((refState s src = 0 ∨ refState s src = 3) → (src = 1 → secondaryUp s = true) →
      exec (.referenceReturn src) s = .next
        (setRef { s with clk := { s.clk with refSince := Tab.put 0 s.clk.refSince src s.now } } src 1)) ∧
    (refState s src = 1 →
      let u := setRef (advanceTo s (Tab.get 0 s.clk.refSince src + 10 * secPs)) src 2
      let better := src < u.clk.inForce ∧ (∀ r f, u.clk.revert = some (r, f) → src < r)
      let may := rdE u 0x3000 5 = 1 ∨ u.boot.readyAt = none ∨ u.clk.freeRun = true
      (better → may → exec (.referenceQualified src) s = .next
        { u with clk := { u.clk with revert := some (src, frontAt (epoch u + 8192)) } }) ∧
      (¬ (better ∧ may) → exec (.referenceQualified src) s = .next u))) ∧
  (∀ s : State, s.boot.mainOn = true → s.clk.inForce = 2 → s.clk.freeRun = false →
    let u := setRef s 2 3
    exec .holdoverFailure s = .next (refReport { u with clk := { u.clk with freeRun := true } } 0x5A 2)) ∧
  (∀ s : State, epochSource s ≠ 0xFFFF → s.clk.offN ≠ 0 →
    let avg := s.clk.offSum / (s.clk.offN : Int)
    let u := wrE { s with clk := { s.clk with offSum := 0, offN := 0 } } 0x3100 4 (unsigned 32 avg)
    let far := avg < -64000 ∨ 64000 < avg
    (s.clk.aligned = false → exec .epochOffsetAverage s = .next (stepEpoch u avg)) ∧
    (s.clk.aligned = true → far → noJobs u = true → exec .epochOffsetAverage s = .next
      { u with clk := { u.clk with stepAt := some (frontAt (epoch u + 1)), stepBy := avg, slewLeft := 0 } }) ∧
    (s.clk.aligned = true → (¬ far ∨ noJobs u = false) → exec .epochOffsetAverage s = .next
      (noteOffset { u with clk := { u.clk with slewLeft := -avg } } avg)))

/-- At a clock front, which is the front named where it is ahead and aligned and else the next one,
the count reaches the front with its slew, a replica that disagreed is logged, and then every change
posted for the count, before or after an epoch step, takes effect in the order of R459. A fall-back
request of an open tile outside Still is counted and posted for the first front at least 313 counts
away. Of a tile in fall-back, 10 ms after its last request, the steps start to be withdrawn. A
granted mode up to 3, or a granted clock limit, is stored and posted for the first front at least
8,192 counts away, which the answer carries. (R380, R386, R454, R456, R457, R458, R459, R475,
14_clocks_crossings.md) -/
def Obligations.ClockFrontsFallBackModesAndLimits : Prop :=
  (∀ (front : Nat) (nvFails : Bool) (replica : Option Int) (s : State),
    let f := if front % 4096 = 0 && epoch s < front && front < 2 ^ 64 then front else (epoch s / 4096 + 1) * 4096
    let u := atCount (slewFronts s (f / 4096 - epoch s / 4096)) f
    let v := epochAtFront (match replica with
      | some x => report u { cls := 0x5D, detail := refStates u, tag := unsigned 64 x }
      | none => u)
    let n := min (epoch u) (epoch v)
    exec (.clockFront front nvFails replica) s = .next
      (sleepAtFront (rotationAtFront (switchesAtFront (jobsAtFront (clocksAtFront n
        (reversionAtFront n (groupsAtFront nvFails n v)))))))) ∧
  (∀ (t : Nat) (s : State), tileOpen s t = true →
    (modeNow s ≠ 3 → exec (.fallBackRequest t) s = .next (modTile (bump s 0x3200 4) t (fun tl => { tl with
      fallPost := tl.fallPost ++ [frontAt (epoch (bump s 0x3200 4) + 313)], fallLast := s.now, fallUp := false }))) ∧
    ((getTile s t).fall.isSome = true → (getTile s t).fallUp = false → exec (.fallBackWithdraw t) s = .next
      (modTile (advanceTo s ((getTile s t).fallLast + 10 * msPs)) t (fun tl => { tl with fallUp := true })))) ∧
  (∀ (r : VdpReq) (s : State), granted s (atEntry r 0x2000 1) = true → leNat r.data ≤ 3 →
    let front := frontAt (epoch s + 8192)
    exec (.modeSelect r) s = .next (served
      { s := { (wrE s 0x2000 1 (leNat r.data)) with clk := { s.clk with modeAt := some (leNat r.data, front) } }, data := leBytes 8 front }
      (atEntry r 0x2000 1))) ∧
  (∀ (r : VdpReq) (s : State), granted s (atEntry r 0x3200 1) = true → clockOk (leNat r.data) = true →
    let front := frontAt (epoch s + 8192)
    exec (.tileClockLimit r) s = .next (served
      { s := { (wrE s 0x3200 1 (leNat r.data)) with clk := { s.clk with limitAt := some (leNat r.data, front) } }, data := leBytes 8 front }
      (atEntry r 0x3200 1)))

/-- An estimate of a clocked tile joins its last five. With the main rails on, the package estimate
is the sum of the tiles' means, the fixed part and the offset; it is stored and joins the last ten;
in Still the skips follow the cap, and outside it an estimate more than a tenth above the cap runs
the loop out of turn. Each 15,625 counts, outside Still, the loop iterates over the estimates of its
window, and the next window starts with the cap in force and no estimates. A skip that was set to
end ends at its time. A granted cap from 1,000 to 8,000 is stored. A housekeeping round stores
voltage and current, counts energy, settles the offset, notes the input and reads every sensor.
(R381, R382, R383, R470, R471, R472, R474, R475, 15_power_thermal.md) -/
def Obligations.PowerIsEstimatedAndCapped : Prop :=
  (∀ (t total dyn : Nat) (s : State), (clockedTiles s).contains t = true →
    exec (.tilePowerEstimate t total dyn) s = .next
      { s with pow := { s.pow with tileEst := Tab.mod [] s.pow.tileEst t (fun l => lastN 5 (l ++ [(total, dyn)])) } }) ∧
  (∀ (fixed : Nat) (s : State), s.boot.mainOn = true →
    let p := (((tilesPower s (·.1) + fixed : Nat) : Int) + s.pow.offset).toNat
    let u := wrE s 0x2100 3 p
    let w := u.pow
    let v := { u with pow := { w with pkgEst := lastN 10 (w.pkgEst ++ [(p, tilesPower u (·.2))]), estSum := w.estSum + p, estN := w.estN + 1 } }
    exec (.packagePowerEstimate fixed) s = .next
      (if modeNow v = 3 then stillSkip v p else if 11 * capNow v < 10 * p then outOfTurn v else v)) ∧
  (∀ s : State, s.boot.mainOn = true →
    let u := atCount s ((s.pow.iterAt + 15625) % 2 ^ 64)
    let v := if modeNow u = 3 then u else iterate u
    exec .capLoopIteration s = .next
      { v with pow := { v.pow with iterAt := epoch v, capUsed := some (capInForce v), pkgEst := [] } }) ∧
  (∀ s : State, s.pow.skipEnd ≠ 0 →
    let u := advanceTo s s.pow.skipEnd
    exec .capSkipEnd s = .next (settleSkip { u with pow := { u.pow with skipEnd := 0 } })) ∧
  (∀ (r : VdpReq) (s : State), granted s (atEntry r 0x2100 1) = true → 1000 ≤ leNat r.data → leNat r.data ≤ 8000 →
    exec (.powerCap r) s = .next (served { s := wrE s 0x2100 1 (leNat r.data) } (atEntry r 0x2100 1))) ∧
  (∀ (mv ma : Nat) (s : State), s.boot.standby = true →
    let u := wrE (wrE s 0x2200 3 (mv % 2 ^ 32)) 0x2200 4 (ma % 2 ^ 32)
    exec (.housekeepingRound mv ma) s = .next (readSensors (noteInput (settleOffset (countEnergy u mv ma) mv ma) mv)))

/-- With the standby rail up, a sample of a powered die with stages and a working sensor is judged,
and whether all diodes are cool is settled; of another die it is only kept. A throttled tile's
ceiling outside Still is judged 10 ms after its last step: a fall of 1 degree starts the time again,
else the next front lowers it by 200 MHz, not below 800. Once its throttle has ended the ceiling
rises by 100 MHz at a front each 10 ms. A granted release with every diode cool clears the latch and
starts the 60 s, and with a diode that is not cool is refused. A rail fault of a clocked tile is
reported, drops its ceiling and resets the tile; its recovery ends the reset and applies the
throttle again. An input fault takes the main rails down and is logged where they were up. Input in
range since 1 s, or diodes cool since 60 s, starts the rails again. (R477, R481, R482, R483, R484,
R486, R487, R488, R515, 15_power_thermal.md) -/
def Obligations.HeatThrottlesAndRailFaultsReset : Prop :=
  (∀ (die : Nat) (temp : Int) (s : State), s.boot.standby = true → die < 139 →
    (die < 132 → diePowered s die = true → sensorFailed s die = false →
      exec (.temperatureSample die temp) s = .next (settleCool (judgeSample s die temp))) ∧
    ((132 ≤ die ∨ diePowered s die = false) → exec (.temperatureSample die temp) s = .next
      (settleCool { s with pow := { s.pow with temps := Tab.put none s.pow.temps die (some temp) } }))) ∧
  (∀ (t c : Nat) (s : State), (getTile s t).thr.ceiling = some c → modeNow s ≠ 3 →
    let x := (getTile s t).thr
    let u := advanceTo s (x.since + 10 * msPs)
    let temp := throttleTemp u t
    (x.on = true → temp + 10 ≤ x.temp → exec (.throttleCeilingDrop t) s = .next
      (modTile u t (fun tl => { tl with thr := { x with since := u.now, temp := temp } }))) ∧
    (x.on = true → ¬ temp + 10 ≤ x.temp → exec (.throttleCeilingDrop t) s = .next (modTile u t (fun tl => { tl with
      thr := { x with since := u.now, temp := temp, post := some (max 800 (c - 200), frontAt (epoch u + 1)), drop := true } }))) ∧
    (x.on = false → exec (.throttleRecoveryStep t) s = .next (modTile u t (fun tl => { tl with
      thr := { x with since := u.now, post := some (c + 100, frontAt (epoch u + 1)), drop := false } })))) ∧
  (∀ (r : VdpReq) (s : State), granted s (atEntry r 0x2300 7) = true → allCool s = true →
    exec (.releaseThermalLatch r) s = .next (served
      { s := persist (wrE { s with pow := { s.pow with cool := some s.now } } 0x2300 6 0) 0x2300 6 } (atEntry r 0x2300 7))) ∧
  (∀ (r : VdpReq) (s : State), granted s (atEntry r 0x2300 7) = true → allCool s = false →
    exec (.releaseThermalLatch r) s = .next (answer s (atEntry r 0x2300 7) (respOf (atEntry r 0x2300 7) stRefused 0 []))) ∧
  (∀ (t : Nat) (s : State), (clockedTiles s).contains t = true →
    exec (.railFault t) s = .next (settleTimers (tileReset
      (modTile (tileReport s 0x1A t 0 0) t (fun tl => { tl with railLow := true, thr := {} })) t 2 0)) ∧
    ((getTile s t).railLow = true → exec (.railRecovery t) s = .next
      (settleTimers (settleThrottle (finishReset (modTile s t (fun tl => { tl with railLow := false })) t) t)))) ∧
  (∀ s : State,
    let u := mainOff s false
    let v := { u with pow := { u.pow with inputOff := u.boot.standby, inputGood := none } }
    (s.boot.mainOn = true → exec .inputFault s = .next
      (nextFree (report v { cls := 0x63, detail := openValue v % 2 ^ 32, tag := openNth v 1 }))) ∧
    (s.boot.mainOn = false → exec .inputFault s = .next v)) ∧
  (∀ (t : Nat) (s : State), s.pow.cool = some t → s.pow.thermalOff = true → rdE s 0x2300 6 = 0 → s.pow.inputOff = false →
    let u := advanceTo s (t + 60 * secPs)
    let v := { u with pow := { u.pow with thermalOff := false }, boot := { u.boot with cause := 3 } }
    exec .thaw s = .next (if mayStart v && v.boot.mainEnable then startMains v 3 else v)) ∧
  (∀ (t : Nat) (s : State), s.pow.inputGood = some t → s.pow.inputOff = true →
    let u := advanceTo s (t + secPs)
    let v := { u with pow := { u.pow with inputOff := false }, boot := { u.boot with cause := 4 } }
    exec .inputRecovery s = .next (if mayStart v && v.boot.mainEnable then startMains v 4 else v))

/-- A granted START_CALIBRATION with none running, rails on and the module READY, or its last
calibration FAILED, takes the lanes out, clears the marks and starts operation 1 at stage 1; with
one running it is BUSY. The end of a stage takes that stage's passes: two that agree, or two of
three, decide a setting, which is applied, and passes that decide none mark the unit failed, but for
a receiver that its group's spare stands in for; it counts the third passes, adds its units to the
position and goes to the next stage, or to the last after stage 6 or a fatal failure; Hem
transmitters are squelched after stage 1. The end stores the outcome and the time and ends the
operation: FAILED is logged with every transmitter squelched; else tiles and dies held by channels
that now pass return; before READY a full calibration advances the power-up, or fails it. The end of
a rotation step applies the corrections of its line within their largest, marks what failed of its
line and gives the line back. Two good sweeps in turn whose centres differ by at most 1 move a tap
by at most 4; sweeps that disagree, or a window below 20 taps, keep the tap and are logged. A die
under recalibration is Active where all of its channels decide a tap, else failed. (R489, R491,
R492, R493, R495, R497, R499, R503, R504, R506, R507, 16_calibration.md) -/
def Obligations.CalibrationRunsItsStagesAndTracksChannels : Prop :=
  (∀ (r : VdpReq) (s : State), granted s (atEntry r 0x4000 2) = true →
    (opRunning s 1 = false → s.boot.mainOn = true → s.boot.readyAt.isSome = true ∨ s.boot.result = 3 →
      let u := startOp (clearMarks (lanesOut s)) 1 (unitsTotal (clearMarks (lanesOut s))) 0
      let v := { u with cal := { u.cal with stage := 1, since := u.now, fatal := false, step := none } }
      exec (.startCalibration r) s = .next (served { s := putOp v 1 { getOp v 1 with result := 1 } } (atEntry r 0x4000 2))) ∧
    (opRunning s 1 = true →
      exec (.startCalibration r) s = .next (answer s (atEntry r 0x4000 2) (respOf (atEntry r 0x4000 2) stBusy 0 [])))) ∧
  (∀ (fields lines groups : List Measure) (s : State), opRunning s 1 = true → 1 ≤ s.cal.stage → s.cal.stage ≤ 6 →
    let k := s.cal.stage
    let ms := (fields ++ lines ++ groups).filter (fun m => stageOfMeasure m = k)
    let ends := fun (m : Measure) => (m.quantity = 0 || (m.quantity = 1 && idKind m.id = 4)) && (settingOf m).isNone
    let fatal := ms.any ends
    let x := spareReceivers s (ms.filter (fun m => !ends m))
    let one := fun (v : State) (m : Measure) => if lineGone v m.id then v else match settingOf m with
      | some y => applySetting v m y
      | none => markUnit v (m.id, m.quantity)
    let u := countThird (x.2.foldl one x.1) (countP (fun m => !agree m.quantity (result1 m) (result2 m)) ms)
    let o := getOp u 1
    let next := if fatal || k = 6 then 7 else k + 1
    let v := putOp u 1 { o with position := o.position + unitsOfStage u k, result := if next = 7 then k else next }
    let w := { v with cal := { v.cal with stage := next, fatal := v.cal.fatal || fatal } }
    exec (.calibrationStageDone fields lines groups) s = .next (if k = 1 then squelchGroups w (fun _ => true) else w)) ∧
  (∀ s : State, opRunning s 1 = true → s.cal.stage = 7 →
    let o := getOp s 1
    let ready := s.boot.readyAt.isSome
    let out := fun (v : Nat) =>
      let u := wrE (wrE s 0x4000 1 v) 0x4000 8 ((s.now - s.cal.since) / msPs % 2 ^ 32)
      let w := endOp u 1 (if v = 3 then 3 else 2) (v * 2 ^ 24) (if v = 3 then o.position else o.total)
      { w with cal := { w.cal with stage := 0 } }
    (s.cal.fatal = false →
      let v := if s.cal.marked.isEmpty then 1 else 2
      let u := releaseHeld (out v)
      exec .calibrationDone s = .next (if ready then u
        else { u with boot := { u.boot with stage := max u.boot.stage 6, result := 0, degraded := u.boot.degraded || v = 2 } })) ∧
    (s.cal.fatal = true →
      let u := report (squelchAll (out 3))
        { cls := 0x69, detail := o.result % 256 + (if o.result = 1 then 0 else 256), tag := o.position }
      exec .calibrationDone s = .next (if ready then u else { u with boot := { u.boot with result := 3 } }))) ∧
  (∀ (inner links : List Measure) (x : RecalStep) (s : State), s.cal.step = some x →
    let ms := (inner ++ links).filter (fun m => idKind m.id < 3 && idDetail m.id % 32 = x.line && 2 ≤ m.quantity && m.quantity ≤ 5)
    let one := fun (v : State) (m : Measure) => if lineGone v m.id then v else match settingOf m with
      | some y => if resultGap m.quantity y (settingNow v m) ≤ largestCorrection m.quantity then applySetting v m y
        else markUnit v (m.id, m.quantity)
      | none => markUnit v (m.id, m.quantity)
    let u := countThird (ms.foldl one s) (countP (fun m => !agree m.quantity (result1 m) (result2 m)) ms)
    let back : Port → Port := fun p => { p with recal := none }
    let v := { u with bas := { u.bas with ports := u.bas.ports.map (fun e => (e.1, back e.2)) }, cal := { u.cal with step := none } }
    exec (.rotationStepEnd inner links) s = .next
      (if x.line = 16 then wrE v 0x4000 4 ((epoch v - v.cal.rotation) * countPs / msPs % 2 ^ 32) else v)) ∧
  (∀ (id low high : Nat) (s : State), tracked s id = true →
    let passing := low + 2 ^ 32 * high
    let last := Tab.get 0 s.cal.sweeps id
    let kept := fun (c : Nat) => { s with cal := { s.cal with sweeps := Tab.put 0 s.cal.sweeps id c } }
    (tapCentre passing = none → exec (.seamTapSweep id low high) s = .next (sweepLost (kept 0) id)) ∧
    (∀ c, tapCentre passing = some c →
      let m := tapMean (last - 1) c
      let u := kept (c + 1)
      let good := tapGap (last - 1) c ≤ 1 ∧ tapGap m (Tab.get 0 s.cal.taps id) ≤ 4
      (last = 0 → exec (.seamTapSweep id low high) s = .next u) ∧
      (last ≠ 0 → good → exec (.seamTapSweep id low high) s = .next
        { u with cal := { u.cal with taps := Tab.put 0 u.cal.taps id m } }) ∧
      (last ≠ 0 → ¬ good → exec (.seamTapSweep id low high) s = .next (sweepLost u id)))) ∧
  (∀ (t die : Nat) (all : List Measure) (s : State), t < 24 → die < 3 → (getDie s t die).state = 3 →
    let ms := all.filter (fun m => idPlace m.id = t && (idKind m.id = 8 || idKind m.id = 9) && idUnit m.id / 6 = die && m.quantity = 6)
    let u := modDie s t die (fun d => { d with state := if ms.all (fun m => (settingOf m).isSome) then 1 else 4, draining := false })
    let one := fun (v : State) (m : Measure) => if lineGone v m.id then v else match settingOf m with
      | some y => applySetting v m y
      | none => markUnit v (m.id, m.quantity)
    exec (.channelRecalibration t die all) s = .next
      (countThird (ms.foldl one u) (countP (fun m => !agree m.quantity (result1 m) (result2 m)) ms)))

/-- With the rails on, a sample of a lit group outside a gap: the second low one in turn is a cause
of switch-over, any other is kept. In a gap the drive is applied at G0 + 16; the line check closes
at G0 + 2,400, where bad lines or a second cause are a latent fault; the gap ends at G0 + 2,500,
completes where every line is good and no cause hit it, else the group is lost, and the oldest
waiting switch-over begins. A granted SWITCH_LASER_GROUP of a group with a standby, no gap and none
waiting switches it over, and of any other is refused; a granted restart of a die that is not
active, in a gap or under check puts it under check, which ends with the die in standby or failed
and logged. (R388, R485, R526, R527, R528, R529, R530, R531, 17_faults.md) -/
def Obligations.LaserGroupsSwitchOverAndRestart : Prop :=
  (∀ (g low : Nat) (s : State), g < 4 → s.boot.mainOn = true → laserGap s g = none → bit s.las.lost g = false →
    laserDie s (laserOwner s g) = 1 →
    let isLow := low &&& laserLines g ≠ 0
    (isLow → bit s.las.low g = true → exec (.laserMonitorSample g low) s = .next
      (laserCause { s with las := { s.las with low := setBit s.las.low g false } } g)) ∧
    (isLow → bit s.las.low g = false → exec (.laserMonitorSample g low) s = .next
      { s with las := { s.las with low := setBit s.las.low g true } }) ∧
    (¬ isLow → exec (.laserMonitorSample g low) s = .next { s with las := { s.las with low := setBit s.las.low g false } })) ∧
  (∀ (g : Nat) (x : Gap) (s : State), laserGap s g = some x →
    (x.drive = false → exec (.laserDriveApply g) s = .next
      (setGap (atCount s ((x.g0 + 16) % 2 ^ 64)) g (some { x with drive := true }))) ∧
    (∀ bad, x.drive = true → x.checked = false →
      let u := setGap (atCount s ((x.g0 + 2400) % 2 ^ 64)) g (some { x with checked := true, failed := bad &&& laserLines g })
      exec (.laserLineCheck g bad) s = .next
        (if bad &&& laserLines g ≠ 0 || x.hit then laserReport u 0x4A 9 (2 * g + x.die) g x.g0 else u)) ∧
    (x.checked = true →
      let u := setGap (atCount s ((x.g0 + 2500) % 2 ^ 64)) g none
      exec (.laserGapEnd g) s = .next (nextWaiting (if x.failed = 0 && !x.hit then completeGap u g x else failGap u g x)))) ∧
  (∀ (r : VdpReq) (s : State), granted s (atEntry r 0x4200 6) = true → leNat r.data < 4 → laserGap s (leNat r.data) = none →
    (standbyDie s (leNat r.data)).isSome = true → s.las.waiting.any (fun w => w % 4 = leNat r.data) = false → s.boot.mainOn = true →
    exec (.switchLaserGroup r) s = .next (served { s := switchOver s (leNat r.data) true } (atEntry r 0x4200 6))) ∧
  (∀ (r : VdpReq) (s : State), granted s (atEntry r 0x4200 6) = true → leNat r.data < 4 →
    (laserGap s (leNat r.data)).isSome = true ∨ standbyDie s (leNat r.data) = none
      ∨ s.las.waiting.any (fun w => w % 4 = leNat r.data) = true ∨ s.boot.mainOn = false →
    exec (.switchLaserGroup r) s = .next (answer s (atEntry r 0x4200 6) (respOf (atEntry r 0x4200 6) stRefused 0 []))) ∧
  (∀ (r : VdpReq) (s : State), granted s (atEntry r 0x4200 7) = true → leNat r.data < 8 → laserDie s (leNat r.data) ≠ 1 →
    Tab.get false s.las.checks (leNat r.data) = false → laserGap s (leNat r.data / 2) = none →
    exec (.restartLaserDie r) s = .next (served
      { s := { s with las := { s.las with checks := Tab.put false s.las.checks (leNat r.data) true } } } (atEntry r 0x4200 7))) ∧
  (∀ (k : Nat) (s : State), Tab.get false s.las.checks k = true →
    let u := { s with las := { s.las with checks := Tab.put false s.las.checks k false } }
    exec (.laserRestartCheckDone k true) s = .next (setLaserDie u k 2) ∧
    exec (.laserRestartCheckDone k false) s = .next
      (nextFree (laserReport (setLaserDie u k 3) 0x48 9 k (k / 2) (openValue (setLaserDie u k 3)))))

/-- The first report of a queue is taken by the engine and leaves the queue. A squall ends 10 ms
after its last report, and the repeats are logged as class 0x81. With the rails on, a scrub of the
tables logs each repaired record, and makes each lost record invalid and logs it. A granted
CLEAR_THROUGH of a record not after the newest keeps the records after it. A granted write of
diagnostic mode turns it on, or off with every injection and override ended. In diagnostic mode a
granted injection of a present unit is queued while fewer than 16 are, else it is BUSY, and a
granted tap override holds the tap; out of it both are refused. A missed heartbeat of the Forecast
logic is logged by an active Mantle, and the logic restarts within 5 ms. (R394, R398, R399, R514,
R515, R520, R521, R522, R602, 17_faults.md) -/
def Obligations.ErrorsAreLoggedClearedScrubbedAndInjected : Prop :=
  (∀ (k : Nat) (x : Report) (l : List Report) (s : State), Tab.get [] s.log.queue k = x :: l →
    exec (.errorReport k) s = .next (takeReport { s with log := { s.log with queue := Tab.put [] s.log.queue k l } } x)) ∧
  (∀ (c : Nat) (q : Squall) (s : State), Tab.get none s.log.squall c = some q →
    let u := setSquall (atCount s ((q.last + 1562500) % 2 ^ 64)) c none
    exec (.squallEnd c) s = .next (logRecord u { cls := 0x81, detail := c, tag := q.repeats, stamp := epoch u, diag := diagMode u })) ∧
  (∀ (fixed : List Nat) (bad : List (TableRef × Nat)) (s : State), s.boot.mainOn = true →
    exec (.tableScrub fixed bad) s = .next (bad.foldl (fun s b => report (invalidate s b.1) { cls := 0x44, tag := b.2 })
      (fixed.foldl (fun s a => report s { cls := 0x43, tag := a }) s))) ∧
  (∀ (k : Nat) (r : VdpReq) (s : State),
    let q := atEntry r (if k < 24 then 0x8100 + k else 0x8000) 4
    granted s q = true → atOrBefore (leNat r.data) (logOf s k).newest = true →
    exec (.clearThrough k r) s = .next (served { s := clearLog s k (leNat r.data) } q)) ∧
  (∀ (r : VdpReq) (s : State), granted s (atEntry r 0xF000 1) = true →
    (leNat r.data = 1 → exec (.diagnosticMode r) s = .next (served { s := wrE s 0xF000 1 1 } (atEntry r 0xF000 1))) ∧
    (leNat r.data ≠ 1 →
      let u := wrE s 0xF000 1 0
      let v := wrB { u with injections := [], cal := { u.cal with overrides := [] } } 0xF000 3 []
      let lines := rdE v 0xF000 7
      let w := wrE (wrE (wrE v 0xF000 7 0) 0xF000 8 0) 0xF000 10 0
      exec (.diagnosticMode r) s = .next (served { s := if lines = 0 then w else linesChanged w 0 } (atEntry r 0xF000 1)))) ∧
  (∀ (r : VdpReq) (s : State), granted s (atEntry r 0xF000 2) = true → injectionOk s r.data = true → diagMode s = true →
    s.injections.length < 16 →
    let v := r.data
    let j : Injection := { target := field v 0 1, fault := field v 1 1, place := field v 2 2, unit := field v 4 2
                           left := if field v 8 4 = 0 then none else some (field v 8 4), bitOff := field v 12 4 }
    exec (.faultInjection r) s = .next (served { s := { s with injections := s.injections ++ [j] } } (atEntry r 0xF000 2))) ∧
  (∀ (r : VdpReq) (s : State), granted s (atEntry r 0xF000 4) = true → tapOk s r.data = true → diagMode s = true →
    let v := r.data
    let id := seamId (field v 0 1) (field v 1 1) (field v 2 1) (field v 3 1)
    exec (.seamTapOverride r) s = .next (served
      { s := { s with cal := { s.cal with overrides := Tab.put 0 s.cal.overrides id (field v 4 1 + 1) } } } (atEntry r 0xF000 4))) ∧
  (∀ (r : VdpReq) (s : State), granted s (atEntry r 0xF000 2) = true → injectionOk s r.data = true →
    (16 ≤ s.injections.length → exec (.faultInjection r) s = .next
      (answer s (atEntry r 0xF000 2) (respOf (atEntry r 0xF000 2) stBusy 0 []))) ∧
    (s.injections.length < 16 → diagMode s = false → exec (.faultInjection r) s = .next
      (answer s (atEntry r 0xF000 2) (respOf (atEntry r 0xF000 2) stRefused 0 [])))) ∧
  (∀ (r : VdpReq) (s : State), granted s (atEntry r 0xF000 4) = true → tapOk s r.data = true → diagMode s = false →
    exec (.seamTapOverride r) s = .next (answer s (atEntry r 0xF000 4) (respOf (atEntry r 0xF000 4) stRefused 0 []))) ∧
  (∀ s : State, mantleActive s = true → s.fc.restartAt ≤ s.now →
    let u := report s { cls := 0x53, detail := mantleStates s, tag := refreshCount s }
    exec .forecastHeartbeatMiss s = .next
      { u with fc := { u.fc with samples := [], flags := 0, fresh := 0, restartAt := u.now + 5 * msPs } })

/-- With the standby rail up and the logic running, a sample of a channel joins its last five and
sets its flag by the record; while heat or input holds the module off a decision forgets what is
fresh, a flag with action stay sets STAY, else STAY ends and a fresh wake flag or a held request
wakes a sleeping module. A granted sleep request deeper than the state, with nothing changing, no
STAY, no wake flag and READY, is accepted for the first front at least 8,192 counts on; one for the
present state changes nothing; one for a shallower state holds the request to wake and then enters
it; one to wake holds the request; while the state changes it is BUSY, and with STAY or a wake flag
it is refused. With the tiles closed the Doze stage drains them; the Nap stage squelches all but the
wake links and darkens circuits; the Hibernate stage takes the rails off. A wake completes once no
DRAM die is in self-refresh or leaving it, with the tiles open, and then a shallower state asked for
is entered. (R482, R536, R537, R538, R539, R540, R541, R542, R544, 18_forecast.md) -/
def Obligations.TheForecastUnitDecidesSleepsAndWakes : Prop :=
  (∀ (ch : Nat) (x : Int) (s : State), s.boot.standby = true → ch < 22 → s.fc.restartAt ≤ s.now →
    let u := { s with fc := { s.fc with samples := Tab.mod [] s.fc.samples ch (fun l => lastN 5 (l ++ [signed 16 (unsigned 16 x)])) } }
    let old := bit u.fc.flags ch
    let new := flagAfter (channelRec u ch) (lowBand ch) old (filtered u ch)
    let fresh := setBit u.fc.fresh ch (new && (!old || bit u.fc.fresh ch))
    exec (.channelSample ch x) s = .next (coolByChannel { u with fc := { u.fc with flags := setBit u.fc.flags ch new, fresh := fresh } } ch x)) ∧
  (∀ s : State, s.boot.standby = true → s.fc.restartAt ≤ s.now →
    (s.pow.thermalOff = true ∨ s.pow.inputOff = true → exec .forecastDecision s = .next { s with fc := { s.fc with fresh := 0 } }) ∧
    (s.pow.thermalOff = false → s.pow.inputOff = false → s.fc.flags &&& actionMask s 2 ≠ 0 →
      exec .forecastDecision s = .next { s with fc := { s.fc with stay := true, fresh := 0 } }) ∧
    (s.pow.thermalOff = false → s.pow.inputOff = false → s.fc.flags &&& actionMask s 2 = 0 →
      let fresh := (if s.fc.stay then s.fc.flags else s.fc.fresh) &&& actionMask s 1
      let u := { s with fc := { s.fc with stay := false, fresh := 0 } }
      exec .forecastDecision s = .next (if s.fc.sleep ≠ 0 && (fresh ≠ 0 || s.fc.held.isSome) then decideWake u fresh else u))) ∧
  (∀ (r : VdpReq) (s : State), granted s (atEntry r 0x9000 2) = true →
    (leNat r.data = 0 → exec (.sleepRequest r) s = .next (served { s := requestWake s } (atEntry r 0x9000 2))) ∧
    (1 ≤ leNat r.data → leNat r.data ≤ 3 → changing s = true →
      exec (.sleepRequest r) s = .next (answer s (atEntry r 0x9000 2) (respOf (atEntry r 0x9000 2) stBusy 0 []))) ∧
    (1 ≤ leNat r.data → leNat r.data ≤ 3 → changing s = false → leNat r.data = s.fc.sleep →
      exec (.sleepRequest r) s = .next (served { s := s } (atEntry r 0x9000 2))) ∧
    (leNat r.data ≤ 3 → changing s = false → s.fc.sleep < leNat r.data → s.fc.stay = true ∨ s.fc.flags &&& actionMask s 1 ≠ 0 →
      exec (.sleepRequest r) s = .next (answer s (atEntry r 0x9000 2) (respOf (atEntry r 0x9000 2) stRefused 1 []))) ∧
    (1 ≤ leNat r.data → changing s = false → leNat r.data < s.fc.sleep → s.fc.sleep ≤ 3 → s.fc.flags &&& actionMask s 1 = 0 →
      exec (.sleepRequest r) s = .next (served { s := requestWake { s with fc := { s.fc with next := some (leNat r.data) } } }
        (atEntry r 0x9000 2))) ∧
    (leNat r.data ≤ 3 → changing s = false → s.fc.sleep < leNat r.data → s.fc.stay = false → s.fc.flags &&& actionMask s 1 = 0 →
      s.boot.readyAt.isSome = true → exec (.sleepRequest r) s = .next (served
        { s := { s with fc := { s.fc with entry := some (leNat r.data), front := frontAt (epoch s + 8192) } } } (atEntry r 0x9000 2)))) ∧
  (∀ s : State,
    (s.fc.entry.isSome = true → s.fc.closed = true → s.fc.sleep = 0 → exec .dozeStageDone s = .next (stageEnds (drainTiles s) 1)) ∧
    (∀ v, s.fc.entry = some v → 2 ≤ v → s.fc.closed = true → s.fc.sleep = 1 → exec .napStageDone s = .next
      (stageEnds (circuitsDark (squelchGroups s (fun l => !wakeLink s l))) 2)) ∧
    (s.fc.entry = some 3 → s.fc.sleep = 2 →
      let u := pldmEvent (mainOff (squelchGroups s (fun _ => true)) true) 12 2 3
      exec .hibernateStageDone s = .next { u with fc := { s.fc with sleep := 3, closed := true, entry := none } }) ∧
    (s.fc.waking = true → s.fc.entry = none → (s.fc.sleep = 3 → s.boot.readyAt.isSome = true) → diesAsleep s = false →
      let u := setSleep (openTiles s) 0
      let v := { u with fc := { u.fc with waking := false, closed := false } }
      exec .wakeComplete s = .next (match v.fc.next with
        | some k => acceptEntry { v with fc := { v.fc with next := none } } k
        | none => v)))

/-- The standby rail's rise starts the Forecast unit with empty logs, and the Mantles where their
reset is high. A die that boots with another active joins as standby where the running image is
valid, else is failed; with none active it boots the first valid image and Mantle A claims a line
that is not free for a claim. A restart signal cuts the die, releases its line and boots it. SPI_SEL
high gives the flash away; low takes it back with the images found. MAIN_ENABLE high starts the
rails where nothing forbids it, and its rise is the cause they then start for. While start-up runs
under an active Mantle, the end of stages 2, 3, 4, 6, 7, 8 and 9 does that stage's work and goes on.
Guests found are stored and their ports settled; a present guest whose link fails is in reset until
it is retrained, which is counted and logged. (R377, R547, R549, R550, R552, R553, R554, R555, R558,
R565, R566, 19_bringup.md) -/
def Obligations.TheModulePowersUpAndStarts : Prop :=
  (∀ s : State, s.boot.standby = false →
    let boots := if s.boot.resetHigh then 1 else 0
    exec .standbyRailUp s = .next { s with
      boot := { s.boot with standby := true, stage := 0, result := 0, cause := 0, warm := false, alert := true }
      mantle := { s.mantle with dieA := boots, dieB := boots, idle := some s.now }
      pow := { s.pow with inputGood := some s.now }
      log := {} }) ∧
  (∀ (m : Nat) (bad0 bad1 : Bool) (s : State), m < 2 → dieState s m = 1 → s.boot.standby = true → s.boot.spiSel = false →
    (mantleActive s = true → exec (.mantleBootDone m bad0 bad1) s = .next
      (if (imageAt s s.boot.running).state = 1 then mantleReady s m else setDieState s m 5)) ∧
    (mantleActive s = false →
      let c0 := s.mantle.copy0
      let c1 := s.mantle.copy1
      let m1 := { s.mantle with copy0 := { c0 with valid := c0.valid && !bad0 }, copy1 := { c1 with valid := c1.valid && !bad1 } }
      let u := { s with mantle := m1 }
      (∀ i, bootImage u = some i →
        let v := mantleReady { u with boot := { u.boot with running := i, other := i ≠ bootSelect u } } m
        exec (.mantleBootDone m bad0 bad1) s = .next (if m = 0 && v.mantle.freeSince.isNone then becomeActive v 0 else v)) ∧
      (bootImage u = none → exec (.mantleBootDone m bad0 bad1) s = .next { u with boot := { u.boot with alert := true } }))) ∧
  (∀ (m : Nat) (s : State), m < 2 → s.boot.standby = true → s.boot.resetHigh = true →
    let u := cutMantle s m
    exec (.mantleRestartN m) s = .next (setDieState (if u.mantle.owner = some m then releaseLine u none else u) m 1)) ∧
  (∀ (a b : Option (List Byte)) (s : State),
    exec (.spiSel true a b) s = .next { s with boot := { s.boot with spiSel := true } } ∧
    (s.boot.spiSel = true → exec (.spiSel false a b) s = .next { s with boot := { s.boot with
      spiSel := false, imageA := (a.map imageOf).getD s.boot.imageA, imageB := (b.map imageOf).getD s.boot.imageB } })) ∧
  (∀ s : State,
    let u := { s with boot := { s.boot with mainEnable := true, cause := if s.boot.mainEnable then s.boot.cause else 6 } }
    (mayStart u = true → exec .mainRailsStart s = .next (startMains u u.boot.cause)) ∧
    (mayStart u = false → exec .mainRailsStart s = .next u)) ∧
  (∀ (dies : Nat) (failed : List (Nat × Nat)) (mats : List MatRef) (s : State), starting s = true →
    let c := exec (.startUpStageDone dies failed mats) s
    (s.boot.stage = 2 → c = .next (setStage (stageRails s) 3)) ∧ (s.boot.stage = 3 → c = .next (setStage (stageLasers s dies) 4)) ∧
    (s.boot.stage = 4 → c = .next (stagePattern s failed mats)) ∧ (s.boot.stage = 6 → c = .next (setStage (stageClear s) 7)) ∧
    (s.boot.stage = 7 → c = .next (setStage (stageConfigure s) 8)) ∧ (s.boot.stage = 8 → s.part ≠ 1 → c = .next (stageReady s)) ∧
    (s.boot.stage = 9 → c = .next (stageReady s))) ∧
  (∀ (sites : List GuestSite) (s : State), starting s = true → s.part = 1 → s.boot.stage = 8 →
    let empty := fun (s : State) (g : Nat) => wrB (wrE (wrE (wrE (wrE s (0x1040 + g) 1 0) (0x1040 + g) 2 0) (0x1040 + g) 3 0) (0x1040 + g) 5 0) (0x1040 + g) 4 []
    exec (.guestDiscovery sites) s = .next
      (setStage (settleRoles (sites.foldl foundGuest ((List.range 4).foldl empty { s with guestSites := 0 }))) 9)) ∧
  (∀ (g : Nat) (s : State), g < 4 → bit s.guestSites (24 + g) = true →
    ((getTile s (24 + g)).reset = none → exec (.guestLinkFailure g) s = .next
      (modTile s (24 + g) (fun tl => { tl with reset := some { cause := 0, since := s.now } }))) ∧
    ((getTile s (24 + g)).reset.isSome = true →
      let u := modTile s (24 + g) (fun tl => { tl with reset := none })
      exec (.guestLinkRetrained g) s = .next (guestReport (wrE u (0x1040 + g) 5 ((rdE u (0x1040 + g) 5 + 1) % 2 ^ 32)) g)))

/-- MAIN_ENABLE low begins an orderly shutdown where the rails are on or the module hibernates. Its
steps are teardown of every job, drained closed tiles, squelched Hem transmitters, the host bridge
down, the laser owners stored, and the rails off; after the last a restart asked for resets and
boots the Mantles. A granted restart begins the shutdown and remembers it; a granted erase first
forgets everything kept. MODULE_RESET_N low takes the rails off and holds the Mantles at once; high
again frees them where the standby rail is up. Withdrawal of the supply takes the rails off. Loss of
the standby rail leaves the machine as after reset, but for the store, the thermal latch in it,
retirement records, images, part, pins, the factory's entries, and the laser owners. (R398, R482,
R548, R573, R574, R578, 19_bringup.md) -/
def Obligations.TheModuleShutsDownAndResets : Prop :=
  (∀ s : State, s.boot.mainOn = true ∨ s.fc.sleep = 3 →
    exec .mainEnableDeassert s = .next (beginShutdown { s with boot := { s.boot with mainEnable := false } })) ∧
  (∀ (k : Nat) (s : State), s.boot.shutdown = some k →
    let u := { s with boot := { s.boot with shutdown := some (k + 1) } }
    (k = 0 → exec .orderlyShutdownStep s = .next ((jobs u).foldl (fun s j => finishTeardown (startTeardown s j.1) j.1) u)) ∧
    (k = 1 → exec .orderlyShutdownStep s = .next { drainTiles u with fc := { (drainTiles u).fc with closed := true } }) ∧
    (k = 2 → exec .orderlyShutdownStep s = .next (squelchGroups u (fun _ => true))) ∧
    (k = 3 → exec .orderlyShutdownStep s = .next (hostDown u)) ∧
    (k = 4 → exec .orderlyShutdownStep s = .next { u with las := { u.las with stored := u.las.own } }) ∧
    (5 ≤ k →
      let v := mainOff u false
      let w := { v with boot := { v.boot with shutdown := none, restart := false } }
      let x := freeMantles (holdMantles w)
      exec .orderlyShutdownStep s = .next (if s.boot.restart then { x with boot := { x.boot with cause := 2 } } else w))) ∧
  (∀ (r : VdpReq) (s : State), granted s (atEntry r 0x1100 7) = true → s.boot.shutdown = none →
    let u := beginShutdown s
    exec (.restartModule r) s = .next (served { s := { u with boot := { u.boot with restart := true } } } (atEntry r 0x1100 7))) ∧
  (∀ (r : VdpReq) (s : State), granted s (atEntry r 0xF000 9) = true → leNat r.data = 0x45524153 → s.boot.shutdown = none →
    let u := beginShutdown (forgetAll s)
    exec (.erasePersistentStore r) s = .next (served { s := { u with boot := { u.boot with restart := true } } } (atEntry r 0xF000 9))) ∧
  (∀ s : State,
    let u := holdMantles (mainOff s false)
    exec .moduleResetN s = .next { u with boot := { u.boot with resetHigh := false, cause := 1, shutdown := none, restart := false } } ∧
    (let v := mainOff s false
     exec .j1Withdrawal s = .next { v with pow := { v.pow with inputOff := v.boot.standby, inputGood := none } })) ∧
  (∀ s : State, s.boot.resetHigh = false →
    let u := { s with boot := { s.boot with resetHigh := true } }
    exec .moduleResetNRelease s = .next (if u.boot.standby then freeMantles u else u)) ∧
  (∀ s : State, s.boot.standby = true → ∃ u, exec .standbyRailLoss s = .next u ∧
    u.now = s.now ∧ u.out = s.out ∧ u.part = s.part ∧ u.fusedTiles = s.fusedTiles ∧ u.retiredTiles = s.retiredTiles ∧
    u.mem = [] ∧ u.mantle = { copy0 := s.mantle.copy0, copy1 := s.mantle.copy1 } ∧
    u.dict = s.dict.filter (fun e => factoryKey e.1) ∧ u.boot.imageA = s.boot.imageA ∧ u.boot.imageB = s.boot.imageB ∧
    u.boot.standby = false ∧ u.boot.mainOn = false ∧ u.log = {} ∧
    u.las = { stored := if s.boot.mainOn then s.las.own else s.las.stored })

/-- The logical number of a compute tile that is neither fused off nor retired is the number of such
tiles below it; a tile that is fused off or retired has none. The same holds of the cores of each
type within a tile. The logical tile numbers of a part run without gaps from 0 to one less than its
number of usable tiles: each number below that count is held by a tile, which physTile finds from
it, and no tile holds any other number. (R26) -/
def Obligations.LogicalNumbersCountTheUsableUnits : Prop :=
  ∀ s : State,
    let usable := fun (i : Nat) => !bit s.fusedTiles i && !bit s.retiredTiles i
    let count := (List.range 24).countP usable
    (∀ t < 24, logicalTile s t = if usable t then some ((List.range t).countP usable) else none) ∧
    (∀ (t kind p : Nat), p < coreCount kind →
      let tl := getTile s t
      let fused := if kind = 0 then tl.fusedM else if kind = 1 then tl.fusedV else tl.fusedS
      let retired := if kind = 0 then tl.retiredM else if kind = 1 then tl.retiredV else tl.retiredS
      let kept := fun (i : Nat) => !bit fused i && !bit retired i
      logicalCore tl kind p = if kept p then some ((List.range p).countP kept) else none) ∧
    (∀ n < count, ∃ t < 24, logicalTile s t = some n ∧ physTile s n = some t) ∧
    (∀ t < 24, ∀ n, logicalTile s t = some n → n < count)

/-- An INT8 code reads as an integer from -128 to 127 and an INT4 code as one from -8 to 7: the
two's complement value of its bits, with no NaN or infinity among the codes. Every integer of that
range is the value of a code. (R36) -/
def Obligations.IntegerCodesAreTheirIntegers : Prop :=
  let value := fun (v : Val) => match v with
    | .fin neg m 0 => some (if neg then -(m : Int) else (m : Int))
    | _ => none
  (∀ c < 256, value (decodeElem .int8 c) = some (signed 8 c) ∧ -128 ≤ signed 8 c ∧ signed 8 c ≤ 127) ∧
  (∀ c < 16, value (decodeElem .int4 c) = some (signed 4 c) ∧ -8 ≤ signed 4 c ∧ signed 4 c ≤ 7) ∧
  (∀ x : Int, -128 ≤ x → x ≤ 127 → ∃ c < 256, value (decodeElem .int8 c) = some x) ∧
  (∀ x : Int, -8 ≤ x → x ≤ 7 → ∃ c < 16, value (decodeElem .int4 c) = some x)

/-- For every packet whose fields keep the widths of R247, reading its bytes (header, header check,
body) gives the packet itself: no field is lost, moved or cut. Only the arrival stamp is no part of
the bytes. A string of fewer than 32 bytes, and one whose header check does not fit its first 30
bytes, reads as no packet. (R247, R248, 08_hem_links.md) -/
def Obligations.PacketsReadBackFromTheirBytes : Prop :=
  (∀ p : Pkt, p.wf = true → parsePkt (pktBytes p) = some { p with stamp := 0 }) ∧
  (∀ l : List Byte, l.length < 32 ∨ field l 30 2 ≠ (crc16 (l.take 30)).toNat → parsePkt l = none)

/-- For every accumulator whose value fits 256 bits, whose anchor lies from -512 to 511 and whose
term count fits 64 bits, and every Pair byte, a spill makes a record of 48 bytes, reading the record
gives the accumulator unchanged, and a fill at the record's own anchor leaves it unchanged. The Pair
byte does not matter to a fill. (R48, 02_exact_arithmetic.md) -/
def Obligations.SpilledAccumulatorsFillExactly : Prop :=
  ∀ (a : Cea) (pair : Nat), -(2 ^ 255 : Int) ≤ a.c → a.c < 2 ^ 255 → -512 ≤ a.anchor → a.anchor ≤ 511 → a.terms < 2 ^ 64 →
    (spillRecord a pair).length = 48 ∧ readRecord (spillRecord a pair) = a ∧
    fillFrom a.anchor (readRecord (spillRecord a pair)) = a

/-- For any values entered into an empty accumulator at any anchor: C stays within 256-bit two's
complement. Where neither window flag is set at the end, C times 2 to the anchor is exactly the sum
of the finite values (in units of any 2^base that divides them and the anchor). If another order of
the same values also ends without a window flag, it ends in the same accumulator: the same C, the
same states NAN, PINF and NINF, the same flags. Its value read out and its conversion to any format
are then the same bits. (R44, R45, R46, R66, R68, 02_exact_arithmetic.md) -/
def Obligations.ExactSumsDoNotDependOnOrder : Prop :=
  ∀ (anchor : Int) (l : List Val),
    let a := ceaTotal anchor l
    (-(2 ^ 255 : Int) ≤ a.c ∧ a.c < 2 ^ 255) ∧
    (∀ base : Int, base ≤ anchor → (∀ n m e, Val.fin n m e ∈ l → base ≤ e) → a.high = false → a.low = false →
      a.c * 2 ^ (anchor - base).toNat = (l.map (scaledVal base)).sum) ∧
    (∀ l' : List Val, l.Perm l' →
      let b := ceaTotal anchor l'
      a.high = false → a.low = false → b.high = false → b.low = false →
      b = a ∧ ∀ f rnd sat, encodeElem f rnd sat (ceaVal b) = encodeElem f rnd sat (ceaVal a))

/-- For a headroom h of 1 to 24 and at most 2^h codes, each NaR or within the bound of R61: if one
is NaR the sum is NaR; otherwise the sum is their integer sum, of magnitude at most 2^63 - 2^h, and
no addition leaves the range. Any splitting of the codes into parts, in any order, each part summed
by itself and the part sums then added, gives the same code and no overflow. Minimum and maximum are
commutative and associative on all codes, NaR included, and NaR absorbs in them. (R61, R62, R66,
02_exact_arithmetic.md) -/
def Obligations.AnchoredSumsDoNotDependOnOrderOrGrouping : Prop :=
  (∀ h, 1 ≤ h → h ≤ 24 → ∀ l : List Nat, (∀ x ∈ l, anchoredValid h x) → l.length ≤ 2 ^ h →
    (narCode ∈ l → anchoredTotal l = (narCode, false)) ∧
    (narCode ∉ l → anchoredTotal l = (unsigned 64 (l.map (signed 64)).sum, false) ∧
      (l.map (signed 64)).sum.natAbs ≤ 2 ^ 63 - 2 ^ h) ∧
    (∀ parts : List (List Nat), parts.flatten.Perm l →
      anchoredTotal (parts.map (fun p => (anchoredTotal p).1)) = anchoredTotal l)) ∧
  (∀ x y z : Nat, x < 2 ^ 64 → y < 2 ^ 64 → z < 2 ^ 64 →
    anchoredMin x y = anchoredMin y x ∧ anchoredMin (anchoredMin x y) z = anchoredMin x (anchoredMin y z) ∧
    anchoredMax x y = anchoredMax y x ∧ anchoredMax (anchoredMax x y) z = anchoredMax x (anchoredMax y z)) ∧
  (∀ x : Nat, anchoredMin narCode x = narCode ∧ anchoredMax narCode x = narCode)

/-- For every accumulator whose C is 0 and whose states NAN, PINF and NINF are clear, whatever its
anchor and flags, the conversion to every format, under every rounding and either saturate bit,
gives the code of all zero bits, +0, and raises no flag of its own; so does the conversion to
Anchored-64 at every anchor and headroom, and to an MX element under every scale byte but 0xFF.
(R47) -/
def Obligations.ZeroResultsConvertToPlusZero : Prop :=
  ∀ (a : Cea), a.c = 0 → a.nan = false → a.pinf = false → a.ninf = false →
    (∀ f rnd sat, encodeElem f rnd sat (ceaVal a) = (0, 0#8)) ∧
    (∀ anchor h, (anchoredOfCea anchor h a).1 = 0) ∧
    (∀ f x rnd sat, x ≠ 0xFF → mxElem f x rnd sat (ceaVal a) = (0, 0#8))

/-- For a tile and a range of tile addresses each of which exists (in DRAM by either mapping, or
on-die by logical core), a raw write of bytes reads back byte for byte from the same addresses,
whatever region the range lies in. Every byte whose place no address of the range names reads as
before: every byte of another tile among them. Only memory and the stitch cells of the tile change.
(R10, R94, R102, R103, R140, 04_tile_memory.md) -/
def Obligations.RawWritesReadBackAndTouchNothingElse : Prop :=
  ∀ (s : State) (t a : Nat) (l : List Byte), t < 28 → (∀ i < l.length, (locOf (getTile s t) (a + i)).isSome = true) →
    let u := rawWrite s t a l
    bytesAt u t a l.length = l ∧
    (∀ k, (∀ i < l.length, (locOf (getTile s t) (a + i)).map (byteKey t) ≠ some k) → rd8 u.mem k = rd8 s.mem k) ∧
    (∀ v b x, v < 28 → v ≠ t → locOf (getTile s v) b = some x → byteAt u v b = byteAt s v b) ∧
    u = { s with mem := u.mem, cells := u.cells }

/-- State.reset meets the invariant. No command waits, no message has left, no time has passed. No
rail is up, no stage of start-up has run and no Mantle is active. Every scalar entry of the
dictionary holds its default and every byte-string entry is empty. No job is admitted, no long
operation has run, no injection is pending, no error is logged. Every host queue is disabled, every
integer and floating-point register of every S-core is 0 and it is in machine mode with no exception
taken, every sync object is 0, and every byte of memory reads 0. That these values, where the spec
states none, are 0 or empty is the model's choice (log entries 3 and 5). (R101, R371, R399, R425,
00_scope.md, 12_dictionary_reference.md) -/
def Obligations.ResetIsTheUnpoweredModule : Prop :=
  State.reset.Inv ∧ State.reset.pending = [] ∧ State.reset.out = [] ∧ State.reset.now = 0 ∧
  State.reset.boot.standby = false ∧ State.reset.boot.mainOn = false ∧ State.reset.boot.stage = 0 ∧
  mantleActive State.reset = false ∧
  (∀ index sub, rdE State.reset index sub = dictDefault (dictKey index sub) ∧ rdB State.reset index sub = []) ∧
  noJobs State.reset = true ∧ (∀ id, opRunning State.reset id = false) ∧ State.reset.injections = [] ∧
  (∀ k, logOf State.reset k = {}) ∧ (∀ q, bit (getHQ State.reset q).ctrl 31 = false) ∧
  (∀ t p r, xReg State.reset t p r = 0#64) ∧ (∀ t p, getSCore State.reset t p = {}) ∧ (∀ t name, syncGet State.reset t name = 0#32) ∧
  (∀ k, rd8 State.reset.mem k = 0#8)

/-- For every command and every state, exec answers a next state. The queue, the part number and the
fused tiles are as before, time does not go back, the messages that had left stand in front of those
that leave, the counter of free values does not fall, and the invariant of the model (memory in
canonical form, at most 16 injection records) holds after if it held before. A command that
writesMemory does not name leaves every byte of memory as it was. That a command whose condition
does not hold changes nothing instead of stopping is the model's choice (log entry 1). (00_scope.md,
95_what_each_step_holds.md) -/
def Obligations.EveryCommandCompletes : Prop :=
  ∀ (i : Instr) (s : State), ∃ u, exec i s = .next u ∧ Follows s u ∧ (writesMemory i = false → u.mem = s.mem)

/-- For every state that meets the invariant, whichever command waits in front or none at all, step
answers a next state, and that state meets the invariant: memory lists its bytes in strictly rising
order of place and lists no byte that is 0, and at most 16 fault-injection records are pending
(R602). The form of memory and its contents at reset are the model's choice (log entry 5). (R101,
R102, R127, R140, R399, R602, 04_tile_memory.md, 17_faults.md) -/
def Obligations.StepKeepsTheInvariant : Prop :=
  ∀ s : State, s.Inv → ∃ u, step s = .next u ∧ u.Inv

/-- No command makes more than 16 injection records pending where no more than 16 were. A write of a
valid record to 0xF000:02 in diagnostic mode that passes the checks up to the entry's own rules adds
its record at the end while fewer than 16 are pending, so that 16 can be. While 16 are pending such
a write is refused: the state is the one before, with the status BUSY answered, and its record is
not queued. (R602) -/
def Obligations.SixteenInjectionsMayBePending : Prop :=
  (∀ (i : Instr) (s u : State), s.injections.length ≤ 16 → exec i s = .next u → u.injections.length ≤ 16) ∧
  (∀ (r : VdpReq) (s : State), granted s (atEntry r 0xF000 2) = true → injectionOk s r.data = true → diagMode s = true →
    s.injections.length < 16 →
    let j : Injection := { target := field r.data 0 1, fault := field r.data 1 1, place := field r.data 2 2, unit := field r.data 4 2
                           left := if field r.data 8 4 = 0 then none else some (field r.data 8 4), bitOff := field r.data 12 4 }
    ∃ u, exec (.faultInjection r) s = .next u ∧ u.injections = s.injections ++ [j]) ∧
  (∀ (r : VdpReq) (s : State), granted s (atEntry r 0xF000 2) = true → injectionOk s r.data = true →
    s.injections.length = 16 →
    exec (.faultInjection r) s = .next (answer s (atEntry r 0xF000 2) (respOf (atEntry r 0xF000 2) stBusy 0 [])) ∧
    (answer s (atEntry r 0xF000 2) (respOf (atEntry r 0xF000 2) stBusy 0 [])).injections = s.injections)

/-- Queue i of the physical function is global queue i for i up to 31 and exists for no other i.
Queue i of virtual function v (1 to 63) is global queue 32 + 8(v - 1) + i for i up to 7 and exists
for no other i. No other function owns a queue. Every number below 536 is the number of exactly one
queue of one function, the one that queueOwner names, and no number from 536 on is. (R425) -/
def Obligations.QueueNumbersFollowTheFunctions : Prop :=
  (∀ i, globalQueue 0 i = if i < 32 then some i else none) ∧
  (∀ v i, 1 ≤ v → v ≤ 63 → globalQueue v i = if i < 8 then some (32 + 8 * (v - 1) + i) else none) ∧
  (∀ v i, 64 ≤ v → globalQueue v i = none) ∧
  (∀ q, q < 536 → ∃ i, globalQueue (queueOwner q) i = some q ∧
    ∀ fn j, globalQueue fn j = some q → fn = queueOwner q ∧ j = i) ∧
  (∀ fn i q, globalQueue fn i = some q → q < 536)

/-- A write of 48 bytes to 0x7200:02 that passes the checks up to the entry's own rules, for the
slot that the sender's context selects: where the slot's flow is neither EMPTY nor STAGED it is
refused and every flow's record and state is as before; where it is EMPTY or STAGED it is answered
OK, the slot's record is the value written and the flow is STAGED, or, for 48 zeros, the slot is
EMPTY and holds no record; every other slot is as before. (R327) -/
def Obligations.FlowRecordsChangeOnlyInEmptyOrStagedSlots : Prop :=
  ∀ (r : VdpReq) (s : State), granted s (atEntry r 0x7200 2) = true → r.data.length = 48 →
    let slot := selOf (selects s r) 0x7200 1
    (2 ≤ flowState s slot → ∃ u, exec (.flowRecordWrite r) s = .next u ∧ u.adm = s.adm ∧
      u = answer s (atEntry r 0x7200 2) (respOf (atEntry r 0x7200 2) stRefused 0 [])) ∧
    (flowState s slot ≤ 1 → ∃ u, exec (.flowRecordWrite r) s = .next u ∧
      (r.data = List.replicate 48 0#8 → flowState u slot = 0 ∧ Tab.get [] u.adm.flows slot = []) ∧
      (r.data ≠ List.replicate 48 0#8 → flowState u slot = 1 ∧ Tab.get [] u.adm.flows slot = r.data) ∧
      ∀ i, i ≠ slot → flowState u i = flowState s i ∧ Tab.get [] u.adm.flows i = Tab.get [] s.adm.flows i)

/-- Whenever td.poll or sy.wait answers a next state, every integer register of every S-core but the
one that rd names, every byte of memory and everything outside the tiles is as before; td.pop,
td.fence and td_fence_release leave every register, every byte and everything outside the tiles as
before. A full or masked row write leaves every byte outside the 1,024 bytes of its row as before; a
full one leaves every S-core register too. A masked write whose row does not decode wrongly leaves
every byte whose 8-byte word the mask does not select as before, and each selected byte reads as
before or as the data says. (R90, R91, R92, R107, R110, R111, R118, 03_cores.md, 04_tile_memory.md)
-/
def Obligations.RegisterAndRowWritesTouchNothingElse : Prop :=
  (∀ (t p rd : Nat) (rs1 rs2 w : DWord) (i : Instr) (s u : State), i = .tdPoll t p rd rs1 ∨ i = .syWait t p rd rs1 rs2 w →
    exec i s = .next u → sameBytes s u ∧ sameOutsideTiles s u ∧
    ∀ v q r, (v, q) ≠ (t, p) ∨ r % 32 ≠ rd % 32 → xReg u v q r = xReg s v q r) ∧
  (∀ (t p : Nat) (rs1 : DWord) (i : Instr) (s u : State), i = .tdPop t p rs1 ∨ i = .tdFence t p ∨ i = .tdFenceRelease t p →
    exec i s = .next u → sameBytes s u ∧ sameOutsideTiles s u ∧ ∀ v q r, xReg u v q r = xReg s v q r) ∧
  (∀ (t die row ini fails : Nat) (data : List Byte) (cell : Option CellWord) (rivals : List Nat) (s u : State),
    exec (.rowWrite t die row ⟨ini, rivals⟩ data cell fails) s = .next u →
    sameBytesBut (rowKey t die row * 1024) 1024 s u ∧ ∀ v q r, xReg u v q r = xReg s v q r) ∧
  (∀ (t die row ini mask fails : Nat) (data : List Byte) (cell : Option CellWord) (errs : List Flip) (rivals : List Nat) (s u : State),
    exec (.maskedRowWrite t die row ⟨ini, rivals⟩ mask data cell errs fails) s = .next u →
    sameBytesBut (rowKey t die row * 1024) 1024 s u ∧
    ((∀ cs n, rowDecode (matsOf s t die (row % 256)) errs s.free ≠ .miscorrected cs n) → ∀ k < 1024,
      let b := rd8 u.mem (rowKey t die row * 1024 + k)
      b = rd8 s.mem (rowKey t die row * 1024 + k) ∨ (bit mask (k / 8) = true ∧ b = data.getD k 0#8)))
end

