-- ==== Sys2Proof/Laws/Tab.lean ====
section
/-! SUPPORT. What the operations over sparse tables and byte memory do, and that every memory
operation keeps the canonical form. -/
namespace Sys2Proof.Machine

section
variable {α : Type}

/-! ### Reading after writing -/

theorem Tab.get_erase_same (d : α) (t : Tab α) (k : Nat) : Tab.get d (Tab.erase t k) k = d := by
  induction t with
  | nil => rfl
  | cons e t ih =>
    obtain ⟨j, v⟩ := e
    by_cases h : j = k
    · simpa [Tab.erase, h] using ih
    · simpa [Tab.erase, Tab.get, h] using ih

theorem Tab.get_erase_other (d : α) (t : Tab α) {k j : Nat} (h : j ≠ k) :
    Tab.get d (Tab.erase t k) j = Tab.get d t j := by
  induction t with
  | nil => rfl
  | cons e t ih =>
    obtain ⟨i, v⟩ := e
    by_cases hi : i = k
    · have hj : ¬ k = j := fun e => h e.symm
      simp [Tab.erase, Tab.get, hi, ih, hj]
    · simp [Tab.erase, Tab.get, hi, ih]

theorem Tab.get_insert_same (d : α) (t : Tab α) (k : Nat) (v : α) (hk : ∀ e ∈ t, e.1 ≠ k) :
    Tab.get d (Tab.insert t k v) k = v := by
  induction t with
  | nil => simp [Tab.insert, Tab.get]
  | cons e t ih =>
    obtain ⟨j, w⟩ := e
    have hj : j ≠ k := hk (j, w) (by simp)
    by_cases h : k < j
    · simp [Tab.insert, Tab.get, h]
    · simp [Tab.insert, Tab.get, h, hj, ih (fun e he => hk e (by simp [he]))]

theorem Tab.get_insert_other (d : α) (t : Tab α) {k j : Nat} (v : α) (h : j ≠ k) :
    Tab.get d (Tab.insert t k v) j = Tab.get d t j := by
  have hk : ¬ k = j := fun e => h e.symm
  induction t with
  | nil => simp [Tab.insert, Tab.get, hk]
  | cons e t ih =>
    obtain ⟨i, w⟩ := e
    by_cases hi : k < i
    · simp [Tab.insert, Tab.get, hi, hk]
    · simp [Tab.insert, Tab.get, hi, ih]

theorem Tab.erase_keys (t : Tab α) (k : Nat) : ∀ e ∈ Tab.erase t k, e.1 ≠ k := by
  induction t with
  | nil => simp [Tab.erase]
  | cons e t ih =>
    obtain ⟨j, v⟩ := e
    by_cases h : j = k <;> simp [Tab.erase, h] <;> simpa using ih

/-- A value written is the value read. -/
@[simp] theorem Tab.get_put_same [DecidableEq α] (d : α) (t : Tab α) (k : Nat) (v : α) :
    Tab.get d (Tab.put d t k v) k = v := by
  unfold Tab.put
  split
  · next h => rw [Tab.get_erase_same, h]
  · exact Tab.get_insert_same _ _ _ _ (Tab.erase_keys t k)

/-- A write leaves every other key alone. -/
theorem Tab.get_put_other [DecidableEq α] (d : α) (t : Tab α) {k j : Nat} (v : α) (h : j ≠ k) :
    Tab.get d (Tab.put d t k v) j = Tab.get d t j := by
  unfold Tab.put
  split
  · exact Tab.get_erase_other d t h
  · rw [Tab.get_insert_other _ _ _ h, Tab.get_erase_other d t h]

/-- The same where the reader has another default. -/
theorem Tab.get_put_other_default [DecidableEq α] (d e : α) (t : Tab α) {k j : Nat} (v : α) (h : j ≠ k) :
    Tab.get e (Tab.put d t k v) j = Tab.get e t j := by
  unfold Tab.put
  split
  · exact Tab.get_erase_other e t h
  · rw [Tab.get_insert_other _ _ _ h, Tab.get_erase_other e t h]

/-- Either key after a write. -/
theorem Tab.get_put [DecidableEq α] (d : α) (t : Tab α) (k j : Nat) (v : α) :
    Tab.get d (Tab.put d t k v) j = if j = k then v else Tab.get d t j := by
  split
  · next h => rw [h, Tab.get_put_same]
  · next h => exact Tab.get_put_other d t v h

@[simp] theorem Tab.get_mod_same [DecidableEq α] (d : α) (t : Tab α) (k : Nat) (f : α → α) :
    Tab.get d (Tab.mod d t k f) k = f (Tab.get d t k) := Tab.get_put_same ..

theorem Tab.get_mod_other [DecidableEq α] (d : α) (t : Tab α) {k j : Nat} (f : α → α) (h : j ≠ k) :
    Tab.get d (Tab.mod d t k f) j = Tab.get d t j := Tab.get_put_other _ _ _ h

/-! ### The canonical form -/

theorem Tab.sortedFrom_mono {t : Tab α} : ∀ {lo lo' : Nat}, lo' ≤ lo → Tab.sortedFrom lo t = true →
    Tab.sortedFrom lo' t = true := by
  cases t with
  | nil => intros; rfl
  | cons e t =>
    intro lo lo' h hs
    simp only [Tab.sortedFrom, Bool.and_eq_true, decide_eq_true_eq] at hs ⊢
    exact ⟨by omega, hs.2⟩

theorem Tab.sortedFrom_erase (k : Nat) : ∀ (t : Tab α) (lo : Nat), Tab.sortedFrom lo t = true →
    Tab.sortedFrom lo (Tab.erase t k) = true := by
  intro t
  induction t with
  | nil => intros; rfl
  | cons e t ih =>
    obtain ⟨j, v⟩ := e
    intro lo hs
    simp only [Tab.sortedFrom, Bool.and_eq_true, decide_eq_true_eq] at hs
    by_cases h : j = k
    · simp only [Tab.erase, h, if_true]
      exact ih lo (Tab.sortedFrom_mono (by omega) hs.2)
    · simp only [Tab.erase, h, if_false, Tab.sortedFrom, Bool.and_eq_true, decide_eq_true_eq]
      exact ⟨hs.1, ih (j + 1) hs.2⟩

theorem Tab.sortedFrom_insert (k : Nat) (v : α) : ∀ (t : Tab α) (lo : Nat), lo ≤ k → (∀ e ∈ t, e.1 ≠ k) →
    Tab.sortedFrom lo t = true → Tab.sortedFrom lo (Tab.insert t k v) = true := by
  intro t
  induction t with
  | nil => intro lo hlo _ _; simp [Tab.insert, Tab.sortedFrom, hlo]
  | cons e t ih =>
    obtain ⟨j, w⟩ := e
    intro lo hlo hk hs
    simp only [Tab.sortedFrom, Bool.and_eq_true, decide_eq_true_eq] at hs
    have hj : j ≠ k := hk (j, w) (by simp)
    by_cases h : k < j
    · simp only [Tab.insert, h, if_true, Tab.sortedFrom, Bool.and_eq_true, decide_eq_true_eq]
      exact ⟨hlo, by omega, hs.2⟩
    · simp only [Tab.insert, h, if_false, Tab.sortedFrom, Bool.and_eq_true, decide_eq_true_eq]
      exact ⟨hs.1, ih (j + 1) (by omega) (fun e he => hk e (by simp [he])) hs.2⟩

theorem Tab.mem_erase {t : Tab α} {k : Nat} {e : Nat × α} : e ∈ Tab.erase t k → e ∈ t := by
  induction t with
  | nil => simp [Tab.erase]
  | cons x t ih =>
    obtain ⟨j, v⟩ := x
    by_cases h : j = k <;> simp only [Tab.erase, h, if_true, if_false, List.mem_cons]
    · intro he; exact .inr (ih he)
    · rintro (he | he)
      · exact .inl he
      · exact .inr (ih he)

theorem Tab.mem_insert {t : Tab α} {k : Nat} {v : α} {e : Nat × α} :
    e ∈ Tab.insert t k v → e = (k, v) ∨ e ∈ t := by
  induction t with
  | nil => simp [Tab.insert]
  | cons x t ih =>
    obtain ⟨j, w⟩ := x
    by_cases h : k < j <;> simp only [Tab.insert, h, if_true, if_false, List.mem_cons]
    · exact id
    · rintro (he | he)
      · exact .inr (.inl he)
      · rcases ih he with h | h
        · exact .inl h
        · exact .inr (.inr h)

/-- A write keeps the canonical form. -/
theorem Tab.wf_put [DecidableEq α] {d : α} {t : Tab α} (k : Nat) (v : α) (h : Tab.wf d t = true) :
    Tab.wf d (Tab.put d t k v) = true := by
  simp only [Tab.wf, Bool.and_eq_true, List.all_eq_true, decide_eq_true_eq, ne_eq] at h ⊢
  unfold Tab.put
  split
  · exact ⟨Tab.sortedFrom_erase k t 0 h.1, fun e he => h.2 e (Tab.mem_erase he)⟩
  · next hv =>
    refine ⟨Tab.sortedFrom_insert k v _ 0 (Nat.zero_le k) (Tab.erase_keys t k) (Tab.sortedFrom_erase k t 0 h.1), ?_⟩
    intro e he
    rcases Tab.mem_insert he with rfl | he
    · exact hv
    · exact h.2 e (Tab.mem_erase he)

theorem Tab.wf_mod [DecidableEq α] {d : α} {t : Tab α} (k : Nat) (f : α → α) (h : Tab.wf d t = true) :
    Tab.wf d (Tab.mod d t k f) = true := Tab.wf_put _ _ h

theorem Tab.sortedFrom_filter (p : Nat × α → Bool) : ∀ (t : Tab α) (lo : Nat), Tab.sortedFrom lo t = true →
    Tab.sortedFrom lo (t.filter p) = true := by
  intro t
  induction t with
  | nil => intros; rfl
  | cons e t ih =>
    obtain ⟨j, v⟩ := e
    intro lo hs
    simp only [Tab.sortedFrom, Bool.and_eq_true, decide_eq_true_eq] at hs
    by_cases hp : p (j, v) = true
    · simp only [List.filter_cons, hp, if_true, Tab.sortedFrom, Bool.and_eq_true, decide_eq_true_eq]
      exact ⟨hs.1, ih (j + 1) hs.2⟩
    · simp only [List.filter_cons, hp]
      exact ih lo (Tab.sortedFrom_mono (by omega) hs.2)

/-- Forgetting entries keeps the canonical form. -/
theorem Tab.wf_filter [DecidableEq α] {d : α} {t : Tab α} (p : Nat × α → Bool) (h : Tab.wf d t = true) :
    Tab.wf d (t.filter p) = true := by
  simp only [Tab.wf, Bool.and_eq_true, List.all_eq_true] at h ⊢
  exact ⟨Tab.sortedFrom_filter p t 0 h.1, fun e he => h.2 e ((List.mem_filter.1 he).1)⟩

theorem Tab.wf_clear [DecidableEq α] {d : α} {t : Tab α} (lo hi : Nat) (h : Tab.wf d t = true) :
    Tab.wf d (Tab.clear t lo hi) = true := Tab.wf_filter _ h

end

/-! ### Byte memory -/

@[simp] theorem rd8_wr8_same (m : List Host.Cell) (a : Nat) (b : Byte) : rd8 (wr8 m a b) a = b :=
  Tab.get_put_same ..

theorem rd8_wr8_other (m : List Host.Cell) {a c : Nat} (b : Byte) (h : c ≠ a) :
    rd8 (wr8 m a b) c = rd8 m c := Tab.get_put_other _ _ _ h

theorem Memory.wf_wr8 {m : List Host.Cell} (a : Nat) (b : Byte) (h : Memory.wf m = true) :
    Memory.wf (wr8 m a b) = true := Tab.wf_put _ _ h

theorem Memory.wf_wrBytes (l : List Byte) : ∀ {m : List Host.Cell} (a : Nat), Memory.wf m = true →
    Memory.wf (wrBytes m a l) = true := by
  induction l with
  | nil => intro m a h; exact h
  | cons b l ih => intro m a h; exact ih _ (Memory.wf_wr8 a b h)

theorem Memory.wf_wrMasked (l : List (Byte × Bool)) : ∀ {m : List Host.Cell} (a : Nat), Memory.wf m = true →
    Memory.wf (wrMasked m a l) = true := by
  induction l with
  | nil => intro m a h; exact h
  | cons x l ih =>
    obtain ⟨b, e⟩ := x
    intro m a h
    cases e
    · exact ih (m := m) _ h
    · exact ih (m := wr8 m a b) _ (Memory.wf_wr8 a b h)

/-- Bytes outside `[a, a + l.length)` are left alone. -/
theorem rd8_wrBytes_other (l : List Byte) : ∀ (m : List Host.Cell) (a c : Nat), c < a ∨ a + l.length ≤ c →
    rd8 (wrBytes m a l) c = rd8 m c := by
  induction l with
  | nil => intros; rfl
  | cons b l ih =>
    intro m a c h
    simp only [List.length_cons] at h
    rw [wrBytes, ih (wr8 m a b) (a + 1) c (by omega), rd8_wr8_other _ _ (by omega)]

/-- Byte `i` of what was written. -/
theorem rd8_wrBytes_at (l : List Byte) : ∀ (m : List Host.Cell) (a i : Nat), i < l.length →
    rd8 (wrBytes m a l) (a + i) = l.getD i 0#8 := by
  induction l with
  | nil => intro m a i h; simp at h
  | cons b l ih =>
    intro m a i h
    cases i with
    | zero => simp [wrBytes, rd8_wrBytes_other l (wr8 m a b) (a + 1) a (by omega)]
    | succ i =>
      have := ih (wr8 m a b) (a + 1) i (by simpa using h)
      rw [wrBytes, show a + (i + 1) = a + 1 + i by omega, this]
      simp

/-! ### Numbers as bytes -/

theorem leBytes_length (n v : Nat) : (leBytes n v).length = n := by
  induction n generalizing v with
  | zero => rfl
  | succ n ih => simp [leBytes, ih]

/-- The bytes of a number hold it modulo their range. -/
theorem leNat_leBytes (n v : Nat) : leNat (leBytes n v) = v % 256 ^ n := by
  induction n generalizing v with
  | zero => simp [leBytes, leNat, Nat.mod_one]
  | succ n ih =>
    simp only [leBytes, leNat, ih, BitVec.toNat_ofNat]
    show v % 256 + 256 * (v / 256 % 256 ^ n) = v % 256 ^ (n + 1)
    rw [Nat.pow_succ', Nat.mod_mul]

end Sys2Proof.Machine
end

