-- ==== Sys2Proof/Laws/Bytes.lean ====
section
/-! SUPPORT. Byte strings: fields of joined strings, and the bytes that the tile address map reads
and writes. -/
namespace Sys2Proof.Machine

theorem field_append_left (a b : List Byte) {off n : Nat} (h : off + n ≤ a.length) : field (a ++ b) off n = field a off n := by
  unfold field
  rw [List.drop_append_of_le_length (by omega), List.take_append_of_le_length (by simp only [List.length_drop]; omega)]

theorem field_append_right (a b : List Byte) {off n : Nat} (h : a.length ≤ off) :
    field (a ++ b) off n = field b (off - a.length) n := by
  unfold field
  rw [List.drop_append, List.drop_of_length_le h, List.nil_append]

theorem field_leBytes (n v : Nat) : field (leBytes n v) 0 n = v % 256 ^ n := by
  unfold field
  rw [List.drop_zero, List.take_of_length_le (Nat.le_of_eq (leBytes_length ..)), leNat_leBytes]

theorem slice_all (l : List Byte) : slice l 0 l.length = l := by
  simp [slice]

theorem slice_append_right (a b : List Byte) {off n : Nat} (h : a.length ≤ off) :
    slice (a ++ b) off n = slice b (off - a.length) n := by
  unfold slice
  rw [List.drop_append, List.drop_of_length_le h, List.nil_append]

end Sys2Proof.Machine
end

