-- ==== Sys2Proof/Laws/Numbers.lean ====
section
/-! SUPPORT. Bit maps: what `maskOf`, `popBelow` and `nthSet` count and find, the shared operations
of the logical numbering (R26). -/
namespace Sys2Proof.Machine

theorem maskOf_lt (p : Nat → Bool) (n : Nat) : maskOf p n < 2 ^ n := by
  induction n with
  | zero => simp [maskOf]
  | succ n ih =>
    simp only [maskOf, Nat.pow_succ]
    split <;> omega

theorem bit_maskOf (p : Nat → Bool) (n i : Nat) : bit (maskOf p n) i = (decide (i < n) && p i) := by
  unfold bit
  induction n with
  | zero => simp [maskOf]
  | succ n ih =>
    simp only [maskOf]
    have hlt := maskOf_lt p n
    by_cases h : i = n
    · subst h
      cases hp : p i with
      | true => simp [Nat.add_comm (maskOf p i), Nat.testBit_two_pow_add_eq, Nat.testBit_lt_two_pow hlt]
      | false => simp [Nat.testBit_lt_two_pow hlt]
    · have e : decide (i < n + 1) = decide (i < n) := by simp; omega
      rw [e, ← ih]
      split
      · by_cases hi : i < n
        · rw [Nat.add_comm, Nat.testBit_two_pow_add_gt hi]
        · have h1 : maskOf p n + 2 ^ n < 2 ^ i := Nat.lt_of_lt_of_le (by rw [Nat.pow_succ]; omega) (Nat.pow_le_pow_right (by omega) (by omega : n + 1 ≤ i))
          have h2 : maskOf p n < 2 ^ i := by omega
          rw [Nat.testBit_lt_two_pow h1, Nat.testBit_lt_two_pow h2]
      · simp

/-- `popBelow` counts the set bits below a position. -/
theorem popBelow_eq (m n : Nat) : popBelow m n = (List.range n).countP (bit m) := by
  induction n with
  | zero => rfl
  | succ n ih =>
    rw [popBelow, ih, List.range_succ, List.countP_append]
    simp [List.countP_cons, b2n]

theorem popBelow_mono (m : Nat) {i j : Nat} (h : i ≤ j) : popBelow m i ≤ popBelow m j := by
  induction h with
  | refl => exact Nat.le_refl _
  | step h ih => rw [popBelow]; omega

/-- A set bit has fewer set bits below it than any later position. -/
theorem popBelow_lt (m : Nat) {i j : Nat} (hi : bit m i = true) (h : i < j) : popBelow m i < popBelow m j := by
  have := popBelow_mono m (show i + 1 ≤ j from h)
  rw [popBelow, hi] at this
  simp only [b2n, if_true] at this
  omega

/-- `nthSet` finds the position with a number of set bits below it. -/
theorem nthSet_eq_some (m k : Nat) : ∀ {n i : Nat}, nthSet m k n = some i ↔ i < n ∧ bit m i = true ∧ popBelow m i = k := by
  intro n
  induction n with
  | zero => intro i; simp [nthSet]
  | succ n ih =>
    intro i
    rw [nthSet]
    split
    · next j hj =>
      have hj' := ih.1 hj
      constructor
      · intro h
        have : j = i := by simpa using h
        subst this
        exact ⟨by omega, hj'.2⟩
      · rintro ⟨h1, h2, h3⟩
        by_cases e : i = j
        · rw [e]
        · rcases Nat.lt_or_gt_of_ne e with g | g
          · have := popBelow_lt m h2 g; omega
          · have := popBelow_lt m hj'.2.1 g; omega
    · next hn =>
      have none' : ∀ i, ¬ (i < n ∧ bit m i = true ∧ popBelow m i = k) := fun i h => by
        rw [ih.2 h] at hn; simp at hn
      constructor
      · intro h
        by_cases c : (bit m n && decide (popBelow m n = k)) = true
        · rw [if_pos c] at h
          have : n = i := by simpa using h
          subst this
          simp only [Bool.and_eq_true, decide_eq_true_eq] at c
          exact ⟨by omega, c⟩
        · rw [if_neg c] at h; simp at h
      · rintro ⟨h1, h2, h3⟩
        by_cases e : i = n
        · subst e; simp [h2, h3]
        · exact absurd ⟨by omega, h2, h3⟩ (none' i)

/-- Every number below the count of set bits is held by one of them. -/
theorem exists_popBelow (m : Nat) : ∀ {n k : Nat}, k < popBelow m n → ∃ i, i < n ∧ bit m i = true ∧ popBelow m i = k := by
  intro n
  induction n with
  | zero => intro k h; simp [popBelow] at h
  | succ n ih =>
    intro k h
    rw [popBelow] at h
    by_cases c : k < popBelow m n
    · obtain ⟨i, h1, h2⟩ := ih c
      exact ⟨i, by omega, h2⟩
    · cases hb : bit m n with
      | false => rw [hb] at h; simp only [b2n] at h; simp at h; omega
      | true =>
        rw [hb] at h
        simp only [b2n, if_true] at h
        exact ⟨n, by omega, hb, by omega⟩

end Sys2Proof.Machine
end

