-- ==== Sys2Proof/Laws/State.lean ====
section
/-! SUPPORT. What the named updates of State leave alone: one lemma per field and update, each true
by `rfl`. -/
namespace Sys2Proof.Machine

section
variable (s : State)

@[simp] theorem advanceTo_pending (t : Nat) : (advanceTo s t).pending = s.pending := rfl
@[simp] theorem advanceTo_epochOff (t : Nat) : (advanceTo s t).epochOff = s.epochOff := rfl
@[simp] theorem advanceTo_part (t : Nat) : (advanceTo s t).part = s.part := rfl
@[simp] theorem advanceTo_out (t : Nat) : (advanceTo s t).out = s.out := rfl
@[simp] theorem advanceTo_free (t : Nat) : (advanceTo s t).free = s.free := rfl
@[simp] theorem advanceTo_mem (t : Nat) : (advanceTo s t).mem = s.mem := rfl
@[simp] theorem advanceTo_cells (t : Nat) : (advanceTo s t).cells = s.cells := rfl
@[simp] theorem advanceTo_badRows (t : Nat) : (advanceTo s t).badRows = s.badRows := rfl
@[simp] theorem advanceTo_fusedTiles (t : Nat) : (advanceTo s t).fusedTiles = s.fusedTiles := rfl
@[simp] theorem advanceTo_retiredTiles (t : Nat) : (advanceTo s t).retiredTiles = s.retiredTiles := rfl
@[simp] theorem advanceTo_pendingTiles (t : Nat) : (advanceTo s t).pendingTiles = s.pendingTiles := rfl
@[simp] theorem advanceTo_guestSites (t : Nat) : (advanceTo s t).guestSites = s.guestSites := rfl
@[simp] theorem advanceTo_tiles (t : Nat) : (advanceTo s t).tiles = s.tiles := rfl
@[simp] theorem advanceTo_baseSync (t : Nat) : (advanceTo s t).baseSync = s.baseSync := rfl
@[simp] theorem advanceTo_dict (t : Nat) : (advanceTo s t).dict = s.dict := rfl
@[simp] theorem advanceTo_blobs (t : Nat) : (advanceTo s t).blobs = s.blobs := rfl
@[simp] theorem advanceTo_injections (t : Nat) : (advanceTo s t).injections = s.injections := rfl
@[simp] theorem advanceTo_tested (t : Nat) : (advanceTo s t).tested = s.tested := rfl
@[simp] theorem advanceTo_log (t : Nat) : (advanceTo s t).log = s.log := rfl
@[simp] theorem advanceTo_ops (t : Nat) : (advanceTo s t).ops = s.ops := rfl
@[simp] theorem advanceTo_mantle (t : Nat) : (advanceTo s t).mantle = s.mantle := rfl
@[simp] theorem advanceTo_bas (t : Nat) : (advanceTo s t).bas = s.bas := rfl
@[simp] theorem advanceTo_col (t : Nat) : (advanceTo s t).col = s.col := rfl
@[simp] theorem advanceTo_hem (t : Nat) : (advanceTo s t).hem = s.hem := rfl
@[simp] theorem advanceTo_fab (t : Nat) : (advanceTo s t).fab = s.fab := rfl
@[simp] theorem advanceTo_adm (t : Nat) : (advanceTo s t).adm = s.adm := rfl
@[simp] theorem advanceTo_clk (t : Nat) : (advanceTo s t).clk = s.clk := rfl
@[simp] theorem advanceTo_pow (t : Nat) : (advanceTo s t).pow = s.pow := rfl
@[simp] theorem advanceTo_cal (t : Nat) : (advanceTo s t).cal = s.cal := rfl
@[simp] theorem advanceTo_las (t : Nat) : (advanceTo s t).las = s.las := rfl
@[simp] theorem advanceTo_fc (t : Nat) : (advanceTo s t).fc = s.fc := rfl
@[simp] theorem advanceTo_boot (t : Nat) : (advanceTo s t).boot = s.boot := rfl
@[simp] theorem advanceTo_host (t : Nat) : (advanceTo s t).host = s.host := rfl

@[simp] theorem wrE_pending (i j v : Nat) : (wrE s i j v).pending = s.pending := rfl
@[simp] theorem wrE_now (i j v : Nat) : (wrE s i j v).now = s.now := rfl
@[simp] theorem wrE_epochOff (i j v : Nat) : (wrE s i j v).epochOff = s.epochOff := rfl
@[simp] theorem wrE_part (i j v : Nat) : (wrE s i j v).part = s.part := rfl
@[simp] theorem wrE_out (i j v : Nat) : (wrE s i j v).out = s.out := rfl
@[simp] theorem wrE_free (i j v : Nat) : (wrE s i j v).free = s.free := rfl
@[simp] theorem wrE_mem (i j v : Nat) : (wrE s i j v).mem = s.mem := rfl
@[simp] theorem wrE_cells (i j v : Nat) : (wrE s i j v).cells = s.cells := rfl
@[simp] theorem wrE_badRows (i j v : Nat) : (wrE s i j v).badRows = s.badRows := rfl
@[simp] theorem wrE_fusedTiles (i j v : Nat) : (wrE s i j v).fusedTiles = s.fusedTiles := rfl
@[simp] theorem wrE_retiredTiles (i j v : Nat) : (wrE s i j v).retiredTiles = s.retiredTiles := rfl
@[simp] theorem wrE_pendingTiles (i j v : Nat) : (wrE s i j v).pendingTiles = s.pendingTiles := rfl
@[simp] theorem wrE_guestSites (i j v : Nat) : (wrE s i j v).guestSites = s.guestSites := rfl
@[simp] theorem wrE_tiles (i j v : Nat) : (wrE s i j v).tiles = s.tiles := rfl
@[simp] theorem wrE_baseSync (i j v : Nat) : (wrE s i j v).baseSync = s.baseSync := rfl
@[simp] theorem wrE_blobs (i j v : Nat) : (wrE s i j v).blobs = s.blobs := rfl
@[simp] theorem wrE_injections (i j v : Nat) : (wrE s i j v).injections = s.injections := rfl
@[simp] theorem wrE_tested (i j v : Nat) : (wrE s i j v).tested = s.tested := rfl
@[simp] theorem wrE_log (i j v : Nat) : (wrE s i j v).log = s.log := rfl
@[simp] theorem wrE_ops (i j v : Nat) : (wrE s i j v).ops = s.ops := rfl
@[simp] theorem wrE_mantle (i j v : Nat) : (wrE s i j v).mantle = s.mantle := rfl
@[simp] theorem wrE_bas (i j v : Nat) : (wrE s i j v).bas = s.bas := rfl
@[simp] theorem wrE_col (i j v : Nat) : (wrE s i j v).col = s.col := rfl
@[simp] theorem wrE_hem (i j v : Nat) : (wrE s i j v).hem = s.hem := rfl
@[simp] theorem wrE_fab (i j v : Nat) : (wrE s i j v).fab = s.fab := rfl
@[simp] theorem wrE_adm (i j v : Nat) : (wrE s i j v).adm = s.adm := rfl
@[simp] theorem wrE_clk (i j v : Nat) : (wrE s i j v).clk = s.clk := rfl
@[simp] theorem wrE_pow (i j v : Nat) : (wrE s i j v).pow = s.pow := rfl
@[simp] theorem wrE_cal (i j v : Nat) : (wrE s i j v).cal = s.cal := rfl
@[simp] theorem wrE_las (i j v : Nat) : (wrE s i j v).las = s.las := rfl
@[simp] theorem wrE_fc (i j v : Nat) : (wrE s i j v).fc = s.fc := rfl
@[simp] theorem wrE_boot (i j v : Nat) : (wrE s i j v).boot = s.boot := rfl
@[simp] theorem wrE_host (i j v : Nat) : (wrE s i j v).host = s.host := rfl

@[simp] theorem wrB_pending (i j : Nat) (v : List Byte) : (wrB s i j v).pending = s.pending := rfl
@[simp] theorem wrB_now (i j : Nat) (v : List Byte) : (wrB s i j v).now = s.now := rfl
@[simp] theorem wrB_epochOff (i j : Nat) (v : List Byte) : (wrB s i j v).epochOff = s.epochOff := rfl
@[simp] theorem wrB_part (i j : Nat) (v : List Byte) : (wrB s i j v).part = s.part := rfl
@[simp] theorem wrB_out (i j : Nat) (v : List Byte) : (wrB s i j v).out = s.out := rfl
@[simp] theorem wrB_free (i j : Nat) (v : List Byte) : (wrB s i j v).free = s.free := rfl
@[simp] theorem wrB_mem (i j : Nat) (v : List Byte) : (wrB s i j v).mem = s.mem := rfl
@[simp] theorem wrB_cells (i j : Nat) (v : List Byte) : (wrB s i j v).cells = s.cells := rfl
@[simp] theorem wrB_badRows (i j : Nat) (v : List Byte) : (wrB s i j v).badRows = s.badRows := rfl
@[simp] theorem wrB_fusedTiles (i j : Nat) (v : List Byte) : (wrB s i j v).fusedTiles = s.fusedTiles := rfl
@[simp] theorem wrB_retiredTiles (i j : Nat) (v : List Byte) : (wrB s i j v).retiredTiles = s.retiredTiles := rfl
@[simp] theorem wrB_pendingTiles (i j : Nat) (v : List Byte) : (wrB s i j v).pendingTiles = s.pendingTiles := rfl
@[simp] theorem wrB_guestSites (i j : Nat) (v : List Byte) : (wrB s i j v).guestSites = s.guestSites := rfl
@[simp] theorem wrB_tiles (i j : Nat) (v : List Byte) : (wrB s i j v).tiles = s.tiles := rfl
@[simp] theorem wrB_baseSync (i j : Nat) (v : List Byte) : (wrB s i j v).baseSync = s.baseSync := rfl
@[simp] theorem wrB_dict (i j : Nat) (v : List Byte) : (wrB s i j v).dict = s.dict := rfl
@[simp] theorem wrB_injections (i j : Nat) (v : List Byte) : (wrB s i j v).injections = s.injections := rfl
@[simp] theorem wrB_tested (i j : Nat) (v : List Byte) : (wrB s i j v).tested = s.tested := rfl
@[simp] theorem wrB_log (i j : Nat) (v : List Byte) : (wrB s i j v).log = s.log := rfl
@[simp] theorem wrB_ops (i j : Nat) (v : List Byte) : (wrB s i j v).ops = s.ops := rfl
@[simp] theorem wrB_mantle (i j : Nat) (v : List Byte) : (wrB s i j v).mantle = s.mantle := rfl
@[simp] theorem wrB_bas (i j : Nat) (v : List Byte) : (wrB s i j v).bas = s.bas := rfl
@[simp] theorem wrB_col (i j : Nat) (v : List Byte) : (wrB s i j v).col = s.col := rfl
@[simp] theorem wrB_hem (i j : Nat) (v : List Byte) : (wrB s i j v).hem = s.hem := rfl
@[simp] theorem wrB_fab (i j : Nat) (v : List Byte) : (wrB s i j v).fab = s.fab := rfl
@[simp] theorem wrB_adm (i j : Nat) (v : List Byte) : (wrB s i j v).adm = s.adm := rfl
@[simp] theorem wrB_clk (i j : Nat) (v : List Byte) : (wrB s i j v).clk = s.clk := rfl
@[simp] theorem wrB_pow (i j : Nat) (v : List Byte) : (wrB s i j v).pow = s.pow := rfl
@[simp] theorem wrB_cal (i j : Nat) (v : List Byte) : (wrB s i j v).cal = s.cal := rfl
@[simp] theorem wrB_las (i j : Nat) (v : List Byte) : (wrB s i j v).las = s.las := rfl
@[simp] theorem wrB_fc (i j : Nat) (v : List Byte) : (wrB s i j v).fc = s.fc := rfl
@[simp] theorem wrB_boot (i j : Nat) (v : List Byte) : (wrB s i j v).boot = s.boot := rfl
@[simp] theorem wrB_host (i j : Nat) (v : List Byte) : (wrB s i j v).host = s.host := rfl

@[simp] theorem bumpN_pending (i j n : Nat) : (bumpN s i j n).pending = s.pending := rfl
@[simp] theorem bumpN_now (i j n : Nat) : (bumpN s i j n).now = s.now := rfl
@[simp] theorem bumpN_epochOff (i j n : Nat) : (bumpN s i j n).epochOff = s.epochOff := rfl
@[simp] theorem bumpN_part (i j n : Nat) : (bumpN s i j n).part = s.part := rfl
@[simp] theorem bumpN_out (i j n : Nat) : (bumpN s i j n).out = s.out := rfl
@[simp] theorem bumpN_free (i j n : Nat) : (bumpN s i j n).free = s.free := rfl
@[simp] theorem bumpN_mem (i j n : Nat) : (bumpN s i j n).mem = s.mem := rfl
@[simp] theorem bumpN_cells (i j n : Nat) : (bumpN s i j n).cells = s.cells := rfl
@[simp] theorem bumpN_badRows (i j n : Nat) : (bumpN s i j n).badRows = s.badRows := rfl
@[simp] theorem bumpN_fusedTiles (i j n : Nat) : (bumpN s i j n).fusedTiles = s.fusedTiles := rfl
@[simp] theorem bumpN_retiredTiles (i j n : Nat) : (bumpN s i j n).retiredTiles = s.retiredTiles := rfl
@[simp] theorem bumpN_pendingTiles (i j n : Nat) : (bumpN s i j n).pendingTiles = s.pendingTiles := rfl
@[simp] theorem bumpN_guestSites (i j n : Nat) : (bumpN s i j n).guestSites = s.guestSites := rfl
@[simp] theorem bumpN_tiles (i j n : Nat) : (bumpN s i j n).tiles = s.tiles := rfl
@[simp] theorem bumpN_baseSync (i j n : Nat) : (bumpN s i j n).baseSync = s.baseSync := rfl
@[simp] theorem bumpN_blobs (i j n : Nat) : (bumpN s i j n).blobs = s.blobs := rfl
@[simp] theorem bumpN_injections (i j n : Nat) : (bumpN s i j n).injections = s.injections := rfl
@[simp] theorem bumpN_tested (i j n : Nat) : (bumpN s i j n).tested = s.tested := rfl
@[simp] theorem bumpN_log (i j n : Nat) : (bumpN s i j n).log = s.log := rfl
@[simp] theorem bumpN_ops (i j n : Nat) : (bumpN s i j n).ops = s.ops := rfl
@[simp] theorem bumpN_mantle (i j n : Nat) : (bumpN s i j n).mantle = s.mantle := rfl
@[simp] theorem bumpN_bas (i j n : Nat) : (bumpN s i j n).bas = s.bas := rfl
@[simp] theorem bumpN_col (i j n : Nat) : (bumpN s i j n).col = s.col := rfl
@[simp] theorem bumpN_hem (i j n : Nat) : (bumpN s i j n).hem = s.hem := rfl
@[simp] theorem bumpN_fab (i j n : Nat) : (bumpN s i j n).fab = s.fab := rfl
@[simp] theorem bumpN_adm (i j n : Nat) : (bumpN s i j n).adm = s.adm := rfl
@[simp] theorem bumpN_clk (i j n : Nat) : (bumpN s i j n).clk = s.clk := rfl
@[simp] theorem bumpN_pow (i j n : Nat) : (bumpN s i j n).pow = s.pow := rfl
@[simp] theorem bumpN_cal (i j n : Nat) : (bumpN s i j n).cal = s.cal := rfl
@[simp] theorem bumpN_las (i j n : Nat) : (bumpN s i j n).las = s.las := rfl
@[simp] theorem bumpN_fc (i j n : Nat) : (bumpN s i j n).fc = s.fc := rfl
@[simp] theorem bumpN_boot (i j n : Nat) : (bumpN s i j n).boot = s.boot := rfl
@[simp] theorem bumpN_host (i j n : Nat) : (bumpN s i j n).host = s.host := rfl

@[simp] theorem bump_pending (i j : Nat) : (bump s i j).pending = s.pending := rfl
@[simp] theorem bump_now (i j : Nat) : (bump s i j).now = s.now := rfl
@[simp] theorem bump_epochOff (i j : Nat) : (bump s i j).epochOff = s.epochOff := rfl
@[simp] theorem bump_part (i j : Nat) : (bump s i j).part = s.part := rfl
@[simp] theorem bump_out (i j : Nat) : (bump s i j).out = s.out := rfl
@[simp] theorem bump_free (i j : Nat) : (bump s i j).free = s.free := rfl
@[simp] theorem bump_mem (i j : Nat) : (bump s i j).mem = s.mem := rfl
@[simp] theorem bump_cells (i j : Nat) : (bump s i j).cells = s.cells := rfl
@[simp] theorem bump_badRows (i j : Nat) : (bump s i j).badRows = s.badRows := rfl
@[simp] theorem bump_fusedTiles (i j : Nat) : (bump s i j).fusedTiles = s.fusedTiles := rfl
@[simp] theorem bump_retiredTiles (i j : Nat) : (bump s i j).retiredTiles = s.retiredTiles := rfl
@[simp] theorem bump_pendingTiles (i j : Nat) : (bump s i j).pendingTiles = s.pendingTiles := rfl
@[simp] theorem bump_guestSites (i j : Nat) : (bump s i j).guestSites = s.guestSites := rfl
@[simp] theorem bump_tiles (i j : Nat) : (bump s i j).tiles = s.tiles := rfl
@[simp] theorem bump_baseSync (i j : Nat) : (bump s i j).baseSync = s.baseSync := rfl
@[simp] theorem bump_blobs (i j : Nat) : (bump s i j).blobs = s.blobs := rfl
@[simp] theorem bump_injections (i j : Nat) : (bump s i j).injections = s.injections := rfl
@[simp] theorem bump_tested (i j : Nat) : (bump s i j).tested = s.tested := rfl
@[simp] theorem bump_log (i j : Nat) : (bump s i j).log = s.log := rfl
@[simp] theorem bump_ops (i j : Nat) : (bump s i j).ops = s.ops := rfl
@[simp] theorem bump_mantle (i j : Nat) : (bump s i j).mantle = s.mantle := rfl
@[simp] theorem bump_bas (i j : Nat) : (bump s i j).bas = s.bas := rfl
@[simp] theorem bump_col (i j : Nat) : (bump s i j).col = s.col := rfl
@[simp] theorem bump_hem (i j : Nat) : (bump s i j).hem = s.hem := rfl
@[simp] theorem bump_fab (i j : Nat) : (bump s i j).fab = s.fab := rfl
@[simp] theorem bump_adm (i j : Nat) : (bump s i j).adm = s.adm := rfl
@[simp] theorem bump_clk (i j : Nat) : (bump s i j).clk = s.clk := rfl
@[simp] theorem bump_pow (i j : Nat) : (bump s i j).pow = s.pow := rfl
@[simp] theorem bump_cal (i j : Nat) : (bump s i j).cal = s.cal := rfl
@[simp] theorem bump_las (i j : Nat) : (bump s i j).las = s.las := rfl
@[simp] theorem bump_fc (i j : Nat) : (bump s i j).fc = s.fc := rfl
@[simp] theorem bump_boot (i j : Nat) : (bump s i j).boot = s.boot := rfl
@[simp] theorem bump_host (i j : Nat) : (bump s i j).host = s.host := rfl

@[simp] theorem emit_pending (o : Output) : (emit s o).pending = s.pending := rfl
@[simp] theorem emit_now (o : Output) : (emit s o).now = s.now := rfl
@[simp] theorem emit_epochOff (o : Output) : (emit s o).epochOff = s.epochOff := rfl
@[simp] theorem emit_part (o : Output) : (emit s o).part = s.part := rfl
@[simp] theorem emit_free (o : Output) : (emit s o).free = s.free := rfl
@[simp] theorem emit_mem (o : Output) : (emit s o).mem = s.mem := rfl
@[simp] theorem emit_cells (o : Output) : (emit s o).cells = s.cells := rfl
@[simp] theorem emit_badRows (o : Output) : (emit s o).badRows = s.badRows := rfl
@[simp] theorem emit_fusedTiles (o : Output) : (emit s o).fusedTiles = s.fusedTiles := rfl
@[simp] theorem emit_retiredTiles (o : Output) : (emit s o).retiredTiles = s.retiredTiles := rfl
@[simp] theorem emit_pendingTiles (o : Output) : (emit s o).pendingTiles = s.pendingTiles := rfl
@[simp] theorem emit_guestSites (o : Output) : (emit s o).guestSites = s.guestSites := rfl
@[simp] theorem emit_tiles (o : Output) : (emit s o).tiles = s.tiles := rfl
@[simp] theorem emit_baseSync (o : Output) : (emit s o).baseSync = s.baseSync := rfl
@[simp] theorem emit_dict (o : Output) : (emit s o).dict = s.dict := rfl
@[simp] theorem emit_blobs (o : Output) : (emit s o).blobs = s.blobs := rfl
@[simp] theorem emit_injections (o : Output) : (emit s o).injections = s.injections := rfl
@[simp] theorem emit_tested (o : Output) : (emit s o).tested = s.tested := rfl
@[simp] theorem emit_log (o : Output) : (emit s o).log = s.log := rfl
@[simp] theorem emit_ops (o : Output) : (emit s o).ops = s.ops := rfl
@[simp] theorem emit_mantle (o : Output) : (emit s o).mantle = s.mantle := rfl
@[simp] theorem emit_bas (o : Output) : (emit s o).bas = s.bas := rfl
@[simp] theorem emit_col (o : Output) : (emit s o).col = s.col := rfl
@[simp] theorem emit_hem (o : Output) : (emit s o).hem = s.hem := rfl
@[simp] theorem emit_fab (o : Output) : (emit s o).fab = s.fab := rfl
@[simp] theorem emit_adm (o : Output) : (emit s o).adm = s.adm := rfl
@[simp] theorem emit_clk (o : Output) : (emit s o).clk = s.clk := rfl
@[simp] theorem emit_pow (o : Output) : (emit s o).pow = s.pow := rfl
@[simp] theorem emit_cal (o : Output) : (emit s o).cal = s.cal := rfl
@[simp] theorem emit_las (o : Output) : (emit s o).las = s.las := rfl
@[simp] theorem emit_fc (o : Output) : (emit s o).fc = s.fc := rfl
@[simp] theorem emit_boot (o : Output) : (emit s o).boot = s.boot := rfl
@[simp] theorem emit_host (o : Output) : (emit s o).host = s.host := rfl

@[simp] theorem nextFree_pending : (nextFree s).pending = s.pending := rfl
@[simp] theorem nextFree_now : (nextFree s).now = s.now := rfl
@[simp] theorem nextFree_epochOff : (nextFree s).epochOff = s.epochOff := rfl
@[simp] theorem nextFree_part : (nextFree s).part = s.part := rfl
@[simp] theorem nextFree_out : (nextFree s).out = s.out := rfl
@[simp] theorem nextFree_mem : (nextFree s).mem = s.mem := rfl
@[simp] theorem nextFree_cells : (nextFree s).cells = s.cells := rfl
@[simp] theorem nextFree_badRows : (nextFree s).badRows = s.badRows := rfl
@[simp] theorem nextFree_fusedTiles : (nextFree s).fusedTiles = s.fusedTiles := rfl
@[simp] theorem nextFree_retiredTiles : (nextFree s).retiredTiles = s.retiredTiles := rfl
@[simp] theorem nextFree_pendingTiles : (nextFree s).pendingTiles = s.pendingTiles := rfl
@[simp] theorem nextFree_guestSites : (nextFree s).guestSites = s.guestSites := rfl
@[simp] theorem nextFree_tiles : (nextFree s).tiles = s.tiles := rfl
@[simp] theorem nextFree_baseSync : (nextFree s).baseSync = s.baseSync := rfl
@[simp] theorem nextFree_dict : (nextFree s).dict = s.dict := rfl
@[simp] theorem nextFree_blobs : (nextFree s).blobs = s.blobs := rfl
@[simp] theorem nextFree_injections : (nextFree s).injections = s.injections := rfl
@[simp] theorem nextFree_tested : (nextFree s).tested = s.tested := rfl
@[simp] theorem nextFree_log : (nextFree s).log = s.log := rfl
@[simp] theorem nextFree_ops : (nextFree s).ops = s.ops := rfl
@[simp] theorem nextFree_mantle : (nextFree s).mantle = s.mantle := rfl
@[simp] theorem nextFree_bas : (nextFree s).bas = s.bas := rfl
@[simp] theorem nextFree_col : (nextFree s).col = s.col := rfl
@[simp] theorem nextFree_hem : (nextFree s).hem = s.hem := rfl
@[simp] theorem nextFree_fab : (nextFree s).fab = s.fab := rfl
@[simp] theorem nextFree_adm : (nextFree s).adm = s.adm := rfl
@[simp] theorem nextFree_clk : (nextFree s).clk = s.clk := rfl
@[simp] theorem nextFree_pow : (nextFree s).pow = s.pow := rfl
@[simp] theorem nextFree_cal : (nextFree s).cal = s.cal := rfl
@[simp] theorem nextFree_las : (nextFree s).las = s.las := rfl
@[simp] theorem nextFree_fc : (nextFree s).fc = s.fc := rfl
@[simp] theorem nextFree_boot : (nextFree s).boot = s.boot := rfl
@[simp] theorem nextFree_host : (nextFree s).host = s.host := rfl

@[simp] theorem modTile_pending (t : Nat) (f : Tile → Tile) : (modTile s t f).pending = s.pending := rfl
@[simp] theorem modTile_now (t : Nat) (f : Tile → Tile) : (modTile s t f).now = s.now := rfl
@[simp] theorem modTile_epochOff (t : Nat) (f : Tile → Tile) : (modTile s t f).epochOff = s.epochOff := rfl
@[simp] theorem modTile_part (t : Nat) (f : Tile → Tile) : (modTile s t f).part = s.part := rfl
@[simp] theorem modTile_out (t : Nat) (f : Tile → Tile) : (modTile s t f).out = s.out := rfl
@[simp] theorem modTile_free (t : Nat) (f : Tile → Tile) : (modTile s t f).free = s.free := rfl
@[simp] theorem modTile_mem (t : Nat) (f : Tile → Tile) : (modTile s t f).mem = s.mem := rfl
@[simp] theorem modTile_cells (t : Nat) (f : Tile → Tile) : (modTile s t f).cells = s.cells := rfl
@[simp] theorem modTile_badRows (t : Nat) (f : Tile → Tile) : (modTile s t f).badRows = s.badRows := rfl
@[simp] theorem modTile_fusedTiles (t : Nat) (f : Tile → Tile) : (modTile s t f).fusedTiles = s.fusedTiles := rfl
@[simp] theorem modTile_retiredTiles (t : Nat) (f : Tile → Tile) : (modTile s t f).retiredTiles = s.retiredTiles := rfl
@[simp] theorem modTile_pendingTiles (t : Nat) (f : Tile → Tile) : (modTile s t f).pendingTiles = s.pendingTiles := rfl
@[simp] theorem modTile_guestSites (t : Nat) (f : Tile → Tile) : (modTile s t f).guestSites = s.guestSites := rfl
@[simp] theorem modTile_baseSync (t : Nat) (f : Tile → Tile) : (modTile s t f).baseSync = s.baseSync := rfl
@[simp] theorem modTile_dict (t : Nat) (f : Tile → Tile) : (modTile s t f).dict = s.dict := rfl
@[simp] theorem modTile_blobs (t : Nat) (f : Tile → Tile) : (modTile s t f).blobs = s.blobs := rfl
@[simp] theorem modTile_injections (t : Nat) (f : Tile → Tile) : (modTile s t f).injections = s.injections := rfl
@[simp] theorem modTile_tested (t : Nat) (f : Tile → Tile) : (modTile s t f).tested = s.tested := rfl
@[simp] theorem modTile_log (t : Nat) (f : Tile → Tile) : (modTile s t f).log = s.log := rfl
@[simp] theorem modTile_ops (t : Nat) (f : Tile → Tile) : (modTile s t f).ops = s.ops := rfl
@[simp] theorem modTile_mantle (t : Nat) (f : Tile → Tile) : (modTile s t f).mantle = s.mantle := rfl
@[simp] theorem modTile_bas (t : Nat) (f : Tile → Tile) : (modTile s t f).bas = s.bas := rfl
@[simp] theorem modTile_col (t : Nat) (f : Tile → Tile) : (modTile s t f).col = s.col := rfl
@[simp] theorem modTile_hem (t : Nat) (f : Tile → Tile) : (modTile s t f).hem = s.hem := rfl
@[simp] theorem modTile_fab (t : Nat) (f : Tile → Tile) : (modTile s t f).fab = s.fab := rfl
@[simp] theorem modTile_adm (t : Nat) (f : Tile → Tile) : (modTile s t f).adm = s.adm := rfl
@[simp] theorem modTile_clk (t : Nat) (f : Tile → Tile) : (modTile s t f).clk = s.clk := rfl
@[simp] theorem modTile_pow (t : Nat) (f : Tile → Tile) : (modTile s t f).pow = s.pow := rfl
@[simp] theorem modTile_cal (t : Nat) (f : Tile → Tile) : (modTile s t f).cal = s.cal := rfl
@[simp] theorem modTile_las (t : Nat) (f : Tile → Tile) : (modTile s t f).las = s.las := rfl
@[simp] theorem modTile_fc (t : Nat) (f : Tile → Tile) : (modTile s t f).fc = s.fc := rfl
@[simp] theorem modTile_boot (t : Nat) (f : Tile → Tile) : (modTile s t f).boot = s.boot := rfl
@[simp] theorem modTile_host (t : Nat) (f : Tile → Tile) : (modTile s t f).host = s.host := rfl

@[simp] theorem modSCore_pending (t p : Nat) (f : SCore → SCore) : (modSCore s t p f).pending = s.pending := rfl
@[simp] theorem modSCore_now (t p : Nat) (f : SCore → SCore) : (modSCore s t p f).now = s.now := rfl
@[simp] theorem modSCore_epochOff (t p : Nat) (f : SCore → SCore) : (modSCore s t p f).epochOff = s.epochOff := rfl
@[simp] theorem modSCore_part (t p : Nat) (f : SCore → SCore) : (modSCore s t p f).part = s.part := rfl
@[simp] theorem modSCore_out (t p : Nat) (f : SCore → SCore) : (modSCore s t p f).out = s.out := rfl
@[simp] theorem modSCore_free (t p : Nat) (f : SCore → SCore) : (modSCore s t p f).free = s.free := rfl
@[simp] theorem modSCore_mem (t p : Nat) (f : SCore → SCore) : (modSCore s t p f).mem = s.mem := rfl
@[simp] theorem modSCore_cells (t p : Nat) (f : SCore → SCore) : (modSCore s t p f).cells = s.cells := rfl
@[simp] theorem modSCore_badRows (t p : Nat) (f : SCore → SCore) : (modSCore s t p f).badRows = s.badRows := rfl
@[simp] theorem modSCore_fusedTiles (t p : Nat) (f : SCore → SCore) : (modSCore s t p f).fusedTiles = s.fusedTiles := rfl
@[simp] theorem modSCore_retiredTiles (t p : Nat) (f : SCore → SCore) : (modSCore s t p f).retiredTiles = s.retiredTiles := rfl
@[simp] theorem modSCore_pendingTiles (t p : Nat) (f : SCore → SCore) : (modSCore s t p f).pendingTiles = s.pendingTiles := rfl
@[simp] theorem modSCore_guestSites (t p : Nat) (f : SCore → SCore) : (modSCore s t p f).guestSites = s.guestSites := rfl
@[simp] theorem modSCore_baseSync (t p : Nat) (f : SCore → SCore) : (modSCore s t p f).baseSync = s.baseSync := rfl
@[simp] theorem modSCore_dict (t p : Nat) (f : SCore → SCore) : (modSCore s t p f).dict = s.dict := rfl
@[simp] theorem modSCore_blobs (t p : Nat) (f : SCore → SCore) : (modSCore s t p f).blobs = s.blobs := rfl
@[simp] theorem modSCore_injections (t p : Nat) (f : SCore → SCore) : (modSCore s t p f).injections = s.injections := rfl
@[simp] theorem modSCore_tested (t p : Nat) (f : SCore → SCore) : (modSCore s t p f).tested = s.tested := rfl
@[simp] theorem modSCore_log (t p : Nat) (f : SCore → SCore) : (modSCore s t p f).log = s.log := rfl
@[simp] theorem modSCore_ops (t p : Nat) (f : SCore → SCore) : (modSCore s t p f).ops = s.ops := rfl
@[simp] theorem modSCore_mantle (t p : Nat) (f : SCore → SCore) : (modSCore s t p f).mantle = s.mantle := rfl
@[simp] theorem modSCore_bas (t p : Nat) (f : SCore → SCore) : (modSCore s t p f).bas = s.bas := rfl
@[simp] theorem modSCore_col (t p : Nat) (f : SCore → SCore) : (modSCore s t p f).col = s.col := rfl
@[simp] theorem modSCore_hem (t p : Nat) (f : SCore → SCore) : (modSCore s t p f).hem = s.hem := rfl
@[simp] theorem modSCore_fab (t p : Nat) (f : SCore → SCore) : (modSCore s t p f).fab = s.fab := rfl
@[simp] theorem modSCore_adm (t p : Nat) (f : SCore → SCore) : (modSCore s t p f).adm = s.adm := rfl
@[simp] theorem modSCore_clk (t p : Nat) (f : SCore → SCore) : (modSCore s t p f).clk = s.clk := rfl
@[simp] theorem modSCore_pow (t p : Nat) (f : SCore → SCore) : (modSCore s t p f).pow = s.pow := rfl
@[simp] theorem modSCore_cal (t p : Nat) (f : SCore → SCore) : (modSCore s t p f).cal = s.cal := rfl
@[simp] theorem modSCore_las (t p : Nat) (f : SCore → SCore) : (modSCore s t p f).las = s.las := rfl
@[simp] theorem modSCore_fc (t p : Nat) (f : SCore → SCore) : (modSCore s t p f).fc = s.fc := rfl
@[simp] theorem modSCore_boot (t p : Nat) (f : SCore → SCore) : (modSCore s t p f).boot = s.boot := rfl
@[simp] theorem modSCore_host (t p : Nat) (f : SCore → SCore) : (modSCore s t p f).host = s.host := rfl

@[simp] theorem setRd_pending (t p rd : Nat) (v : DWord) : (setRd s t p rd v).pending = s.pending := rfl
@[simp] theorem setRd_now (t p rd : Nat) (v : DWord) : (setRd s t p rd v).now = s.now := rfl
@[simp] theorem setRd_epochOff (t p rd : Nat) (v : DWord) : (setRd s t p rd v).epochOff = s.epochOff := rfl
@[simp] theorem setRd_part (t p rd : Nat) (v : DWord) : (setRd s t p rd v).part = s.part := rfl
@[simp] theorem setRd_out (t p rd : Nat) (v : DWord) : (setRd s t p rd v).out = s.out := rfl
@[simp] theorem setRd_free (t p rd : Nat) (v : DWord) : (setRd s t p rd v).free = s.free := rfl
@[simp] theorem setRd_mem (t p rd : Nat) (v : DWord) : (setRd s t p rd v).mem = s.mem := rfl
@[simp] theorem setRd_cells (t p rd : Nat) (v : DWord) : (setRd s t p rd v).cells = s.cells := rfl
@[simp] theorem setRd_badRows (t p rd : Nat) (v : DWord) : (setRd s t p rd v).badRows = s.badRows := rfl
@[simp] theorem setRd_fusedTiles (t p rd : Nat) (v : DWord) : (setRd s t p rd v).fusedTiles = s.fusedTiles := rfl
@[simp] theorem setRd_retiredTiles (t p rd : Nat) (v : DWord) : (setRd s t p rd v).retiredTiles = s.retiredTiles := rfl
@[simp] theorem setRd_pendingTiles (t p rd : Nat) (v : DWord) : (setRd s t p rd v).pendingTiles = s.pendingTiles := rfl
@[simp] theorem setRd_guestSites (t p rd : Nat) (v : DWord) : (setRd s t p rd v).guestSites = s.guestSites := rfl
@[simp] theorem setRd_baseSync (t p rd : Nat) (v : DWord) : (setRd s t p rd v).baseSync = s.baseSync := rfl
@[simp] theorem setRd_dict (t p rd : Nat) (v : DWord) : (setRd s t p rd v).dict = s.dict := rfl
@[simp] theorem setRd_blobs (t p rd : Nat) (v : DWord) : (setRd s t p rd v).blobs = s.blobs := rfl
@[simp] theorem setRd_injections (t p rd : Nat) (v : DWord) : (setRd s t p rd v).injections = s.injections := rfl
@[simp] theorem setRd_tested (t p rd : Nat) (v : DWord) : (setRd s t p rd v).tested = s.tested := rfl
@[simp] theorem setRd_log (t p rd : Nat) (v : DWord) : (setRd s t p rd v).log = s.log := rfl
@[simp] theorem setRd_ops (t p rd : Nat) (v : DWord) : (setRd s t p rd v).ops = s.ops := rfl
@[simp] theorem setRd_mantle (t p rd : Nat) (v : DWord) : (setRd s t p rd v).mantle = s.mantle := rfl
@[simp] theorem setRd_bas (t p rd : Nat) (v : DWord) : (setRd s t p rd v).bas = s.bas := rfl
@[simp] theorem setRd_col (t p rd : Nat) (v : DWord) : (setRd s t p rd v).col = s.col := rfl
@[simp] theorem setRd_hem (t p rd : Nat) (v : DWord) : (setRd s t p rd v).hem = s.hem := rfl
@[simp] theorem setRd_fab (t p rd : Nat) (v : DWord) : (setRd s t p rd v).fab = s.fab := rfl
@[simp] theorem setRd_adm (t p rd : Nat) (v : DWord) : (setRd s t p rd v).adm = s.adm := rfl
@[simp] theorem setRd_clk (t p rd : Nat) (v : DWord) : (setRd s t p rd v).clk = s.clk := rfl
@[simp] theorem setRd_pow (t p rd : Nat) (v : DWord) : (setRd s t p rd v).pow = s.pow := rfl
@[simp] theorem setRd_cal (t p rd : Nat) (v : DWord) : (setRd s t p rd v).cal = s.cal := rfl
@[simp] theorem setRd_las (t p rd : Nat) (v : DWord) : (setRd s t p rd v).las = s.las := rfl
@[simp] theorem setRd_fc (t p rd : Nat) (v : DWord) : (setRd s t p rd v).fc = s.fc := rfl
@[simp] theorem setRd_boot (t p rd : Nat) (v : DWord) : (setRd s t p rd v).boot = s.boot := rfl
@[simp] theorem setRd_host (t p rd : Nat) (v : DWord) : (setRd s t p rd v).host = s.host := rfl

@[simp] theorem raiseExc_pending (t p : Nat) (e : Exc) : (raiseExc s t p e).pending = s.pending := rfl
@[simp] theorem raiseExc_now (t p : Nat) (e : Exc) : (raiseExc s t p e).now = s.now := rfl
@[simp] theorem raiseExc_epochOff (t p : Nat) (e : Exc) : (raiseExc s t p e).epochOff = s.epochOff := rfl
@[simp] theorem raiseExc_part (t p : Nat) (e : Exc) : (raiseExc s t p e).part = s.part := rfl
@[simp] theorem raiseExc_out (t p : Nat) (e : Exc) : (raiseExc s t p e).out = s.out := rfl
@[simp] theorem raiseExc_free (t p : Nat) (e : Exc) : (raiseExc s t p e).free = s.free := rfl
@[simp] theorem raiseExc_mem (t p : Nat) (e : Exc) : (raiseExc s t p e).mem = s.mem := rfl
@[simp] theorem raiseExc_cells (t p : Nat) (e : Exc) : (raiseExc s t p e).cells = s.cells := rfl
@[simp] theorem raiseExc_badRows (t p : Nat) (e : Exc) : (raiseExc s t p e).badRows = s.badRows := rfl
@[simp] theorem raiseExc_fusedTiles (t p : Nat) (e : Exc) : (raiseExc s t p e).fusedTiles = s.fusedTiles := rfl
@[simp] theorem raiseExc_retiredTiles (t p : Nat) (e : Exc) : (raiseExc s t p e).retiredTiles = s.retiredTiles := rfl
@[simp] theorem raiseExc_pendingTiles (t p : Nat) (e : Exc) : (raiseExc s t p e).pendingTiles = s.pendingTiles := rfl
@[simp] theorem raiseExc_guestSites (t p : Nat) (e : Exc) : (raiseExc s t p e).guestSites = s.guestSites := rfl
@[simp] theorem raiseExc_baseSync (t p : Nat) (e : Exc) : (raiseExc s t p e).baseSync = s.baseSync := rfl
@[simp] theorem raiseExc_dict (t p : Nat) (e : Exc) : (raiseExc s t p e).dict = s.dict := rfl
@[simp] theorem raiseExc_blobs (t p : Nat) (e : Exc) : (raiseExc s t p e).blobs = s.blobs := rfl
@[simp] theorem raiseExc_injections (t p : Nat) (e : Exc) : (raiseExc s t p e).injections = s.injections := rfl
@[simp] theorem raiseExc_tested (t p : Nat) (e : Exc) : (raiseExc s t p e).tested = s.tested := rfl
@[simp] theorem raiseExc_log (t p : Nat) (e : Exc) : (raiseExc s t p e).log = s.log := rfl
@[simp] theorem raiseExc_ops (t p : Nat) (e : Exc) : (raiseExc s t p e).ops = s.ops := rfl
@[simp] theorem raiseExc_mantle (t p : Nat) (e : Exc) : (raiseExc s t p e).mantle = s.mantle := rfl
@[simp] theorem raiseExc_bas (t p : Nat) (e : Exc) : (raiseExc s t p e).bas = s.bas := rfl
@[simp] theorem raiseExc_col (t p : Nat) (e : Exc) : (raiseExc s t p e).col = s.col := rfl
@[simp] theorem raiseExc_hem (t p : Nat) (e : Exc) : (raiseExc s t p e).hem = s.hem := rfl
@[simp] theorem raiseExc_fab (t p : Nat) (e : Exc) : (raiseExc s t p e).fab = s.fab := rfl
@[simp] theorem raiseExc_adm (t p : Nat) (e : Exc) : (raiseExc s t p e).adm = s.adm := rfl
@[simp] theorem raiseExc_clk (t p : Nat) (e : Exc) : (raiseExc s t p e).clk = s.clk := rfl
@[simp] theorem raiseExc_pow (t p : Nat) (e : Exc) : (raiseExc s t p e).pow = s.pow := rfl
@[simp] theorem raiseExc_cal (t p : Nat) (e : Exc) : (raiseExc s t p e).cal = s.cal := rfl
@[simp] theorem raiseExc_las (t p : Nat) (e : Exc) : (raiseExc s t p e).las = s.las := rfl
@[simp] theorem raiseExc_fc (t p : Nat) (e : Exc) : (raiseExc s t p e).fc = s.fc := rfl
@[simp] theorem raiseExc_boot (t p : Nat) (e : Exc) : (raiseExc s t p e).boot = s.boot := rfl
@[simp] theorem raiseExc_host (t p : Nat) (e : Exc) : (raiseExc s t p e).host = s.host := rfl

@[simp] theorem clearExc_pending (t p : Nat) : (clearExc s t p).pending = s.pending := rfl
@[simp] theorem clearExc_now (t p : Nat) : (clearExc s t p).now = s.now := rfl
@[simp] theorem clearExc_epochOff (t p : Nat) : (clearExc s t p).epochOff = s.epochOff := rfl
@[simp] theorem clearExc_part (t p : Nat) : (clearExc s t p).part = s.part := rfl
@[simp] theorem clearExc_out (t p : Nat) : (clearExc s t p).out = s.out := rfl
@[simp] theorem clearExc_free (t p : Nat) : (clearExc s t p).free = s.free := rfl
@[simp] theorem clearExc_mem (t p : Nat) : (clearExc s t p).mem = s.mem := rfl
@[simp] theorem clearExc_cells (t p : Nat) : (clearExc s t p).cells = s.cells := rfl
@[simp] theorem clearExc_badRows (t p : Nat) : (clearExc s t p).badRows = s.badRows := rfl
@[simp] theorem clearExc_fusedTiles (t p : Nat) : (clearExc s t p).fusedTiles = s.fusedTiles := rfl
@[simp] theorem clearExc_retiredTiles (t p : Nat) : (clearExc s t p).retiredTiles = s.retiredTiles := rfl
@[simp] theorem clearExc_pendingTiles (t p : Nat) : (clearExc s t p).pendingTiles = s.pendingTiles := rfl
@[simp] theorem clearExc_guestSites (t p : Nat) : (clearExc s t p).guestSites = s.guestSites := rfl
@[simp] theorem clearExc_baseSync (t p : Nat) : (clearExc s t p).baseSync = s.baseSync := rfl
@[simp] theorem clearExc_dict (t p : Nat) : (clearExc s t p).dict = s.dict := rfl
@[simp] theorem clearExc_blobs (t p : Nat) : (clearExc s t p).blobs = s.blobs := rfl
@[simp] theorem clearExc_injections (t p : Nat) : (clearExc s t p).injections = s.injections := rfl
@[simp] theorem clearExc_tested (t p : Nat) : (clearExc s t p).tested = s.tested := rfl
@[simp] theorem clearExc_log (t p : Nat) : (clearExc s t p).log = s.log := rfl
@[simp] theorem clearExc_ops (t p : Nat) : (clearExc s t p).ops = s.ops := rfl
@[simp] theorem clearExc_mantle (t p : Nat) : (clearExc s t p).mantle = s.mantle := rfl
@[simp] theorem clearExc_bas (t p : Nat) : (clearExc s t p).bas = s.bas := rfl
@[simp] theorem clearExc_col (t p : Nat) : (clearExc s t p).col = s.col := rfl
@[simp] theorem clearExc_hem (t p : Nat) : (clearExc s t p).hem = s.hem := rfl
@[simp] theorem clearExc_fab (t p : Nat) : (clearExc s t p).fab = s.fab := rfl
@[simp] theorem clearExc_adm (t p : Nat) : (clearExc s t p).adm = s.adm := rfl
@[simp] theorem clearExc_clk (t p : Nat) : (clearExc s t p).clk = s.clk := rfl
@[simp] theorem clearExc_pow (t p : Nat) : (clearExc s t p).pow = s.pow := rfl
@[simp] theorem clearExc_cal (t p : Nat) : (clearExc s t p).cal = s.cal := rfl
@[simp] theorem clearExc_las (t p : Nat) : (clearExc s t p).las = s.las := rfl
@[simp] theorem clearExc_fc (t p : Nat) : (clearExc s t p).fc = s.fc := rfl
@[simp] theorem clearExc_boot (t p : Nat) : (clearExc s t p).boot = s.boot := rfl
@[simp] theorem clearExc_host (t p : Nat) : (clearExc s t p).host = s.host := rfl

@[simp] theorem setCoreQueue_pending (t k p : Nat) (q : List QDesc) : (setCoreQueue s t k p q).pending = s.pending := rfl
@[simp] theorem setCoreQueue_now (t k p : Nat) (q : List QDesc) : (setCoreQueue s t k p q).now = s.now := rfl
@[simp] theorem setCoreQueue_epochOff (t k p : Nat) (q : List QDesc) : (setCoreQueue s t k p q).epochOff = s.epochOff := rfl
@[simp] theorem setCoreQueue_part (t k p : Nat) (q : List QDesc) : (setCoreQueue s t k p q).part = s.part := rfl
@[simp] theorem setCoreQueue_out (t k p : Nat) (q : List QDesc) : (setCoreQueue s t k p q).out = s.out := rfl
@[simp] theorem setCoreQueue_free (t k p : Nat) (q : List QDesc) : (setCoreQueue s t k p q).free = s.free := rfl
@[simp] theorem setCoreQueue_mem (t k p : Nat) (q : List QDesc) : (setCoreQueue s t k p q).mem = s.mem := rfl
@[simp] theorem setCoreQueue_cells (t k p : Nat) (q : List QDesc) : (setCoreQueue s t k p q).cells = s.cells := rfl
@[simp] theorem setCoreQueue_badRows (t k p : Nat) (q : List QDesc) : (setCoreQueue s t k p q).badRows = s.badRows := rfl
@[simp] theorem setCoreQueue_fusedTiles (t k p : Nat) (q : List QDesc) : (setCoreQueue s t k p q).fusedTiles = s.fusedTiles := rfl
@[simp] theorem setCoreQueue_retiredTiles (t k p : Nat) (q : List QDesc) : (setCoreQueue s t k p q).retiredTiles = s.retiredTiles := rfl
@[simp] theorem setCoreQueue_pendingTiles (t k p : Nat) (q : List QDesc) : (setCoreQueue s t k p q).pendingTiles = s.pendingTiles := rfl
@[simp] theorem setCoreQueue_guestSites (t k p : Nat) (q : List QDesc) : (setCoreQueue s t k p q).guestSites = s.guestSites := rfl
@[simp] theorem setCoreQueue_baseSync (t k p : Nat) (q : List QDesc) : (setCoreQueue s t k p q).baseSync = s.baseSync := rfl
@[simp] theorem setCoreQueue_dict (t k p : Nat) (q : List QDesc) : (setCoreQueue s t k p q).dict = s.dict := rfl
@[simp] theorem setCoreQueue_blobs (t k p : Nat) (q : List QDesc) : (setCoreQueue s t k p q).blobs = s.blobs := rfl
@[simp] theorem setCoreQueue_injections (t k p : Nat) (q : List QDesc) : (setCoreQueue s t k p q).injections = s.injections := rfl
@[simp] theorem setCoreQueue_tested (t k p : Nat) (q : List QDesc) : (setCoreQueue s t k p q).tested = s.tested := rfl
@[simp] theorem setCoreQueue_log (t k p : Nat) (q : List QDesc) : (setCoreQueue s t k p q).log = s.log := rfl
@[simp] theorem setCoreQueue_ops (t k p : Nat) (q : List QDesc) : (setCoreQueue s t k p q).ops = s.ops := rfl
@[simp] theorem setCoreQueue_mantle (t k p : Nat) (q : List QDesc) : (setCoreQueue s t k p q).mantle = s.mantle := rfl
@[simp] theorem setCoreQueue_bas (t k p : Nat) (q : List QDesc) : (setCoreQueue s t k p q).bas = s.bas := rfl
@[simp] theorem setCoreQueue_col (t k p : Nat) (q : List QDesc) : (setCoreQueue s t k p q).col = s.col := rfl
@[simp] theorem setCoreQueue_hem (t k p : Nat) (q : List QDesc) : (setCoreQueue s t k p q).hem = s.hem := rfl
@[simp] theorem setCoreQueue_fab (t k p : Nat) (q : List QDesc) : (setCoreQueue s t k p q).fab = s.fab := rfl
@[simp] theorem setCoreQueue_adm (t k p : Nat) (q : List QDesc) : (setCoreQueue s t k p q).adm = s.adm := rfl
@[simp] theorem setCoreQueue_clk (t k p : Nat) (q : List QDesc) : (setCoreQueue s t k p q).clk = s.clk := rfl
@[simp] theorem setCoreQueue_pow (t k p : Nat) (q : List QDesc) : (setCoreQueue s t k p q).pow = s.pow := rfl
@[simp] theorem setCoreQueue_cal (t k p : Nat) (q : List QDesc) : (setCoreQueue s t k p q).cal = s.cal := rfl
@[simp] theorem setCoreQueue_las (t k p : Nat) (q : List QDesc) : (setCoreQueue s t k p q).las = s.las := rfl
@[simp] theorem setCoreQueue_fc (t k p : Nat) (q : List QDesc) : (setCoreQueue s t k p q).fc = s.fc := rfl
@[simp] theorem setCoreQueue_boot (t k p : Nat) (q : List QDesc) : (setCoreQueue s t k p q).boot = s.boot := rfl
@[simp] theorem setCoreQueue_host (t k p : Nat) (q : List QDesc) : (setCoreQueue s t k p q).host = s.host := rfl

@[simp] theorem setBadRow_pending (k : Nat) (b : Bool) : (setBadRow s k b).pending = s.pending := rfl
@[simp] theorem setBadRow_now (k : Nat) (b : Bool) : (setBadRow s k b).now = s.now := rfl
@[simp] theorem setBadRow_epochOff (k : Nat) (b : Bool) : (setBadRow s k b).epochOff = s.epochOff := rfl
@[simp] theorem setBadRow_part (k : Nat) (b : Bool) : (setBadRow s k b).part = s.part := rfl
@[simp] theorem setBadRow_out (k : Nat) (b : Bool) : (setBadRow s k b).out = s.out := rfl
@[simp] theorem setBadRow_free (k : Nat) (b : Bool) : (setBadRow s k b).free = s.free := rfl
@[simp] theorem setBadRow_mem (k : Nat) (b : Bool) : (setBadRow s k b).mem = s.mem := rfl
@[simp] theorem setBadRow_cells (k : Nat) (b : Bool) : (setBadRow s k b).cells = s.cells := rfl
@[simp] theorem setBadRow_fusedTiles (k : Nat) (b : Bool) : (setBadRow s k b).fusedTiles = s.fusedTiles := rfl
@[simp] theorem setBadRow_retiredTiles (k : Nat) (b : Bool) : (setBadRow s k b).retiredTiles = s.retiredTiles := rfl
@[simp] theorem setBadRow_pendingTiles (k : Nat) (b : Bool) : (setBadRow s k b).pendingTiles = s.pendingTiles := rfl
@[simp] theorem setBadRow_guestSites (k : Nat) (b : Bool) : (setBadRow s k b).guestSites = s.guestSites := rfl
@[simp] theorem setBadRow_tiles (k : Nat) (b : Bool) : (setBadRow s k b).tiles = s.tiles := rfl
@[simp] theorem setBadRow_baseSync (k : Nat) (b : Bool) : (setBadRow s k b).baseSync = s.baseSync := rfl
@[simp] theorem setBadRow_dict (k : Nat) (b : Bool) : (setBadRow s k b).dict = s.dict := rfl
@[simp] theorem setBadRow_blobs (k : Nat) (b : Bool) : (setBadRow s k b).blobs = s.blobs := rfl
@[simp] theorem setBadRow_injections (k : Nat) (b : Bool) : (setBadRow s k b).injections = s.injections := rfl
@[simp] theorem setBadRow_tested (k : Nat) (b : Bool) : (setBadRow s k b).tested = s.tested := rfl
@[simp] theorem setBadRow_log (k : Nat) (b : Bool) : (setBadRow s k b).log = s.log := rfl
@[simp] theorem setBadRow_ops (k : Nat) (b : Bool) : (setBadRow s k b).ops = s.ops := rfl
@[simp] theorem setBadRow_mantle (k : Nat) (b : Bool) : (setBadRow s k b).mantle = s.mantle := rfl
@[simp] theorem setBadRow_bas (k : Nat) (b : Bool) : (setBadRow s k b).bas = s.bas := rfl
@[simp] theorem setBadRow_col (k : Nat) (b : Bool) : (setBadRow s k b).col = s.col := rfl
@[simp] theorem setBadRow_hem (k : Nat) (b : Bool) : (setBadRow s k b).hem = s.hem := rfl
@[simp] theorem setBadRow_fab (k : Nat) (b : Bool) : (setBadRow s k b).fab = s.fab := rfl
@[simp] theorem setBadRow_adm (k : Nat) (b : Bool) : (setBadRow s k b).adm = s.adm := rfl
@[simp] theorem setBadRow_clk (k : Nat) (b : Bool) : (setBadRow s k b).clk = s.clk := rfl
@[simp] theorem setBadRow_pow (k : Nat) (b : Bool) : (setBadRow s k b).pow = s.pow := rfl
@[simp] theorem setBadRow_cal (k : Nat) (b : Bool) : (setBadRow s k b).cal = s.cal := rfl
@[simp] theorem setBadRow_las (k : Nat) (b : Bool) : (setBadRow s k b).las = s.las := rfl
@[simp] theorem setBadRow_fc (k : Nat) (b : Bool) : (setBadRow s k b).fc = s.fc := rfl
@[simp] theorem setBadRow_boot (k : Nat) (b : Bool) : (setBadRow s k b).boot = s.boot := rfl
@[simp] theorem setBadRow_host (k : Nat) (b : Bool) : (setBadRow s k b).host = s.host := rfl

@[simp] theorem modFunc_pending (f : Nat) (g : HFunc → HFunc) : (modFunc s f g).pending = s.pending := rfl
@[simp] theorem modFunc_now (f : Nat) (g : HFunc → HFunc) : (modFunc s f g).now = s.now := rfl
@[simp] theorem modFunc_epochOff (f : Nat) (g : HFunc → HFunc) : (modFunc s f g).epochOff = s.epochOff := rfl
@[simp] theorem modFunc_part (f : Nat) (g : HFunc → HFunc) : (modFunc s f g).part = s.part := rfl
@[simp] theorem modFunc_out (f : Nat) (g : HFunc → HFunc) : (modFunc s f g).out = s.out := rfl
@[simp] theorem modFunc_free (f : Nat) (g : HFunc → HFunc) : (modFunc s f g).free = s.free := rfl
@[simp] theorem modFunc_mem (f : Nat) (g : HFunc → HFunc) : (modFunc s f g).mem = s.mem := rfl
@[simp] theorem modFunc_cells (f : Nat) (g : HFunc → HFunc) : (modFunc s f g).cells = s.cells := rfl
@[simp] theorem modFunc_badRows (f : Nat) (g : HFunc → HFunc) : (modFunc s f g).badRows = s.badRows := rfl
@[simp] theorem modFunc_fusedTiles (f : Nat) (g : HFunc → HFunc) : (modFunc s f g).fusedTiles = s.fusedTiles := rfl
@[simp] theorem modFunc_retiredTiles (f : Nat) (g : HFunc → HFunc) : (modFunc s f g).retiredTiles = s.retiredTiles := rfl
@[simp] theorem modFunc_pendingTiles (f : Nat) (g : HFunc → HFunc) : (modFunc s f g).pendingTiles = s.pendingTiles := rfl
@[simp] theorem modFunc_guestSites (f : Nat) (g : HFunc → HFunc) : (modFunc s f g).guestSites = s.guestSites := rfl
@[simp] theorem modFunc_tiles (f : Nat) (g : HFunc → HFunc) : (modFunc s f g).tiles = s.tiles := rfl
@[simp] theorem modFunc_baseSync (f : Nat) (g : HFunc → HFunc) : (modFunc s f g).baseSync = s.baseSync := rfl
@[simp] theorem modFunc_dict (f : Nat) (g : HFunc → HFunc) : (modFunc s f g).dict = s.dict := rfl
@[simp] theorem modFunc_blobs (f : Nat) (g : HFunc → HFunc) : (modFunc s f g).blobs = s.blobs := rfl
@[simp] theorem modFunc_injections (f : Nat) (g : HFunc → HFunc) : (modFunc s f g).injections = s.injections := rfl
@[simp] theorem modFunc_tested (f : Nat) (g : HFunc → HFunc) : (modFunc s f g).tested = s.tested := rfl
@[simp] theorem modFunc_log (f : Nat) (g : HFunc → HFunc) : (modFunc s f g).log = s.log := rfl
@[simp] theorem modFunc_ops (f : Nat) (g : HFunc → HFunc) : (modFunc s f g).ops = s.ops := rfl
@[simp] theorem modFunc_mantle (f : Nat) (g : HFunc → HFunc) : (modFunc s f g).mantle = s.mantle := rfl
@[simp] theorem modFunc_bas (f : Nat) (g : HFunc → HFunc) : (modFunc s f g).bas = s.bas := rfl
@[simp] theorem modFunc_col (f : Nat) (g : HFunc → HFunc) : (modFunc s f g).col = s.col := rfl
@[simp] theorem modFunc_hem (f : Nat) (g : HFunc → HFunc) : (modFunc s f g).hem = s.hem := rfl
@[simp] theorem modFunc_fab (f : Nat) (g : HFunc → HFunc) : (modFunc s f g).fab = s.fab := rfl
@[simp] theorem modFunc_adm (f : Nat) (g : HFunc → HFunc) : (modFunc s f g).adm = s.adm := rfl
@[simp] theorem modFunc_clk (f : Nat) (g : HFunc → HFunc) : (modFunc s f g).clk = s.clk := rfl
@[simp] theorem modFunc_pow (f : Nat) (g : HFunc → HFunc) : (modFunc s f g).pow = s.pow := rfl
@[simp] theorem modFunc_cal (f : Nat) (g : HFunc → HFunc) : (modFunc s f g).cal = s.cal := rfl
@[simp] theorem modFunc_las (f : Nat) (g : HFunc → HFunc) : (modFunc s f g).las = s.las := rfl
@[simp] theorem modFunc_fc (f : Nat) (g : HFunc → HFunc) : (modFunc s f g).fc = s.fc := rfl
@[simp] theorem modFunc_boot (f : Nat) (g : HFunc → HFunc) : (modFunc s f g).boot = s.boot := rfl

@[simp] theorem putOp_pending (i : Nat) (o : LongOp) : (putOp s i o).pending = s.pending := rfl
@[simp] theorem putOp_now (i : Nat) (o : LongOp) : (putOp s i o).now = s.now := rfl
@[simp] theorem putOp_epochOff (i : Nat) (o : LongOp) : (putOp s i o).epochOff = s.epochOff := rfl
@[simp] theorem putOp_part (i : Nat) (o : LongOp) : (putOp s i o).part = s.part := rfl
@[simp] theorem putOp_out (i : Nat) (o : LongOp) : (putOp s i o).out = s.out := rfl
@[simp] theorem putOp_free (i : Nat) (o : LongOp) : (putOp s i o).free = s.free := rfl
@[simp] theorem putOp_mem (i : Nat) (o : LongOp) : (putOp s i o).mem = s.mem := rfl
@[simp] theorem putOp_cells (i : Nat) (o : LongOp) : (putOp s i o).cells = s.cells := rfl
@[simp] theorem putOp_badRows (i : Nat) (o : LongOp) : (putOp s i o).badRows = s.badRows := rfl
@[simp] theorem putOp_fusedTiles (i : Nat) (o : LongOp) : (putOp s i o).fusedTiles = s.fusedTiles := rfl
@[simp] theorem putOp_retiredTiles (i : Nat) (o : LongOp) : (putOp s i o).retiredTiles = s.retiredTiles := rfl
@[simp] theorem putOp_pendingTiles (i : Nat) (o : LongOp) : (putOp s i o).pendingTiles = s.pendingTiles := rfl
@[simp] theorem putOp_guestSites (i : Nat) (o : LongOp) : (putOp s i o).guestSites = s.guestSites := rfl
@[simp] theorem putOp_tiles (i : Nat) (o : LongOp) : (putOp s i o).tiles = s.tiles := rfl
@[simp] theorem putOp_baseSync (i : Nat) (o : LongOp) : (putOp s i o).baseSync = s.baseSync := rfl
@[simp] theorem putOp_dict (i : Nat) (o : LongOp) : (putOp s i o).dict = s.dict := rfl
@[simp] theorem putOp_blobs (i : Nat) (o : LongOp) : (putOp s i o).blobs = s.blobs := rfl
@[simp] theorem putOp_injections (i : Nat) (o : LongOp) : (putOp s i o).injections = s.injections := rfl
@[simp] theorem putOp_tested (i : Nat) (o : LongOp) : (putOp s i o).tested = s.tested := rfl
@[simp] theorem putOp_log (i : Nat) (o : LongOp) : (putOp s i o).log = s.log := rfl
@[simp] theorem putOp_mantle (i : Nat) (o : LongOp) : (putOp s i o).mantle = s.mantle := rfl
@[simp] theorem putOp_bas (i : Nat) (o : LongOp) : (putOp s i o).bas = s.bas := rfl
@[simp] theorem putOp_col (i : Nat) (o : LongOp) : (putOp s i o).col = s.col := rfl
@[simp] theorem putOp_hem (i : Nat) (o : LongOp) : (putOp s i o).hem = s.hem := rfl
@[simp] theorem putOp_fab (i : Nat) (o : LongOp) : (putOp s i o).fab = s.fab := rfl
@[simp] theorem putOp_adm (i : Nat) (o : LongOp) : (putOp s i o).adm = s.adm := rfl
@[simp] theorem putOp_clk (i : Nat) (o : LongOp) : (putOp s i o).clk = s.clk := rfl
@[simp] theorem putOp_pow (i : Nat) (o : LongOp) : (putOp s i o).pow = s.pow := rfl
@[simp] theorem putOp_cal (i : Nat) (o : LongOp) : (putOp s i o).cal = s.cal := rfl
@[simp] theorem putOp_las (i : Nat) (o : LongOp) : (putOp s i o).las = s.las := rfl
@[simp] theorem putOp_fc (i : Nat) (o : LongOp) : (putOp s i o).fc = s.fc := rfl
@[simp] theorem putOp_boot (i : Nat) (o : LongOp) : (putOp s i o).boot = s.boot := rfl
@[simp] theorem putOp_host (i : Nat) (o : LongOp) : (putOp s i o).host = s.host := rfl

@[simp] theorem startOp_pending (i n a : Nat) : (startOp s i n a).pending = s.pending := rfl
@[simp] theorem startOp_now (i n a : Nat) : (startOp s i n a).now = s.now := rfl
@[simp] theorem startOp_epochOff (i n a : Nat) : (startOp s i n a).epochOff = s.epochOff := rfl
@[simp] theorem startOp_part (i n a : Nat) : (startOp s i n a).part = s.part := rfl
@[simp] theorem startOp_out (i n a : Nat) : (startOp s i n a).out = s.out := rfl
@[simp] theorem startOp_free (i n a : Nat) : (startOp s i n a).free = s.free := rfl
@[simp] theorem startOp_mem (i n a : Nat) : (startOp s i n a).mem = s.mem := rfl
@[simp] theorem startOp_cells (i n a : Nat) : (startOp s i n a).cells = s.cells := rfl
@[simp] theorem startOp_badRows (i n a : Nat) : (startOp s i n a).badRows = s.badRows := rfl
@[simp] theorem startOp_fusedTiles (i n a : Nat) : (startOp s i n a).fusedTiles = s.fusedTiles := rfl
@[simp] theorem startOp_retiredTiles (i n a : Nat) : (startOp s i n a).retiredTiles = s.retiredTiles := rfl
@[simp] theorem startOp_pendingTiles (i n a : Nat) : (startOp s i n a).pendingTiles = s.pendingTiles := rfl
@[simp] theorem startOp_guestSites (i n a : Nat) : (startOp s i n a).guestSites = s.guestSites := rfl
@[simp] theorem startOp_tiles (i n a : Nat) : (startOp s i n a).tiles = s.tiles := rfl
@[simp] theorem startOp_baseSync (i n a : Nat) : (startOp s i n a).baseSync = s.baseSync := rfl
@[simp] theorem startOp_dict (i n a : Nat) : (startOp s i n a).dict = s.dict := rfl
@[simp] theorem startOp_blobs (i n a : Nat) : (startOp s i n a).blobs = s.blobs := rfl
@[simp] theorem startOp_injections (i n a : Nat) : (startOp s i n a).injections = s.injections := rfl
@[simp] theorem startOp_tested (i n a : Nat) : (startOp s i n a).tested = s.tested := rfl
@[simp] theorem startOp_log (i n a : Nat) : (startOp s i n a).log = s.log := rfl
@[simp] theorem startOp_bas (i n a : Nat) : (startOp s i n a).bas = s.bas := rfl
@[simp] theorem startOp_col (i n a : Nat) : (startOp s i n a).col = s.col := rfl
@[simp] theorem startOp_hem (i n a : Nat) : (startOp s i n a).hem = s.hem := rfl
@[simp] theorem startOp_fab (i n a : Nat) : (startOp s i n a).fab = s.fab := rfl
@[simp] theorem startOp_adm (i n a : Nat) : (startOp s i n a).adm = s.adm := rfl
@[simp] theorem startOp_clk (i n a : Nat) : (startOp s i n a).clk = s.clk := rfl
@[simp] theorem startOp_pow (i n a : Nat) : (startOp s i n a).pow = s.pow := rfl
@[simp] theorem startOp_cal (i n a : Nat) : (startOp s i n a).cal = s.cal := rfl
@[simp] theorem startOp_las (i n a : Nat) : (startOp s i n a).las = s.las := rfl
@[simp] theorem startOp_fc (i n a : Nat) : (startOp s i n a).fc = s.fc := rfl
@[simp] theorem startOp_boot (i n a : Nat) : (startOp s i n a).boot = s.boot := rfl
@[simp] theorem startOp_host (i n a : Nat) : (startOp s i n a).host = s.host := rfl

@[simp] theorem endOp_pending (i a b c : Nat) : (endOp s i a b c).pending = s.pending := rfl
@[simp] theorem endOp_now (i a b c : Nat) : (endOp s i a b c).now = s.now := rfl
@[simp] theorem endOp_epochOff (i a b c : Nat) : (endOp s i a b c).epochOff = s.epochOff := rfl
@[simp] theorem endOp_part (i a b c : Nat) : (endOp s i a b c).part = s.part := rfl
@[simp] theorem endOp_out (i a b c : Nat) : (endOp s i a b c).out = s.out := rfl
@[simp] theorem endOp_free (i a b c : Nat) : (endOp s i a b c).free = s.free := rfl
@[simp] theorem endOp_mem (i a b c : Nat) : (endOp s i a b c).mem = s.mem := rfl
@[simp] theorem endOp_cells (i a b c : Nat) : (endOp s i a b c).cells = s.cells := rfl
@[simp] theorem endOp_badRows (i a b c : Nat) : (endOp s i a b c).badRows = s.badRows := rfl
@[simp] theorem endOp_fusedTiles (i a b c : Nat) : (endOp s i a b c).fusedTiles = s.fusedTiles := rfl
@[simp] theorem endOp_retiredTiles (i a b c : Nat) : (endOp s i a b c).retiredTiles = s.retiredTiles := rfl
@[simp] theorem endOp_pendingTiles (i a b c : Nat) : (endOp s i a b c).pendingTiles = s.pendingTiles := rfl
@[simp] theorem endOp_guestSites (i a b c : Nat) : (endOp s i a b c).guestSites = s.guestSites := rfl
@[simp] theorem endOp_tiles (i a b c : Nat) : (endOp s i a b c).tiles = s.tiles := rfl
@[simp] theorem endOp_baseSync (i a b c : Nat) : (endOp s i a b c).baseSync = s.baseSync := rfl
@[simp] theorem endOp_dict (i a b c : Nat) : (endOp s i a b c).dict = s.dict := rfl
@[simp] theorem endOp_blobs (i a b c : Nat) : (endOp s i a b c).blobs = s.blobs := rfl
@[simp] theorem endOp_injections (i a b c : Nat) : (endOp s i a b c).injections = s.injections := rfl
@[simp] theorem endOp_tested (i a b c : Nat) : (endOp s i a b c).tested = s.tested := rfl
@[simp] theorem endOp_log (i a b c : Nat) : (endOp s i a b c).log = s.log := rfl
@[simp] theorem endOp_mantle (i a b c : Nat) : (endOp s i a b c).mantle = s.mantle := rfl
@[simp] theorem endOp_bas (i a b c : Nat) : (endOp s i a b c).bas = s.bas := rfl
@[simp] theorem endOp_col (i a b c : Nat) : (endOp s i a b c).col = s.col := rfl
@[simp] theorem endOp_hem (i a b c : Nat) : (endOp s i a b c).hem = s.hem := rfl
@[simp] theorem endOp_fab (i a b c : Nat) : (endOp s i a b c).fab = s.fab := rfl
@[simp] theorem endOp_adm (i a b c : Nat) : (endOp s i a b c).adm = s.adm := rfl
@[simp] theorem endOp_clk (i a b c : Nat) : (endOp s i a b c).clk = s.clk := rfl
@[simp] theorem endOp_pow (i a b c : Nat) : (endOp s i a b c).pow = s.pow := rfl
@[simp] theorem endOp_cal (i a b c : Nat) : (endOp s i a b c).cal = s.cal := rfl
@[simp] theorem endOp_las (i a b c : Nat) : (endOp s i a b c).las = s.las := rfl
@[simp] theorem endOp_fc (i a b c : Nat) : (endOp s i a b c).fc = s.fc := rfl
@[simp] theorem endOp_boot (i a b c : Nat) : (endOp s i a b c).boot = s.boot := rfl
@[simp] theorem endOp_host (i a b c : Nat) : (endOp s i a b c).host = s.host := rfl

@[simp] theorem advanceTo_now (t : Nat) : (advanceTo s t).now = max s.now t := rfl
@[simp] theorem emit_out (o : Output) : (emit s o).out = s.out ++ [o] := rfl
@[simp] theorem nextFree_free : (nextFree s).free = s.free + 1 := rfl

end

end Sys2Proof.Machine
end

