-- ==== Sys2Proof/Laws/Ops.lean ====
section
/-! SUPPORT. What the shared operations over tiles, S-cores, queues, the dictionary and reports do. -/
namespace Sys2Proof.Machine

section
variable (s : State)

/-! ### Tiles and S-cores -/

@[simp] theorem getTile_modTile (t : Nat) (f : Tile → Tile) : getTile (modTile s t f) t = f (getTile s t) :=
  Tab.get_mod_same ..

theorem getTile_modTile_other {t u : Nat} (f : Tile → Tile) (h : u ≠ t) :
    getTile (modTile s t f) u = getTile s u := Tab.get_mod_other _ _ _ h

@[simp] theorem getSCore_modSCore (t p : Nat) (f : SCore → SCore) :
    getSCore (modSCore s t p f) t p = f (getSCore s t p) := by
  simp [getSCore, modSCore]

theorem getSCore_modSCore_other {t p v q : Nat} (f : SCore → SCore) (h : (v, q) ≠ (t, p)) :
    getSCore (modSCore s t p f) v q = getSCore s v q := by
  unfold getSCore modSCore
  by_cases hv : v = t
  · subst hv
    have hq : q ≠ p := fun e => h (by rw [e])
    rw [getTile_modTile]
    exact Tab.get_mod_other _ _ _ hq
  · rw [getTile_modTile_other _ _ hv]

/-- A register written reads the value; x0 keeps reading 0. -/
theorem xReg_setRd (t p rd : Nat) (v : DWord) : xReg (setRd s t p rd v) t p rd = xAfter rd v := by
  unfold xReg xAfter setRd setX
  by_cases h : rd % 32 = 0 <;> simp [h]

/-- Any register after a write of one. -/
theorem xReg_setRd_at (t p rd r : Nat) (v : DWord) :
    xReg (setRd s t p rd v) t p r = if r % 32 = rd % 32 then xAfter rd v else xReg s t p r := by
  unfold xReg xAfter setRd setX
  by_cases h : rd % 32 = 0 <;> by_cases h2 : r % 32 = rd % 32 <;> by_cases h3 : r % 32 = 0 <;>
    simp_all [Tab.get_put]

theorem getSCore_setRd (t p rd : Nat) (v : DWord) :
    getSCore (setRd s t p rd v) t p = { setX (getSCore s t p) rd v with exc := none } := by simp [setRd]

@[simp] theorem getSCore_raiseExc (t p : Nat) (e : Exc) :
    getSCore (raiseExc s t p e) t p = { getSCore s t p with exc := some e, user := false } := by simp [raiseExc]

@[simp] theorem getSCore_clearExc (t p : Nat) :
    getSCore (clearExc s t p) t p = { getSCore s t p with exc := none } := by simp [clearExc]

@[simp] theorem setX_exc (c : SCore) (rd : Nat) (v : DWord) : (setX c rd v).exc = c.exc := by
  unfold setX; split <;> rfl
@[simp] theorem setX_cq (c : SCore) (rd : Nat) (v : DWord) : (setX c rd v).cq = c.cq := by
  unfold setX; split <;> rfl
@[simp] theorem setX_stalls (c : SCore) (rd : Nat) (v : DWord) : (setX c rd v).stalls = c.stalls := by
  unfold setX; split <;> rfl
@[simp] theorem setX_ticket (c : SCore) (rd : Nat) (v : DWord) : (setX c rd v).ticket = c.ticket := by
  unfold setX; split <;> rfl

theorem coreQueue_setCoreQueue (t k p : Nat) (q : List QDesc) :
    coreQueue (setCoreQueue s t k p q) t k p = q := by
  unfold coreQueue setCoreQueue
  rw [getTile_modTile]
  by_cases h : k = 0 <;> simp [h]

@[simp] theorem coreQueue_modSCore (t k p v q : Nat) (f : SCore → SCore) :
    coreQueue (modSCore s v q f) t k p = coreQueue s t k p := by
  unfold coreQueue modSCore
  by_cases h : t = v
  · subst h; rw [getTile_modTile]
  · rw [getTile_modTile_other _ _ h]

@[simp] theorem getSCore_setCoreQueue (t k p v q : Nat) (l : List QDesc) :
    getSCore (setCoreQueue s t k p l) v q = getSCore s v q := by
  unfold getSCore setCoreQueue
  by_cases h : v = t
  · subst h; rw [getTile_modTile]; by_cases hk : k = 0 <;> simp [hk]
  · rw [getTile_modTile_other _ _ h]

/-! ### The dictionary -/

@[simp] theorem rdE_wrE (i j v : Nat) : rdE (wrE s i j v) i j = v := by
  simp only [rdE, wrE, Tab.get_put_same]

theorem rdE_wrE_other {i j k l : Nat} (v : Nat) (h : dictKey k l ≠ dictKey i j) :
    rdE (wrE s i j v) k l = rdE s k l := by
  simp only [rdE, wrE]
  exact Tab.get_put_other_default _ _ _ _ h

@[simp] theorem rdB_wrB (i j : Nat) (v : List Byte) : rdB (wrB s i j v) i j = v := Tab.get_put_same ..

@[simp] theorem rdE_bump (i j : Nat) : rdE (bump s i j) i j = (rdE s i j + 1) % 2 ^ 64 := by
  rw [bump, bumpN, rdE_wrE]
@[simp] theorem rdE_bumpN (i j n : Nat) : rdE (bumpN s i j n) i j = (rdE s i j + n) % 2 ^ 64 := by
  rw [bumpN, rdE_wrE]

@[simp] theorem getOp_putOp (i : Nat) (o : LongOp) : getOp (putOp s i o) i = o := Tab.get_put_same ..

theorem getOp_putOp_other {i j : Nat} (o : LongOp) (h : j ≠ i) : getOp (putOp s i o) j = getOp s j :=
  Tab.get_put_other _ _ _ h

/-! ### Sync objects (R92) -/

theorem Tab.get_put_self {α : Type} [DecidableEq α] (d : α) (t : Tab α) (k : Nat) :
    ∀ j, Tab.get d (Tab.put d t k (Tab.get d t k)) j = Tab.get d t j := by
  intro j; rw [Tab.get_put]; split <;> simp_all

end

end Sys2Proof.Machine
end

