-- ==== Sys2Proof/Laws/Tiles.lean ====
section
/-! SUPPORT. What the operations over the bytes and stitch cells of a tile do. -/
namespace Sys2Proof.Machine

/-! ### Tile addresses (R94, R102, R103) -/

/-- The place of a core is its own: two logical numbers never name one physical core. -/
theorem physCore_inj {tl : Tile} {kind n m p : Nat} (h : physCore tl kind n = some p) (h' : physCore tl kind m = some p) : n = m := by
  have a := ((nthSet_eq_some _ _).1 h).2.2
  have b := ((nthSet_eq_some _ _).1 h').2.2
  omega

theorem physCore_lt {tl : Tile} {kind n p : Nat} (h : physCore tl kind n = some p) : p < coreCount kind :=
  ((nthSet_eq_some _ _).1 h).1

/-- Two on-die offsets never name one place. -/
theorem onDieLoc_inj {tl : Tile} {x y p : Nat} (h : onDieLoc tl x = some p) (h' : onDieLoc tl y = some p) : x = y := by
  have pool : poolBytes = 100663296 := rfl
  unfold onDieLoc at h h'
  simp only [Bool.and_eq_true, decide_eq_true_eq, pool] at h h'
  have m : ∀ z q, (physCore tl 0 z).map (fun p => 0x8000000 + p * 0x200000 + q % 0x200000) = some p →
      ∃ c, physCore tl 0 z = some c ∧ c < 68 ∧ p = 0x8000000 + c * 0x200000 + q % 0x200000 := by
    intro z q hz
    cases e : physCore tl 0 z with
    | none => simp [e] at hz
    | some c => simp only [e, Option.map_some, Option.some.injEq] at hz; exact ⟨c, rfl, physCore_lt e, hz.symm⟩
  have v : ∀ z q, (physCore tl 1 z).map (fun p => 0x14000000 + p * 0x100000 + q % 0x100000) = some p →
      ∃ c, physCore tl 1 z = some c ∧ p = 0x14000000 + c * 0x100000 + q % 0x100000 := by
    intro z q hz
    cases e : physCore tl 1 z with
    | none => simp [e] at hz
    | some c => simp only [e, Option.map_some, Option.some.injEq] at hz; exact ⟨c, rfl, hz.symm⟩
  split at h <;> split at h'
  · simp only [Option.some.injEq] at h h'; omega
  · simp only [Option.some.injEq] at h
    split at h'
    · obtain ⟨c, _, _, e⟩ := m _ _ h'; omega
    · split at h'
      · obtain ⟨c, _, e⟩ := v _ _ h'; omega
      · simp at h'
  · simp only [Option.some.injEq] at h'
    split at h
    · obtain ⟨c, _, _, e⟩ := m _ _ h; omega
    · split at h
      · obtain ⟨c, _, e⟩ := v _ _ h; omega
      · simp at h
  · split at h <;> split at h'
    · obtain ⟨c, c1, c2, c3⟩ := m _ _ h
      obtain ⟨d, d1, d2, d3⟩ := m _ _ h'
      have : c = d := by omega
      subst this
      have := physCore_inj c1 d1
      omega
    · split at h'
      · obtain ⟨c, c1, c2, c3⟩ := m _ _ h
        obtain ⟨d, d1, d3⟩ := v _ _ h'
        omega
      · simp at h'
    · split at h
      · obtain ⟨c, c1, c2, c3⟩ := m _ _ h'
        obtain ⟨d, d1, d3⟩ := v _ _ h
        omega
      · simp at h
    · split at h
      · split at h'
        · obtain ⟨c, c1, c3⟩ := v _ _ h
          obtain ⟨d, d1, d3⟩ := v _ _ h'
          have : c = d := by omega
          subst this
          have := physCore_inj c1 d1
          omega
        · simp at h'
      · simp at h

/-- Within one of the three parts of the tile address map, two addresses never name one
place. -/
theorem locOf_inj {tl : Tile} {a b : Nat} {l : Loc} (h : locOf tl a = some l) (h' : locOf tl b = some l)
    (part : (a < 24 * gib ↔ b < 24 * gib)) : a = b := by
  have g : gib = 1073741824 := rfl
  have o : onDieBase = 68719476736 := rfl
  unfold locOf at h h'
  simp only [Bool.and_eq_true, decide_eq_true_eq, g, o] at h h' part
  split at h
  · rw [if_pos (by omega)] at h'
    simp only [Option.some.injEq] at h h'
    subst h
    simp only [Loc.dram.injEq] at h'
    omega
  · rw [if_neg (by omega)] at h'
    split at h <;> split at h'
    · simp only [Option.some.injEq] at h h'
      subst h
      simp only [Loc.dram.injEq] at h'
      omega
    · split at h'
      · cases e : onDieLoc tl (b - 68719476736) <;> simp [e] at h'
        simp only [Option.some.injEq] at h; subst h; simp at h'
      · simp at h'
    · split at h
      · cases e : onDieLoc tl (a - 68719476736) <;> simp [e] at h
        simp only [Option.some.injEq] at h'; subst h; simp at h'
      · simp at h
    · split at h
      · split at h'
        · cases e : onDieLoc tl (a - 68719476736) <;> simp [e] at h
          cases e' : onDieLoc tl (b - 68719476736) <;> simp [e'] at h'
          subst h
          simp only [Loc.sram.injEq] at h'
          subst h'
          have := onDieLoc_inj e e'
          omega
        · simp at h'
      · simp at h

/-! ### Bytes -/

/-- What a write of bytes leaves alone: everything but memory. -/
theorem putBytes_eq (t : Nat) (l : List Byte) : ∀ (s : State) (a : Nat), putBytes s t a l = { s with mem := (putBytes s t a l).mem } := by
  induction l with
  | nil => intro s a; rfl
  | cons b l ih =>
    intro s a
    unfold putBytes
    rw [ih]
    cases locOf (getTile s t) a <;> rfl

/-- A write of bytes keeps the form of memory. -/
theorem putBytes_wf (t : Nat) (l : List Byte) : ∀ (s : State) (a : Nat), Memory.wf s.mem = true → Memory.wf (putBytes s t a l).mem = true := by
  induction l with
  | nil => intro s a h; exact h
  | cons b l ih =>
    intro s a h
    unfold putBytes
    apply ih
    cases locOf (getTile s t) a with
    | none => exact h
    | some x => exact Memory.wf_wr8 _ _ h

theorem getTile_mem (s : State) (m : List Host.Cell) (t : Nat) : getTile { s with mem := m } t = getTile s t := rfl

/-- A byte that no address of the write names reads as before. -/
theorem rd8_putBytes_other (t k : Nat) (l : List Byte) : ∀ (s : State) (a : Nat),
    (∀ i < l.length, (locOf (getTile s t) (a + i)).map (byteKey t) ≠ some k) → rd8 (putBytes s t a l).mem k = rd8 s.mem k := by
  induction l with
  | nil => intro s a _; rfl
  | cons b l ih =>
    intro s a h
    unfold putBytes
    have h0 := h 0 (by simp)
    have hr : ∀ i < l.length, (locOf (getTile s t) (a + 1 + i)).map (byteKey t) ≠ some k := by
      intro i hi
      have := h (i + 1) (by simp; omega)
      rwa [show a + (i + 1) = a + 1 + i by omega] at this
    cases e : locOf (getTile s t) a with
    | none => exact ih s (a + 1) hr
    | some x =>
      simp only
      rw [ih _ (a + 1) (by simpa only [getTile_mem] using hr)]
      refine rd8_wr8_other _ _ ?_
      intro hk
      apply h0
      simp [e, hk]

/-- What a raw write leaves alone: everything but memory and the stitch cells. -/
theorem rawCells_eq (s : State) (t a n : Nat) : rawCells s t a n = { s with cells := (rawCells s t a n).cells } := by
  unfold rawCells
  split
  · rfl
  · generalize (List.range ((a + n - 1) / 4096 - a / 4096 + 1)) = l
    induction l generalizing s with
    | nil => rfl
    | cons i l ih =>
      simp only [List.foldl_cons]
      rw [ih]
      unfold modCell
      split <;> rfl

/-- Marks cleared change nothing else. -/
theorem clearBadRows_eq (ks : List Nat) : ∀ s : State, clearBadRows s ks = { s with badRows := (clearBadRows s ks).badRows } := by
  induction ks with
  | nil => intro s; rfl
  | cons k ks ih =>
    intro s
    show clearBadRows (setBadRow s k false) ks = { s with badRows := (clearBadRows (setBadRow s k false) ks).badRows }
    rw [ih]
    rfl

/-- The bytes that a write puts do not depend on the marks. -/
theorem putBytes_badRows (t : Nat) (b : Tab Bool) (l : List Byte) :
    ∀ (s : State) (a : Nat), (putBytes { s with badRows := b } t a l).mem = (putBytes s t a l).mem := by
  induction l with
  | nil => intro s a; rfl
  | cons x l ih =>
    intro s a
    unfold putBytes
    cases e : locOf (getTile s t) a with
    | none =>
      have e' : locOf (getTile { s with badRows := b } t) a = none := e
      simp only [e']
      exact ih s (a + 1)
    | some y =>
      have e' : locOf (getTile { s with badRows := b } t) a = some y := e
      simp only [e']
      exact ih { s with mem := wr8 s.mem (byteKey t y) x } (a + 1)

@[simp] theorem rawWrite_mem (s : State) (t a : Nat) (l : List Byte) : (rawWrite s t a l).mem = (putBytes s t a l).mem := by
  unfold rawWrite
  rw [rawCells_eq]
  show (putBytes (if l.isEmpty then s else _) t a l).mem = _
  split
  · rfl
  · rw [clearBadRows_eq, putBytes_badRows]

/-- A raw write changes memory, stitch cells and bad-data marks. -/
theorem rawWrite_eq (s : State) (t a : Nat) (l : List Byte) :
    rawWrite s t a l =
      { s with mem := (rawWrite s t a l).mem, cells := (rawWrite s t a l).cells, badRows := (rawWrite s t a l).badRows } := by
  unfold rawWrite
  rw [rawCells_eq, putBytes_eq]
  split
  · rfl
  · rw [clearBadRows_eq]

end Sys2Proof.Machine
end

