-- ==== Sys2Proof/Laws/Keeps.lean ====
section
/-! SUPPORT. What every shared operation keeps. `Keeps m o s` says that s follows o (the queue, the part number, the
fused tiles, the time, the outputs, the counter of free values and the canonical form of memory) and, where `m` is
true, that no byte of memory was written; `f_keeps` says that the operation f goes on keeping it. An operation that
can write memory has its lemma at `m = false` only. -/
namespace Sys2Proof.Machine

structure Keeps (m : Bool) (s u : State) : Prop extends Follows s u where
  mem : m = true → u.mem = s.mem

theorem Keeps.refl (m : Bool) (s : State) : Keeps m s s :=
  ⟨⟨rfl, rfl, rfl, Nat.le_refl _, List.prefix_refl _, Nat.le_refl _, id, id⟩, fun _ => rfl⟩

/-- A step that touches none of the fields that `Keeps` speaks of. -/
theorem Keeps.upd {m : Bool} {o s : State} {epochOff : Nat} {cells : Tab Cell} {badRows : Tab Bool} {retiredTiles : Nat} {pendingTiles : Nat} {guestSites : Nat} {tiles : Tab Tile} {baseSync : Tab Word} {dict : Tab Nat} {blobs : Tab (List Byte)} {tested : List (Nat × Nat)} {log : LogState} {ops : Tab LongOp} {mantle : Mantle} {bas : Basusk} {col : Collect} {hem : Hem} {fab : Fab} {adm : Admission} {clk : Clock} {pow : Power} {cal : Calib} {las : Lasers} {fc : Forecast} {boot : Boot} {host : HostIf} (h : Keeps m o s) :
    Keeps m o (State.mk s.pending s.now epochOff s.part s.out s.free s.mem cells badRows s.fusedTiles retiredTiles pendingTiles guestSites tiles baseSync dict blobs s.injections tested log ops mantle bas col hem fab adm clk pow cal las fc boot host) :=
  ⟨⟨h.pending, h.part, h.fused, h.now, h.out, h.free, h.wf, h.inj⟩, h.mem⟩

/-- A step that may change the pending injection records, and no byte of memory. -/
theorem Keeps.updInj {m : Bool} {o s : State} {epochOff : Nat} {cells : Tab Cell} {badRows : Tab Bool} {retiredTiles : Nat} {pendingTiles : Nat} {guestSites : Nat} {tiles : Tab Tile} {baseSync : Tab Word} {dict : Tab Nat} {blobs : Tab (List Byte)} {injections : List Injection} {tested : List (Nat × Nat)} {log : LogState} {ops : Tab LongOp} {mantle : Mantle} {bas : Basusk} {col : Collect} {hem : Hem} {fab : Fab} {adm : Admission} {clk : Clock} {pow : Power} {cal : Calib} {las : Lasers} {fc : Forecast} {boot : Boot} {host : HostIf} (h : Keeps m o s)
    (j : s.injections.length ≤ 16 → injections.length ≤ 16) :
    Keeps m o (State.mk s.pending s.now epochOff s.part s.out s.free s.mem cells badRows s.fusedTiles retiredTiles pendingTiles guestSites tiles baseSync dict blobs injections tested log ops mantle bas col hem fab adm clk pow cal las fc boot host) :=
  ⟨⟨h.pending, h.part, h.fused, h.now, h.out, h.free, h.wf, fun i => j (h.inj i)⟩, h.mem⟩

/-- A write of memory. -/
theorem Keeps.wr {o s : State} {mem : List Host.Cell} {epochOff : Nat} {cells : Tab Cell} {badRows : Tab Bool} {retiredTiles : Nat} {pendingTiles : Nat} {guestSites : Nat} {tiles : Tab Tile} {baseSync : Tab Word} {dict : Tab Nat} {blobs : Tab (List Byte)} {tested : List (Nat × Nat)} {log : LogState} {ops : Tab LongOp} {mantle : Mantle} {bas : Basusk} {col : Collect} {hem : Hem} {fab : Fab} {adm : Admission} {clk : Clock} {pow : Power} {cal : Calib} {las : Lasers} {fc : Forecast} {boot : Boot} {host : HostIf} (h : Keeps false o s) (w : Memory.wf s.mem = true → Memory.wf mem = true) :
    Keeps false o (State.mk s.pending s.now epochOff s.part s.out s.free mem cells badRows s.fusedTiles retiredTiles pendingTiles guestSites tiles baseSync dict blobs s.injections tested log ops mantle bas col hem fab adm clk pow cal las fc boot host) :=
  ⟨⟨h.pending, h.part, h.fused, h.now, h.out, h.free, fun i => w (h.wf i), h.inj⟩, fun e => nomatch e⟩

/-- Filtering and rewriting the records adds none. -/
theorem filterMap_le {α β : Type} (f : α → Option β) {l : List α} {n : Nat} (h : l.length ≤ n) : (l.filterMap f).length ≤ n :=
  Nat.le_trans (List.length_filterMap_le f l) h

theorem Keeps.foldl {m : Bool} {o s : State} {α : Type} {f : State → α → State} {l : List α} (h : Keeps m o s)
    (k : ∀ s x, Keeps m o s → Keeps m o (f s x)) : Keeps m o (l.foldl f s) := by
  induction l generalizing s with
  | nil => exact h
  | cons x l ih => exact ih (k s x h)

theorem Keeps.ite {m : Bool} {o a b : State} {c : Prop} [Decidable c] (ha : Keeps m o a) (hb : Keeps m o b) :
    Keeps m o (if c then a else b) := by
  split
  · exact ha
  · exact hb

theorem Keeps.fst {m : Bool} {o a : State} {β : Type} {x : State × β} {b : β} (e : x = (a, b)) (h : Keeps m o x.1) : Keeps m o a := by
  subst e; exact h

theorem Keeps.foldlFst {m : Bool} {o s : State} {α β : Type} {f : State × β → α → State × β} {l : List α} {b : β} (h : Keeps m o s)
    (k : ∀ a x, Keeps m o a.1 → Keeps m o (f a x).1) : Keeps m o (l.foldl f (s, b)).1 := by
  suffices H : ∀ a, Keeps m o a.1 → Keeps m o (l.foldl f a).1 from H _ h
  induction l with
  | nil => exact fun a h => h
  | cons x l ih => exact fun a h => ih _ (k a x h)

/-- The command answers a next state that keeps what every command keeps. -/
def OutKeeps (m : Bool) (o : State) (x : Out) : Prop := ∃ u, x = .next u ∧ Keeps m o u

theorem OutKeeps.next {m : Bool} {o u : State} (h : Keeps m o u) : OutKeeps m o (.next u) := ⟨u, rfl, h⟩

theorem OutKeeps.ite {m : Bool} {o : State} {c : Prop} [Decidable c] {a b : Out} (ha : OutKeeps m o a) (hb : OutKeeps m o b) :
    OutKeeps m o (if c then a else b) := by
  split
  · exact ha
  · exact hb

theorem advanceTo_keeps {m : Bool} {o s : State} (t : Nat) (h : Keeps m o s) : Keeps m o (advanceTo s t) :=
  ⟨⟨h.pending, h.part, h.fused, Nat.le_trans h.now (Nat.le_max_left ..), h.out, h.free, h.wf, h.inj⟩, h.mem⟩

theorem atCount_keeps {m : Bool} {o s : State} (e : Nat) (h : Keeps m o s) : Keeps m o (atCount s e) := by
  unfold atCount
  with_reducible repeat' first | assumption | apply advanceTo_keeps | apply Keeps.ite | split

theorem wrE_keeps {m : Bool} {o s : State} (index : Nat) (sub : Nat) (v : Nat) (h : Keeps m o s) : Keeps m o (wrE s index sub v) := by
  unfold wrE
  with_reducible repeat' first | assumption | extract_lets | apply Keeps.upd

theorem wrB_keeps {m : Bool} {o s : State} (index : Nat) (sub : Nat) (v : List Byte) (h : Keeps m o s) : Keeps m o (wrB s index sub v) := by
  unfold wrB
  with_reducible repeat' first | assumption | apply Keeps.upd

theorem bumpN_keeps {m : Bool} {o s : State} (index : Nat) (sub : Nat) (n : Nat) (h : Keeps m o s) : Keeps m o (bumpN s index sub n) := by
  unfold bumpN
  with_reducible repeat' first | assumption | apply wrE_keeps

theorem bump_keeps {m : Bool} {o s : State} (index : Nat) (sub : Nat) (h : Keeps m o s) : Keeps m o (bump s index sub) := by
  unfold bump
  with_reducible repeat' first | assumption | apply bumpN_keeps

theorem emit_keeps {m : Bool} {o s : State} (x : Output) (h : Keeps m o s) : Keeps m o (emit s x) :=
  ⟨⟨h.pending, h.part, h.fused, h.now, h.out.trans (List.prefix_append ..), h.free, h.wf, h.inj⟩, h.mem⟩

theorem nextFree_keeps {m : Bool} {o s : State} (h : Keeps m o s) : Keeps m o (nextFree s) :=
  ⟨⟨h.pending, h.part, h.fused, h.now, h.out, Nat.le_trans h.free (Nat.le_succ _), h.wf, h.inj⟩, h.mem⟩

theorem modTile_keeps {m : Bool} {o s : State} (t : Nat) (f : Tile → Tile) (h : Keeps m o s) : Keeps m o (modTile s t f) := by
  unfold modTile
  with_reducible repeat' first | assumption | apply Keeps.upd

theorem putBytes_keeps {o s : State} (t a : Nat) (l : List Byte) (h : Keeps false o s) : Keeps false o (putBytes s t a l) := by
  rw [putBytes_eq]
  exact ⟨⟨h.pending, h.part, h.fused, h.now, h.out, h.free, fun i => putBytes_wf t l s a (h.wf i), h.inj⟩, fun h => nomatch h⟩

theorem setBadRow_keeps {m : Bool} {o s : State} (k : Nat) (b : Bool) (h : Keeps m o s) : Keeps m o (setBadRow s k b) := by
  unfold setBadRow
  with_reducible repeat' first | assumption | apply Keeps.upd

theorem clearBadRows_keeps {m : Bool} {o s : State} (ks : List Nat) (h : Keeps m o s) : Keeps m o (clearBadRows s ks) := by
  unfold clearBadRows
  with_reducible repeat' first | assumption | apply setBadRow_keeps | apply Keeps.foldl | (intro; intros)

theorem modCell_keeps {m : Bool} {o s : State} (t : Nat) (a : Nat) (f : Cell → Cell) (h : Keeps m o s) : Keeps m o (modCell s t a f) := by
  unfold modCell
  with_reducible repeat' first | assumption | refine Keeps.fst (by assumption) ?_ | split | apply Keeps.upd

theorem rawCells_keeps {m : Bool} {o s : State} (t : Nat) (a : Nat) (n : Nat) (h : Keeps m o s) : Keeps m o (rawCells s t a n) := by
  unfold rawCells
  with_reducible repeat' first | assumption | apply modCell_keeps | apply Keeps.foldl | apply Keeps.ite | (intro; intros) | split

theorem rawWrite_keeps {o s : State} (t : Nat) (a : Nat) (l : List Byte) (h : Keeps false o s) : Keeps false o (rawWrite s t a l) := by
  unfold rawWrite
  with_reducible repeat' first | assumption | apply clearBadRows_keeps | apply rawCells_keeps | apply putBytes_keeps | apply Keeps.ite | extract_lets | split

theorem poisonCells_keeps {m : Bool} {o s : State} (t : Nat) (a : Nat) (n : Nat) (tid : Nat) (blk : Nat) (h : Keeps m o s) : Keeps m o (poisonCells s t a n tid blk) := by
  unfold poisonCells
  with_reducible repeat' first | assumption | apply modCell_keeps | apply Keeps.foldl | apply Keeps.ite | (intro; intros) | extract_lets | split | apply Keeps.upd

theorem rawWriteMarked_keeps {o s : State} (t : Nat) (a : Nat) (tid : Nat) (blk : Nat) (data : List Byte) (poison : Bool) (h : Keeps false o s) : Keeps false o (rawWriteMarked s t a tid blk data poison) := by
  unfold rawWriteMarked
  with_reducible repeat' first | assumption | apply rawWrite_keeps | apply poisonCells_keeps | apply Keeps.ite | extract_lets | split

theorem writeBlock_keeps {o s : State} (t : Nat) (a : Nat) (tid : Nat) (blk : Nat) (data : List Byte) (poison : Bool) (h : Keeps false o s) : Keeps false o (writeBlock s t a tid blk data poison) := by
  unfold writeBlock
  with_reducible repeat' first | assumption | apply clearBadRows_keeps | apply rawWriteMarked_keeps | apply putBytes_keeps | apply modCell_keeps | apply Keeps.ite | (intro; intros) | extract_lets | split | apply Keeps.upd

theorem modFunc_keeps {m : Bool} {o s : State} (f : Nat) (g : HFunc → HFunc) (h : Keeps m o s) : Keeps m o (modFunc s f g) := by
  unfold modFunc
  with_reducible repeat' first | assumption | (intro; intros) | apply Keeps.upd

theorem raiseVector_keeps {m : Bool} {o s : State} (f : Nat) (v : Nat) (h : Keeps m o s) : Keeps m o (raiseVector s f v) := by
  unfold raiseVector
  with_reducible repeat' first | assumption | apply modFunc_keeps | apply emit_keeps | apply Keeps.ite | (intro; intros) | extract_lets | split | apply Keeps.upd

theorem raiseHb_keeps {m : Bool} {o s : State} (f : Nat) (b : Nat) (h : Keeps m o s) : Keeps m o (raiseHb s f b) := by
  unfold raiseHb
  with_reducible repeat' first | assumption | apply modFunc_keeps | apply raiseVector_keeps | apply Keeps.ite | (intro; intros) | extract_lets | split | apply Keeps.upd

theorem raiseAllHb_keeps {m : Bool} {o s : State} (b : Nat) (h : Keeps m o s) : Keeps m o (raiseAllHb s b) := by
  unfold raiseAllHb
  with_reducible repeat' first | assumption | apply raiseHb_keeps | apply Keeps.foldl | (intro; intros)

theorem report_keeps {m : Bool} {o s : State} (r : Report) (h : Keeps m o s) : Keeps m o (report s r) := by
  unfold report
  with_reducible repeat' first | assumption | apply bump_keeps | apply wrE_keeps | refine Keeps.fst (by assumption) ?_ | apply Keeps.ite | (intro; intros) | extract_lets | split | apply Keeps.upd

theorem coreReport_keeps {m : Bool} {o s : State} (cls : Nat) (t : Nat) (kind : Nat) (p : Nat) (detail : Nat) (tag : Nat) (h : Keeps m o s) : Keeps m o (coreReport s cls t kind p detail tag) := by
  unfold coreReport
  with_reducible repeat' first | assumption | apply report_keeps | apply Keeps.upd

theorem tileReport_keeps {m : Bool} {o s : State} (cls : Nat) (t : Nat) (detail : Nat) (tag : Nat) (h : Keeps m o s) : Keeps m o (tileReport s cls t detail tag) := by
  unfold tileReport
  with_reducible repeat' first | assumption | apply report_keeps | apply Keeps.upd

theorem portsDown_keeps {m : Bool} {o s : State} (t : Nat) (h : Keeps m o s) : Keeps m o (portsDown s t) := by
  unfold portsDown
  with_reducible repeat' first | assumption | refine Keeps.fst (by assumption) ?_ | apply Keeps.ite | (intro; intros) | extract_lets | split | apply Keeps.upd

theorem tracksDrop_keeps {m : Bool} {o s : State} (t : Nat) (h : Keeps m o s) : Keeps m o (tracksDrop s t) := by
  unfold tracksDrop
  with_reducible repeat' first | assumption | apply Keeps.foldl | (intro; intros) | extract_lets | apply Keeps.upd

theorem enginesDrop_keeps {m : Bool} {o s : State} (t : Nat) (h : Keeps m o s) : Keeps m o (enginesDrop s t) := by
  unfold enginesDrop
  with_reducible repeat' first | assumption | (intro; intros) | apply Keeps.upd

theorem tileReset_keeps {m : Bool} {o s : State} (t : Nat) (cause : Nat) (addr : Nat) (h : Keeps m o s) : Keeps m o (tileReset s t cause addr) := by
  unfold tileReset
  with_reducible repeat' first | assumption | apply bump_keeps | apply tileReport_keeps | apply portsDown_keeps | apply tracksDrop_keeps | apply modTile_keeps | apply enginesDrop_keeps | apply Keeps.ite | (intro; intros) | extract_lets | split | apply Keeps.upd

theorem contain_keeps {m : Bool} {o s : State} (t : Nat) (die : Nat) (row : Nat) (h : Keeps m o s) : Keeps m o (contain s t die row) := by
  unfold contain
  with_reducible repeat' first | assumption | apply tileReset_keeps | apply Keeps.ite | split

theorem containRange_keeps {m : Bool} {o s : State} (t : Nat) (a : Nat) (n : Nat) (h : Keeps m o s) : Keeps m o (containRange s t a n) := by
  unfold containRange
  with_reducible repeat' first | assumption | apply contain_keeps | refine Keeps.fst (by assumption) ?_ | (intro; intros) | split

theorem foundBad_keeps {m : Bool} {o s : State} (t : Nat) (die : Nat) (row : Nat) (h : Keeps m o s) : Keeps m o (foundBad s t die row) := by
  unfold foundBad
  with_reducible repeat' first | assumption | apply bump_keeps | apply setBadRow_keeps | apply report_keeps | apply Keeps.ite | extract_lets | split | apply Keeps.upd

theorem readBadRows_keeps {m : Bool} {o s : State} (t : Nat) (a : Nat) (n : Nat) (h : Keeps m o s) : Keeps m o (readBadRows s t a n) := by
  unfold readBadRows
  with_reducible repeat' first | assumption | apply foundBad_keeps | apply Keeps.foldl | (intro; intros)

theorem countRefused_keeps {m : Bool} {o s : State} (t : Nat) (a : Nat) (n : Nat) (h : Keeps m o s) : Keeps m o (countRefused s t a n) := by
  unfold countRefused
  with_reducible repeat' first | assumption | apply foundBad_keeps | apply Keeps.foldl | (intro; intros)

theorem fireWatch_keeps {m : Bool} {o s : State} (c : Word) (w : Watch) (h : Keeps m o s) : Keeps m o (fireWatch c s w) := by
  unfold fireWatch
  with_reducible repeat' first | assumption | apply Keeps.ite | (intro; intros) | extract_lets | split | apply Keeps.upd

theorem fireWatches_keeps {m : Bool} {o s : State} (key : Nat) (c : Word) (h : Keeps m o s) : Keeps m o (fireWatches s key c) := by
  unfold fireWatches
  with_reducible repeat' first | assumption | apply fireWatch_keeps | apply Keeps.foldl | (intro; intros) | extract_lets | apply Keeps.upd

theorem syncPut_keeps {m : Bool} {o s : State} (t : Nat) (name : Nat) (v : Word) (h : Keeps m o s) : Keeps m o (syncPut s t name v) := by
  unfold syncPut
  with_reducible repeat' first | assumption | apply modTile_keeps | apply fireWatches_keeps | apply Keeps.ite | (intro; intros) | extract_lets | split | apply Keeps.upd

theorem syncAdd_keeps {m : Bool} {o s : State} (t : Nat) (name : Nat) (v : Word) (h : Keeps m o s) : Keeps m o (syncAdd s t name v) := by
  unfold syncAdd
  with_reducible repeat' first | assumption | apply syncPut_keeps

theorem modSCore_keeps {m : Bool} {o s : State} (t : Nat) (p : Nat) (f : SCore → SCore) (h : Keeps m o s) : Keeps m o (modSCore s t p f) := by
  unfold modSCore
  with_reducible repeat' first | assumption | apply modTile_keeps | (intro; intros) | apply Keeps.upd

theorem setRd_keeps {m : Bool} {o s : State} (t : Nat) (p : Nat) (rd : Nat) (v : DWord) (h : Keeps m o s) : Keeps m o (setRd s t p rd v) := by
  unfold setRd
  with_reducible repeat' first | assumption | apply modSCore_keeps | (intro; intros) | apply Keeps.upd

theorem raiseExc_keeps {m : Bool} {o s : State} (t : Nat) (p : Nat) (e : Exc) (h : Keeps m o s) : Keeps m o (raiseExc s t p e) := by
  unfold raiseExc
  with_reducible repeat' first | assumption | apply modSCore_keeps | (intro; intros) | apply Keeps.upd

theorem clearExc_keeps {m : Bool} {o s : State} (t : Nat) (p : Nat) (h : Keeps m o s) : Keeps m o (clearExc s t p) := by
  unfold clearExc
  with_reducible repeat' first | assumption | apply modSCore_keeps | (intro; intros) | apply Keeps.upd

theorem cqPush_keeps {o s : State} (t : Nat) (p : Nat) (cq : Nat) (r : List Byte) (h : Keeps false o s) : Keeps false o (cqPush s t p cq r) := by
  unfold cqPush
  with_reducible repeat' first | assumption | apply rawWrite_keeps | apply modSCore_keeps | (intro; intros) | extract_lets | apply Keeps.upd

theorem setCoreQueue_keeps {m : Bool} {o s : State} (t : Nat) (kind : Nat) (p : Nat) (q : List QDesc) (h : Keeps m o s) : Keeps m o (setCoreQueue s t kind p q) := by
  unfold setCoreQueue
  with_reducible repeat' first | assumption | apply modTile_keeps | apply Keeps.ite | (intro; intros) | split | apply Keeps.upd

theorem signalDone_keeps {m : Bool} {o s : State} (t : Nat) (d : Nat) (status : Nat) (h : Keeps m o s) : Keeps m o (signalDone s t d status) := by
  unfold signalDone
  with_reducible repeat' first | assumption | apply syncAdd_keeps | apply Keeps.ite | split

theorem endDescriptor_keeps {o s : State} (t : Nat) (kind : Nat) (p : Nat) (e : QDesc) (status : Nat) (anchor : Nat) (cycles : Nat) (badBlk : Nat) (h : Keeps false o s) : Keeps false o (endDescriptor s t kind p e status anchor cycles badBlk) := by
  unfold endDescriptor
  with_reducible repeat' first | assumption | apply setCoreQueue_keeps | apply signalDone_keeps | apply cqPush_keeps | apply nextFree_keeps | apply Keeps.ite | (intro; intros) | extract_lets | split | apply Keeps.upd

theorem abortDescriptor_keeps {o s : State} (t : Nat) (kind : Nat) (p : Nat) (e : QDesc) (h : Keeps false o s) : Keeps false o (abortDescriptor s t kind p e) := by
  unfold abortDescriptor
  with_reducible repeat' first | assumption | apply endDescriptor_keeps

theorem abortCore_keeps {o s : State} (t : Nat) (kind : Nat) (p : Nat) (h : Keeps false o s) : Keeps false o (abortCore s t kind p) := by
  unfold abortCore
  with_reducible repeat' first | assumption | apply setCoreQueue_keeps | apply abortDescriptor_keeps | apply Keeps.foldl | apply Keeps.ite | (intro; intros) | split | apply Keeps.upd

theorem setConf_keeps {m : Bool} {o s : State} (u : UnitId) (n : Nat) (h : Keeps m o s) : Keeps m o (setConf s u n) := by
  unfold setConf
  with_reducible repeat' first | assumption | apply modTile_keeps | refine Keeps.fst (by assumption) ?_ | (intro; intros) | split | apply Keeps.upd

theorem tilePending_keeps {m : Bool} {o s : State} (t : Nat) (h : Keeps m o s) : Keeps m o (tilePending s t) := by
  unfold tilePending
  with_reducible repeat' first | assumption | apply tileReport_keeps | apply tileReset_keeps | apply Keeps.ite | extract_lets | split | apply Keeps.upd

theorem corePending_keeps {o s : State} (t : Nat) (kind : Nat) (p : Nat) (h : Keeps false o s) : Keeps false o (corePending s t kind p) := by
  unfold corePending
  with_reducible repeat' first | assumption | apply modTile_keeps | apply coreReport_keeps | apply tilePending_keeps | apply abortCore_keeps | apply Keeps.ite | (intro; intros) | extract_lets | split | apply Keeps.upd

theorem retirePending_keeps {o s : State} (x1 : UnitId) (h : Keeps false o s) : Keeps false o (retirePending s x1) := by
  unfold retirePending
  with_reducible repeat' first | assumption | apply tilePending_keeps | apply corePending_keeps | refine Keeps.fst (by assumption) ?_ | split

theorem confirmedFault_keeps {o s : State} (u : UnitId) (h : Keeps false o s) : Keeps false o (confirmedFault s u) := by
  unfold confirmedFault
  with_reducible repeat' first | assumption | apply setConf_keeps | apply modTile_keeps | apply retirePending_keeps | apply Keeps.ite | (intro; intros) | extract_lets | split | apply Keeps.upd

theorem putContext_keeps {m : Bool} {o s : State} (c : Context) (h : Keeps m o s) : Keeps m o (putContext s c) := by
  unfold putContext
  with_reducible repeat' first | assumption | apply Keeps.ite | (intro; intros) | extract_lets | split | apply Keeps.upd

theorem sendResp_keeps {m : Bool} {o s : State} (p : Party) (r : VdpResp) (h : Keeps m o s) : Keeps m o (sendResp s p r) := by
  unfold sendResp
  with_reducible repeat' first | assumption | apply emit_keeps | refine Keeps.fst (by assumption) ?_ | split | apply Keeps.upd

theorem answer_keeps {m : Bool} {o s : State} (r : VdpReq) (x : VdpResp) (h : Keeps m o s) : Keeps m o (answer s r x) := by
  unfold answer
  with_reducible repeat' first | assumption | apply putContext_keeps | apply sendResp_keeps | apply Keeps.ite | extract_lets | split | apply Keeps.upd

theorem persist_keeps {m : Bool} {o s : State} (index : Nat) (sub : Nat) (h : Keeps m o s) : Keeps m o (persist s index sub) := by
  unfold persist
  with_reducible repeat' first | assumption | (intro; intros) | extract_lets | apply Keeps.upd

theorem standbyCopy_keeps {m : Bool} {o s : State} (fails : Bool) (h : Keeps m o s) : Keeps m o (standbyCopy s fails) := by
  unfold standbyCopy
  with_reducible repeat' first | assumption | apply report_keeps | apply Keeps.ite | (intro; intros) | extract_lets | split | apply Keeps.upd

theorem refuse_keeps {m : Bool} {o s : State} (r : VdpReq) (status : Nat) (detail : Nat) (h : Keeps m o s) : Keeps m o (refuse s r status detail) := by
  unfold refuse
  with_reducible repeat' first | assumption | apply answer_keeps

theorem unanswered_keeps {m : Bool} {o s : State} (r : VdpReq) (h : Keeps m o s) : Keeps m o (unanswered s r) := by
  unfold unanswered
  with_reducible repeat' first | assumption | apply bump_keeps | refine Keeps.fst (by assumption) ?_ | apply Keeps.ite | split

theorem perform_keeps {m : Bool} {o s : State} (r : VdpReq) (value : List Byte) (rangeOk : State → Tab Nat → List Byte → Bool) (effect : State → Tab Nat → List Byte → Effect) (h_effect : ∀ y0 y1 y2, Keeps m o y0 → Keeps m o (effect y0 y1 y2).s) (h : Keeps m o s) : Keeps m o (perform s r value rangeOk effect) := by
  unfold perform
  with_reducible repeat' first | assumption | apply refuse_keeps | apply answer_keeps | apply persist_keeps | apply standbyCopy_keeps | apply h_effect | refine Keeps.fst (by assumption) ?_ | apply Keeps.ite | extract_lets | split

theorem takeSegment_keeps {m : Bool} {o s : State} (r : VdpReq) (h : Keeps m o s) : Keeps m o (takeSegment s r).1 := by
  unfold takeSegment
  with_reducible repeat' first | assumption | refine Keeps.fst (by assumption) ?_ | apply Keeps.ite | (intro; intros) | extract_lets | split | apply Keeps.upd

theorem stage_keeps {m : Bool} {o s : State} (r : VdpReq) (value : List Byte) (rangeOk : State → Tab Nat → List Byte → Bool) (h : Keeps m o s) : Keeps m o (stage s r value rangeOk) := by
  unfold stage
  with_reducible repeat' first | assumption | apply refuse_keeps | apply answer_keeps | refine Keeps.fst (by assumption) ?_ | apply Keeps.ite | (intro; intros) | extract_lets | split | apply Keeps.upd

theorem holdSegment_keeps {m : Bool} {o s0 s : State} (r : VdpReq) (h0 : Keeps m o s0) (h : Keeps m o s) :
    Keeps m o (holdSegment s0 s r) := by
  unfold holdSegment
  with_reducible repeat' first | assumption | apply answer_keeps | apply refuse_keeps | apply Keeps.ite | extract_lets | (with_reducible apply Keeps.upd; with_reducible assumption)

theorem vdpEntry_keeps {m : Bool} {o s : State} (r : VdpReq) (rangeOk : State → Tab Nat → List Byte → Bool) (effect : State → Tab Nat → List Byte → Effect) (h_effect : ∀ y0 y1 y2, Keeps m o y0 → Keeps m o (effect y0 y1 y2).s) (h : Keeps m o s) : Keeps m o (vdpEntry s r rangeOk effect) := by
  unfold vdpEntry
  with_reducible repeat' first | assumption | apply unanswered_keeps | apply sendResp_keeps | apply refuse_keeps | apply takeSegment_keeps | apply holdSegment_keeps | apply stage_keeps | apply perform_keeps | apply h_effect | refine Keeps.fst (by assumption) ?_ | apply Keeps.ite | extract_lets | split

theorem putOp_keeps {m : Bool} {o s : State} (id : Nat) (o1 : LongOp) (h : Keeps m o s) : Keeps m o (putOp s id o1) := by
  unfold putOp
  with_reducible repeat' first | assumption | apply Keeps.upd

theorem startOp_keeps {m : Bool} {o s : State} (id : Nat) (total : Nat) (arg : Nat) (h : Keeps m o s) : Keeps m o (startOp s id total arg) := by
  unfold startOp
  with_reducible repeat' first | assumption | apply putOp_keeps | extract_lets | apply Keeps.upd

theorem endOp_keeps {m : Bool} {o s : State} (id : Nat) (state : Nat) (result : Nat) (position : Nat) (h : Keeps m o s) : Keeps m o (endOp s id state result position) := by
  unfold endOp
  with_reducible repeat' first | assumption | apply putOp_keeps | extract_lets | apply Keeps.upd

end Sys2Proof.Machine
end

