-- ==== Sys2Proof/Laws/KeepsLinks.lean ====
section
/-! SUPPORT. What the operations of the links, the routers, the core queues and the collectives keep. -/
namespace Sys2Proof.Machine

theorem useInjections_keeps {m : Bool} {o s : State} (target place unit : Nat) (h : Keeps m o s) :
    Keeps m o (useInjections s target place unit) :=
  Keeps.updInj h (filterMap_le _)

theorem rowInjections_keeps {m : Bool} {o s : State} (t die : Nat) (data : List Byte) (h : Keeps m o s) :
    Keeps m o (rowInjections s t die data) := by
  unfold rowInjections
  exact Keeps.ite (useInjections_keeps _ _ _ h) (bump_keeps _ _ (bumpN_keeps _ _ _ (useInjections_keeps _ _ _ h)))

theorem modPort_keeps {m : Bool} {o s : State} (key : Nat) (f : Port → Port) (h : Keeps m o s) : Keeps m o (modPort s key f) := by
  unfold modPort
  with_reducible repeat' first | assumption | apply Keeps.upd

theorem modStation_keeps {m : Bool} {o s : State} (st : Nat) (f : Station → Station) (h : Keeps m o s) : Keeps m o (modStation s st f) := by
  unfold modStation
  with_reducible repeat' first | assumption | apply Keeps.upd

theorem portReport_keeps {m : Bool} {o s : State} (cls : Nat) (st : Nat) (k : Nat) (detail : Nat) (h : Keeps m o s) : Keeps m o (portReport s cls st k detail) := by
  unfold portReport
  with_reducible repeat' first | assumption | apply report_keeps | apply Keeps.upd

theorem toRouter_keeps {m : Bool} {o s : State} (st : Nat) (x : RPkt) (h : Keeps m o s) : Keeps m o (toRouter s st x) := by
  unfold toRouter
  with_reducible repeat' first | assumption | (intro; intros) | apply Keeps.upd

theorem returnWaiting_keeps {m : Bool} {o s : State} (st : Nat) (l : List RPkt) (h : Keeps m o s) : Keeps m o (returnWaiting s st l) := by
  unfold returnWaiting
  with_reducible repeat' first | assumption | apply toRouter_keeps | apply Keeps.foldl | (intro; intros) | apply Keeps.upd

theorem deliverCodeword_keeps {m : Bool} {o s : State} (st : Nat) (k : Nat) (data : List Byte) (h : Keeps m o s) : Keeps m o (deliverCodeword s st k data) := by
  unfold deliverCodeword
  with_reducible repeat' first | assumption | apply modPort_keeps | apply toRouter_keeps | refine Keeps.fst (by assumption) ?_ | apply Keeps.foldl | (intro; intros) | extract_lets | split | apply Keeps.upd

theorem deliverInOrder_keeps {m : Bool} {o s : State} (st : Nat) (k : Nat) (x2 : Nat) (h : Keeps m o s) : Keeps m o (deliverInOrder st k x2 s) := by
  induction x2 generalizing s with
  | zero => unfold deliverInOrder; exact h
  | succ n ih =>
    unfold deliverInOrder
    with_reducible repeat' first | assumption | apply ih | apply modPort_keeps | apply deliverCodeword_keeps | refine Keeps.fst (by assumption) ?_ | extract_lets | split

theorem placeCodeword_keeps {m : Bool} {o s : State} (st : Nat) (k : Nat) (seq : Nat) (data : List Byte) (h : Keeps m o s) : Keeps m o (placeCodeword s st k seq data) := by
  unfold placeCodeword
  with_reducible repeat' first | assumption | apply modPort_keeps | apply emit_keeps | (intro; intros) | extract_lets | apply Keeps.upd

theorem sendControl_keeps {m : Bool} {o s : State} (st : Nat) (k : Nat) (h : Keeps m o s) : Keeps m o (sendControl s st k) := by
  unfold sendControl
  with_reducible repeat' first | assumption | apply modPort_keeps | apply emit_keeps | (intro; intros) | extract_lets | apply Keeps.upd

theorem tell_keeps {m : Bool} {o s : State} (st : Nat) (k : Nat) (x2 : Nat) (h : Keeps m o s) : Keeps m o (tell st k x2 s) := by
  induction x2 generalizing s with
  | zero => unfold tell; exact h
  | succ n ih =>
    unfold tell
    with_reducible repeat' first | assumption | apply ih | apply sendControl_keeps | refine Keeps.fst (by assumption) ?_ | apply Keeps.ite | extract_lets | split

theorem sendCodeword_keeps {m : Bool} {o s : State} (st : Nat) (k : Nat) (fs : List (List Byte)) (h : Keeps m o s) : Keeps m o (sendCodeword s st k fs) := by
  unfold sendCodeword
  with_reducible repeat' first | assumption | apply modPort_keeps | apply placeCodeword_keeps | apply Keeps.foldl | (intro; intros) | extract_lets | apply Keeps.upd

theorem sendFlits_keeps {m : Bool} {o s : State} (st : Nat) (k : Nat) (x2 : Nat) (x3 : List (List Byte)) (h : Keeps m o s) : Keeps m o (sendFlits st k x2 x3 s) := by
  induction x2 generalizing x3 s with
  | zero => unfold sendFlits; exact h
  | succ n ih =>
    unfold sendFlits
    with_reducible repeat' first | assumption | apply ih | apply sendCodeword_keeps | apply Keeps.ite

theorem circuitSend_keeps {m : Bool} {o s : State} (st : Nat) (k : Nat) (x : RPkt) (h : Keeps m o s) : Keeps m o (circuitSend s st k x) := by
  unfold circuitSend
  with_reducible repeat' first | assumption | apply sendFlits_keeps | apply modPort_keeps | apply Keeps.ite | (intro; intros) | extract_lets | split | apply Keeps.upd

theorem pumpClass_keeps {m : Bool} {o s : State} (st : Nat) (k : Nat) (tier : Nat) (cls : Nat) (x4 : Nat) (h : Keeps m o s) : Keeps m o (pumpClass st k tier cls x4 s) := by
  induction x4 generalizing s with
  | zero => unfold pumpClass; exact h
  | succ n ih =>
    unfold pumpClass
    with_reducible repeat' first | assumption | apply ih | apply modPort_keeps | apply sendFlits_keeps | refine Keeps.fst (by assumption) ?_ | apply Keeps.ite | (intro; intros) | extract_lets | split | apply Keeps.upd

theorem pump_keeps {m : Bool} {o s : State} (st : Nat) (k : Nat) (h : Keeps m o s) : Keeps m o (pump s st k) := by
  unfold pump
  with_reducible repeat' first | assumption | apply pumpClass_keeps | apply Keeps.foldl | (intro; intros) | extract_lets

theorem takeIn_keeps {m : Bool} {o s : State} (st : Nat) (x : RPkt) (h : Keeps m o s) : Keeps m o (takeIn s st x) := by
  unfold takeIn
  with_reducible repeat' first | assumption | apply tell_keeps | apply modPort_keeps | apply modStation_keeps | apply Keeps.ite | (intro; intros) | extract_lets | split | apply Keeps.upd

theorem takeDown_keeps {m : Bool} {o s : State} (key : Nat) (lines : Nat) (h : Keeps m o s) : Keeps m o (takeDown s key lines) := by
  unfold takeDown
  with_reducible repeat' first | assumption | apply returnWaiting_keeps | apply bumpN_keeps | apply modPort_keeps | apply portReport_keeps | apply Keeps.ite | (intro; intros) | extract_lets | split | apply Keeps.upd

theorem reagree_keeps {m : Bool} {o s : State} (key : Nat) (lines : Nat) (h : Keeps m o s) : Keeps m o (reagree s key lines) := by
  unfold reagree
  with_reducible repeat' first | assumption | apply takeDown_keeps | apply modPort_keeps | refine Keeps.fst (by assumption) ?_ | apply Keeps.foldl | apply Keeps.ite | (intro; intros) | extract_lets | split | apply Keeps.upd

theorem failCircuitLane_keeps {m : Bool} {o s : State} (st : Nat) (k : Nat) (line : Nat) (h : Keeps m o s) : Keeps m o (failCircuitLane s st k line) := by
  unfold failCircuitLane
  with_reducible repeat' first | assumption | apply modPort_keeps | apply report_keeps | apply reagree_keeps | apply wrE_keeps | apply Keeps.ite | (intro; intros) | extract_lets | split | apply Keeps.upd

theorem moveMeshLane_keeps {m : Bool} {o s : State} (st : Nat) (line : Nat) (h : Keeps m o s) : Keeps m o (moveMeshLane s st line) := by
  unfold moveMeshLane
  with_reducible repeat' first | assumption | apply modStation_keeps | apply wrE_keeps | refine Keeps.fst (by assumption) ?_ | apply Keeps.ite | (intro; intros) | extract_lets | split | apply Keeps.upd

theorem failMeshLane_keeps {m : Bool} {o s : State} (st : Nat) (line : Nat) (h : Keeps m o s) : Keeps m o (failMeshLane s st line) := by
  unfold failMeshLane
  with_reducible repeat' first | assumption | apply modStation_keeps | apply moveMeshLane_keeps | apply report_keeps | apply Keeps.ite | (intro; intros) | extract_lets | split | apply Keeps.upd

theorem portWindow'_keeps {m : Bool} {o s : State} (st : Nat) (k : Nat) (line : Nat) (bad : Bool) (h : Keeps m o s) : Keeps m o (portWindow' s st k line bad) := by
  unfold portWindow'
  with_reducible repeat' first | assumption | apply modPort_keeps | apply failCircuitLane_keeps | apply Keeps.ite | (intro; intros) | extract_lets | split | apply Keeps.upd

theorem meshWindow_keeps {m : Bool} {o s : State} (st : Nat) (src : Nat) (line : Nat) (bad : Bool) (h : Keeps m o s) : Keeps m o (meshWindow s st src line bad) := by
  unfold meshWindow
  with_reducible repeat' first | assumption | apply modStation_keeps | apply failMeshLane_keeps | apply Keeps.ite | (intro; intros) | extract_lets | split | apply Keeps.upd

theorem noteCorrected_keeps {m : Bool} {o s : State} (st : Nat) (k : Nat) (line : Nat) (errs : Nat) (h : Keeps m o s) : Keeps m o (noteCorrected s st k line errs) := by
  unfold noteCorrected
  with_reducible repeat' first | assumption | apply bump_keeps | apply modPort_keeps | apply Keeps.ite | (intro; intros) | split | apply Keeps.upd

theorem dropCodeword_keeps {m : Bool} {o s : State} (st : Nat) (k : Nat) (seq : Nat) (h : Keeps m o s) : Keeps m o (dropCodeword s st k seq) := by
  unfold dropCodeword
  with_reducible repeat' first | assumption | apply modPort_keeps | apply portReport_keeps | apply bump_keeps | (intro; intros) | extract_lets | apply Keeps.upd

theorem meshSend_keeps {m : Bool} {o s : State} (st : Nat) (dsts : List Nat) (x : RPkt) (h : Keeps m o s) : Keeps m o (meshSend s st dsts x) := by
  unfold meshSend
  with_reducible repeat' first | assumption | apply modStation_keeps | (intro; intros) | extract_lets | apply Keeps.upd

theorem grantGroup_keeps {m : Bool} {o s : State} (dst : Nat) (g : Nat) (slot : Nat) (reqs : List MeshReq) (taken : List MeshReq) (h : Keeps m o s) : Keeps m o (grantGroup s dst g slot reqs taken).1 := by
  unfold grantGroup
  with_reducible repeat' first | assumption | apply modStation_keeps | refine Keeps.fst (by assumption) ?_ | apply Keeps.ite | (intro; intros) | extract_lets | split | apply Keeps.upd

theorem grantAll_keeps {m : Bool} {o s : State} (slot : Nat) (reqs : List MeshReq) (h : Keeps m o s) :
    Keeps m o (grantAll s slot reqs).1 := by
  unfold grantAll
  refine Keeps.foldlFst h ?_
  intro a x h
  split
  · exact grantGroup_keeps _ _ _ _ _ h
  · exact h

theorem expectSlot_keeps {m : Bool} {o s : State} (src : Nat) (seq : Nat) (ds : List Nat) (data : List Byte) (h : Keeps m o s) : Keeps m o (expectSlot s src seq ds data) := by
  unfold expectSlot
  with_reducible repeat' first | assumption | (intro; intros) | extract_lets | apply Keeps.upd

theorem holdFlits_keeps {m : Bool} {o s : State} (ds : List Nat) (cls : Nat) (n : Nat) (h : Keeps m o s) : Keeps m o (holdFlits s ds cls n) := by
  unfold holdFlits
  with_reducible repeat' first | assumption | apply modStation_keeps | apply Keeps.foldl | (intro; intros) | apply Keeps.upd

theorem sendNew_keeps {m : Bool} {o s : State} (st : Nat) (x : Station) (r : MeshReq) (ds : List Nat) (h : Keeps m o s) : Keeps m o (sendNew s st x r ds) := by
  unfold sendNew
  with_reducible repeat' first | assumption | apply modStation_keeps | apply holdFlits_keeps | apply expectSlot_keeps | apply emit_keeps | apply bump_keeps | refine Keeps.fst (by assumption) ?_ | apply Keeps.ite | (intro; intros) | extract_lets | split | apply Keeps.upd

theorem sendAgain_keeps {m : Bool} {o s : State} (st : Nat) (x : Station) (r : MeshReq) (seq : Nat) (ds : List Nat) (h : Keeps m o s) : Keeps m o (sendAgain s st x r seq ds) := by
  unfold sendAgain
  with_reducible repeat' first | assumption | apply modStation_keeps | apply emit_keeps | apply bump_keeps | refine Keeps.fst (by assumption) ?_ | (intro; intros) | extract_lets | split | apply Keeps.upd

theorem transmit_keeps {m : Bool} {o s : State} (grants : List MeshReq) (st : Nat) (h : Keeps m o s) : Keeps m o (transmit grants s st) := by
  unfold transmit
  with_reducible repeat' first | assumption | apply sendAgain_keeps | apply sendNew_keeps | refine Keeps.fst (by assumption) ?_ | (intro; intros) | extract_lets | split

theorem deliverSlots_keeps {m : Bool} {o s : State} (dst : Nat) (src : Nat) (x2 : Nat) (h : Keeps m o s) : Keeps m o (deliverSlots dst src x2 s) := by
  induction x2 generalizing s with
  | zero => unfold deliverSlots; exact h
  | succ n ih =>
    unfold deliverSlots
    with_reducible repeat' first | assumption | apply ih | apply modStation_keeps | apply toRouter_keeps | refine Keeps.fst (by assumption) ?_ | apply Keeps.foldl | apply Keeps.ite | (intro; intros) | extract_lets | split | apply Keeps.upd

theorem dropSlot_keeps {m : Bool} {o s : State} (src : Nat) (seq : Nat) (dst : Nat) (h : Keeps m o s) : Keeps m o (dropSlot s src seq dst) := by
  unfold dropSlot
  with_reducible repeat' first | assumption | apply modStation_keeps | apply wrE_keeps | apply report_keeps | apply Keeps.foldl | apply Keeps.ite | (intro; intros) | extract_lets | split | apply Keeps.upd

theorem settlePort_keeps {m : Bool} {o s : State} (x : Nat) (k : Nat) (h : Keeps m o s) : Keeps m o (settlePort s x k) := by
  unfold settlePort
  with_reducible repeat' first | assumption | apply returnWaiting_keeps | apply modPort_keeps | refine Keeps.fst (by assumption) ?_ | apply Keeps.ite | (intro; intros) | extract_lets | split | apply Keeps.upd

theorem settleHostPort_keeps {m : Bool} {o s : State} (h1 : Nat) (h : Keeps m o s) : Keeps m o (settleHostPort s h1) := by
  unfold settleHostPort
  with_reducible repeat' first | assumption | apply returnWaiting_keeps | apply modPort_keeps | apply Keeps.ite | (intro; intros) | extract_lets | split | apply Keeps.upd

theorem setPlanState_keeps {m : Bool} {o s : State} (p : Nat) (v : Nat) (h : Keeps m o s) : Keeps m o (setPlanState s p v) := by
  unfold setPlanState
  with_reducible repeat' first | assumption | apply wrE_keeps

theorem startLoadPlan_keeps {m : Bool} {o s : State} (x0 : Tab Nat) (v : List Byte) (h : Keeps m o s) : Keeps m o (startLoadPlan s x0 v).s := by
  unfold startLoadPlan
  with_reducible repeat' first | assumption | apply setPlanState_keeps | apply startOp_keeps | apply Keeps.ite | extract_lets | split | apply Keeps.upd

theorem recheckPlans_keeps {m : Bool} {o s : State} (h : Keeps m o s) : Keeps m o (recheckPlans s) := by
  unfold recheckPlans
  with_reducible repeat' first | assumption | apply setPlanState_keeps | apply Keeps.foldl | apply Keeps.ite | (intro; intros) | split

theorem writePlanBody_keeps {m : Bool} {o s : State} (p : Nat) (x1 : Tab Nat) (v : List Byte) (h : Keeps m o s) : Keeps m o (writePlanBody p s x1 v).s := by
  unfold writePlanBody
  with_reducible repeat' first | assumption | apply setPlanState_keeps | apply wrB_keeps | apply endOp_keeps | apply Keeps.ite | extract_lets | split | apply Keeps.upd

theorem postSwitch_keeps {m : Bool} {o s : State} (front : Nat) (dark : Bool) (plan : Nat) (h : Keeps m o s) : Keeps m o (postSwitch s front dark plan).1 := by
  unfold postSwitch
  with_reducible repeat' first | assumption | apply Keeps.ite | (intro; intros) | extract_lets | split | apply Keeps.upd

theorem requestSwitch_keeps {m : Bool} {o s : State} (v : Nat) (h : Keeps m o s) : Keeps m o (requestSwitch s v).1 := by
  unfold requestSwitch
  with_reducible repeat' first | assumption | apply postSwitch_keeps | apply Keeps.ite | split

theorem switchPort_keeps {m : Bool} {o s : State} (fars : Tab Nat) (key : Nat) (h : Keeps m o s) : Keeps m o (switchPort fars s key) := by
  unfold switchPort
  with_reducible repeat' first | assumption | apply bumpN_keeps | apply portReport_keeps | apply returnWaiting_keeps | apply modPort_keeps | apply Keeps.ite | (intro; intros) | extract_lets | split | apply Keeps.upd

theorem switchAtFront_keeps {m : Bool} {o s : State} (w : Switch) (h : Keeps m o s) : Keeps m o (switchAtFront s w) := by
  unfold switchAtFront
  with_reducible repeat' first | assumption | apply switchPort_keeps | apply setPlanState_keeps | apply wrE_keeps | apply bump_keeps | apply Keeps.foldl | apply Keeps.ite | (intro; intros) | extract_lets | split | apply Keeps.upd

theorem agreeLines_keeps {m : Bool} {o s : State} (key : Nat) (i : Nat) (h : Keeps m o s) : Keeps m o (agreeLines s key i) := by
  unfold agreeLines
  with_reducible repeat' first | assumption | apply modPort_keeps | refine Keeps.fst (by assumption) ?_ | apply Keeps.ite | (intro; intros) | split | apply Keeps.upd

theorem stayDown_keeps {m : Bool} {o s : State} (key : Nat) (lines : Nat) (h : Keeps m o s) : Keeps m o (stayDown s key lines) := by
  unfold stayDown
  with_reducible repeat' first | assumption | apply portReport_keeps | apply modPort_keeps | apply takeDown_keeps | refine Keeps.fst (by assumption) ?_ | apply Keeps.ite | (intro; intros) | extract_lets | split | apply Keeps.upd

theorem switchTimed_keeps {m : Bool} {o s : State} (key : Nat) (ns : Nat) (h : Keeps m o s) : Keeps m o (switchTimed s key ns) := by
  unfold switchTimed
  with_reducible repeat' first | assumption | apply wrE_keeps | apply Keeps.ite | extract_lets | split

theorem chooseRoute_keeps {m : Bool} {o s : State} (node : Nat) (cls : Nat) (h : Keeps m o s) : Keeps m o (chooseRoute s node cls).1 := by
  unfold chooseRoute
  with_reducible repeat' first | assumption | refine Keeps.fst (by assumption) ?_ | (intro; intros) | extract_lets | split | apply Keeps.upd

theorem modGroup_keeps {m : Bool} {o s : State} (link : Nat) (g : Nat) (f : HemGroup → HemGroup) (h : Keeps m o s) : Keeps m o (modGroup s link g f) := by
  unfold modGroup
  with_reducible repeat' first | assumption | (intro; intros) | apply Keeps.upd

theorem enqueue_keeps {m : Bool} {o s : State} (st : Nat) (p : Pkt) (h : Keeps m o s) : Keeps m o (enqueue s st p) := by
  unfold enqueue
  with_reducible repeat' first | assumption | (intro; intros) | extract_lets | apply Keeps.upd

theorem sendNewPkt_keeps {m : Bool} {o s : State} (st : Nat) (p : Pkt) (h : Keeps m o s) : Keeps m o (sendNewPkt s st p).1 := by
  unfold sendNewPkt
  with_reducible repeat' first | assumption | apply enqueue_keeps | apply chooseRoute_keeps | refine Keeps.fst (by assumption) ?_ | apply Keeps.ite | extract_lets | split | apply Keeps.upd

theorem modQueue_keeps {m : Bool} {o s : State} (t : Nat) (q : Nat) (f : FQueue → FQueue) (h : Keeps m o s) : Keeps m o (modQueue s t q f) := by
  unfold modQueue
  with_reducible repeat' first | assumption | apply Keeps.upd

theorem pushRecord_keeps {o s : State} (t : Nat) (q : Nat) (r : List Byte) (h : Keeps false o s) : Keeps false o (pushRecord s t q r) := by
  unfold pushRecord
  with_reducible repeat' first | assumption | apply rawWrite_keeps | apply syncAdd_keeps | apply modQueue_keeps | (intro; intros) | extract_lets | apply Keeps.upd

theorem completeFence_keeps {o s : State} (t : Nat) (q : Nat) (h : Keeps false o s) : Keeps false o (completeFence s t q) := by
  unfold completeFence
  with_reducible repeat' first | assumption | apply modQueue_keeps | apply pushRecord_keeps | refine Keeps.fst (by assumption) ?_ | apply Keeps.ite | (intro; intros) | extract_lets | split | apply Keeps.upd

theorem endEntry_keeps {o s : State} (t : Nat) (q : Nat) (index : Nat) (e : List Byte) (status : Nat) (detail : Nat) (value : Nat) (flags : Nat) (h : Keeps false o s) : Keeps false o (endEntry s t q index e status detail value flags) := by
  unfold endEntry
  with_reducible repeat' first | assumption | apply modQueue_keeps | apply bump_keeps | apply pushRecord_keeps | apply Keeps.ite | (intro; intros) | extract_lets | split | apply Keeps.upd

theorem putTrack_keeps {m : Bool} {o s : State} (st : Nat) (tag : Nat) (x : Option Track) (h : Keeps m o s) : Keeps m o (putTrack s st tag x) := by
  unfold putTrack
  with_reducible repeat' first | assumption | apply Keeps.upd

theorem takeTag_keeps {m : Bool} {o s u : State} {st queue index slice tag n : Nat} {e : List Byte}
    (t : takeTag s st queue index e slice = some (u, tag, n)) (h : Keeps m o s) : Keeps m o u := by
  unfold takeTag at t
  cases x : nextTag s st with
  | none => rw [x] at t; simp at t
  | some y =>
    rw [x] at t
    simp only [Option.map_some, Option.some.injEq, Prod.mk.injEq] at t
    rw [← t.1]
    exact putTrack_keeps _ _ _ (Keeps.upd h)

theorem quarantineTag_keeps {m : Bool} {o s : State} (st : Nat) (tag : Nat) (h : Keeps m o s) : Keeps m o (quarantineTag s st tag) := by
  unfold quarantineTag
  with_reducible repeat' first | assumption | apply Keeps.upd

theorem releaseTag_keeps {m : Bool} {o s : State} (st : Nat) (tag : Nat) (h : Keeps m o s) : Keeps m o (releaseTag s st tag) := by
  unfold releaseTag
  with_reducible repeat' first | assumption | apply Keeps.upd

theorem endTrack_keeps {o s : State} (st : Nat) (tag : Nat) (x : Track) (status : Nat) (detail : Nat) (value : Nat) (flags : Nat) (answered : Bool) (h : Keeps false o s) : Keeps false o (endTrack s st tag x status detail value flags answered) := by
  unfold endTrack
  with_reducible repeat' first | assumption | apply putTrack_keeps | apply quarantineTag_keeps | apply endEntry_keeps | apply Keeps.ite | extract_lets | split | apply Keeps.upd

theorem signalPacket_keeps {m : Bool} {o s : State} (t : Nat) (p : Pkt) (h : Keeps m o s) : Keeps m o (signalPacket s t p).1 := by
  unfold signalPacket
  with_reducible repeat' first | assumption | apply syncAdd_keeps | apply Keeps.ite | split

theorem applySetting_keeps {m : Bool} {o s : State} (m1 : Measure) (v : Int) (h : Keeps m o s) : Keeps m o (applySetting s m1 v) := by
  unfold applySetting
  with_reducible repeat' first | assumption | apply Keeps.ite | extract_lets | split | apply Keeps.upd

theorem applyDecided_keeps {m : Bool} {o s : State} (m1 : Measure) (h : Keeps m o s) : Keeps m o (applyDecided s m1) := by
  unfold applyDecided
  with_reducible repeat' first | assumption | apply applySetting_keeps | refine Keeps.fst (by assumption) ?_ | split

theorem failAtSource_keeps {o s : State} (st : Nat) (tag : Nat) (kind : Nat) (status : Nat) (detail : Nat) (h : Keeps false o s) : Keeps false o (failAtSource s st tag kind status detail) := by
  unfold failAtSource
  with_reducible repeat' first | assumption | apply endTrack_keeps | refine Keeps.fst (by assumption) ?_ | apply Keeps.ite | split

theorem failPkt_keeps {o s : State} (st : Nat) (p : Pkt) (reason : Nat) (space : Bool) (h : Keeps false o s) : Keeps false o (failPkt s st p reason space) := by
  unfold failPkt
  with_reducible repeat' first | assumption | apply bump_keeps | apply failAtSource_keeps | apply enqueue_keeps | refine Keeps.fst (by assumption) ?_ | apply Keeps.ite | split | apply Keeps.upd

theorem copyFailed_keeps {m : Bool} {o s : State} (n : Nat) (h : Keeps m o s) : Keeps m o (copyFailed s n) := by
  unfold copyFailed
  with_reducible repeat' first | assumption | apply bumpN_keeps

theorem hemReport_keeps {m : Bool} {o s : State} (cls : Nat) (link : Nat) (g : Nat) (detail : Nat) (h : Keeps m o s) : Keeps m o (hemReport s cls link g detail) := by
  unfold hemReport
  with_reducible repeat' first | assumption | apply report_keeps | apply Keeps.upd

theorem modTransmit_keeps {m : Bool} {o s : State} (st : Nat) (key : Nat) (f : Nat → Nat) (h : Keeps m o s) : Keeps m o (modTransmit s st key f) := by
  unfold modTransmit
  with_reducible repeat' first | assumption | apply Keeps.upd

theorem leaveTransmit_keeps {m : Bool} {o s : State} (st : Nat) (p : Pkt) (h : Keeps m o s) : Keeps m o (leaveTransmit s st p) := by
  unfold leaveTransmit
  with_reducible repeat' first | assumption | apply modTransmit_keeps | apply Keeps.ite | split

theorem emitFrame_keeps {m : Bool} {o s : State} (link : Nat) (g : Nat) (line : Nat) (pos : Nat) (f : List Byte) (h : Keeps m o s) : Keeps m o (emitFrame s link g line pos f) := by
  unfold emitFrame
  with_reducible repeat' first | assumption | apply emit_keeps

theorem placeFrame_keeps {m : Bool} {o s : State} (link : Nat) (g : Nat) (line : Nat) (seq : Nat) (flits : List Byte) (h : Keeps m o s) : Keeps m o (placeFrame s link g line seq flits) := by
  unfold placeFrame
  with_reducible repeat' first | assumption | apply modGroup_keeps | apply emitFrame_keeps | apply bump_keeps | (intro; intros) | extract_lets | apply Keeps.upd

theorem sendFrame_keeps {m : Bool} {o s : State} (link : Nat) (g : Nat) (flits : List Byte) (h : Keeps m o s) : Keeps m o (sendFrame s link g flits) := by
  unfold sendFrame
  with_reducible repeat' first | assumption | apply modGroup_keeps | apply placeFrame_keeps | (intro; intros) | extract_lets | apply Keeps.upd

theorem sendFrames_keeps {m : Bool} {o s : State} (link : Nat) (g : Nat) (x2 : Nat) (x3 : List (List Byte)) (h : Keeps m o s) : Keeps m o (sendFrames link g x2 x3 s) := by
  induction x2 generalizing x3 s with
  | zero => unfold sendFrames; exact h
  | succ n ih =>
    unfold sendFrames
    with_reducible repeat' first | assumption | apply ih | apply sendFrame_keeps | apply Keeps.ite

theorem sendControlFrame_keeps {m : Bool} {o s : State} (link : Nat) (g : Nat) (pos : Nat) (line : Nat) (h : Keeps m o s) : Keeps m o (sendControlFrame s link g pos line) := by
  unfold sendControlFrame
  with_reducible repeat' first | assumption | apply modGroup_keeps | apply emitFrame_keeps | (intro; intros) | extract_lets | apply Keeps.upd

theorem tellGroup_keeps {m : Bool} {o s : State} (link : Nat) (g : Nat) (x2 : Nat) (h : Keeps m o s) : Keeps m o (tellGroup link g x2 s) := by
  induction x2 generalizing s with
  | zero => unfold tellGroup; exact h
  | succ n ih =>
    unfold tellGroup
    with_reducible repeat' first | assumption | apply ih | apply sendControlFrame_keeps | refine Keeps.fst (by assumption) ?_ | apply Keeps.ite | extract_lets | split

theorem hemStart_keeps {m : Bool} {o s : State} (link : Nat) (g : Nat) (level : Nat) (p : Pkt) (h : Keeps m o s) : Keeps m o (hemStart s link g level p) := by
  unfold hemStart
  with_reducible repeat' first | assumption | apply leaveTransmit_keeps | apply modGroup_keeps | apply sendFrames_keeps | (intro; intros) | extract_lets | apply Keeps.upd

theorem hemPumpOne_keeps {m : Bool} {o s : State} (link : Nat) (g : Nat) (h : Keeps m o s) : Keeps m o (hemPumpOne s link g) := by
  unfold hemPumpOne
  with_reducible repeat' first | assumption | apply modGroup_keeps | apply hemStart_keeps | refine Keeps.fst (by assumption) ?_ | (intro; intros) | extract_lets | split | apply Keeps.upd

theorem hemPump_keeps {m : Bool} {o s : State} (link : Nat) (g : Nat) (x2 : Nat) (h : Keeps m o s) : Keeps m o (hemPump link g x2 s) := by
  induction x2 generalizing s with
  | zero => unfold hemPump; exact h
  | succ n ih =>
    unfold hemPump
    with_reducible repeat' first | assumption | apply ih | apply hemPumpOne_keeps

theorem hemPumpAll_keeps {m : Bool} {o s : State} (link : Nat) (g : Nat) (h : Keeps m o s) : Keeps m o (hemPumpAll s link g) := by
  unfold hemPumpAll
  with_reducible repeat' first | assumption | apply hemPump_keeps

theorem hemSend_keeps {m : Bool} {o s : State} (link : Nat) (g : Nat) (tier : Nat) (block : Nat) (p : Pkt) (h : Keeps m o s) : Keeps m o (hemSend s link g tier block p) := by
  unfold hemSend
  with_reducible repeat' first | assumption | apply hemPumpAll_keeps | apply modGroup_keeps | (intro; intros) | apply Keeps.upd

theorem failAll_keeps {o s : State} (st : Nat) (l : List Pkt) (reason : Nat) (space : Bool) (h : Keeps false o s) : Keeps false o (failAll s st l reason space) := by
  unfold failAll
  with_reducible repeat' first | assumption | apply copyFailed_keeps | apply failPkt_keeps | apply Keeps.foldl | apply Keeps.ite | (intro; intros) | split

theorem dropTraffic_keeps {o s : State} (st : Nat) (link : Nat) (g : Nat) (state : Nat) (reason : Nat) (space : Bool) (h : Keeps false o s) : Keeps false o (dropTraffic s st link g state reason space) := by
  unfold dropTraffic
  with_reducible repeat' first | assumption | apply bumpN_keeps | apply leaveTransmit_keeps | apply modGroup_keeps | apply failAll_keeps | apply Keeps.foldl | (intro; intros) | extract_lets

theorem downWithoutLanes_keeps {o s : State} (link : Nat) (g : Nat) (h : Keeps false o s) : Keeps false o (downWithoutLanes s link g) := by
  unfold downWithoutLanes
  with_reducible repeat' first | assumption | apply dropTraffic_keeps | apply Keeps.ite | extract_lets | split

theorem failHemLane_keeps {o s : State} (link : Nat) (line : Nat) (h : Keeps false o s) : Keeps false o (failHemLane s link line) := by
  unfold failHemLane
  with_reducible repeat' first | assumption | apply report_keeps | apply tellGroup_keeps | apply downWithoutLanes_keeps | apply Keeps.ite | (intro; intros) | extract_lets | split | apply Keeps.upd

theorem frameWindow_keeps {o s : State} (link : Nat) (g : Nat) (line : Nat) (bad : Bool) (h : Keeps false o s) : Keeps false o (frameWindow s link g line bad) := by
  unfold frameWindow
  with_reducible repeat' first | assumption | apply modGroup_keeps | apply failHemLane_keeps | apply Keeps.ite | (intro; intros) | extract_lets | split | apply Keeps.upd

theorem hemAck_keeps {m : Bool} {o s : State} (link : Nat) (g : Nat) (a : Nat) (h : Keeps m o s) : Keeps m o (hemAck s link g a) := by
  unfold hemAck
  with_reducible repeat' first | assumption | apply modGroup_keeps | (intro; intros) | extract_lets | apply Keeps.upd

theorem hemCreditLow_keeps {m : Bool} {o s : State} (link : Nat) (g : Nat) (k : Nat) (v : Nat) (h : Keeps m o s) : Keeps m o (hemCreditLow s link g k v) := by
  unfold hemCreditLow
  with_reducible repeat' first | assumption | apply modGroup_keeps | (intro; intros) | apply Keeps.upd

theorem piggyback_keeps {m : Bool} {o s : State} (link : Nat) (g : Nat) (v : Nat) (h : Keeps m o s) : Keeps m o (piggyback s link g v) := by
  unfold piggyback
  with_reducible repeat' first | assumption | apply hemAck_keeps | apply hemCreditLow_keeps | apply hemPumpAll_keeps | apply Keeps.ite | extract_lets | split

theorem dropFrame_keeps {m : Bool} {o s : State} (link : Nat) (g : Nat) (seq : Nat) (h : Keeps m o s) : Keeps m o (dropFrame s link g seq) := by
  unfold dropFrame
  with_reducible repeat' first | assumption | apply modGroup_keeps | apply hemReport_keeps | apply bump_keeps | (intro; intros) | extract_lets | apply Keeps.upd

theorem deliverFrame_keeps {m : Bool} {o s : State} (link : Nat) (g : Nat) (data : List Byte) (h : Keeps m o s) : Keeps m o (deliverFrame s link g data) := by
  unfold deliverFrame
  with_reducible repeat' first | assumption | apply modGroup_keeps | apply emit_keeps | refine Keeps.fst (by assumption) ?_ | apply Keeps.foldl | (intro; intros) | extract_lets | split | apply Keeps.upd

theorem freeBuffer_keeps {m : Bool} {o s : State} (link : Nat) (g : Nat) (key : Nat) (n : Nat) (h : Keeps m o s) : Keeps m o (freeBuffer s link g key n) := by
  unfold freeBuffer
  with_reducible repeat' first | assumption | apply tellGroup_keeps | apply modGroup_keeps | apply Keeps.ite | (intro; intros) | extract_lets | split | apply Keeps.upd

theorem freeArrival_keeps {m : Bool} {o s : State} (p : Pkt) (h : Keeps m o s) : Keeps m o (freeArrival s p) := by
  unfold freeArrival
  with_reducible repeat' first | assumption | apply freeBuffer_keeps | apply Keeps.ite | extract_lets | split

theorem deliverFrames_keeps {m : Bool} {o s : State} (link : Nat) (g : Nat) (x2 : Nat) (h : Keeps m o s) : Keeps m o (deliverFrames link g x2 s) := by
  induction x2 generalizing s with
  | zero => unfold deliverFrames; exact h
  | succ n ih =>
    unfold deliverFrames
    with_reducible repeat' first | assumption | apply ih | apply modGroup_keeps | apply deliverFrame_keeps | refine Keeps.fst (by assumption) ?_ | extract_lets | split

theorem noteSymbols_keeps {m : Bool} {o s : State} (link : Nat) (g : Nat) (line : Nat) (n : Nat) (h : Keeps m o s) : Keeps m o (noteSymbols s link g line n) := by
  unfold noteSymbols
  with_reducible repeat' first | assumption | apply modGroup_keeps | apply Keeps.ite | (intro; intros) | split | apply Keeps.upd

theorem frameLost_keeps {m : Bool} {o s : State} (link : Nat) (g : Nat) (seq : Nat) (h : Keeps m o s) : Keeps m o (frameLost s link g seq) := by
  unfold frameLost
  with_reducible repeat' first | assumption | apply bump_keeps | apply modGroup_keeps | apply Keeps.ite | (intro; intros) | extract_lets | split | apply Keeps.upd

theorem frameData_keeps {m : Bool} {o s : State} (link : Nat) (g : Nat) (f : List Byte) (h : Keeps m o s) : Keeps m o (frameData s link g f) := by
  unfold frameData
  with_reducible repeat' first | assumption | apply modGroup_keeps | apply deliverFrames_keeps | apply Keeps.ite | (intro; intros) | extract_lets | split | apply Keeps.upd

theorem quarantineGroup_keeps {o s : State} (link : Nat) (g : Nat) (h : Keeps false o s) : Keeps false o (quarantineGroup s link g) := by
  unfold quarantineGroup
  with_reducible repeat' first | assumption | apply leaveTransmit_keeps | apply modGroup_keeps | apply failAll_keeps | apply Keeps.foldl | (intro; intros) | extract_lets | apply Keeps.upd

theorem identityCheck_keeps {o s : State} (link : Nat) (g : Nat) (h : Keeps false o s) : Keeps false o (identityCheck s link g) := by
  unfold identityCheck
  with_reducible repeat' first | assumption | apply dropTraffic_keeps | apply hemReport_keeps | apply quarantineGroup_keeps | apply wrE_keeps | apply Keeps.foldl | apply Keeps.ite | (intro; intros) | extract_lets | split

theorem offsetStamp_keeps {m : Bool} {o s : State} (link : Nat) (g : Nat) (epochField : Nat) (h : Keeps m o s) : Keeps m o (offsetStamp s link g epochField) := by
  unfold offsetStamp
  with_reducible repeat' first | assumption | apply Keeps.ite | extract_lets | split | apply Keeps.upd

theorem checkIdentity_keeps {o s : State} (link : Nat) (g : Nat) (old : HemGroup) (h : Keeps false o s) : Keeps false o (checkIdentity s link g old) := by
  unfold checkIdentity
  with_reducible repeat' first | assumption | apply identityCheck_keeps | apply quarantineGroup_keeps | apply modGroup_keeps | apply Keeps.ite | (intro; intros) | extract_lets | split | apply Keeps.upd

theorem takeControl_keeps {m : Bool} {o s : State} (link : Nat) (g : Nat) (f : List Byte) (h : Keeps m o s) : Keeps m o (takeControl s link g f) := by
  unfold takeControl
  with_reducible repeat' first | assumption | apply hemAck_keeps | apply modGroup_keeps | apply dropFrame_keeps | apply Keeps.foldl | apply Keeps.ite | (intro; intros) | extract_lets | split | apply Keeps.upd

theorem clearQuarantine_keeps {m : Bool} {o s : State} (x0 : Tab Nat) (v : List Byte) (h : Keeps m o s) : Keeps m o (clearQuarantine s x0 v).s := by
  unfold clearQuarantine
  with_reducible repeat' first | assumption | apply tellGroup_keeps | apply modGroup_keeps | apply Keeps.foldl | (intro; intros) | extract_lets | apply Keeps.upd

theorem loseLight_keeps {o s : State} (link : Nat) (g : Nat) (space : Bool) (h : Keeps false o s) : Keeps false o (loseLight s link g space) := by
  unfold loseLight
  with_reducible repeat' first | assumption | apply wrE_keeps | apply hemReport_keeps | apply dropTraffic_keeps | apply modGroup_keeps | (intro; intros) | extract_lets | apply Keeps.upd

theorem detachGroups_keeps {o s : State} (old : State) (h : Keeps false o s) : Keeps false o (detachGroups old s) := by
  unfold detachGroups
  with_reducible repeat' first | assumption | apply dropTraffic_keeps | apply Keeps.foldl | apply Keeps.ite | (intro; intros) | extract_lets | split

theorem settleRoles_keeps {o s : State} (h : Keeps false o s) : Keeps false o (settleRoles s) := by
  unfold settleRoles
  with_reducible repeat' first | assumption | apply settlePort_keeps | apply detachGroups_keeps | apply settleHostPort_keeps | apply Keeps.foldl | (intro; intros) | extract_lets

theorem writeRoles_keeps {o s : State} (x : Nat) (x1 : Tab Nat) (v : List Byte) (h : Keeps false o s) : Keeps false o (writeRoles x s x1 v).s := by
  unfold writeRoles
  with_reducible repeat' first | assumption | apply settleRoles_keeps | apply wrB_keeps | apply Keeps.upd

theorem writeNode_keeps {m : Bool} {o s : State} (x0 : Tab Nat) (v : List Byte) (h : Keeps m o s) : Keeps m o (writeNode s x0 v).s := by
  unfold writeNode
  with_reducible repeat' first | assumption | apply wrE_keeps | apply Keeps.upd

theorem writeRouteSet_keeps {m : Bool} {o s : State} (sel : Tab Nat) (v : List Byte) (h : Keeps m o s) : Keeps m o (writeRouteSet s sel v).s := by
  unfold writeRouteSet
  with_reducible repeat' first | assumption | apply Keeps.upd

theorem writeSlices_keeps {m : Bool} {o s : State} (sel : Tab Nat) (v : List Byte) (h : Keeps m o s) : Keeps m o (writeSlices s sel v).s := by
  unfold writeSlices
  with_reducible repeat' first | assumption | apply Keeps.upd

theorem sliceFail_keeps {m : Bool} {o s : State} (link : Nat) (g : Nat) (st : Nat) (p : Pkt) (space : Bool) (h : Keeps m o s) : Keeps m o (sliceFail s link g st p space) := by
  unfold sliceFail
  with_reducible repeat' first | assumption | apply bump_keeps | apply report_keeps | apply enqueue_keeps | refine Keeps.fst (by assumption) ?_ | apply Keeps.ite | extract_lets | split | apply Keeps.upd

theorem countOverrun_keeps {m : Bool} {o s : State} (slot : Nat) (f : List Byte) (ps : Nat) (h : Keeps m o s) : Keeps m o (countOverrun s slot f ps) := by
  unfold countOverrun
  with_reducible repeat' first | assumption | apply bump_keeps | apply Keeps.ite | split | apply Keeps.upd

theorem bulkByPort_keeps {m : Bool} {o s : State} (st : Nat) (dst : Nat) (ks : List Nat) (x : RPkt) (h : Keeps m o s) : Keeps m o (bulkByPort s st dst ks x) := by
  unfold bulkByPort
  with_reducible repeat' first | assumption | apply circuitSend_keeps | apply Keeps.ite | (intro; intros) | extract_lets | split | apply Keeps.upd

theorem modResponse_keeps {m : Bool} {o s : State} (st : Nat) (f : Nat → Nat) (h : Keeps m o s) : Keeps m o (modResponse s st f) := by
  unfold modResponse
  with_reducible repeat' first | assumption | apply Keeps.upd

theorem sink_keeps {m : Bool} {o s : State} (st : Nat) (p : Pkt) (h : Keeps m o s) : Keeps m o (sink s st p).1 := by
  unfold sink
  with_reducible repeat' first | assumption | apply emit_keeps | apply modResponse_keeps | apply Keeps.ite | split

theorem crossTo_keeps {m : Bool} {o s : State} (st : Nat) (dst : Nat) (roles : List Nat) (leg : Option Nat) (x : RPkt) (h : Keeps m o s) : Keeps m o (crossTo s st dst roles leg x).1 := by
  unfold crossTo
  with_reducible repeat' first | assumption | apply circuitSend_keeps | apply meshSend_keeps | apply bulkByPort_keeps | refine Keeps.fst (by assumption) ?_ | apply Keeps.ite | extract_lets | split

theorem toStation_keeps {m : Bool} {o s : State} (st : Nat) (dst : Nat) (leg : Option Nat) (p : Pkt) (h : Keeps m o s) : Keeps m o (toStation s st dst leg p).1 := by
  unfold toStation
  with_reducible repeat' first | assumption | apply sink_keeps | apply crossTo_keeps | apply bump_keeps | apply Keeps.ite | extract_lets | split

theorem leaveByHem_keeps {m : Bool} {o s : State} (p : Pkt) (h : Keeps m o s) : Keeps m o (leaveByHem s p) := by
  unfold leaveByHem
  with_reducible repeat' first | assumption | apply hemSend_keeps | apply Keeps.ite | split

theorem toHem_keeps {o s : State} (st : Nat) (leg : Option Nat) (p : Pkt) (space : Bool) (h : Keeps false o s) : Keeps false o (toHem s st leg p space).1 := by
  unfold toHem
  with_reducible repeat' first | assumption | apply failPkt_keeps | apply modTransmit_keeps | apply leaveByHem_keeps | apply crossTo_keeps | apply Keeps.ite | extract_lets | split

theorem route_keeps {o s : State} (st : Nat) (leg : Option Nat) (p : Pkt) (space : Bool) (h : Keeps false o s) : Keeps false o (route s st leg p space).1 := by
  unfold route
  with_reducible repeat' first | assumption | apply toHem_keeps | apply toStation_keeps | apply emit_keeps | refine Keeps.fst (by assumption) ?_ | apply Keeps.ite | split

theorem copyToLink_keeps {m : Bool} {o s : State} (block : Nat) (p : Pkt) (n : Nat) (h : Keeps m o s) : Keeps m o (copyToLink block p s n) := by
  unfold copyToLink
  with_reducible repeat' first | assumption | apply copyFailed_keeps | apply hemSend_keeps | apply Keeps.ite | split

theorem copyToStations_keeps {m : Bool} {o s : State} (st : Nat) (block : Nat) (ds : List Nat) (p : Pkt) (h : Keeps m o s) : Keeps m o (copyToStations s st block ds p) := by
  unfold copyToStations
  with_reducible repeat' first | assumption | apply copyFailed_keeps | apply emit_keeps | apply bulkByPort_keeps | apply meshSend_keeps | apply Keeps.foldl | apply Keeps.ite | (intro; intros) | extract_lets | split

theorem endMstore_keeps {o s : State} (st : Nat) (b : ReplBlock) (h : Keeps false o s) : Keeps false o (endMstore s st b) := by
  unfold endMstore
  with_reducible repeat' first | assumption | apply endTrack_keeps | refine Keeps.fst (by assumption) ?_ | apply Keeps.ite | split

theorem settleReplicator_keeps {o s : State} (st : Nat) (h : Keeps false o s) : Keeps false o (settleReplicator s st) := by
  unfold settleReplicator
  with_reducible repeat' first | assumption | apply endMstore_keeps | apply Keeps.foldl | (intro; intros) | extract_lets | apply Keeps.upd

theorem copyOut_keeps {o s : State} (st : Nat) (g : List Byte) (links : List Nat) (mstore : Option Nat) (p : Pkt) (h : Keeps false o s) : Keeps false o (copyOut s st g links mstore p) := by
  unfold copyOut
  with_reducible repeat' first | assumption | apply settleReplicator_keeps | apply copyToLink_keeps | apply copyToStations_keeps | apply Keeps.foldl | (intro; intros) | extract_lets | apply Keeps.upd

theorem replicate_keeps {o s : State} (st : Nat) (p : Pkt) (h : Keeps false o s) : Keeps false o (replicate s st p).1 := by
  unfold replicate
  with_reducible repeat' first | assumption | apply settleReplicator_keeps | apply endMstore_keeps | apply copyFailed_keeps | apply copyOut_keeps | apply Keeps.ite | extract_lets | split | apply Keeps.upd

theorem receiveCopy_keeps {o s : State} (link : Nat) (p : Pkt) (h : Keeps false o s) : Keeps false o (receiveCopy s link p).1 := by
  unfold receiveCopy
  with_reducible repeat' first | assumption | apply settleReplicator_keeps | apply copyFailed_keeps | apply copyOut_keeps | apply Keeps.ite | extract_lets | split | apply Keeps.upd

theorem acceptCopy_keeps {o s : State} (link : Nat) (group : Nat) (p : Pkt) (h : Keeps false o s) : Keeps false o (acceptCopy s link group p).1 := by
  unfold acceptCopy
  with_reducible repeat' first | assumption | apply receiveCopy_keeps | apply freeBuffer_keeps | apply Keeps.ite | extract_lets | split

theorem arriveCopy_keeps {o s : State} (link : Nat) (group : Nat) (p : Pkt) (h : Keeps false o s) : Keeps false o (arriveCopy s link group p) := by
  unfold arriveCopy
  with_reducible repeat' first | assumption | apply acceptCopy_keeps | apply Keeps.ite | (intro; intros) | extract_lets | split | apply Keeps.upd

theorem writeMulticast_keeps {m : Bool} {o s : State} (sel : Tab Nat) (v : List Byte) (h : Keeps m o s) : Keeps m o (writeMulticast s sel v).s := by
  unfold writeMulticast
  with_reducible repeat' first | assumption | apply Keeps.upd

theorem endSweep_keeps {m : Bool} {o s : State} (status : Nat) (records : List Byte) (h : Keeps m o s) : Keeps m o (endSweep s status records) := by
  unfold endSweep
  with_reducible repeat' first | assumption | apply wrE_keeps | apply wrB_keeps | apply endOp_keeps | apply Keeps.ite | extract_lets | split

theorem startSweep_keeps {m : Bool} {o s : State} (x0 : Tab Nat) (x1 : List Byte) (h : Keeps m o s) : Keeps m o (startSweep s x0 x1).s := by
  unfold startSweep
  with_reducible repeat' first | assumption | apply wrE_keeps | apply endOp_keeps | apply startOp_keeps | apply endSweep_keeps | apply enqueue_keeps | apply Keeps.ite | extract_lets | split | apply Keeps.upd

theorem sweepArrive_keeps {o s : State} (link : Nat) (g : Nat) (p : Pkt) (h : Keeps false o s) : Keeps false o (sweepArrive s link g p) := by
  unfold sweepArrive
  with_reducible repeat' first | assumption | apply enqueue_keeps | apply failPkt_keeps | apply Keeps.ite | (intro; intros) | extract_lets | split | apply Keeps.upd

theorem forwardPkt_keeps {o s : State} (st : Nat) (p : Pkt) (link : Nat) (g : Nat) (space : Bool) (h : Keeps false o s) : Keeps false o (forwardPkt s st p link g space) := by
  unfold forwardPkt
  with_reducible repeat' first | assumption | apply freeArrival_keeps | apply failPkt_keeps | apply enqueue_keeps | apply Keeps.ite | extract_lets | split

theorem leaveBuffer_keeps {m : Bool} {o s : State} (link : Nat) (g : Nat) (p : Pkt) (h : Keeps m o s) : Keeps m o (leaveBuffer s link g p) := by
  unfold leaveBuffer
  with_reducible repeat' first | assumption | apply freeBuffer_keeps

theorem putShaper_keeps {m : Bool} {o s : State} (slot : Nat) (x : Shaper) (h : Keeps m o s) : Keeps m o (putShaper s slot x) := by
  unfold putShaper
  with_reducible repeat' first | assumption | apply Keeps.upd

theorem depart_keeps {o s : State} (st : Nat) (leg : Option Nat) (p : Pkt) (space : Bool) (h : Keeps false o s) :
    Keeps false o (depart s st leg p space).1 := by
  unfold depart
  extract_lets r
  have hr : Keeps false o r.1 := by
    unfold r
    split
    · exact replicate_keeps _ _ h
    · exact route_keeps _ _ _ _ h
  clear_value r
  split
  · dsimp only
    split
    · exact modResponse_keeps _ _ hr
    · exact hr
  · exact h

theorem departFree_keeps {o s : State} (st : Nat) (leg : Option Nat) (p : Pkt) (space : Bool) (h : Keeps false o s) : Keeps false o (departFree s st leg p space).1 := by
  unfold departFree
  with_reducible repeat' first | assumption | apply depart_keeps | apply freeArrival_keeps | apply Keeps.ite | extract_lets | split

theorem rejectGuest_keeps {m : Bool} {o s : State} (st : Nat) (p : Pkt) (h : Keeps m o s) : Keeps m o (rejectGuest s st p) := by
  unfold rejectGuest
  with_reducible repeat' first | assumption | apply report_keeps | apply bump_keeps | extract_lets | apply Keeps.upd

theorem release_keeps {o s : State} (st : Nat) (p : Pkt) (crossing : Nat) (space : Bool) (h : Keeps false o s) : Keeps false o (release s st p crossing space).1 := by
  unfold release
  with_reducible repeat' first | assumption | apply rejectGuest_keeps | apply departFree_keeps | apply freeArrival_keeps | apply putShaper_keeps | apply countOverrun_keeps | refine Keeps.fst (by assumption) ?_ | apply Keeps.ite | extract_lets | split | apply Keeps.upd

theorem releaseFirst_keeps {o : State} {st crossing : Nat} {space : Bool} {l : List Pkt} {s t : State}
    (e : releaseFirst s st crossing space l = some t) (h : Keeps false o s) : Keeps false o t := by
  induction l with
  | nil => exact absurd e (by simp [releaseFirst])
  | cons x l ih =>
    unfold releaseFirst at e
    dsimp only at e
    split at e
    · rw [← Option.some.inj e]
      exact release_keeps _ _ _ _ (Keeps.upd h)
    · exact ih e

theorem sendAnew_keeps {o s : State} (st : Nat) (x : RPkt) (p : Pkt) (space : Bool) (h : Keeps false o s) : Keeps false o (sendAnew s st x p space).1 := by
  unfold sendAnew
  with_reducible repeat' first | assumption | apply meshSend_keeps | apply bulkByPort_keeps | apply route_keeps | apply modTransmit_keeps | apply Keeps.ite | split

theorem arriveAt_keeps {o s : State} (st : Nat) (p : Pkt) (space : Bool) (h : Keeps false o s) : Keeps false o (arriveAt s st p space).1 := by
  unfold arriveAt
  with_reducible repeat' first | assumption | apply failPkt_keeps | apply modTransmit_keeps | apply leaveByHem_keeps | apply emit_keeps | apply sink_keeps | apply Keeps.ite | extract_lets | split

theorem takeOne_keeps {o s : State} (st : Nat) (x : RPkt) (space : Bool) (h : Keeps false o s) : Keeps false o (takeOne s st x space).1 := by
  unfold takeOne
  with_reducible repeat' first | assumption | apply report_keeps | apply bump_keeps | apply takeIn_keeps | apply sendAnew_keeps | apply arriveAt_keeps | refine Keeps.fst (by assumption) ?_ | apply Keeps.ite | extract_lets | split | apply Keeps.upd

theorem takeFirst_keeps {o : State} {st : Nat} {space : Bool} {l seen : List RPkt} {s t : State}
    (e : takeFirst s st space seen l = some t) (h : Keeps false o s) : Keeps false o t := by
  induction l generalizing seen with
  | nil => exact absurd e (by simp [takeFirst])
  | cons x l ih =>
    unfold takeFirst at e
    dsimp only at e
    split at e
    · rw [← Option.some.inj e]
      exact takeOne_keeps _ _ _ (Keeps.upd h)
    · exact ih e

theorem copyFirst_keeps {o : State} {st : Nat} {l seen : List (Nat × Pkt)} {s t : State}
    (e : copyFirst s st seen l = some t) (h : Keeps false o s) : Keeps false o t := by
  induction l generalizing seen with
  | nil => exact absurd e (by simp [copyFirst])
  | cons x l ih =>
    unfold copyFirst at e
    dsimp only at e
    split at e
    · rw [← Option.some.inj e]
      exact acceptCopy_keeps _ _ _ (Keeps.upd h)
    · exact ih e

theorem inject_keeps {m : Bool} {o s : State} (t : Nat) (l : Loc) (data : List Byte) (h : Keeps m o s) : Keeps m o (inject s t l data).1 := by
  unfold inject
  with_reducible repeat' first | assumption | apply useInjections_keeps | apply rowInjections_keeps | refine Keeps.fst (by assumption) ?_ | apply Keeps.foldl | apply Keeps.ite | (intro; intros) | extract_lets | split

theorem fetch_keeps {m : Bool} {o s : State} (t : Nat) (a : Nat) (tid : Nat) (blk : Nat) (fl : List Flip) (verified : List Nat) (h : Keeps m o s) : Keeps m o (fetch s t a tid blk fl verified).1 := by
  unfold fetch
  with_reducible repeat' first | assumption | apply readBadRows_keeps | apply nextFree_keeps | apply inject_keeps | refine Keeps.fst (by assumption) ?_ | apply Keeps.ite | extract_lets | split

theorem setSchState_keeps {m : Bool} {o s : State} (slot : Nat) (v : Nat) (h : Keeps m o s) : Keeps m o (setSchState s slot v) := by
  unfold setSchState
  with_reducible repeat' first | assumption | apply wrE_keeps

theorem startLoadSchedule_keeps {m : Bool} {o s : State} (x0 : Tab Nat) (v : List Byte) (h : Keeps m o s) : Keeps m o (startLoadSchedule s x0 v).s := by
  unfold startLoadSchedule
  with_reducible repeat' first | assumption | apply setSchState_keeps | apply startOp_keeps | apply Keeps.ite | extract_lets | split | apply Keeps.upd

theorem recheckSchedules_keeps {m : Bool} {o s : State} (h : Keeps m o s) : Keeps m o (recheckSchedules s) := by
  unfold recheckSchedules
  with_reducible repeat' first | assumption | apply setSchState_keeps | apply Keeps.foldl | apply Keeps.ite | (intro; intros) | extract_lets | split

theorem writeSchedule_keeps {m : Bool} {o s : State} (i : Nat) (x1 : Tab Nat) (v : List Byte) (h : Keeps m o s) : Keeps m o (writeSchedule i s x1 v).s := by
  unfold writeSchedule
  with_reducible repeat' first | assumption | apply setSchState_keeps | apply wrB_keeps | apply endOp_keeps | apply Keeps.ite | extract_lets | split | apply Keeps.upd

theorem writeHeld_keeps {o s : State} (t : Nat) (p : Nat) (q : Nat) (h : Keeps false o s) : Keeps false o (writeHeld s t p q) := by
  unfold writeHeld
  with_reducible repeat' first | assumption | apply setCoreQueue_keeps | apply signalDone_keeps | apply cqPush_keeps | refine Keeps.fst (by assumption) ?_ | apply Keeps.ite | (intro; intros) | extract_lets | split

theorem writeHeldAll_keeps {o s : State} (t : Nat) (p : Nat) (q : Nat) (x3 : Nat) (h : Keeps false o s) : Keeps false o (writeHeldAll t p q x3 s) := by
  induction x3 generalizing s with
  | zero => unfold writeHeldAll; exact h
  | succ n ih =>
    unfold writeHeldAll
    with_reducible repeat' first | assumption | apply ih | apply writeHeld_keeps

theorem programError_keeps {m : Bool} {o s : State} (t : Nat) (kind : Nat) (p : Nat) (race : Bool) (tid : Nat) (blk : Nat) (h : Keeps m o s) : Keeps m o (programError s t kind p race tid blk) := by
  unfold programError
  with_reducible repeat' first | assumption | apply bump_keeps | apply coreReport_keeps | apply Keeps.ite | extract_lets | split

theorem consumePoison_keeps {m : Bool} {o s : State} (t : Nat) (kind : Nat) (p : Nat) (a : Nat) (h : Keeps m o s) : Keeps m o (consumePoison s t kind p a) := by
  unfold consumePoison
  with_reducible repeat' first | assumption | apply report_keeps | apply bump_keeps | extract_lets | apply Keeps.upd

theorem takeBlock_keeps {o : State} {r : Run} (t kind p : Nat) (copies : Bool) (fl : List Flip) (b : InBlk)
    (h : Keeps false o r.s) : Keeps false o (takeBlock t kind p copies fl r b).s := by
  unfold takeBlock
  split
  · exact h
  · split
    next s f e =>
    have h1 := Keeps.fst e (fetch_keeps _ _ _ _ _ _ h)
    split
    · split
      · exact consumePoison_keeps _ _ _ _ h1
      · exact h1
    · exact programError_keeps _ _ _ _ _ _ h1
    · exact programError_keeps _ _ _ _ _ _ h1
    · exact coreReport_keeps _ _ _ _ _ _ h1
    · exact h1
    · exact h1

theorem takeBlocks_keeps {o : State} (t kind p : Nat) (copies : Bool) (fl : List Flip) (bs : List InBlk) :
    ∀ {r : Run}, Keeps false o r.s → Keeps false o (takeBlocks t kind p copies fl bs r).s := by
  unfold takeBlocks
  induction bs with
  | nil => exact fun h => h
  | cons b l ih => exact fun h => ih (takeBlock_keeps _ _ _ _ _ _ h)

theorem mergeScales_keeps {o s : State} (t : Nat) (d : Nat) (b : Nat) (loaded : Loaded) (xs : List Nat) (h : Keeps false o s) : Keeps false o (mergeScales s t d b loaded xs) := by
  unfold mergeScales
  with_reducible repeat' first | assumption | apply writeBlock_keeps | apply Keeps.foldl | apply Keeps.ite | (intro; intros) | extract_lets | split

theorem runBlock_keeps {o : State} {r : Run} (t kind p : Nat) (fl : List Flip) (res : List ResidueEvent) (wfail : List Nat)
    (upTo : Nat) (h : Keeps false o r.s) : Keeps false o (runBlock t kind p fl res wfail upTo r).s := by
  unfold runBlock
  extract_lets d b o1 copy per p0 p1 r0 ins r1 evs again q r2 tag s
  have h1 : Keeps false o r1.s := takeBlocks_keeps _ _ _ _ _ _ h
  have h2 : Keeps false o s := by
    show Keeps false o (if _ then _ else _)
    split
    · exact h1
    · exact coreReport_keeps _ _ _ _ _ _ h1
  clear_value s r1
  split
  · exact h
  · split
    · exact h
    · split
      · exact h1
      · split
        · exact h1
        · split
          · refine (?_ : Keeps false o (if isRaw o1.tid = true then _ else _))
            with_reducible repeat' first | assumption | apply modCell_keeps | refine Keeps.fst (by assumption) ?_ | apply Keeps.foldl | apply Keeps.ite
          · split
            · exact writeBlock_keeps _ _ _ _ _ _ h2
            · refine (?_ : Keeps false o (if dFlagMap d = true then _ else _))
              with_reducible repeat' first | assumption | apply writeBlock_keeps | apply rawWrite_keeps | apply mergeScales_keeps | apply nextFree_keeps | refine Keeps.fst (by assumption) ?_ | apply Keeps.foldl | apply Keeps.ite

theorem runBlocks_keeps {o : State} (t kind p : Nat) (fl : List Flip) (res : List ResidueEvent) (wfail : List Nat) (upTo n : Nat) :
    ∀ {r : Run}, Keeps false o r.s → Keeps false o (runBlocks t kind p fl res wfail upTo n r).s := by
  induction n with
  | zero => exact fun h => h
  | succ n ih =>
    intro r h
    unfold runBlocks
    split
    · exact h
    · exact ih (runBlock_keeps _ _ _ _ _ _ _ h)

theorem keepDesc_keeps {m : Bool} {o s : State} (t : Nat) (kind : Nat) (p : Nat) (e : QDesc) (h : Keeps m o s) : Keeps m o (keepDesc s t kind p e) := by
  unfold keepDesc
  with_reducible repeat' first | assumption | apply setCoreQueue_keeps | (intro; intros)

theorem endEarly_keeps {o s : State} (t kind p : Nat) (e : QDesc) (status badBlk : Nat) (h : Keeps false o s) :
    Keeps false o (endEarly s t kind p e status badBlk) := by
  unfold endEarly
  exact endDescriptor_keeps _ _ _ _ _ _ _ _ (nextFree_keeps h)

theorem settle_keeps {o : State} {r : Run} (t kind p : Nat) (h : Keeps false o r.s) : Keeps false o (settle t kind p r) := by
  unfold settle
  with_reducible repeat' first | assumption | apply endDescriptor_keeps | apply endEarly_keeps | apply keepDesc_keeps | apply containRange_keeps | apply coreReport_keeps | apply confirmedFault_keeps | refine Keeps.fst (by assumption) ?_ | apply Keeps.foldl | apply Keeps.ite | extract_lets | split

theorem abortOrSleep_keeps {o s : State} (t : Nat) (kind : Nat) (p : Nat) (e : QDesc) (status : Nat) (badBlk : Nat) (h : Keeps false o s) : Keeps false o (abortOrSleep s t kind p e status badBlk) := by
  unfold abortOrSleep
  with_reducible repeat' first | assumption | apply endDescriptor_keeps

theorem setLoaded_keeps {m : Bool} {o s : State} (t : Nat) (p : Nat) (rd : Nat) (size : Nat) (v : DWord) (h : Keeps m o s) : Keeps m o (setLoaded s t p rd size v) := by
  unfold setLoaded
  with_reducible repeat' first | assumption | apply setRd_keeps | apply modSCore_keeps | apply Keeps.ite | (intro; intros) | extract_lets | split | apply Keeps.upd

theorem putRun_keeps {m : Bool} {o s : State} (slot : Nat) (r : Option CRun) (h : Keeps m o s) : Keeps m o (putRun s slot r) := by
  unfold putRun
  with_reducible repeat' first | assumption | apply Keeps.upd

theorem modRun_keeps {m : Bool} {o s : State} (slot : Nat) (f : CRun → CRun) (h : Keeps m o s) : Keeps m o (modRun s slot f) := by
  unfold modRun
  with_reducible repeat' first | assumption | apply putRun_keeps

theorem modNode_keeps {m : Bool} {o s : State} (slot : Nat) (n : Nat) (f : RNode → RNode) (h : Keeps m o s) : Keeps m o (modNode s slot n f) := by
  unfold modNode
  with_reducible repeat' first | assumption | apply modRun_keeps | (intro; intros) | apply Keeps.upd

theorem absorb_keeps {m : Bool} {o s : State} (h : Keeps m o s) : Keeps m o (absorb s) := by
  unfold absorb
  with_reducible repeat' first | assumption | apply bump_keeps

theorem unitEngine_keeps {m : Bool} {o s : State} (cls : Nat) (slot : Nat) (t : Nat) (detail : Nat) (tag : Nat) (h : Keeps m o s) : Keeps m o (unitEngine s cls slot t detail tag) := by
  unfold unitEngine
  with_reducible repeat' first | assumption | apply report_keeps | extract_lets | apply Keeps.upd

theorem engineReport_keeps {m : Bool} {o s : State} (cls : Nat) (slot : Nat) (t : Nat) (blk : Nat) (h : Keeps m o s) : Keeps m o (engineReport s cls slot t blk) := by
  unfold engineReport
  with_reducible repeat' first | assumption | apply unitEngine_keeps

theorem finishRun_keeps {o s : State} (slot : Nat) (status : Nat) (h : Keeps false o s) : Keeps false o (finishRun s slot status) := by
  unfold finishRun
  with_reducible repeat' first | assumption | apply rawWrite_keeps | apply syncAdd_keeps | apply wrB_keeps | apply wrE_keeps | apply engineReport_keeps | apply bump_keeps | apply setSchState_keeps | apply putRun_keeps | refine Keeps.fst (by assumption) ?_ | apply Keeps.ite | extract_lets | split | apply Keeps.upd

theorem spoil_keeps {m : Bool} {o s : State} (slot : Nat) (status : Nat) (h : Keeps m o s) : Keeps m o (spoil s slot status) := by
  unfold spoil
  with_reducible repeat' first | assumption | apply modRun_keeps | apply Keeps.ite | (intro; intros) | split | apply Keeps.upd

theorem failRun_keeps {o s : State} (slot : Nat) (status : Nat) (h : Keeps false o s) : Keeps false o (failRun s slot status) := by
  unfold failRun
  with_reducible repeat' first | assumption | apply finishRun_keeps | refine Keeps.fst (by assumption) ?_ | apply Keeps.ite | split

theorem engineInjected_keeps {m : Bool} {o s : State} (t : Nat) (op : Nat) (data : List Byte) (h : Keeps m o s) : Keeps m o (engineInjected s t op data).1 := by
  unfold engineInjected
  with_reducible repeat' first | assumption | apply useInjections_keeps | apply Keeps.foldl | apply Keeps.ite | (intro; intros) | split | apply Keeps.upd

theorem collSend_keeps {o s : State} (slot : Nat) (t : Nat) (destMod : Nat) (destStation : Nat) (body : List Byte) (h : Keeps false o s) : Keeps false o (collSend s slot t destMod destStation body) := by
  unfold collSend
  with_reducible repeat' first | assumption | apply enqueue_keeps | apply sendNewPkt_keeps | apply failPkt_keeps | apply Keeps.ite | extract_lets | split | apply Keeps.upd

theorem collCast_keeps {m : Bool} {o s : State} (slot : Nat) (t : Nat) (group : Nat) (body : List Byte) (h : Keeps m o s) : Keeps m o (collCast s slot t group body) := by
  unfold collCast
  with_reducible repeat' first | assumption | apply enqueue_keeps | apply Keeps.upd

theorem stepSend_keeps {o s : State} (slot : Nat) (t : Nat) (b : List Byte) (x : Step) (body : List Byte) (h : Keeps false o s) : Keeps false o (stepSend s slot t b x body) := by
  unfold stepSend
  with_reducible repeat' first | assumption | apply collCast_keeps | apply collSend_keeps | apply Keeps.ite | (intro; intros) | extract_lets | split

theorem replySend_keeps {o s : State} (slot : Nat) (t : Nat) (src : Nat × Nat) (body : List Byte) (h : Keeps false o s) : Keeps false o (replySend s slot t src body) := by
  unfold replySend
  with_reducible repeat' first | assumption | apply collSend_keeps | apply Keeps.ite | split

theorem contributeFetch_keeps {o s : State} (slot : Nat) (t : Nat) (a : Nat) (tid : Nat) (k : Nat) (f1 : List Flip) (f2 : List Flip) (h : Keeps false o s) : Keeps false o (contributeFetch s slot t a tid k f1 f2).1 := by
  unfold contributeFetch
  with_reducible repeat' first | assumption | apply fetch_keeps | apply confirmedFault_keeps | apply unitEngine_keeps | apply bump_keeps | refine Keeps.fst (by assumption) ?_ | apply Keeps.ite | (intro; intros) | extract_lets | split

theorem engineBlocked_keeps {o s : State} (slot : Nat) (t : Nat) (a : Nat) (tid : Nat) (k : Nat) (x6 : Fetch) (h : Keeps false o s) : Keeps false o (engineBlocked s slot t a tid k x6) := by
  unfold engineBlocked
  with_reducible repeat' first | assumption | apply failRun_keeps | apply unitEngine_keeps | apply bump_keeps | apply containRange_keeps | refine Keeps.fst (by assumption) ?_ | split

theorem readStage_keeps {o s : State} (slot : Nat) (t : Nat) (x : Step) (blk : Nat) (f1 : List Flip) (f2 : List Flip) (h : Keeps false o s) : Keeps false o (readStage s slot t x blk f1 f2).1 := by
  unfold readStage
  with_reducible repeat' first | assumption | apply contributeFetch_keeps | apply failRun_keeps | apply containRange_keeps | apply readBadRows_keeps | apply engineBlocked_keeps | refine Keeps.fst (by assumption) ?_ | apply Keeps.ite | extract_lets | split | apply Keeps.upd

theorem nodeOut_keeps {o s : State} (slot : Nat) (t : Nat) (r : CRun) (x : Step) (blk : Nat) (f1 : List Flip) (f2 : List Flip) (h : Keeps false o s) : Keeps false o (nodeOut s slot t r x blk f1 f2).1 := by
  unfold nodeOut
  with_reducible repeat' first | assumption | apply readStage_keeps | apply Keeps.ite | (intro; intros) | extract_lets | split

theorem forwardBlock_keeps {o s : State} (slot : Nat) (m1 : Nat) (x : Step) (blk : Nat) (asker : Option (Nat × Nat)) (f1 : List Flip) (f2 : List Flip) (h : Keeps false o s) : Keeps false o (forwardBlock s slot m1 x blk asker f1 f2) := by
  unfold forwardBlock
  with_reducible repeat' first | assumption | apply nodeOut_keeps | apply replySend_keeps | apply stepSend_keeps | apply modRun_keeps | refine Keeps.fst (by assumption) ?_ | (intro; intros) | extract_lets | split | apply Keeps.upd

theorem pumpStep_keeps {o s : State} (slot : Nat) (m1 : Nat) (x : Step) (x3 : Nat) (h : Keeps false o s) : Keeps false o (pumpStep slot m1 x x3 s) := by
  induction x3 generalizing s with
  | zero => unfold pumpStep; exact h
  | succ n ih =>
    unfold pumpStep
    with_reducible repeat' first | assumption | apply ih | apply forwardBlock_keeps | refine Keeps.fst (by assumption) ?_ | apply Keeps.ite | extract_lets | split

theorem trimWindow_keeps {m : Bool} {o s : State} (slot : Nat) (node : Nat) (h : Keeps m o s) : Keeps m o (trimWindow s slot node) := by
  unfold trimWindow
  with_reducible repeat' first | assumption | apply modNode_keeps | refine Keeps.fst (by assumption) ?_ | (intro; intros) | extract_lets | split | apply Keeps.upd

theorem pumpForward_keeps {o s : State} (slot : Nat) (h : Keeps false o s) : Keeps false o (pumpForward s slot) := by
  unfold pumpForward
  with_reducible repeat' first | assumption | apply pumpStep_keeps | apply trimWindow_keeps | apply Keeps.foldl | (intro; intros) | extract_lets

theorem contributeBlock_keeps {o s : State} (slot : Nat) (m1 : Nat) (x : Step) (blk : Nat) (asker : Option (Nat × Nat)) (f1 : List Flip) (f2 : List Flip) (h : Keeps false o s) : Keeps false o (contributeBlock s slot m1 x blk asker f1 f2) := by
  unfold contributeBlock
  with_reducible repeat' first | assumption | apply contributeFetch_keeps | apply spoil_keeps | apply unitEngine_keeps | apply bump_keeps | apply replySend_keeps | apply stepSend_keeps | apply engineBlocked_keeps | refine Keeps.fst (by assumption) ?_ | apply Keeps.ite | extract_lets | split | apply Keeps.upd

theorem scanBlock_keeps {o : State} (slot t : Nat) (f : Fmt) (x : Step) (a : State × Option (List Val)) (k : Nat)
    (h : Keeps false o a.1) : Keeps false o (scanBlock slot t f x a k).1 := by
  obtain ⟨u, v⟩ := a
  cases v with
  | none => exact h
  | some vs =>
    have hc := fun c tid => contributeFetch_keeps (s := u) slot t c tid k [] [] h
    unfold scanBlock
    dsimp only
    split
    · exact hc _ _
    · exact engineBlocked_keeps _ _ _ _ _ _ (hc _ _)

theorem scanStep_keeps {o : State} (slot t : Nat) (a : State × Option (List Val)) (x : Step) (h : Keeps false o a.1) :
    Keeps false o (scanStep slot t a x).1 := by
  unfold scanStep
  extract_lets b
  split
  · exact h
  · exact Keeps.foldlFst (b := a.2) h (fun a k w => scanBlock_keeps _ _ _ _ a k w)

theorem settleStage_keeps {m : Bool} {o s : State} (slot : Nat) (h : Keeps m o s) : Keeps m o (settleStage s slot) := by
  unfold settleStage
  with_reducible repeat' first | assumption | apply modRun_keeps | apply Keeps.ite | (intro; intros) | split | apply Keeps.upd

theorem sendAnchor_keeps {o s : State} (slot : Nat) (t : Nat) (node : Nat) (a : Int) (h : Keeps false o s) : Keeps false o (sendAnchor s slot t node a) := by
  unfold sendAnchor
  with_reducible repeat' first | assumption | apply replySend_keeps | refine Keeps.fst (by assumption) ?_ | apply Keeps.foldl | (intro; intros) | split

theorem negative_keeps {o s : State} (t : Nat) (p : Pkt) (st : Nat) (h : Keeps false o s) : Keeps false o (negative s t p st) := by
  unfold negative
  with_reducible repeat' first | assumption | apply failRun_keeps | apply absorb_keeps | apply enqueue_keeps | refine Keeps.fst (by assumption) ?_ | apply Keeps.ite | extract_lets | split | apply Keeps.upd

theorem anchorNode_keeps {m : Bool} {o s : State} (slot : Nat) (node : Nat) (a : Int) (h : Keeps m o s) : Keeps m o (anchorNode s slot node a) := by
  unfold anchorNode
  with_reducible repeat' first | assumption | apply modRun_keeps | apply modNode_keeps | (intro; intros) | apply Keeps.upd

theorem anchorContributor_keeps {o s : State} (slot : Nat) (t : Nat) (m1 : Nat) (a : Int) (h : Keeps false o s) : Keeps false o (anchorContributor s slot t m1 a) := by
  unfold anchorContributor
  with_reducible repeat' first | assumption | apply failRun_keeps | apply modRun_keeps | refine Keeps.fst (by assumption) ?_ | apply Keeps.ite | (intro; intros) | split | apply Keeps.upd

theorem takeAnchor_keeps {o s : State} (slot : Nat) (t : Nat) (e : Nat × Step) (a : Int) (h : Keeps false o s) : Keeps false o (takeAnchor s slot t e a) := by
  unfold takeAnchor
  with_reducible repeat' first | assumption | apply anchorContributor_keeps | apply sendAnchor_keeps | apply anchorNode_keeps | apply failRun_keeps | refine Keeps.fst (by assumption) ?_ | apply Keeps.ite | split

theorem sendGrants_keeps {o s : State} (slot : Nat) (t : Nat) (node : Nat) (h : Keeps false o s) : Keeps false o (sendGrants s slot t node) := by
  unfold sendGrants
  with_reducible repeat' first | assumption | apply modNode_keeps | apply replySend_keeps | refine Keeps.fst (by assumption) ?_ | apply Keeps.foldl | (intro; intros) | extract_lets | split | apply Keeps.upd

theorem stageBlock_keeps {o s : State} (t : Nat) (x : Step) (tid : Nat) (blk : Nat) (anchor : Int) (w : WireBlk) (h : Keeps false o s) : Keeps false o (stageBlock s t x tid blk anchor w) := by
  unfold stageBlock
  with_reducible repeat' first | assumption | apply writeBlock_keeps | apply rawWrite_keeps | apply Keeps.ite | extract_lets | split

theorem emitBlock_keeps {o s : State} (slot : Nat) (t : Nat) (x : Step) (blk : Nat) (anchor : Int) (w : WireBlk) (h : Keeps false o s) : Keeps false o (emitBlock s slot t x blk anchor w) := by
  unfold emitBlock
  with_reducible repeat' first | assumption | apply failRun_keeps | apply engineReport_keeps | apply confirmedFault_keeps | apply stageBlock_keeps | apply modNode_keeps | apply trimWindow_keeps | apply forwardBlock_keeps | apply sendGrants_keeps | apply pumpForward_keeps | refine Keeps.fst (by assumption) ?_ | apply Keeps.foldl | apply Keeps.ite | (intro; intros) | extract_lets | split | apply Keeps.upd

theorem wireFault_keeps {o s : State} (slot : Nat) (t : Nat) (tid : Nat) (blk : Nat) (first : Option DWord) (c : DWord) (h : Keeps false o s) : Keeps false o (wireFault s slot t tid blk first c) := by
  unfold wireFault
  with_reducible repeat' first | assumption | apply unitEngine_keeps | apply failRun_keeps | apply bump_keeps | refine Keeps.fst (by assumption) ?_ | apply Keeps.ite | (intro; intros) | extract_lets | split

theorem wireMasked_keeps {m : Bool} {o s : State} (slot : Nat) (t : Nat) (tid : Nat) (blk : Nat) (h : Keeps m o s) : Keeps m o (wireMasked s slot t tid blk) := by
  unfold wireMasked
  with_reducible repeat' first | assumption | apply unitEngine_keeps | apply bump_keeps

theorem takePartial_keeps {o s : State} (t : Nat) (p : Pkt) (dual : Nat) (err : Option (Nat × DWord)) (h : Keeps false o s) : Keeps false o (takePartial s t p dual err) := by
  unfold takePartial
  with_reducible repeat' first | assumption | apply absorb_keeps | apply wireFault_keeps | apply modNode_keeps | apply replySend_keeps | apply wireMasked_keeps | apply engineInjected_keeps | apply spoil_keeps | apply engineReport_keeps | apply failRun_keeps | apply confirmedFault_keeps | apply bump_keeps | apply emitBlock_keeps | refine Keeps.fst (by assumption) ?_ | apply Keeps.ite | (intro; intros) | extract_lets | split | apply Keeps.upd

theorem putDeliv_keeps {m : Bool} {o s : State} (slot : Nat) (m1 : Nat) (blk : Nat) (d : Deliv) (h : Keeps m o s) : Keeps m o (putDeliv s slot m1 blk d) := by
  unfold putDeliv
  with_reducible repeat' first | assumption | apply modRun_keeps | (intro; intros) | apply Keeps.upd

theorem writeOutput_keeps {o s : State} (slot : Nat) (m1 : Nat) (t : Nat) (x : Step) (blk : Nat) (anchor : Int) (h : Keeps false o s) : Keeps false o (writeOutput s slot m1 t x blk anchor) := by
  unfold writeOutput
  with_reducible repeat' first | assumption | apply writeBlock_keeps | apply putDeliv_keeps | apply modRun_keeps | refine Keeps.fst (by assumption) ?_ | apply Keeps.foldl | apply Keeps.ite | (intro; intros) | extract_lets | split | apply Keeps.upd

theorem passResult_keeps {o s : State} (slot : Nat) (m1 : Nat) (t : Nat) (x : Step) (blk : Nat) (anchor : Int) (w : WireBlk) (repaired : Bool) (h : Keeps false o s) : Keeps false o (passResult s slot m1 t x blk anchor w repaired) := by
  unfold passResult
  with_reducible repeat' first | assumption | apply putDeliv_keeps | apply modRun_keeps | apply engineReport_keeps | apply bump_keeps | apply spoil_keeps | apply writeOutput_keeps | apply Keeps.ite | (intro; intros) | extract_lets | split | apply Keeps.upd

theorem failDigest_keeps {o s : State} (slot : Nat) (m1 : Nat) (t : Nat) (p : Pkt) (d : Deliv) (c0 : Nat) (c1 : Nat) (h : Keeps false o s) : Keeps false o (failDigest s slot m1 t p d c0 c1) := by
  unfold failDigest
  with_reducible repeat' first | assumption | apply bump_keeps | apply replySend_keeps | apply putDeliv_keeps | apply failRun_keeps | apply engineReport_keeps | refine Keeps.fst (by assumption) ?_ | apply Keeps.ite | (intro; intros) | extract_lets | split | apply Keeps.upd

theorem takeDeliver_keeps {o s : State} (slot : Nat) (t : Nat) (p : Pkt) (e : Nat × Step) (h : Keeps false o s) : Keeps false o (takeDeliver slot t p s e) := by
  unfold takeDeliver
  with_reducible repeat' first | assumption | apply wireFault_keeps | apply putDeliv_keeps | apply replySend_keeps | apply wireMasked_keeps | apply passResult_keeps | apply bump_keeps | apply failDigest_keeps | refine Keeps.fst (by assumption) ?_ | apply Keeps.ite | extract_lets | split | apply Keeps.upd

theorem takeResult_keeps {o s : State} (t : Nat) (p : Pkt) (h : Keeps false o s) : Keeps false o (takeResult s t p) := by
  unfold takeResult
  with_reducible repeat' first | assumption | apply absorb_keeps | apply takeDeliver_keeps | refine Keeps.fst (by assumption) ?_ | apply Keeps.foldl | apply Keeps.ite | (intro; intros) | extract_lets | split

theorem resendResult_keeps {o s : State} (slot : Nat) (t : Nat) (r : CRun) (x : Step) (p : Pkt) (f1 : List Flip) (f2 : List Flip) (h : Keeps false o s) : Keeps false o (resendResult s slot t r x p f1 f2) := by
  unfold resendResult
  with_reducible repeat' first | assumption | apply absorb_keeps | apply nodeOut_keeps | apply replySend_keeps | refine Keeps.fst (by assumption) ?_ | apply Keeps.ite | split

theorem repeatNode_keeps {o s : State} (slot : Nat) (t : Nat) (x : Step) (blk : Nat) (h : Keeps false o s) : Keeps false o (repeatNode s slot t x blk) := by
  unfold repeatNode
  with_reducible repeat' first | assumption | apply modNode_keeps | apply replySend_keeps | refine Keeps.fst (by assumption) ?_ | apply Keeps.foldl | apply Keeps.ite | (intro; intros) | extract_lets | split | apply Keeps.upd

theorem resendStep_keeps {o s : State} (slot : Nat) (t : Nat) (p : Pkt) (f1 : List Flip) (f2 : List Flip) (e : Nat × Step) (h : Keeps false o s) : Keeps false o (resendStep slot t p f1 f2 s e) := by
  unfold resendStep
  with_reducible repeat' first | assumption | apply contributeBlock_keeps | apply repeatNode_keeps | apply forwardBlock_keeps | refine Keeps.fst (by assumption) ?_ | apply Keeps.ite | extract_lets | split

theorem postFor_keeps {o s : State} (slot : Nat) (j : Nat) (p : Phase) (x3 : Nat) (x4 : Nat) (h : Keeps false o s) : Keeps false o (postFor slot j p x3 x4 s) := by
  induction x3 generalizing x4 s with
  | zero => unfold postFor; exact h
  | succ n ih =>
    unfold postFor
    with_reducible repeat' first | assumption | apply ih | apply bump_keeps | apply postSwitch_keeps | apply modRun_keeps | apply failRun_keeps | refine Keeps.fst (by assumption) ?_ | apply Keeps.ite

theorem postPhase_keeps {o s : State} (slot : Nat) (j : Nat) (need : Bool) (front : Nat) (h : Keeps false o s) : Keeps false o (postPhase s slot j need front) := by
  unfold postPhase
  with_reducible repeat' first | assumption | apply failRun_keeps | apply postFor_keeps | refine Keeps.fst (by assumption) ?_ | apply Keeps.ite | extract_lets | split

theorem postOffset_keeps {o s : State} (slot : Nat) (base : Nat) (j : Nat) (off : Nat) (h : Keeps false o s) : Keeps false o (postOffset s slot base j off) := by
  unfold postOffset
  with_reducible repeat' first | assumption | apply postPhase_keeps | apply Keeps.ite | extract_lets | split

theorem postNext_keeps {o s : State} (slot : Nat) (h : Keeps false o s) : Keeps false o (postNext s slot) := by
  unfold postNext
  with_reducible repeat' first | assumption | apply postPhase_keeps | refine Keeps.fst (by assumption) ?_ | split

end Sys2Proof.Machine
end

