-- ==== Sys2Proof/Laws/KeepsMemory.lean ====
section
/-! SUPPORT. What the operations of the memory homes, the bridge, the issuers, admission, the lasers and the dies keep. -/
namespace Sys2Proof.Machine

theorem startWake_keeps {m : Bool} {o s : State} (kind : Nat) (station : Nat) (h : Keeps m o s) : Keeps m o (startWake s kind station) := by
  unfold startWake
  with_reducible repeat' first | assumption | apply wrE_keeps | apply bump_keeps | apply Keeps.ite | extract_lets | split | apply Keeps.upd

theorem complete_keeps {m : Bool} {o s : State} (st : Nat) (p : Pkt) (status : Nat) (detail : Nat) (value : Nat) (data : List Byte) (poison : Bool) (h : Keeps m o s) : Keeps m o (complete s st p status detail value data poison) := by
  unfold complete
  with_reducible repeat' first | assumption | apply bump_keeps | apply enqueue_keeps | apply Keeps.ite | extract_lets | split | apply Keeps.upd

theorem refuseReq_keeps {m : Bool} {o s : State} (st : Nat) (p : Pkt) (status : Nat) (detail : Nat) (h : Keeps m o s) : Keeps m o (refuseReq s st p status detail) := by
  unfold refuseReq
  with_reducible repeat' first | assumption | apply complete_keeps

theorem performed_keeps {m : Bool} {o s : State} (st : Nat) (p : Pkt) (detail : Nat) (value : Nat) (data : List Byte) (poison : Bool) (h : Keeps m o s) : Keeps m o (performed s st p detail value data poison) := by
  unfold performed
  with_reducible repeat' first | assumption | apply signalPacket_keeps | apply complete_keeps | refine Keeps.fst (by assumption) ?_ | apply Keeps.ite | extract_lets | split

theorem putRegion_keeps {m : Bool} {o s : State} (i : Nat) (r : List Byte) (h : Keeps m o s) : Keeps m o (putRegion s i r) := by
  unfold putRegion
  with_reducible repeat' first | assumption | apply Keeps.upd

theorem answerRefused_keeps {m : Bool} {o s : State} (st : Nat) (p : Pkt) (x : Refused) (h : Keeps m o s) : Keeps m o (answerRefused s st p x) := by
  unfold answerRefused
  with_reducible repeat' first | assumption | apply startWake_keeps | apply refuseReq_keeps | apply Keeps.ite | extract_lets | split

theorem checked_keeps {m : Bool} {o s : State} (st : Nat) (p : Pkt) (n : Nat) (aligned : Bool) (f : State → Target → State) (h_f : ∀ y0 y1, Keeps m o y0 → Keeps m o (f y0 y1)) (h : Keeps m o s) : Keeps m o (checked s st p n aligned f) := by
  unfold checked
  with_reducible repeat' first | assumption | apply refuseReq_keeps | apply answerRefused_keeps | apply h_f | refine Keeps.fst (by assumption) ?_ | apply Keeps.ite | split

theorem serve_keeps {m : Bool} {o s : State} (st : Nat) (p : Pkt) (n : Nat) (aligned : Bool) (f : State → Target → State) (h_f : ∀ y0 y1, Keeps m o y0 → Keeps m o (f y0 y1)) (h : Keeps m o s) : Keeps m o (serve s st p n aligned f) := by
  unfold serve
  with_reducible repeat' first | assumption | apply checked_keeps | apply emit_keeps | apply h_f | apply Keeps.ite | (intro; intros) | split

theorem homeFault_keeps {m : Bool} {o s : State} (t : Nat) (cls : Nat) (k : Nat) (tid : Nat) (h : Keeps m o s) : Keeps m o (homeFault s t cls k tid) := by
  unfold homeFault
  with_reducible repeat' first | assumption | apply report_keeps | apply Keeps.upd

theorem routerFetch_keeps {o s : State} (t a tid k : Nat) (f1 f2 : List Flip) (h : Keeps false o s) :
    Keeps false o (routerFetch s t a tid k f1 f2).1 := by
  unfold routerFetch
  extract_lets charge fin
  have hf : ∀ s y, Keeps false o s → Keeps false o (fin s y).1 := by
    intro s y h
    cases y
    · exact h
    · exact homeFault_keeps _ _ _ _ (bump_keeps _ _ h)
    · exact homeFault_keeps _ _ _ _ (bump_keeps _ _ h)
    · exact homeFault_keeps _ _ _ _ h
    · exact h
    · exact containRange_keeps _ _ _ h
  have hc : ∀ s, Keeps false o s → Keeps false o (charge s) := fun s h => confirmedFault_keeps _ h
  clear_value charge fin
  with_reducible repeat' first | assumption | apply hf | apply hc | apply bump_keeps | apply homeFault_keeps | apply fetch_keeps | refine Keeps.fst (by assumption) ?_ | extract_lets | split

theorem rawFetch_keeps {m : Bool} {o s : State} (t : Nat) (a : Nat) (n : Nat) (fl : List Flip) (h : Keeps m o s) : Keeps m o (rawFetch s t a n fl).1 := by
  unfold rawFetch
  with_reducible repeat' first | assumption | apply readBadRows_keeps | apply containRange_keeps | apply tileReport_keeps | apply Keeps.ite | extract_lets | split

theorem storeData_keeps {o s : State} (x : Target) (p : Pkt) (block : Bool) (fails : Bool) (h : Keeps false o s) : Keeps false o (storeData s x p block fails).1 := by
  unfold storeData
  with_reducible repeat' first | assumption | apply writeBlock_keeps | apply countRefused_keeps | apply rawWrite_keeps | refine Keeps.fst (by assumption) ?_ | apply Keeps.ite | extract_lets | split

theorem engineConsumes_keeps {m : Bool} {o s : State} (t : Nat) (slice : Nat) (a : Nat) (h : Keeps m o s) : Keeps m o (engineConsumes s t slice a) := by
  unfold engineConsumes
  with_reducible repeat' first | assumption | apply report_keeps | apply bump_keeps | apply Keeps.upd

theorem writeReduced_keeps {o s : State} (x : Target) (p : Pkt) (block : Bool) (fails : Bool) (poison : Bool) (out : List Byte) (h : Keeps false o s) : Keeps false o (writeReduced s x p block fails poison out).1 := by
  unfold writeReduced
  with_reducible repeat' first | assumption | apply writeBlock_keeps | apply countRefused_keeps | apply rawWriteMarked_keeps | apply Keeps.ite | split

theorem syncRequest_keeps {m : Bool} {o s : State} (st : Nat) (p : Pkt) (f : State → Nat → State) (h_f : ∀ y0 y1, Keeps m o y0 → Keeps m o (f y0 y1)) (h : Keeps m o s) : Keeps m o (syncRequest s st p f) := by
  unfold syncRequest
  with_reducible repeat' first | assumption | apply refuseReq_keeps | apply answerRefused_keeps | apply h_f | apply Keeps.ite | extract_lets | split | apply Keeps.upd

theorem putLease_keeps {m : Bool} {o s : State} (i : Nat) (l : Lease) (h : Keeps m o s) : Keeps m o (putLease s i l) := by
  unfold putLease
  with_reducible repeat' first | assumption | apply Keeps.upd

theorem freeLease_keeps {m : Bool} {o s : State} (i : Nat) (h : Keeps m o s) : Keeps m o (freeLease s i) := by
  unfold freeLease
  with_reducible repeat' first | assumption | apply bump_keeps | apply putLease_keeps | extract_lets | apply Keeps.upd

theorem settleLease_keeps {m : Bool} {o s : State} (i : Nat) (h : Keeps m o s) : Keeps m o (settleLease s i) := by
  unfold settleLease
  with_reducible repeat' first | assumption | apply freeLease_keeps | apply Keeps.ite | extract_lets | split

theorem leaseRequest_keeps {m : Bool} {o s : State} (st : Nat) (p : Pkt) (f : State → Nat → State) (h_f : ∀ y0 y1, Keeps m o y0 → Keeps m o (f y0 y1)) (h : Keeps m o s) : Keeps m o (leaseRequest s st p f) := by
  unfold leaseRequest
  with_reducible repeat' first | assumption | apply syncRequest_keeps | apply refuseReq_keeps | apply settleLease_keeps | apply h_f | apply Keeps.ite | (intro; intros) | split

theorem revokeLease_keeps {m : Bool} {o s : State} (x0 : Tab Nat) (v : List Byte) (h : Keeps m o s) : Keeps m o (revokeLease s x0 v).s := by
  unfold revokeLease
  with_reducible repeat' first | assumption | apply freeLease_keeps | apply Keeps.ite | split | apply Keeps.upd

theorem setOwnerEntry_keeps {m : Bool} {o s : State} (sel : Tab Nat) (v : List Byte) (h : Keeps m o s) : Keeps m o (setOwnerEntry s sel v).s := by
  unfold setOwnerEntry
  with_reducible repeat' first | assumption | apply putRegion_keeps | extract_lets | apply Keeps.upd

theorem writeRegion_keeps {m : Bool} {o s : State} (sel : Tab Nat) (v : List Byte) (h : Keeps m o s) : Keeps m o (writeRegion s sel v).s := by
  unfold writeRegion
  with_reducible repeat' first | assumption | apply putRegion_keeps | apply Keeps.ite | (intro; intros) | extract_lets | split | apply Keeps.upd

theorem pathFault_keeps {m : Bool} {o s : State} (t : Nat) (cls : Nat) (e : List Byte) (h : Keeps m o s) : Keeps m o (pathFault s t cls e) := by
  unfold pathFault
  with_reducible repeat' first | assumption | apply report_keeps | apply Keeps.ite | split | apply Keeps.upd

theorem secondMismatch_keeps {m : Bool} {o s : State} (t : Nat) (e : List Byte) (first : DWord) (second : DWord) (h : Keeps m o s) : Keeps m o (secondMismatch s t e first second).1 := by
  unfold secondMismatch
  with_reducible repeat' first | assumption | apply pathFault_keeps | apply bump_keeps | apply Keeps.ite | split

theorem maskedMismatch_keeps {m : Bool} {o s : State} (t : Nat) (x : Track) (h : Keeps m o s) : Keeps m o (maskedMismatch s t x) := by
  unfold maskedMismatch
  with_reducible repeat' first | assumption | apply pathFault_keeps | apply bump_keeps | apply Keeps.ite | split

theorem modHQ_keeps {m : Bool} {o s : State} (q : Nat) (f : HQueue → HQueue) (h : Keeps m o s) : Keeps m o (modHQ s q f) := by
  unfold modHQ
  with_reducible repeat' first | assumption | apply Keeps.upd

theorem modDomain_keeps {m : Bool} {o s : State} (d : Nat) (f : HDomain → HDomain) (h : Keeps m o s) : Keeps m o (modDomain s d f) := by
  unfold modDomain
  with_reducible repeat' first | assumption | apply Keeps.upd

theorem raiseMasked_keeps {m : Bool} {o s : State} (fn : Nat) (b : Nat) (h : Keeps m o s) : Keeps m o (raiseMasked s fn b) := by
  unfold raiseMasked
  with_reducible repeat' first | assumption | apply raiseVector_keeps | apply Keeps.ite | split

theorem raiseMbox_keeps {m : Bool} {o s : State} (fn : Nat) (b : Nat) (h : Keeps m o s) : Keeps m o (raiseMbox s fn b) := by
  unfold raiseMbox
  with_reducible repeat' first | assumption | apply raiseMasked_keeps | apply modFunc_keeps | (intro; intros) | apply Keeps.upd

theorem raiseDomain_keeps {m : Bool} {o s : State} (d : Nat) (b : Nat) (h : Keeps m o s) : Keeps m o (raiseDomain s d b) := by
  unfold raiseDomain
  with_reducible repeat' first | assumption | apply raiseMasked_keeps | apply modDomain_keeps | (intro; intros) | apply Keeps.upd

theorem raiseBar_keeps {m : Bool} {o s : State} (b : Nat) (h : Keeps m o s) : Keeps m o (raiseBar s b) := by
  unfold raiseBar
  with_reducible repeat' first | assumption | apply raiseMasked_keeps | apply Keeps.upd

theorem raiseQueue_keeps {m : Bool} {o s : State} (q : Nat) (b : Nat) (h : Keeps m o s) : Keeps m o (raiseQueue s q b) := by
  unfold raiseQueue
  with_reducible repeat' first | assumption | apply raiseMasked_keeps | apply modHQ_keeps | (intro; intros) | apply Keeps.upd

theorem modEnt_keeps {m : Bool} {o s : State} (q : Nat) (idx : Nat) (f : HEntry → HEntry) (h : Keeps m o s) : Keeps m o (modEnt s q idx f) := by
  unfold modEnt
  with_reducible repeat' first | assumption | apply modHQ_keeps | (intro; intros) | apply Keeps.upd

theorem pieceEnd_keeps {m : Bool} {o s : State} (q : Nat) (idx : Nat) (i : Nat) (st : Nat) (d : Nat) (h : Keeps m o s) : Keeps m o (pieceEnd s q idx i st d) := by
  unfold pieceEnd
  with_reducible repeat' first | assumption | apply modEnt_keeps | apply Keeps.ite | (intro; intros) | extract_lets | split | apply Keeps.upd

theorem sendBridge_keeps {m : Bool} {o s u : State} {q index slice n : Nat} {e data : List Byte}
    (t : sendBridge s q index slice e data = some (u, n)) (h : Keeps m o s) : Keeps m o u := by
  unfold sendBridge at t
  cases x : takeTag s 28 q index e slice with
  | none => rw [x] at t; simp at t
  | some y =>
    obtain ⟨s1, tag, nonce⟩ := y
    rw [x] at t
    simp only [Option.map_some, Option.some.injEq] at t
    have h1 := takeTag_keeps x h
    split at t
    · next e1 => simp only [Prod.mk.injEq] at t; rw [← t.1]; exact Keeps.fst e1 (sendNewPkt_keeps _ _ h1)
    · simp only [Prod.mk.injEq] at t; rw [← t.1]; exact h

theorem markTwice_keeps {m : Bool} {o s : State} (q : Nat) (index : Nat) (c : DWord) (h : Keeps m o s) : Keeps m o (markTwice s q index c) := by
  unfold markTwice
  with_reducible repeat' first | assumption | apply Keeps.ite | (intro; intros) | extract_lets | split | apply Keeps.upd

theorem landPiece_keeps {m : Bool} {o s : State} (q : Nat) (idx : Nat) (i : Nat) (e : HEntry) (x : BridgeEnd) (h : Keeps m o s) : Keeps m o (landPiece s q idx i e x) := by
  unfold landPiece
  with_reducible repeat' first | assumption | apply emit_keeps | apply pieceEnd_keeps | apply maskedMismatch_keeps | apply secondMismatch_keeps | refine sendBridge_keeps (by assumption) ?_ | apply markTwice_keeps | refine Keeps.fst (by assumption) ?_ | apply Keeps.ite | (intro; intros) | extract_lets | split

theorem storedPiece_keeps {m : Bool} {o s : State} (q : Nat) (idx : Nat) (i : Nat) (x : BridgeEnd) (h : Keeps m o s) : Keeps m o (storedPiece s q idx i x) := by
  unfold storedPiece
  with_reducible repeat' first | assumption | apply secondMismatch_keeps | apply pieceEnd_keeps | apply modEnt_keeps | apply maskedMismatch_keeps | refine Keeps.fst (by assumption) ?_ | apply Keeps.ite | (intro; intros) | extract_lets | split | apply Keeps.upd

theorem signalEnd_keeps {m : Bool} {o s : State} (q : Nat) (idx : Nat) (x : BridgeEnd) (h : Keeps m o s) : Keeps m o (signalEnd s q idx x) := by
  unfold signalEnd
  with_reducible repeat' first | assumption | apply modEnt_keeps | apply Keeps.ite | (intro; intros) | split | apply Keeps.upd

theorem settleFences_keeps {m : Bool} {o s : State} (h : Keeps m o s) : Keeps m o (settleFences s) := by
  unfold settleFences
  with_reducible repeat' first | assumption | apply emit_keeps | apply Keeps.foldl | (intro; intros) | extract_lets | apply Keeps.upd

theorem endBar_keeps {m : Bool} {o s : State} (o1 : BarOp) (h : Keeps m o s) : Keeps m o (endBar s o1) := by
  unfold endBar
  with_reducible repeat' first | assumption | apply raiseBar_keeps | apply settleFences_keeps | apply emit_keeps | apply Keeps.ite | (intro; intros) | extract_lets | split | apply Keeps.upd

theorem barPiece_keeps {m : Bool} {o s : State} (id : Nat) (i : Nat) (x : BridgeEnd) (h : Keeps m o s) : Keeps m o (barPiece s id i x) := by
  unfold barPiece
  with_reducible repeat' first | assumption | apply endBar_keeps | refine Keeps.fst (by assumption) ?_ | apply Keeps.ite | (intro; intros) | extract_lets | split | apply Keeps.upd

theorem takeEnd_keeps {m : Bool} {o s : State} (x : BridgeEnd) (h : Keeps m o s) : Keeps m o (takeEnd s x) := by
  unfold takeEnd
  with_reducible repeat' first | assumption | apply barPiece_keeps | apply signalEnd_keeps | apply landPiece_keeps | apply storedPiece_keeps | refine Keeps.fst (by assumption) ?_ | apply Keeps.ite | extract_lets | split

theorem drainEnded_keeps {m : Bool} {o s : State} (h : Keeps m o s) : Keeps m o (drainEnded s) := by
  unfold drainEnded
  with_reducible repeat' first | assumption | apply takeEnd_keeps | apply Keeps.foldl | (intro; intros) | extract_lets | apply Keeps.upd

theorem putCtl_keeps {o s : State} (t : Nat) (q : Nat) (b : Byte) (h : Keeps false o s) : Keeps false o (putCtl s t q b) := by
  unfold putCtl
  with_reducible repeat' first | assumption | apply rawWrite_keeps

theorem takeEntry_keeps {m : Bool} {o s : State} (t : Nat) (q : Nat) (h : Keeps m o s) : Keeps m o (takeEntry s t q).1 := by
  unfold takeEntry
  with_reducible repeat' first | assumption | apply syncAdd_keeps | apply modQueue_keeps | (intro; intros) | extract_lets | apply Keeps.upd

theorem sourceData_keeps {o s : State} (t : Nat) (e : List Byte) (first : List Flip) (again : List Flip) (h : Keeps false o s) : Keeps false o (sourceData s t e first again).1 := by
  unfold sourceData
  with_reducible repeat' first | assumption | apply routerFetch_keeps | apply rawFetch_keeps | refine Keeps.fst (by assumption) ?_ | apply Keeps.ite | extract_lets | split

theorem addOut_keeps {m : Bool} {o s : State} (t : Nat) (q : Nat) (i : Nat) (h : Keeps m o s) : Keeps m o (addOut s t q i) := by
  unfold addOut
  with_reducible repeat' first | assumption | apply modQueue_keeps | (intro; intros) | apply Keeps.upd

theorem sendEntry_keeps {o s : State} (t : Nat) (q : Nat) (i : Nat) (e : List Byte) (first : List Flip) (again : List Flip) (h : Keeps false o s) : Keeps false o (sendEntry s t q i e first again) := by
  unfold sendEntry
  with_reducible repeat' first | assumption | apply sourceData_keeps | apply endEntry_keeps | refine takeTag_keeps (by assumption) ?_ | apply sendNewPkt_keeps | apply addOut_keeps | refine Keeps.fst (by assumption) ?_ | extract_lets | split

theorem takeFence_keeps {m : Bool} {o s : State} (t : Nat) (q : Nat) (h : Keeps m o s) : Keeps m o (takeFence s t q) := by
  unfold takeFence
  with_reducible repeat' first | assumption | apply takeEntry_keeps | apply modQueue_keeps | refine Keeps.fst (by assumption) ?_ | (intro; intros) | extract_lets | split | apply Keeps.upd

theorem issueEntry_keeps {o s : State} (t : Nat) (q : Nat) (first : List Flip) (again : List Flip) (h : Keeps false o s) : Keeps false o (issueEntry s t q first again) := by
  unfold issueEntry
  with_reducible repeat' first | assumption | apply takeFence_keeps | apply takeEntry_keeps | apply endEntry_keeps | apply sendEntry_keeps | refine Keeps.fst (by assumption) ?_ | apply Keeps.ite | extract_lets | split

theorem absorbAnswer_keeps {m : Bool} {o s : State} (st : Nat) (tag : Nat) (h : Keeps m o s) : Keeps m o (absorbAnswer s st tag) := by
  unfold absorbAnswer
  with_reducible repeat' first | assumption | apply releaseTag_keeps | apply bump_keeps

theorem resendEntry_keeps {o s : State} (t : Nat) (tag : Nat) (x : Track) (c : DWord) (first : List Flip) (again : List Flip) (h : Keeps false o s) : Keeps false o (resendEntry s t tag x c first again) := by
  unfold resendEntry
  with_reducible repeat' first | assumption | apply sourceData_keeps | apply endTrack_keeps | apply putTrack_keeps | apply sendNewPkt_keeps | refine Keeps.fst (by assumption) ?_ | extract_lets | split | apply Keeps.upd

theorem landLoad_keeps {o s : State} (t : Nat) (tag : Nat) (x : Track) (p : Pkt) (h : Keeps false o s) : Keeps false o (landLoad s t tag x p) := by
  unfold landLoad
  with_reducible repeat' first | assumption | apply endTrack_keeps | apply writeBlock_keeps | apply maskedMismatch_keeps | apply secondMismatch_keeps | apply resendEntry_keeps | apply countRefused_keeps | apply rawWriteMarked_keeps | refine Keeps.fst (by assumption) ?_ | apply Keeps.ite | extract_lets | split

theorem takeAnswer_keeps {o s : State} (t : Nat) (tag : Nat) (x : Track) (p : Pkt) (first : List Flip) (again : List Flip) (h : Keeps false o s) : Keeps false o (takeAnswer s t tag x p first again) := by
  unfold takeAnswer
  with_reducible repeat' first | assumption | apply putTrack_keeps | apply drainEnded_keeps | apply landLoad_keeps | apply secondMismatch_keeps | apply endTrack_keeps | apply resendEntry_keeps | apply maskedMismatch_keeps | refine Keeps.fst (by assumption) ?_ | apply Keeps.ite | extract_lets | split | apply Keeps.upd

theorem collectiveAnswer_keeps {o s : State} (p : Pkt) (h : Keeps false o s) : Keeps false o (collectiveAnswer s p) := by
  unfold collectiveAnswer
  with_reducible repeat' first | assumption | apply failRun_keeps | apply absorb_keeps | refine Keeps.fst (by assumption) ?_ | apply Keeps.ite | split

theorem abortPosted_keeps {o s : State} (t : Nat) (q : Nat) (x2 : Nat) (h : Keeps false o s) : Keeps false o (abortPosted t q x2 s) := by
  induction x2 generalizing s with
  | zero => unfold abortPosted; exact h
  | succ n ih =>
    unfold abortPosted
    with_reducible repeat' first | assumption | apply ih | apply issueEntry_keeps | apply Keeps.ite

theorem tellHosts_keeps {m : Bool} {o s : State} (sl : Nat) (h : Keeps m o s) : Keeps m o (tellHosts s sl) := by
  unfold tellHosts
  with_reducible repeat' first | assumption | apply raiseHb_keeps | apply Keeps.foldl | (intro; intros) | extract_lets | apply Keeps.upd

theorem startTeardown_keeps {o s : State} (sl : Nat) (h : Keeps false o s) : Keeps false o (startTeardown s sl) := by
  unfold startTeardown
  with_reducible repeat' first | assumption | apply wrE_keeps | apply abortPosted_keeps | apply modTile_keeps | apply tellHosts_keeps | apply Keeps.foldl | (intro; intros) | extract_lets | apply Keeps.upd

theorem tearDown_keeps {o s : State} (x0 : Tab Nat) (v : List Byte) (h : Keeps false o s) : Keeps false o (tearDown s x0 v).s := by
  unfold tearDown
  with_reducible repeat' first | assumption | apply startTeardown_keeps | apply Keeps.ite | split | apply Keeps.upd

theorem postWithdrawal_keeps {m : Bool} {o s : State} (sl : Nat) (h : Keeps m o s) : Keeps m o (postWithdrawal s sl) := by
  unfold postWithdrawal
  with_reducible repeat' first | assumption | refine Keeps.fst (by assumption) ?_ | apply Keeps.ite | extract_lets | split | apply Keeps.upd

theorem finishTeardown_keeps {o s : State} (sl : Nat) (h : Keeps false o s) : Keeps false o (finishTeardown s sl) := by
  unfold finishTeardown
  with_reducible repeat' first | assumption | apply endTrack_keeps | apply failRun_keeps | apply freeLease_keeps | apply report_keeps | apply postWithdrawal_keeps | apply wrE_keeps | apply drainEnded_keeps | refine Keeps.fst (by assumption) ?_ | apply Keeps.foldl | (intro; intros) | extract_lets | split | apply Keeps.upd

theorem writeFlow_keeps {m : Bool} {o s : State} (sel : Tab Nat) (v : List Byte) (h : Keeps m o s) : Keeps m o (writeFlow s sel v).s := by
  unfold writeFlow
  with_reducible repeat' first | assumption | apply Keeps.ite | (intro; intros) | extract_lets | split | apply Keeps.upd

theorem storeBounds_keeps {m : Bool} {o s : State} (x : Inputs) (fs : List (Nat × List Byte)) (h : Keeps m o s) : Keeps m o (storeBounds s x fs) := by
  unfold storeBounds
  with_reducible repeat' first | assumption | apply Keeps.foldl | apply Keeps.ite | (intro; intros) | extract_lets | split | apply Keeps.upd

theorem startAdmission_keeps {m : Bool} {o s : State} (x0 : Tab Nat) (v : List Byte) (h : Keeps m o s) : Keeps m o (startAdmission s x0 v).s := by
  unfold startAdmission
  with_reducible repeat' first | assumption | apply startOp_keeps | apply Keeps.ite | split | apply Keeps.upd

theorem acceptJob_keeps {m : Bool} {o s : State} (sl : Nat) (front : Nat) (h : Keeps m o s) : Keeps m o (acceptJob s sl front) := by
  unfold acceptJob
  with_reducible repeat' first | assumption | apply storeBounds_keeps | apply Keeps.foldl | (intro; intros) | extract_lets | apply Keeps.upd

theorem withdraw_keeps {m : Bool} {o s : State} (x0 : Tab Nat) (v : List Byte) (h : Keeps m o s) : Keeps m o (withdraw s x0 v).s := by
  unfold withdraw
  with_reducible repeat' first | assumption | apply wrB_keeps | apply postWithdrawal_keeps | apply Keeps.ite | extract_lets | split | apply Keeps.upd

theorem setFlowState_keeps {m : Bool} {o s : State} (i : Nat) (v : Nat) (h : Keeps m o s) : Keeps m o (setFlowState s i v) := by
  unfold setFlowState
  with_reducible repeat' first | assumption | apply Keeps.upd

theorem recheckFlow_keeps {m : Bool} {o s : State} (x : Inputs) (e : Nat × List Byte) (h : Keeps m o s) : Keeps m o (recheckFlow x s e) := by
  unfold recheckFlow
  with_reducible repeat' first | assumption | apply report_keeps | apply setFlowState_keeps | apply Keeps.ite | extract_lets | split | apply Keeps.upd

theorem recomputeAdmission_keeps {m : Bool} {o s : State} (h : Keeps m o s) : Keeps m o (recomputeAdmission s) := by
  unfold recomputeAdmission
  with_reducible repeat' first | assumption | apply putOp_keeps | apply bump_keeps | apply recheckFlow_keeps | apply storeBounds_keeps | apply Keeps.foldl | apply Keeps.ite | (intro; intros) | extract_lets | split | apply Keeps.upd

theorem admitFlow_keeps {m : Bool} {o s : State} (e : Nat × List Byte) (h : Keeps m o s) : Keeps m o (admitFlow s e) := by
  unfold admitFlow
  with_reducible repeat' first | assumption | apply setFlowState_keeps | apply wrE_keeps | apply Keeps.foldl | apply Keeps.ite | (intro; intros) | extract_lets | split | apply Keeps.upd

theorem admitJob_keeps {m : Bool} {o s : State} (sl : Nat) (j : Job) (h : Keeps m o s) : Keeps m o (admitJob s sl j) := by
  unfold admitJob
  with_reducible repeat' first | assumption | apply admitFlow_keeps | apply wrE_keeps | apply Keeps.foldl | apply Keeps.ite | (intro; intros) | extract_lets | split | apply Keeps.upd

theorem emptyFlow_keeps {m : Bool} {o s : State} (e : Nat × List Byte) (h : Keeps m o s) : Keeps m o (emptyFlow s e) := by
  unfold emptyFlow
  with_reducible repeat' first | assumption | apply enqueue_keeps | apply Keeps.foldl | (intro; intros) | extract_lets | apply Keeps.upd

theorem withdrawJob_keeps {m : Bool} {o s : State} (sl : Nat) (j : Job) (h : Keeps m o s) : Keeps m o (withdrawJob s sl j) := by
  unfold withdrawJob
  with_reducible repeat' first | assumption | apply emptyFlow_keeps | apply wrE_keeps | apply switchAtFront_keeps | apply Keeps.foldl | apply Keeps.ite | (intro; intros) | extract_lets | split | apply Keeps.upd

theorem settleRowCharges_keeps {m : Bool} {o s : State} (h : Keeps m o s) : Keeps m o (settleRowCharges s) := by
  unfold settleRowCharges
  with_reducible repeat' first | assumption | apply Keeps.upd

theorem jobsAtFront_keeps {m : Bool} {o s : State} (h : Keeps m o s) : Keeps m o (jobsAtFront s) := by
  unfold jobsAtFront
  with_reducible repeat' first | assumption | apply withdrawJob_keeps | apply settleRowCharges_keeps | apply admitJob_keeps | apply Keeps.foldl | apply Keeps.ite | (intro; intros) | extract_lets | split

theorem setLaserDie_keeps {m : Bool} {o s : State} (k : Nat) (v : Nat) (h : Keeps m o s) : Keeps m o (setLaserDie s k v) := by
  unfold setLaserDie
  with_reducible repeat' first | assumption | apply Keeps.upd

theorem setGap_keeps {m : Bool} {o s : State} (g : Nat) (x : Option Gap) (h : Keeps m o s) : Keeps m o (setGap s g x) := by
  unfold setGap
  with_reducible repeat' first | assumption | apply Keeps.upd

theorem laserReport_keeps {m : Bool} {o s : State} (cls : Nat) (kind : Nat) (place : Nat) (g : Nat) (tag : Nat) (h : Keeps m o s) : Keeps m o (laserReport s cls kind place g tag) := by
  unfold laserReport
  with_reducible repeat' first | assumption | apply report_keeps | apply Keeps.upd

theorem linesChanged_keeps {o s : State} (lines : Nat) (h : Keeps false o s) : Keeps false o (linesChanged s lines) := by
  unfold linesChanged
  with_reducible repeat' first | assumption | apply wrE_keeps | apply reagree_keeps | apply modStation_keeps | apply downWithoutLanes_keeps | apply Keeps.foldl | (intro; intros) | extract_lets | apply Keeps.upd

theorem loseGroup_keeps {o s : State} (g : Nat) (tag : Nat) (h : Keeps false o s) : Keeps false o (loseGroup s g tag) := by
  unfold loseGroup
  with_reducible repeat' first | assumption | apply setLaserDie_keeps | apply laserReport_keeps | apply recomputeAdmission_keeps | apply linesChanged_keeps | apply Keeps.ite | extract_lets | split | apply Keeps.upd

theorem dropStep_keeps {m : Bool} {o s : State} (g : Nat) (h : Keeps m o s) : Keeps m o (dropStep s g) := by
  unfold dropStep
  with_reducible repeat' first | assumption | refine Keeps.fst (by assumption) ?_ | apply Keeps.ite | split | apply Keeps.upd

theorem delaySwitches_keeps {m : Bool} {o s : State} (h : Keeps m o s) : Keeps m o (delaySwitches s) := by
  unfold delaySwitches
  with_reducible repeat' first | assumption | apply Keeps.ite | (intro; intros) | extract_lets | split | apply Keeps.upd

theorem startGap_keeps {m : Bool} {o s : State} (g : Nat) (k : Nat) (commanded : Bool) (h : Keeps m o s) : Keeps m o (startGap s g k commanded) := by
  unfold startGap
  with_reducible repeat' first | assumption | apply atCount_keeps | apply nextFree_keeps | apply setLaserDie_keeps | apply delaySwitches_keeps | apply dropStep_keeps | apply setGap_keeps | apply Keeps.ite | extract_lets | split | apply Keeps.upd

theorem switchOver_keeps {o s : State} (g : Nat) (commanded : Bool) (h : Keeps false o s) : Keeps false o (switchOver s g commanded) := by
  unfold switchOver
  with_reducible repeat' first | assumption | apply setGap_keeps | apply atCount_keeps | apply loseGroup_keeps | apply startGap_keeps | refine Keeps.fst (by assumption) ?_ | apply Keeps.ite | (intro; intros) | extract_lets | split | apply Keeps.upd

theorem laserCause_keeps {o s : State} (g : Nat) (h : Keeps false o s) : Keeps false o (laserCause s g) := by
  unfold laserCause
  with_reducible repeat' first | assumption | apply report_keeps | apply switchOver_keeps | extract_lets | apply Keeps.upd

theorem laserThrottle_keeps {o s : State} (k : Nat) (temp : Nat) (h : Keeps false o s) : Keeps false o (laserThrottle s k temp) := by
  unfold laserThrottle
  with_reducible repeat' first | assumption | apply laserCause_keeps | apply report_keeps | refine Keeps.fst (by assumption) ?_ | apply Keeps.ite | extract_lets | split | apply Keeps.upd

theorem nextWaiting_keeps {o s : State} (h : Keeps false o s) : Keeps false o (nextWaiting s) := by
  unfold nextWaiting
  with_reducible repeat' first | assumption | apply switchOver_keeps | refine Keeps.fst (by assumption) ?_ | split | apply Keeps.upd

theorem completeGap_keeps {o s : State} (g : Nat) (x : Gap) (h : Keeps false o s) : Keeps false o (completeGap s g x) := by
  unfold completeGap
  with_reducible repeat' first | assumption | apply setLaserDie_keeps | apply wrE_keeps | apply laserReport_keeps | apply recomputeAdmission_keeps | apply linesChanged_keeps | apply laserThrottle_keeps | apply Keeps.ite | extract_lets | split | apply Keeps.upd

theorem failGap_keeps {o s : State} (g : Nat) (x : Gap) (h : Keeps false o s) : Keeps false o (failGap s g x) := by
  unfold failGap
  with_reducible repeat' first | assumption | apply wrE_keeps | apply loseGroup_keeps | apply Keeps.ite | extract_lets | split

theorem switchGroup_keeps {o s : State} (x0 : Tab Nat) (v : List Byte) (h : Keeps false o s) : Keeps false o (switchGroup s x0 v).s := by
  unfold switchGroup
  with_reducible repeat' first | assumption | apply switchOver_keeps | apply Keeps.ite | (intro; intros) | extract_lets | split | apply Keeps.upd

theorem restartDie_keeps {m : Bool} {o s : State} (x0 : Tab Nat) (v : List Byte) (h : Keeps m o s) : Keeps m o (restartDie s x0 v).s := by
  unfold restartDie
  with_reducible repeat' first | assumption | apply Keeps.ite | extract_lets | split | apply Keeps.upd

theorem countCorrected_keeps {m : Bool} {o s : State} (t : Nat) (n : Nat) (h : Keeps m o s) : Keeps m o (countCorrected s t n) := by
  unfold countCorrected
  with_reducible repeat' first | assumption | apply bump_keeps | apply bumpN_keeps

theorem countMiscorrected_keeps {m : Bool} {o s : State} (t : Nat) (n : Nat) (codewords : List Nat) (h : Keeps m o s) : Keeps m o (countMiscorrected s t n codewords) := by
  unfold countMiscorrected
  with_reducible repeat' first | assumption | apply countCorrected_keeps | apply Keeps.ite | (intro; intros) | extract_lets | split

theorem crossing_keeps {m : Bool} {o s : State} (t : Nat) (die : Nat) (row : Nat) (fails : Nat) (h : Keeps m o s) : Keeps m o (crossing s t die row fails) := by
  unfold crossing
  with_reducible repeat' first | assumption | apply bumpN_keeps | apply report_keeps | apply Keeps.ite | extract_lets | split | apply Keeps.upd

theorem modDie_keeps {m : Bool} {o s : State} (t : Nat) (d : Nat) (f : DramDie → DramDie) (h : Keeps m o s) : Keeps m o (modDie s t d f) := by
  unfold modDie
  with_reducible repeat' first | assumption | apply modTile_keeps | (intro; intros) | apply Keeps.upd

theorem portWindow_keeps {m : Bool} {o s : State} (t : Nat) (port : Nat) (h : Keeps m o s) : Keeps m o (portWindow s t port).1 := by
  unfold portWindow
  with_reducible repeat' first | assumption | apply advanceTo_keeps | apply Keeps.ite | extract_lets | split | apply Keeps.upd

theorem portAccept_keeps {m : Bool} {o s : State} (t : Nat) (port : Nat) (ini : Nat) (h : Keeps m o s) : Keeps m o (portAccept s t port ini) := by
  unfold portAccept
  with_reducible repeat' first | assumption | apply portWindow_keeps | apply modTile_keeps | (intro; intros) | extract_lets | apply Keeps.upd

theorem portAnswer_keeps {m : Bool} {o s : State} (t : Nat) (die : Nat) (row : Nat) (r : RowResp) (h : Keeps m o s) : Keeps m o (portAnswer s t die row r) := by
  unfold portAnswer
  with_reducible repeat' first | assumption | apply modTile_keeps | (intro; intros) | apply Keeps.upd

theorem deliverBad_keeps {m : Bool} {o s : State} (t : Nat) (die : Nat) (row : Nat) (ini : Nat) (h : Keeps m o s) : Keeps m o (deliverBad s t die row ini) := by
  unfold deliverBad
  with_reducible repeat' first | assumption | apply raiseExc_keeps | apply consumePoison_keeps | apply contain_keeps | refine Keeps.fst (by assumption) ?_ | apply Keeps.ite | extract_lets | split

theorem putCell_keeps {m : Bool} {o s : State} (t : Nat) (die : Nat) (row : Nat) (c : Option CellWord) (h : Keeps m o s) : Keeps m o (putCell s t die row c) := by
  unfold putCell
  with_reducible repeat' first | assumption | refine Keeps.fst (by assumption) ?_ | extract_lets | split | apply Keeps.upd

theorem writeFailure_keeps {m : Bool} {o s : State} (t : Nat) (die : Nat) (row : Nat) (ini : Nat) (h : Keeps m o s) : Keeps m o (writeFailure s t die row ini) := by
  unfold writeFailure
  with_reducible repeat' first | assumption | apply portAnswer_keeps | apply raiseExc_keeps | refine Keeps.fst (by assumption) ?_ | apply Keeps.ite | extract_lets | split | apply Keeps.upd

theorem markMat_keeps {m : Bool} {o s : State} (pass : Nat) (t : Nat) (die : Nat) (row : Nat) (mat : Nat) (h : Keeps m o s) : Keeps m o (markMat s pass t die row mat) := by
  unfold markMat
  with_reducible repeat' first | assumption | apply modDie_keeps | apply report_keeps | apply modTile_keeps | apply Keeps.ite | (intro; intros) | extract_lets | split | apply Keeps.upd

theorem scrubRow_keeps {o s : State} (pass t die row : Nat) (errs : List Flip) (h : Keeps false o s) :
    Keeps false o (scrubRow s pass t die row errs) := by
  unfold scrubRow
  split
  · exact foundBad_keeps _ _ _ h
  · split
    · exact h
    · exact Keeps.foldl (countCorrected_keeps _ _ h) (fun s x h => markMat_keeps _ _ _ _ _ h)
    · exact nextFree_keeps (foundBad_keeps _ _ _ h)
    · exact nextFree_keeps (countMiscorrected_keeps _ _ _ (Keeps.wr h (Memory.wf_wrBytes _ _)))

theorem startDemandScrub_keeps {m : Bool} {o s : State} (x0 : Tab Nat) (v : List Byte) (h : Keeps m o s) : Keeps m o (startDemandScrub s x0 v).s := by
  unfold startDemandScrub
  with_reducible repeat' first | assumption | apply startOp_keeps | apply endOp_keeps | apply Keeps.ite | extract_lets | split | apply Keeps.upd

theorem demandTile_keeps {o s : State} (errs : List RowErr) (t : Nat) (h : Keeps false o s) : Keeps false o (demandTile s errs t) := by
  unfold demandTile
  with_reducible repeat' first | assumption | apply scrubRow_keeps | apply foundBad_keeps | apply modDie_keeps | apply Keeps.foldl | apply Keeps.ite | (intro; intros) | extract_lets | split

theorem startFill_keeps {m : Bool} {o s : State} (x0 : Tab Nat) (v : List Byte) (h : Keeps m o s) : Keeps m o (startFill s x0 v).s := by
  unfold startFill
  with_reducible repeat' first | assumption | apply startOp_keeps | apply putOp_keeps | apply endOp_keeps | apply Keeps.ite | extract_lets | split | apply Keeps.upd

theorem fillRow_keeps {o s : State} (t a pattern : Nat) (h : Keeps false o s) : Keeps false o (fillRow s t a pattern) := by
  unfold fillRow
  split
  · exact rawCells_keeps _ _ _ (setBadRow_keeps _ _ (Keeps.wr h (Memory.wf_wrBytes _ _)))
  · exact h

theorem fillRows_keeps {o s : State} (n : Nat) (h : Keeps false o s) : Keeps false o (fillRows s n) := by
  unfold fillRows
  with_reducible repeat' first | assumption | apply fillRow_keeps | apply Keeps.foldl | (intro; intros) | extract_lets

theorem setRowStep_keeps {m : Bool} {o s : State} (t : Nat) (n : Nat) (h : Keeps m o s) : Keeps m o (setRowStep s t n) := by
  unfold setRowStep
  with_reducible repeat' first | assumption | apply bumpN_keeps | apply modTile_keeps | apply Keeps.ite | (intro; intros) | extract_lets | split | apply Keeps.upd

theorem clearOnDie_keeps {o s : State} (t : Nat) (h : Keeps false o s) : Keeps false o (clearOnDie s t) := by
  unfold clearOnDie
  exact Keeps.wr h (Tab.wf_clear _ _)

theorem finishReset_keeps {o s : State} (t : Nat) (h : Keeps false o s) : Keeps false o (finishReset s t) := by
  unfold finishReset
  with_reducible repeat' first | assumption | apply clearOnDie_keeps | apply modTile_keeps | refine Keeps.fst (by assumption) ?_ | apply Keeps.ite | (intro; intros) | extract_lets | split | apply Keeps.upd

theorem unitReport_keeps {m : Bool} {o s : State} (cls : Nat) (x2 : UnitId) (h : Keeps m o s) : Keeps m o (unitReport s cls x2) := by
  unfold unitReport
  with_reducible repeat' first | assumption | apply tileReport_keeps | apply coreReport_keeps | refine Keeps.fst (by assumption) ?_ | split

theorem runSelfTest_keeps {o s : State} (u : UnitId) (passes : Bool) (h : Keeps false o s) : Keeps false o (runSelfTest s u passes) := by
  unfold runSelfTest
  with_reducible repeat' first | assumption | apply bump_keeps | apply wrE_keeps | apply confirmedFault_keeps | apply unitReport_keeps | apply Keeps.ite | extract_lets | split

theorem clearCounts_keeps {m : Bool} {o s : State} (t : Nat) (h : Keeps m o s) : Keeps m o (clearCounts s t) := by
  unfold clearCounts
  with_reducible repeat' first | assumption | apply modTile_keeps | apply Keeps.ite | (intro; intros) | extract_lets | split | apply Keeps.upd

theorem notifyTarget_keeps {m : Bool} {o s : State} (r : List Byte) (i : Nat) (h : Keeps m o s) : Keeps m o (notifyTarget s r i) := by
  unfold notifyTarget
  with_reducible repeat' first | assumption | apply emit_keeps | extract_lets | apply Keeps.upd

theorem notify_keeps {m : Bool} {o s : State} (r : List Byte) (h : Keeps m o s) : Keeps m o (notify s r) := by
  unfold notify
  with_reducible repeat' first | assumption | apply notifyTarget_keeps | apply Keeps.foldl | apply Keeps.ite | (intro; intros) | extract_lets | split | apply Keeps.upd

theorem pldmEvent_keeps {m : Bool} {o s : State} (sensor : Nat) (old : Nat) (new : Nat) (h : Keeps m o s) : Keeps m o (pldmEvent s sensor old new) := by
  unfold pldmEvent
  with_reducible repeat' first | assumption | apply emit_keeps | refine Keeps.fst (by assumption) ?_ | apply Keeps.ite | split

theorem logTile_keeps {m : Bool} {o s : State} (r : Report) (filler : Nat) (h : Keeps m o s) : Keeps m o (logTile s r filler) := by
  unfold logTile
  with_reducible repeat' first | assumption | apply wrE_keeps | refine Keeps.fst (by assumption) ?_ | split | apply Keeps.upd

theorem logRecord_keeps {m : Bool} {o s : State} (r : Report) (h : Keeps m o s) : Keeps m o (logRecord s r) := by
  unfold logRecord
  with_reducible repeat' first | assumption | apply logTile_keeps | apply nextFree_keeps | apply raiseAllHb_keeps | apply notify_keeps | apply bump_keeps | refine Keeps.fst (by assumption) ?_ | extract_lets | split | apply Keeps.upd

theorem setSquall_keeps {m : Bool} {o s : State} (c : Nat) (q : Option Squall) (h : Keeps m o s) : Keeps m o (setSquall s c q) := by
  unfold setSquall
  with_reducible repeat' first | assumption | apply Keeps.upd

theorem countRepeat_keeps {m : Bool} {o s : State} (c : Nat) (q : Squall) (stamp : Nat) (h : Keeps m o s) : Keeps m o (countRepeat s c q stamp) := by
  unfold countRepeat
  with_reducible repeat' first | assumption | apply setSquall_keeps | (intro; intros) | extract_lets | apply Keeps.upd

theorem takeReport_keeps {m : Bool} {o s : State} (r : Report) (h : Keeps m o s) : Keeps m o (takeReport s r) := by
  unfold takeReport
  with_reducible repeat' first | assumption | apply countRepeat_keeps | apply bump_keeps | apply logRecord_keeps | refine Keeps.fst (by assumption) ?_ | apply Keeps.ite | extract_lets | split | apply Keeps.upd

theorem invalidate_keeps {o s : State} (x1 : TableRef) (h : Keeps false o s) : Keeps false o (invalidate s x1) := by
  unfold invalidate
  with_reducible repeat' first | assumption | apply setPlanState_keeps | apply setSchState_keeps | apply report_keeps | apply setFlowState_keeps | apply endTrack_keeps | apply modQueue_keeps | refine Keeps.fst (by assumption) ?_ | apply Keeps.ite | (intro; intros) | split | apply Keeps.upd

theorem clearLog_keeps {m : Bool} {o s : State} (k : Nat) (a : Nat) (h : Keeps m o s) : Keeps m o (clearLog s k a) := by
  unfold clearLog
  with_reducible repeat' first | assumption | apply Keeps.ite | (intro; intros) | extract_lets | split | apply Keeps.upd

theorem endTests_keeps {m : Bool} {o s : State} (h : Keeps m o s) : Keeps m o (endTests s) := by
  unfold endTests
  with_reducible repeat' first | assumption | apply endOp_keeps | apply Keeps.ite | (intro; intros) | extract_lets | split | apply Keeps.upd

theorem commandedTest_keeps {o s : State} (u : UnitId) (passes : Bool) (h : Keeps false o s) : Keeps false o (commandedTest s u passes) := by
  unfold commandedTest
  with_reducible repeat' first | assumption | apply runSelfTest_keeps | apply endTests_keeps | apply putOp_keeps | extract_lets | apply Keeps.upd

theorem startSelfTest_keeps {m : Bool} {o s : State} (x0 : Tab Nat) (v : List Byte) (h : Keeps m o s) : Keeps m o (startSelfTest s x0 v).s := by
  unfold startSelfTest
  with_reducible repeat' first | assumption | apply endTests_keeps | apply startOp_keeps | apply Keeps.ite | split | apply Keeps.upd

theorem leaveDiag_keeps {o s : State} (h : Keeps false o s) : Keeps false o (leaveDiag s) := by
  unfold leaveDiag
  extract_lets c u v lines w
  have h1 : Keeps false o u := Keeps.updInj h (fun _ => Nat.zero_le 16)
  have h2 : Keeps false o w := wrE_keeps _ _ _ (wrE_keeps _ _ _ (wrE_keeps _ _ _ (wrB_keeps _ _ _ h1)))
  clear_value w lines
  split
  · exact h2
  · exact linesChanged_keeps _ h2

theorem setDiag_keeps {o s : State} (x0 : Tab Nat) (v : List Byte) (h : Keeps false o s) : Keeps false o (setDiag s x0 v).s := by
  unfold setDiag
  with_reducible repeat' first | assumption | apply wrE_keeps | apply leaveDiag_keeps | apply Keeps.ite | split | apply Keeps.upd

theorem queueInjection_keeps {m : Bool} {o s : State} (x1 : Tab Nat) (v : List Byte) (h : Keeps m o s) :
    Keeps m o (queueInjection s x1 v).s := by
  unfold queueInjection
  split
  · exact h
  · next full =>
    split
    · exact h
    · refine Keeps.updInj h (fun _ => ?_)
      simp only [List.length_append, List.length_cons, List.length_nil]
      omega

theorem overrideTap_keeps {m : Bool} {o s : State} (x0 : Tab Nat) (v : List Byte) (h : Keeps m o s) : Keeps m o (overrideTap s x0 v).s := by
  unfold overrideTap
  with_reducible repeat' first | assumption | apply Keeps.ite | extract_lets | split | apply Keeps.upd

end Sys2Proof.Machine
end

