-- ==== Sys2Proof/Laws/KeepsPower.lean ====
section
/-! SUPPORT. What the operations of the clocks, the rails, the power limits, calibration and forecast keep. -/
namespace Sys2Proof.Machine

theorem setRef_keeps {m : Bool} {o s : State} (src : Nat) (v : Nat) (h : Keeps m o s) : Keeps m o (setRef s src v) := by
  unfold setRef
  with_reducible repeat' first | assumption | apply Keeps.ite | split | apply Keeps.upd

theorem refReport_keeps {m : Bool} {o s : State} (cls : Nat) (src : Nat) (h : Keeps m o s) : Keeps m o (refReport s cls src) := by
  unfold refReport
  with_reducible repeat' first | assumption | apply nextFree_keeps | apply report_keeps | apply Keeps.upd

theorem changeRef_keeps {m : Bool} {o s : State} (src : Nat) (h : Keeps m o s) : Keeps m o (changeRef s src) := by
  unfold changeRef
  with_reducible repeat' first | assumption | apply wrE_keeps | apply refReport_keeps | apply Keeps.ite | extract_lets | split | apply Keeps.upd

theorem postReversion_keeps {m : Bool} {o s : State} (src : Nat) (h : Keeps m o s) : Keeps m o (postReversion s src) := by
  unfold postReversion
  with_reducible repeat' first | assumption | refine Keeps.fst (by assumption) ?_ | apply Keeps.ite | extract_lets | split | apply Keeps.upd

theorem stepEpoch_keeps {m : Bool} {o s : State} (off : Int) (h : Keeps m o s) : Keeps m o (stepEpoch s off) := by
  unfold stepEpoch
  with_reducible repeat' first | assumption | apply wrE_keeps | apply report_keeps | extract_lets | apply Keeps.upd

theorem noteOffset_keeps {m : Bool} {o s : State} (avg : Int) (h : Keeps m o s) : Keeps m o (noteOffset s avg) := by
  unfold noteOffset
  with_reducible repeat' first | assumption | apply report_keeps | apply Keeps.ite | extract_lets | split | apply Keeps.upd

theorem slewFronts_keeps {m : Bool} {o s : State} (n : Nat) (h : Keeps m o s) : Keeps m o (slewFronts s n) := by
  unfold slewFronts
  with_reducible repeat' first | assumption | apply Keeps.ite | extract_lets | split | apply Keeps.upd

theorem setClocks_keeps {m : Bool} {o s : State} (h : Keeps m o s) : Keeps m o (setClocks s).1 := by
  unfold setClocks
  refine Keeps.foldlFst h ?_
  intro a x h
  extract_lets w
  split
  · exact h
  · exact modTile_keeps _ _ h

theorem runTimer_keeps {m : Bool} {o s : State} (holds : Bool) (since : Option Nat) (index : Nat) (sub : Nat) (h : Keeps m o s) : Keeps m o (runTimer s holds since index sub).1 := by
  unfold runTimer
  with_reducible repeat' first | assumption | apply bumpN_keeps | refine Keeps.fst (by assumption) ?_ | split

theorem settleTimers_keeps {m : Bool} {o s : State} (h : Keeps m o s) : Keeps m o (settleTimers s) := by
  unfold settleTimers
  with_reducible repeat' first | assumption | apply runTimer_keeps | refine Keeps.fst (by assumption) ?_ | extract_lets | split | apply Keeps.upd

theorem writeMode_keeps {m : Bool} {o s : State} (x0 : Tab Nat) (v : List Byte) (h : Keeps m o s) : Keeps m o (writeMode s x0 v).s := by
  unfold writeMode
  with_reducible repeat' first | assumption | apply wrE_keeps | extract_lets | apply Keeps.upd

theorem writeLimit_keeps {m : Bool} {o s : State} (x0 : Tab Nat) (v : List Byte) (h : Keeps m o s) : Keeps m o (writeLimit s x0 v).s := by
  unfold writeLimit
  with_reducible repeat' first | assumption | apply wrE_keeps | extract_lets | apply Keeps.upd

theorem takeMode_keeps {m : Bool} {o s : State} (m1 : Nat) (h : Keeps m o s) : Keeps m o (takeMode s m1) := by
  unfold takeMode
  with_reducible repeat' first | assumption | apply modTile_keeps | apply wrE_keeps | apply Keeps.foldl | apply Keeps.ite | (intro; intros) | extract_lets | split | apply Keeps.upd

theorem clocksAtFront_keeps {m : Bool} {o s : State} (e : Nat) (h : Keeps m o s) : Keeps m o (clocksAtFront e s) := by
  unfold clocksAtFront
  with_reducible repeat' first | assumption | apply takeMode_keeps | apply modTile_keeps | apply setClocks_keeps | apply settleTimers_keeps | apply bump_keeps | refine Keeps.fst (by assumption) ?_ | apply Keeps.foldl | apply Keeps.ite | (intro; intros) | extract_lets | split | apply Keeps.upd

theorem endRowStep_keeps {m : Bool} {o s : State} (t : Nat) (h : Keeps m o s) : Keeps m o (endRowStep s t) := by
  unfold endRowStep
  with_reducible repeat' first | assumption | apply setRowStep_keeps | apply Keeps.ite | split

theorem abortOps_keeps {m : Bool} {o s : State} (h : Keeps m o s) : Keeps m o (abortOps s) := by
  unfold abortOps
  with_reducible repeat' first | assumption | apply endOp_keeps | apply Keeps.foldl | apply Keeps.ite | (intro; intros) | split

theorem dropGroup_keeps {m : Bool} {o s : State} (n : Nat) (g : Group) (h : Keeps m o s) : Keeps m o (dropGroup s n g) := by
  unfold dropGroup
  with_reducible repeat' first | assumption | apply nextFree_keeps | apply report_keeps | extract_lets | apply Keeps.upd

theorem dropArmed_keeps {m : Bool} {o s : State} (h : Keeps m o s) : Keeps m o (dropArmed s) := by
  unfold dropArmed
  with_reducible repeat' first | assumption | apply dropGroup_keeps | apply Keeps.foldl | apply Keeps.ite | (intro; intros) | split

theorem emptyTables_keeps {m : Bool} {o s : State} (h : Keeps m o s) : Keeps m o (emptyTables s) := by
  unfold emptyTables
  with_reducible repeat' first | assumption | apply wrE_keeps | (intro; intros) | extract_lets | apply Keeps.upd

theorem hostDown_keeps {m : Bool} {o s : State} (h : Keeps m o s) : Keeps m o (hostDown s) := by
  unfold hostDown
  with_reducible repeat' first | assumption | apply Keeps.upd

theorem loseMemory_keeps {o s : State} (warm : Bool) (h : Keeps false o s) : Keeps false o (loseMemory s warm) := by
  unfold loseMemory
  refine Keeps.wr h ?_
  intro w
  split
  · exact Tab.wf_filter _ w
  · rfl

theorem unitsDown_keeps {m : Bool} {o s : State} (warm : Bool) (h : Keeps m o s) : Keeps m o (unitsDown s warm) := by
  unfold unitsDown
  with_reducible repeat' first | assumption | apply wrE_keeps | extract_lets | apply Keeps.upd

theorem mainOff_keeps {o s : State} (warm : Bool) (h : Keeps false o s) : Keeps false o (mainOff s warm) := by
  unfold mainOff
  with_reducible repeat' first | assumption | apply wrE_keeps | apply abortOps_keeps | apply dropArmed_keeps | apply modTile_keeps | apply endRowStep_keeps | apply settleTimers_keeps | apply unitsDown_keeps | apply pldmEvent_keeps | apply hostDown_keeps | apply emptyTables_keeps | apply loseMemory_keeps | apply Keeps.foldl | apply Keeps.ite | (intro; intros) | extract_lets | split | apply Keeps.upd

theorem settleSkip_keeps {m : Bool} {o s : State} (h : Keeps m o s) : Keeps m o (settleSkip s) := by
  unfold settleSkip
  with_reducible repeat' first | assumption | extract_lets | apply Keeps.upd

theorem judgeReach_keeps {m : Bool} {o s : State} (sp : Nat) (n : Nat) (c : Nat) (h : Keeps m o s) : Keeps m o (judgeReach s sp n c) := by
  unfold judgeReach
  with_reducible repeat' first | assumption | apply settleSkip_keeps | apply nextFree_keeps | apply report_keeps | apply Keeps.ite | extract_lets | split | apply Keeps.upd

theorem iterate_keeps {m : Bool} {o s : State} (h : Keeps m o s) : Keeps m o (iterate s) := by
  unfold iterate
  with_reducible repeat' first | assumption | apply judgeReach_keeps | apply nextFree_keeps | apply Keeps.ite | extract_lets | split | apply Keeps.upd

theorem outOfTurn_keeps {m : Bool} {o s : State} (h : Keeps m o s) : Keeps m o (outOfTurn s) := by
  unfold outOfTurn
  with_reducible repeat' first | assumption | apply iterate_keeps | apply settleSkip_keeps | apply Keeps.ite | extract_lets | split | apply Keeps.upd

theorem stillSkip_keeps {m : Bool} {o s : State} (p : Nat) (h : Keeps m o s) : Keeps m o (stillSkip s p) := by
  unfold stillSkip
  with_reducible repeat' first | assumption | apply Keeps.ite | extract_lets | split | apply Keeps.upd

theorem countEnergy_keeps {m : Bool} {o s : State} (mv : Nat) (ma : Nat) (h : Keeps m o s) : Keeps m o (countEnergy s mv ma) := by
  unfold countEnergy
  with_reducible repeat' first | assumption | apply bumpN_keeps | apply wrB_keeps | extract_lets | apply Keeps.upd

theorem settleOffset_keeps {m : Bool} {o s : State} (mv : Nat) (ma : Nat) (h : Keeps m o s) : Keeps m o (settleOffset s mv ma) := by
  unfold settleOffset
  with_reducible repeat' first | assumption | apply Keeps.ite | extract_lets | split | apply Keeps.upd

theorem noteInput_keeps {m : Bool} {o s : State} (mv : Nat) (h : Keeps m o s) : Keeps m o (noteInput s mv) := by
  unfold noteInput
  with_reducible repeat' first | assumption | apply nextFree_keeps | apply report_keeps | refine Keeps.fst (by assumption) ?_ | apply Keeps.ite | extract_lets | split | apply Keeps.upd

theorem readSensors_keeps {m : Bool} {o s : State} (h : Keeps m o s) : Keeps m o (readSensors s) := by
  unfold readSensors
  with_reducible repeat' first | assumption | apply wrB_keeps | apply nextFree_keeps | apply Keeps.ite | (intro; intros) | extract_lets | split

theorem enterThrottle_keeps {m : Bool} {o s : State} (t : Nat) (h : Keeps m o s) : Keeps m o (enterThrottle s t) := by
  unfold enterThrottle
  with_reducible repeat' first | assumption | apply modTile_keeps | apply Keeps.ite | (intro; intros) | extract_lets | split | apply Keeps.upd

theorem leaveThrottle_keeps {m : Bool} {o s : State} (t : Nat) (h : Keeps m o s) : Keeps m o (leaveThrottle s t) := by
  unfold leaveThrottle
  with_reducible repeat' first | assumption | apply modTile_keeps | apply Keeps.ite | (intro; intros) | extract_lets | split | apply Keeps.upd

theorem settleThrottle_keeps {m : Bool} {o s : State} (t : Nat) (h : Keeps m o s) : Keeps m o (settleThrottle s t) := by
  unfold settleThrottle
  with_reducible repeat' first | assumption | apply enterThrottle_keeps | apply leaveThrottle_keeps | apply Keeps.ite | split

theorem stageReport_keeps {m : Bool} {o s : State} (i : Nat) (x : Int) (h : Keeps m o s) : Keeps m o (stageReport s i x) := by
  unfold stageReport
  with_reducible repeat' first | assumption | apply report_keeps | refine Keeps.fst (by assumption) ?_ | apply Keeps.ite | extract_lets | split | apply Keeps.upd

theorem settleRows_keeps {m : Bool} {o s : State} (t : Nat) (old : Nat) (new : Nat) (h : Keeps m o s) : Keeps m o (settleRows s t old new) := by
  unfold settleRows
  with_reducible repeat' first | assumption | apply setRowStep_keeps | apply modTile_keeps | apply Keeps.ite | (intro; intros) | extract_lets | split | apply Keeps.upd

theorem thermalShutdown_keeps {o s : State} (i : Nat) (x : Int) (h : Keeps false o s) : Keeps false o (thermalShutdown s i x) := by
  unfold thermalShutdown
  with_reducible repeat' first | assumption | apply mainOff_keeps | apply report_keeps | apply persist_keeps | apply wrE_keeps | apply Keeps.ite | extract_lets | split | apply Keeps.upd

theorem laserShutdown_keeps {o s : State} (k : Nat) (h : Keeps false o s) : Keeps false o (laserShutdown s k) := by
  unfold laserShutdown
  with_reducible repeat' first | assumption | apply setLaserDie_keeps | apply report_keeps | apply laserCause_keeps | apply Keeps.ite | extract_lets | split | apply Keeps.upd

theorem stageActions_keeps {o s : State} (i : Nat) (old : Nat) (new : Nat) (x : Int) (h : Keeps false o s) : Keeps false o (stageActions s i old new x) := by
  unfold stageActions
  with_reducible repeat' first | assumption | apply stageReport_keeps | apply laserShutdown_keeps | apply laserThrottle_keeps | apply thermalShutdown_keeps | apply modDie_keeps | apply settleRows_keeps | apply settleThrottle_keeps | apply Keeps.foldl | apply Keeps.ite | (intro; intros) | extract_lets | split | apply Keeps.upd

theorem takeStage_keeps {o s : State} (i : Nat) (new : Nat) (x : Int) (h : Keeps false o s) : Keeps false o (takeStage s i new x) := by
  unfold takeStage
  with_reducible repeat' first | assumption | apply pldmEvent_keeps | apply raiseAllHb_keeps | apply settleTimers_keeps | apply stageActions_keeps | apply Keeps.ite | extract_lets | split | apply Keeps.upd

theorem settleCool_keeps {m : Bool} {o s : State} (h : Keeps m o s) : Keeps m o (settleCool s) := by
  unfold settleCool
  with_reducible repeat' first | assumption | apply Keeps.ite | split | apply Keeps.upd

theorem failSensor_keeps {o s : State} (i : Nat) (x : Int) (h : Keeps false o s) : Keeps false o (failSensor s i x) := by
  unfold failSensor
  with_reducible repeat' first | assumption | apply report_keeps | apply takeStage_keeps | extract_lets | apply Keeps.upd

theorem judgeSample_keeps {o s : State} (i : Nat) (x : Int) (h : Keeps false o s) : Keeps false o (judgeSample s i x) := by
  unfold judgeSample
  with_reducible repeat' first | assumption | apply failSensor_keeps | apply takeStage_keeps | apply Keeps.ite | extract_lets | split | apply Keeps.upd

theorem releaseLatch_keeps {m : Bool} {o s : State} (x0 : Tab Nat) (x1 : List Byte) (h : Keeps m o s) : Keeps m o (releaseLatch s x0 x1).s := by
  unfold releaseLatch
  with_reducible repeat' first | assumption | apply persist_keeps | apply wrE_keeps | apply Keeps.ite | split | apply Keeps.upd

theorem countMarks_keeps {m : Bool} {o s : State} (h : Keeps m o s) : Keeps m o (countMarks s) := by
  unfold countMarks
  with_reducible repeat' first | assumption | apply wrE_keeps | (intro; intros) | extract_lets

theorem deadPort_keeps {m : Bool} {o s : State} (key : Nat) (h : Keeps m o s) : Keeps m o (deadPort s key) := by
  unfold deadPort
  with_reducible repeat' first | assumption | apply modPort_keeps | apply reagree_keeps | apply Keeps.ite | (intro; intros) | extract_lets | split | apply Keeps.upd

theorem deadDie_keeps {m : Bool} {o s : State} (t : Nat) (port : Nat) (h : Keeps m o s) : Keeps m o (deadDie s t port) := by
  unfold deadDie
  with_reducible repeat' first | assumption | apply modDie_keeps | (intro; intros) | apply Keeps.upd

theorem failUnit_keeps {o s : State} (id : Nat) (h : Keeps false o s) : Keeps false o (failUnit s id) := by
  unfold failUnit
  with_reducible repeat' first | assumption | apply reagree_keeps | apply modPort_keeps | apply moveMeshLane_keeps | apply modStation_keeps | apply downWithoutLanes_keeps | apply deadPort_keeps | apply tileReset_keeps | apply confirmedFault_keeps | apply deadDie_keeps | refine Keeps.fst (by assumption) ?_ | (intro; intros) | extract_lets | split | apply Keeps.upd

theorem idReport_keeps {m : Bool} {o s : State} (id : Nat) (quantity : Nat) (h : Keeps m o s) : Keeps m o (idReport s id quantity) := by
  unfold idReport
  with_reducible repeat' first | assumption | apply report_keeps | refine Keeps.fst (by assumption) ?_ | extract_lets | split | apply Keeps.upd

theorem markUnit_keeps {o s : State} (e : Nat × Nat) (h : Keeps false o s) : Keeps false o (markUnit s e) := by
  unfold markUnit
  with_reducible repeat' first | assumption | apply idReport_keeps | apply countMarks_keeps | apply failUnit_keeps | apply Keeps.ite | extract_lets | split | apply Keeps.upd

theorem countThird_keeps {m : Bool} {o s : State} (n : Nat) (h : Keeps m o s) : Keeps m o (countThird s n) := by
  unfold countThird
  with_reducible repeat' first | assumption | apply bumpN_keeps

theorem lanesOut_keeps {m : Bool} {o s : State} (h : Keeps m o s) : Keeps m o (lanesOut s) := by
  unfold lanesOut
  with_reducible repeat' first | assumption | (intro; intros) | extract_lets | apply Keeps.upd

theorem clearMarks_keeps {o s : State} (h : Keeps false o s) : Keeps false o (clearMarks s) := by
  unfold clearMarks
  with_reducible repeat' first | assumption | apply countMarks_keeps | apply failUnit_keeps | apply Keeps.foldl | (intro; intros) | extract_lets | apply Keeps.upd

theorem beginCalibration_keeps {m : Bool} {o s : State} (h : Keeps m o s) : Keeps m o (beginCalibration s) := by
  unfold beginCalibration
  with_reducible repeat' first | assumption | apply startOp_keeps | apply putOp_keeps | extract_lets | apply Keeps.upd

theorem startCalibration_keeps {o s : State} (x0 : Tab Nat) (x1 : List Byte) (h : Keeps false o s) : Keeps false o (startCalibration s x0 x1).s := by
  unfold startCalibration
  with_reducible repeat' first | assumption | apply beginCalibration_keeps | apply clearMarks_keeps | apply lanesOut_keeps | apply Keeps.ite | split | apply Keeps.upd

theorem squelchGroup_keeps {o s : State} (key : Nat) (h : Keeps false o s) : Keeps false o (squelchGroup s key) := by
  unfold squelchGroup
  with_reducible repeat' first | assumption | apply dropTraffic_keeps | apply Keeps.ite | extract_lets | split

theorem squelchGroups_keeps {o s : State} (p : Nat → Bool) (h : Keeps false o s) : Keeps false o (squelchGroups s p) := by
  unfold squelchGroups
  with_reducible repeat' first | assumption | apply squelchGroup_keeps | apply Keeps.foldl | apply Keeps.ite | (intro; intros) | split

theorem calibrateOne_keeps {o s : State} (m1 : Measure) (h : Keeps false o s) : Keeps false o (calibrateOne s m1) := by
  unfold calibrateOne
  with_reducible repeat' first | assumption | apply applySetting_keeps | apply markUnit_keeps | refine Keeps.fst (by assumption) ?_ | apply Keeps.ite | split

theorem recalibrateOne_keeps {o s : State} (m1 : Measure) (h : Keeps false o s) : Keeps false o (recalibrateOne s m1) := by
  unfold recalibrateOne
  with_reducible repeat' first | assumption | apply applySetting_keeps | apply markUnit_keeps | refine Keeps.fst (by assumption) ?_ | apply Keeps.ite | split

theorem takeSpare_keeps {m : Bool} {o : State} (a : State × List Measure) (k : Nat × Nat) (h : Keeps m o a.1) :
    Keeps m o (takeSpare a k).1 := by
  unfold takeSpare
  extract_lets dst s
  split
  · exact h
  · exact wrE_keeps _ _ _ (modStation_keeps _ _ h)

theorem spareReceivers_keeps {m : Bool} {o s : State} (ms : List Measure) (h : Keeps m o s) :
    Keeps m o (spareReceivers s ms).1 := by
  unfold spareReceivers
  exact Keeps.foldlFst h (fun a x k => takeSpare_keeps a x k)

theorem squelchAll_keeps {o s : State} (h : Keeps false o s) : Keeps false o (squelchAll s) := by
  unfold squelchAll
  with_reducible repeat' first | assumption | apply squelchGroups_keeps | (intro; intros) | extract_lets | apply Keeps.upd

theorem releaseHeld_keeps {o s : State} (h : Keeps false o s) : Keeps false o (releaseHeld s) := by
  unfold releaseHeld
  refine Keeps.foldl h ?_
  intro s t h
  extract_lets u
  split
  · exact h
  · have h1 : Keeps false o u := by
      refine Keeps.foldl h ?_
      intro s x h
      split
      · exact modDie_keeps _ _ _ h
      · exact h
    clear_value u
    with_reducible repeat' first | assumption | apply finishReset_keeps | refine Keeps.fst (by assumption) ?_ | apply Keeps.foldl | apply Keeps.ite | extract_lets | split

theorem startStep_keeps {m : Bool} {o s : State} (k : Nat) (h : Keeps m o s) : Keeps m o (startStep s k) := by
  unfold startStep
  with_reducible repeat' first | assumption | apply Keeps.ite | (intro; intros) | extract_lets | split | apply Keeps.upd

theorem rotationAtFront_keeps {m : Bool} {o s : State} (h : Keeps m o s) : Keeps m o (rotationAtFront s) := by
  unfold rotationAtFront
  with_reducible repeat' first | assumption | apply startStep_keeps | refine Keeps.fst (by assumption) ?_ | apply Keeps.ite | split

theorem sweepLost_keeps {m : Bool} {o s : State} (id : Nat) (h : Keeps m o s) : Keeps m o (sweepLost s id) := by
  unfold sweepLost
  with_reducible repeat' first | assumption | apply nextFree_keeps | apply tileReport_keeps

theorem sweepPair_keeps {m : Bool} {o s : State} (id : Nat) (last : Nat) (centre : Nat) (h : Keeps m o s) : Keeps m o (sweepPair s id last centre) := by
  unfold sweepPair
  with_reducible repeat' first | assumption | apply sweepLost_keeps | apply Keeps.ite | extract_lets | split | apply Keeps.upd

theorem coolByChannel_keeps {m : Bool} {o s : State} (i : Nat) (x : Int) (h : Keeps m o s) : Keeps m o (coolByChannel s i x) := by
  unfold coolByChannel
  with_reducible repeat' first | assumption | apply settleCool_keeps | refine Keeps.fst (by assumption) ?_ | apply Keeps.ite | (intro; intros) | extract_lets | split | apply Keeps.upd

theorem setSleep_keeps {m : Bool} {o s : State} (v : Nat) (h : Keeps m o s) : Keeps m o (setSleep s v) := by
  unfold setSleep
  with_reducible repeat' first | assumption | apply pldmEvent_keeps | apply raiseAllHb_keeps | apply Keeps.ite | extract_lets | split | apply Keeps.upd

theorem decideWake_keeps {m : Bool} {o s : State} (fresh : Nat) (h : Keeps m o s) : Keeps m o (decideWake s fresh) := by
  unfold decideWake
  with_reducible repeat' first | assumption | apply startWake_keeps | refine Keeps.fst (by assumption) ?_ | split | apply Keeps.upd

theorem requestWake_keeps {m : Bool} {o s : State} (h : Keeps m o s) : Keeps m o (requestWake s) := by
  unfold requestWake
  with_reducible repeat' first | assumption | apply Keeps.ite | split | apply Keeps.upd

theorem acceptEntry_keeps {m : Bool} {o s : State} (v : Nat) (h : Keeps m o s) : Keeps m o (acceptEntry s v) := by
  unfold acceptEntry
  with_reducible repeat' first | assumption | apply Keeps.upd

theorem sleepRequest_keeps {m : Bool} {o s : State} (x0 : Tab Nat) (v : List Byte) (h : Keeps m o s) : Keeps m o (sleepRequest s x0 v).s := by
  unfold sleepRequest
  with_reducible repeat' first | assumption | apply requestWake_keeps | apply acceptEntry_keeps | apply Keeps.ite | extract_lets | split | apply Keeps.upd

theorem drainDies_keeps {m : Bool} {o s : State} (on : Bool) (h : Keeps m o s) : Keeps m o (drainDies s on) := by
  unfold drainDies
  with_reducible repeat' first | assumption | apply modDie_keeps | apply Keeps.foldl | apply Keeps.ite | (intro; intros) | split | apply Keeps.upd

theorem sleepAtFront_keeps {m : Bool} {o s : State} (h : Keeps m o s) : Keeps m o (sleepAtFront s) := by
  unfold sleepAtFront
  with_reducible repeat' first | assumption | apply drainDies_keeps | refine Keeps.fst (by assumption) ?_ | apply Keeps.ite | split | apply Keeps.upd

theorem drainTile_keeps {o s : State} (t : Nat) (h : Keeps false o s) : Keeps false o (drainTile s t) := by
  unfold drainTile
  with_reducible repeat' first | assumption | apply endEarly_keeps | apply endTrack_keeps | apply modDie_keeps | refine Keeps.fst (by assumption) ?_ | apply Keeps.foldl | apply Keeps.ite | (intro; intros) | extract_lets | split | apply Keeps.upd

theorem drainTiles_keeps {o s : State} (h : Keeps false o s) : Keeps false o (drainTiles s) := by
  unfold drainTiles
  with_reducible repeat' first | assumption | apply drainTile_keeps | apply Keeps.foldl | (intro; intros)

theorem stageEnds_keeps {m : Bool} {o s : State} (v : Nat) (h : Keeps m o s) : Keeps m o (stageEnds s v) := by
  unfold stageEnds
  with_reducible repeat' first | assumption | apply setSleep_keeps | apply Keeps.ite | extract_lets | split | apply Keeps.upd

theorem circuitsDark_keeps {m : Bool} {o s : State} (h : Keeps m o s) : Keeps m o (circuitsDark s) := by
  unfold circuitsDark
  with_reducible repeat' first | assumption | apply Keeps.ite | (intro; intros) | extract_lets | split | apply Keeps.upd

theorem openTiles_keeps {m : Bool} {o s : State} (h : Keeps m o s) : Keeps m o (openTiles s) := by
  unfold openTiles
  with_reducible repeat' first | assumption | apply drainDies_keeps | apply Keeps.ite | (intro; intros) | extract_lets | split | apply Keeps.upd

end Sys2Proof.Machine
end

