-- ==== Sys2Proof/Laws/KeepsMantle.lean ====
section
/-! SUPPORT. What the operations of the control plane keep: the dictionary, its writers, groups and the restarts. -/
namespace Sys2Proof.Machine

/-- The effect of every value that the writer takes keeps what every command keeps. -/
def WriterKeeps (w : Writer) : Prop :=
  ∀ (o s : State) (sel : Tab Nat) (v : List Byte), Keeps false o s → Keeps false o (w.effect s sel v).s

theorem setDieState_keeps {m : Bool} {o s : State} (m1 : Nat) (v : Nat) (h : Keeps m o s) : Keeps m o (setDieState s m1 v) := by
  unfold setDieState
  with_reducible repeat' first | assumption | apply Keeps.ite | split | apply Keeps.upd

theorem mantleReport_keeps {m : Bool} {o s : State} (cls : Nat) (m1 : Nat) (h : Keeps m o s) : Keeps m o (mantleReport s cls m1) := by
  unfold mantleReport
  with_reducible repeat' first | assumption | apply report_keeps | apply Keeps.upd

theorem abortUnsurviving_keeps {m : Bool} {o s : State} (h : Keeps m o s) : Keeps m o (abortUnsurviving s) := by
  unfold abortUnsurviving
  with_reducible repeat' first | assumption | apply endOp_keeps | apply setPlanState_keeps | apply setSchState_keeps | apply Keeps.foldl | apply Keeps.ite | (intro; intros) | extract_lets | split | apply Keeps.upd

theorem releaseLine_keeps {m : Bool} {o s : State} (by_ : Option Nat) (h : Keeps m o s) : Keeps m o (releaseLine s by_) := by
  unfold releaseLine
  with_reducible repeat' first | assumption | apply abortUnsurviving_keeps | apply Keeps.ite | (intro; intros) | extract_lets | split | apply Keeps.upd

theorem resumeNotifies_keeps {m : Bool} {o s : State} (h : Keeps m o s) : Keeps m o (resumeNotifies s) := by
  unfold resumeNotifies
  with_reducible repeat' first | assumption | apply notifyTarget_keeps | refine Keeps.fst (by assumption) ?_ | apply Keeps.foldl | (intro; intros) | extract_lets | split | apply Keeps.upd

theorem takeCopy_keeps {m : Bool} {o s : State} (c : NvCopy) (h : Keeps m o s) : Keeps m o (takeCopy s c) := by
  unfold takeCopy
  with_reducible repeat' first | assumption | apply wrE_keeps | apply wrB_keeps | apply Keeps.foldl | (intro; intros) | extract_lets | apply Keeps.upd

theorem forgetAll_keeps {m : Bool} {o s : State} (h : Keeps m o s) : Keeps m o (forgetAll s) := by
  unfold forgetAll
  with_reducible repeat' first | assumption | apply takeCopy_keeps | apply modTile_keeps | apply Keeps.foldl | (intro; intros) | extract_lets | apply Keeps.upd

theorem loadStore_keeps {m : Bool} {o s : State} (h : Keeps m o s) : Keeps m o (loadStore s) := by
  unfold loadStore
  with_reducible repeat' first | assumption | apply takeCopy_keeps | apply forgetAll_keeps | apply nextFree_keeps | apply report_keeps | refine Keeps.fst (by assumption) ?_ | extract_lets | split | apply Keeps.upd

theorem becomeActive_keeps {m : Bool} {o s : State} (m1 : Nat) (h : Keeps m o s) : Keeps m o (becomeActive s m1) := by
  unfold becomeActive
  with_reducible repeat' first | assumption | apply loadStore_keeps | apply setDieState_keeps | apply pldmEvent_keeps | apply raiseAllHb_keeps | apply resumeNotifies_keeps | apply Keeps.ite | extract_lets | split | apply Keeps.upd

theorem switchMantle_keeps {m : Bool} {o s : State} (m1 : Nat) (h : Keeps m o s) : Keeps m o (switchMantle s m1) := by
  unfold switchMantle
  with_reducible repeat' first | assumption | apply becomeActive_keeps | apply wrE_keeps | apply report_keeps | extract_lets | apply Keeps.upd

theorem cutMantle_keeps {m : Bool} {o s : State} (m1 : Nat) (h : Keeps m o s) : Keeps m o (cutMantle s m1) := by
  unfold cutMantle
  with_reducible repeat' first | assumption | apply wrE_keeps | apply setDieState_keeps

theorem latentMantle_keeps {m : Bool} {o s : State} (m1 : Nat) (h : Keeps m o s) : Keeps m o (latentMantle s m1) := by
  unfold latentMantle
  with_reducible repeat' first | assumption | apply setDieState_keeps | apply mantleReport_keeps | apply wrE_keeps | apply Keeps.ite | extract_lets | split

theorem reclaim_keeps {m : Bool} {o s : State} (m1 : Nat) (h : Keeps m o s) : Keeps m o (reclaim s m1) := by
  unfold reclaim
  with_reducible repeat' first | assumption | apply setDieState_keeps | apply latentMantle_keeps | apply becomeActive_keeps | apply Keeps.ite | extract_lets | split

theorem handOver_keeps {m : Bool} {o s : State} (x0 : Tab Nat) (x1 : List Byte) (h : Keeps m o s) : Keeps m o (handOver s x0 x1).s := by
  unfold handOver
  with_reducible repeat' first | assumption | apply releaseLine_keeps | apply setDieState_keeps | refine Keeps.fst (by assumption) ?_ | apply Keeps.ite | split | apply Keeps.upd

theorem restartStandby_keeps {m : Bool} {o s : State} (x0 : Tab Nat) (x1 : List Byte) (h : Keeps m o s) : Keeps m o (restartStandby s x0 x1).s := by
  unfold restartStandby
  with_reducible repeat' first | assumption | apply setDieState_keeps | refine Keeps.fst (by assumption) ?_ | (intro; intros) | split | apply Keeps.upd

theorem dropOutstanding_keeps {m : Bool} {o s : State} (x1 : Party) (h : Keeps m o s) : Keeps m o (dropOutstanding s x1) := by
  unfold dropOutstanding
  with_reducible repeat' first | assumption | apply modFunc_keeps | refine Keeps.fst (by assumption) ?_ | (intro; intros) | split | apply Keeps.upd

theorem notifyAck_keeps {m : Bool} {o s : State} (r0 : VdpReq) (h : Keeps m o s) : Keeps m o (notifyAck s r0) := by
  unfold notifyAck
  with_reducible repeat' first | assumption | apply unanswered_keeps | apply refuse_keeps | apply dropOutstanding_keeps | apply Keeps.ite | (intro; intros) | extract_lets | split | apply Keeps.upd

theorem setOtherImage_keeps {m : Bool} {o s : State} (i : Image) (h : Keeps m o s) : Keeps m o (setOtherImage s i) := by
  unfold setOtherImage
  with_reducible repeat' first | assumption | apply Keeps.ite | split | apply Keeps.upd

theorem failUpload_keeps {m : Bool} {o s : State} (state : Nat) (h : Keeps m o s) : Keeps m o (failUpload s state) := by
  unfold failUpload
  with_reducible repeat' first | assumption | apply endOp_keeps | apply setOtherImage_keeps | apply Keeps.ite | split | apply Keeps.upd

theorem putGroup_keeps {m : Bool} {o s : State} (n : Nat) (g : Group) (h : Keeps m o s) : Keeps m o (putGroup s n g) := by
  unfold putGroup
  with_reducible repeat' first | assumption | apply Keeps.upd

theorem dropContext_keeps {m : Bool} {o s : State} (party : Party) (h : Keeps m o s) : Keeps m o (dropContext s party) := by
  unfold dropContext
  with_reducible repeat' first | assumption | apply Keeps.ite | (intro; intros) | extract_lets | split | apply Keeps.upd

theorem pldmAnswer_keeps {m : Bool} {o s : State} (eid : Nat) (data : List Byte) (h : Keeps m o s) : Keeps m o (pldmAnswer s eid data) := by
  unfold pldmAnswer
  with_reducible repeat' first | assumption | apply emit_keeps

theorem pldmOpen_keeps {m : Bool} {o s : State} (eid : Nat) (h : Keeps m o s) : Keeps m o (pldmOpen s eid) := by
  unfold pldmOpen
  with_reducible repeat' first | assumption | apply nextFree_keeps | apply pldmAnswer_keeps

theorem abortOperation_keeps {o s : State} (id : Nat) (units : Nat) (x2 : Tab Nat) (x3 : List Byte) (h : Keeps false o s) : Keeps false o (abortOperation id units s x2 x3).s := by
  unfold abortOperation
  with_reducible repeat' first | assumption | apply failUpload_keeps | apply fillRows_keeps | apply endOp_keeps | apply Keeps.ite | (intro; intros) | extract_lets | split | apply Keeps.upd

theorem beginUpload_keeps {m : Bool} {o s : State} (total : Nat) (h : Keeps m o s) : Keeps m o (beginUpload s total) := by
  unfold beginUpload
  with_reducible repeat' first | assumption | apply startOp_keeps | apply setOtherImage_keeps | apply Keeps.upd

theorem uploadPosition_keeps {m : Bool} {o s : State} (src : Party) (h : Keeps m o s) : Keeps m o (uploadPosition s src) := by
  unfold uploadPosition
  with_reducible repeat' first | assumption | apply putOp_keeps | (intro; intros) | extract_lets | apply Keeps.upd

theorem endUpload_keeps {m : Bool} {o s : State} (v : List Byte) (h : Keeps m o s) : Keeps m o (endUpload s v) := by
  unfold endUpload
  with_reducible repeat' first | assumption | apply endOp_keeps | apply setOtherImage_keeps | apply Keeps.ite | extract_lets | split

theorem uploadSegment_keeps {m : Bool} {o s : State} (r : VdpReq) (h : Keeps m o s) : Keeps m o (uploadSegment s r) := by
  unfold uploadSegment
  with_reducible repeat' first | assumption | apply refuse_keeps | apply beginUpload_keeps | apply takeSegment_keeps | apply answer_keeps | apply standbyCopy_keeps | apply uploadPosition_keeps | apply failUpload_keeps | apply endUpload_keeps | refine Keeps.fst (by assumption) ?_ | apply Keeps.ite | (intro; intros) | extract_lets | split

theorem imageUpload_keeps {m : Bool} {o s : State} (r : VdpReq) (h : Keeps m o s) : Keeps m o (imageUpload s r) := by
  unfold imageUpload
  with_reducible repeat' first | assumption | apply unanswered_keeps | apply sendResp_keeps | apply refuse_keeps | apply takeSegment_keeps | apply answer_keeps | apply stage_keeps | apply uploadSegment_keeps | refine Keeps.fst (by assumption) ?_ | apply Keeps.ite | (intro; intros) | extract_lets | split

theorem renumber_keeps {m : Bool} {o s : State} (h : Keeps m o s) : Keeps m o (renumber s) := by
  unfold renumber
  with_reducible repeat' first | assumption | apply modTile_keeps | apply wrE_keeps | apply recheckSchedules_keeps | apply recheckPlans_keeps | apply report_keeps | apply Keeps.foldl | (intro; intros) | extract_lets | apply Keeps.upd

theorem mantleReady_keeps {m : Bool} {o s : State} (m1 : Nat) (h : Keeps m o s) : Keeps m o (mantleReady s m1) := by
  unfold mantleReady
  with_reducible repeat' first | assumption | apply setDieState_keeps | extract_lets | apply Keeps.upd

theorem startMains_keeps {m : Bool} {o s : State} (cause : Nat) (h : Keeps m o s) : Keeps m o (startMains s cause) := by
  unfold startMains
  with_reducible repeat' first | assumption | apply advanceTo_keeps | apply wrE_keeps | refine Keeps.fst (by assumption) ?_ | apply Keeps.ite | extract_lets | split | apply Keeps.upd

theorem stageRails_keeps {m : Bool} {o s : State} (h : Keeps m o s) : Keeps m o (stageRails s) := by
  unfold stageRails
  with_reducible repeat' first | assumption | apply modDie_keeps | apply Keeps.foldl | apply Keeps.ite | (intro; intros) | extract_lets | split | apply Keeps.upd

theorem laserFails_keeps {m : Bool} {o s : State} (k : Nat) (h : Keeps m o s) : Keeps m o (laserFails s k) := by
  unfold laserFails
  with_reducible repeat' first | assumption | apply nextFree_keeps | apply laserReport_keeps | apply setLaserDie_keeps

theorem startLaser_keeps {o s : State} (dies : Nat) (g : Nat) (h : Keeps false o s) : Keeps false o (startLaser dies s g) := by
  unfold startLaser
  with_reducible repeat' first | assumption | apply setLaserDie_keeps | apply laserFails_keeps | apply loseGroup_keeps | apply laserReport_keeps | apply Keeps.ite | (intro; intros) | extract_lets | split | apply Keeps.upd

theorem stageLasers_keeps {o s : State} (dies : Nat) (h : Keeps false o s) : Keeps false o (stageLasers s dies) := by
  unfold stageLasers
  with_reducible repeat' first | assumption | apply linesChanged_keeps | apply startLaser_keeps | apply Keeps.foldl | (intro; intros)

theorem markTestMat_keeps {m : Bool} {o s : State} (x : MatRef) (h : Keeps m o s) : Keeps m o (markTestMat s x) := by
  unfold markTestMat
  with_reducible repeat' first | assumption | apply report_keeps | apply modTile_keeps | apply Keeps.ite | (intro; intros) | extract_lets | split | apply Keeps.upd

theorem stagePattern_keeps {o s : State} (failed : List (Nat × Nat)) (mats : List MatRef) (h : Keeps false o s) : Keeps false o (stagePattern s failed mats) := by
  unfold stagePattern
  with_reducible repeat' first | assumption | apply nextFree_keeps | apply wrB_keeps | apply markTestMat_keeps | apply markUnit_keeps | apply squelchAll_keeps | apply beginCalibration_keeps | apply Keeps.foldl | apply Keeps.ite | (intro; intros) | extract_lets | split | apply Keeps.upd

theorem stageClear_keeps {o s : State} (h : Keeps false o s) : Keeps false o (stageClear s) := by
  unfold stageClear
  split
  · exact h
  · refine Keeps.foldl (Keeps.wr h (fun _ => rfl)) (fun s x h => Keeps.foldl h (fun s x h => ?_))
    split
    · exact modDie_keeps _ _ _ h
    · exact h

theorem stageConfigure_keeps {o s : State} (h : Keeps false o s) : Keeps false o (stageConfigure s) := by
  unfold stageConfigure
  with_reducible repeat' first | assumption | apply renumber_keeps | apply settleRoles_keeps | apply Keeps.foldl | (intro; intros) | extract_lets | apply Keeps.upd

theorem startRowStep_keeps {m : Bool} {o s : State} (t : Nat) (h : Keeps m o s) : Keeps m o (startRowStep s t) := by
  unfold startRowStep
  with_reducible repeat' first | assumption | apply setRowStep_keeps | apply Keeps.ite | extract_lets | split

theorem stageReady_keeps {m : Bool} {o s : State} (h : Keeps m o s) : Keeps m o (stageReady s) := by
  unfold stageReady
  with_reducible repeat' first | assumption | apply setClocks_keeps | apply startRowStep_keeps | apply Keeps.foldl | apply Keeps.ite | (intro; intros) | extract_lets | split | apply Keeps.upd

theorem setStage_keeps {m : Bool} {o s : State} (k : Nat) (h : Keeps m o s) : Keeps m o (setStage s k) := by
  unfold setStage
  with_reducible repeat' first | assumption | apply Keeps.upd

theorem guestReport_keeps {m : Bool} {o s : State} (g : Nat) (h : Keeps m o s) : Keeps m o (guestReport s g) := by
  unfold guestReport
  with_reducible repeat' first | assumption | apply nextFree_keeps | apply report_keeps | apply Keeps.upd

theorem foundGuest_keeps {m : Bool} {o s : State} (x : GuestSite) (h : Keeps m o s) : Keeps m o (foundGuest s x) := by
  unfold foundGuest
  with_reducible repeat' first | assumption | apply guestReport_keeps | apply wrE_keeps | apply wrB_keeps | apply modPort_keeps | apply Keeps.foldl | apply Keeps.ite | (intro; intros) | extract_lets | split | apply Keeps.upd

theorem beginShutdown_keeps {m : Bool} {o s : State} (h : Keeps m o s) : Keeps m o (beginShutdown s) := by
  unfold beginShutdown
  with_reducible repeat' first | assumption | apply Keeps.ite | extract_lets | split | apply Keeps.upd

theorem holdMantles_keeps {m : Bool} {o s : State} (h : Keeps m o s) : Keeps m o (holdMantles s) := by
  unfold holdMantles
  with_reducible repeat' first | assumption | apply failUpload_keeps | apply wrE_keeps | extract_lets | apply Keeps.upd

theorem freeMantles_keeps {m : Bool} {o s : State} (h : Keeps m o s) : Keeps m o (freeMantles s) := by
  unfold freeMantles
  with_reducible repeat' first | assumption | apply setDieState_keeps

theorem beginRestart_keeps {m : Bool} {o s : State} (h : Keeps m o s) : Keeps m o (beginRestart s) := by
  unfold beginRestart
  with_reducible repeat' first | assumption | apply beginShutdown_keeps | extract_lets | apply Keeps.upd

theorem restartModule_keeps {m : Bool} {o s : State} (x0 : Tab Nat) (x1 : List Byte) (h : Keeps m o s) : Keeps m o (restartModule s x0 x1).s := by
  unfold restartModule
  with_reducible repeat' first | assumption | apply beginRestart_keeps | apply Keeps.ite | split | apply Keeps.upd

theorem eraseStore_keeps {m : Bool} {o s : State} (x0 : Tab Nat) (x1 : List Byte) (h : Keeps m o s) : Keeps m o (eraseStore s x0 x1).s := by
  unfold eraseStore
  with_reducible repeat' first | assumption | apply beginRestart_keeps | apply forgetAll_keeps | apply Keeps.ite | split | apply Keeps.upd

theorem storeScalar_keeps (index sub : Nat) (ok : Nat → Bool) : WriterKeeps (storeScalar index sub ok) :=
  fun _ _ _ _ h => wrE_keeps _ _ _ h

theorem storeBytes_keeps (index sub : Nat) (ok : List Byte → Bool) : WriterKeeps (storeBytes index sub ok) :=
  fun _ _ _ _ h => wrB_keeps _ _ _ h

theorem diagOnly_keeps {w : Writer} (k : WriterKeeps w) : WriterKeeps (diagOnly w) := by
  intro o s sel v h
  unfold diagOnly
  dsimp only
  split
  · exact k _ _ _ _ h
  · exact h

theorem selectWriter_keeps (src : Party) (index sub limit : Nat) : WriterKeeps (selectWriter src index sub limit) :=
  fun _ _ _ _ h => putContext_keeps _ h

set_option maxRecDepth 4000 in
theorem writer1000_keeps (r : VdpReq) (index sub : Nat) {restore : State → Tab Nat → List Byte → Effect}
    (k : ∀ o s sel v, Keeps false o s → Keeps false o (restore s sel v).s) : WriterKeeps (writer1000 r index sub restore) := by
  unfold writer1000
  repeat' first | with_reducible exact storeScalar_keeps _ _ _ | with_reducible exact storeBytes_keeps _ _ _ | split
  all_goals intro o s sel v h; dsimp only
  all_goals repeat' first | with_reducible assumption | with_reducible apply k | with_reducible apply restartModule_keeps | with_reducible apply endUpload_keeps | with_reducible apply beginUpload_keeps | with_reducible apply handOver_keeps | with_reducible apply restartStandby_keeps | split

set_option maxRecDepth 4000 in
theorem writer2000_keeps (index sub : Nat) : WriterKeeps (writer2000 index sub) := by
  unfold writer2000
  repeat' first | with_reducible exact storeScalar_keeps _ _ _ | with_reducible exact storeBytes_keeps _ _ _ | split
  all_goals intro o s sel v h; dsimp only
  all_goals first | with_reducible exact writeRoles_keeps _ _ _ h | with_reducible exact writeMode_keeps _ _ h | with_reducible exact releaseLatch_keeps _ _ h | with_reducible exact writeLimit_keeps _ _ h | with_reducible exact startCalibration_keeps _ _ h | with_reducible exact switchGroup_keeps _ _ h | with_reducible exact restartDie_keeps _ _ h

set_option maxRecDepth 4000 in
theorem writer5000_keeps (src : Party) (index sub : Nat) : WriterKeeps (writer5000 src index sub) := by
  unfold writer5000
  repeat' first | with_reducible exact storeScalar_keeps _ _ _ | with_reducible exact storeBytes_keeps _ _ _ | with_reducible exact selectWriter_keeps _ _ _ _ | split
  all_goals intro o s sel v h; dsimp only
  all_goals first | with_reducible exact clearCounts_keeps _ h | with_reducible exact writeNode_keeps _ _ h | with_reducible exact clearQuarantine_keeps _ _ h | with_reducible exact writeRouteSet_keeps _ _ h | with_reducible exact writeRegion_keeps _ _ h | with_reducible exact setOwnerEntry_keeps _ _ h | with_reducible exact writeSlices_keeps _ _ h | with_reducible exact writeMulticast_keeps _ _ h | with_reducible exact startSweep_keeps _ _ h | with_reducible exact revokeLease_keeps _ _ h | with_reducible exact tearDown_keeps _ _ h | with_reducible exact startDemandScrub_keeps _ _ h | with_reducible exact startFill_keeps _ _ h

set_option maxRecDepth 4000 in
theorem writer7000_keeps (src : Party) (index sub : Nat) : WriterKeeps (writer7000 src index sub) := by
  unfold writer7000
  repeat' first | with_reducible exact storeScalar_keeps _ _ _ | with_reducible exact storeBytes_keeps _ _ _ | with_reducible exact selectWriter_keeps _ _ _ _ | split
  all_goals intro o s sel v h; dsimp only
  all_goals first | with_reducible exact writeSchedule_keeps _ _ _ h | with_reducible exact writePlanBody_keeps _ _ _ h | with_reducible exact startAdmission_keeps _ _ h | with_reducible exact withdraw_keeps _ _ h | with_reducible exact writeFlow_keeps _ _ h | with_reducible exact requestSwitch_keeps _ h | with_reducible exact startLoadPlan_keeps _ _ h | with_reducible exact startLoadSchedule_keeps _ _ h

theorem writeThresholds_keeps {m : Bool} {o s : State} (x0 : Tab Nat) (v : List Byte) (h : Keeps m o s) : Keeps m o (writeThresholds s x0 v).s := by
  unfold writeThresholds
  with_reducible repeat' first | assumption | apply wrB_keeps | apply Keeps.ite | split | apply Keeps.upd

set_option maxRecDepth 4000 in
theorem writer8000_keeps (index sub : Nat) : WriterKeeps (writer8000 index sub) := by
  unfold writer8000
  repeat' first | with_reducible exact storeScalar_keeps _ _ _ | with_reducible exact storeBytes_keeps _ _ _ | with_reducible apply diagOnly_keeps | split
  all_goals intro o s sel v h; dsimp only
  all_goals first | with_reducible exact abortOperation_keeps _ _ _ _ h | with_reducible exact clearLog_keeps _ _ h | with_reducible exact startSelfTest_keeps _ _ h | with_reducible exact sleepRequest_keeps _ _ h | with_reducible exact writeThresholds_keeps _ _ h | with_reducible exact setDiag_keeps _ _ h | with_reducible exact queueInjection_keeps _ _ h | with_reducible exact overrideTap_keeps _ _ h | with_reducible exact linesChanged_keeps _ (wrE_keeps _ _ _ h) | with_reducible exact setClocks_keeps (wrE_keeps _ _ _ h) | with_reducible exact eraseStore_keeps _ _ h

theorem restoreDefaults_keeps {o s : State} (sel : Tab Nat) (x1 : List Byte) (h : Keeps false o s) : Keeps false o (restoreDefaults s sel x1).s := by
  unfold restoreDefaults
  with_reducible repeat' first | assumption | apply writeMode_keeps | apply writeLimit_keeps | apply settleRoles_keeps | (intro; intros) | extract_lets | apply Keeps.upd

theorem writerOf_keeps (r : VdpReq) (index sub : Nat) : WriterKeeps (writerOf r index sub) := by
  unfold writerOf
  split
  · exact writer1000_keeps _ _ _ (fun _ _ _ _ h => restoreDefaults_keeps _ _ h)
  · split
    · exact writer2000_keeps _ _
    · split
      · exact writer5000_keeps _ _ _
      · split
        · exact writer7000_keeps _ _ _
        · exact writer8000_keeps _ _

theorem readFree_keeps {m : Bool} {o s : State} (index sub : Nat) (h : Keeps m o s) : Keeps m o (readFree s index sub) := by
  unfold readFree
  split
  · exact nextFree_keeps h
  · exact h

theorem readSnapshot_keeps {m : Bool} {o s : State} (r : VdpReq) (h : Keeps m o s) : Keeps m o (readSnapshot s r) := by
  unfold readSnapshot
  with_reducible repeat' first | assumption | apply refuse_keeps | apply answer_keeps | refine Keeps.fst (by assumption) ?_ | apply Keeps.ite | (intro; intros) | extract_lets | split | apply Keeps.upd

theorem readValue_keeps {m : Bool} {o s : State} (r : VdpReq) (e : Entry) (h : Keeps m o s) : Keeps m o (readValue s r e) := by
  unfold readValue
  with_reducible repeat' first | assumption | apply refuse_keeps | apply readFree_keeps | apply answer_keeps | apply Keeps.ite | extract_lets | split | apply Keeps.upd

theorem unlessRepeated_keeps {m : Bool} {o s : State} (r : VdpReq) (f : State → State) (h_f : ∀ y0, Keeps m o y0 → Keeps m o (f y0)) (h : Keeps m o s) : Keeps m o (unlessRepeated s r f) := by
  unfold unlessRepeated
  with_reducible repeat' first | assumption | apply unanswered_keeps | apply sendResp_keeps | apply h_f | refine Keeps.fst (by assumption) ?_ | apply Keeps.ite | split

theorem vdpReadAny_keeps {m : Bool} {o s : State} (r0 : VdpReq) (h : Keeps m o s) : Keeps m o (vdpReadAny s r0) := by
  unfold vdpReadAny
  with_reducible repeat' first | assumption | apply unlessRepeated_keeps | apply refuse_keeps | apply readSnapshot_keeps | apply readValue_keeps | refine Keeps.fst (by assumption) ?_ | apply Keeps.ite | (intro; intros) | extract_lets | split | apply Keeps.upd

theorem describe_keeps {m : Bool} {o s : State} (r0 : VdpReq) (h : Keeps m o s) : Keeps m o (describe s r0) := by
  unfold describe
  with_reducible repeat' first | assumption | apply unlessRepeated_keeps | apply refuse_keeps | apply answer_keeps | refine Keeps.fst (by assumption) ?_ | apply Keeps.ite | (intro; intros) | extract_lets | split | apply Keeps.upd

theorem groupOpen_keeps {m : Bool} {o s : State} (r0 : VdpReq) (h : Keeps m o s) : Keeps m o (groupOpen s r0) := by
  unfold groupOpen
  with_reducible repeat' first | assumption | apply unlessRepeated_keeps | apply refuse_keeps | apply putGroup_keeps | apply answer_keeps | apply standbyCopy_keeps | refine Keeps.fst (by assumption) ?_ | apply Keeps.ite | (intro; intros) | extract_lets | split | apply Keeps.upd

theorem stagedWriter_keeps (party : Party) (x : Staged) : WriterKeeps (stagedWriter party x) := writerOf_keeps _ _ _

theorem armGroup_keeps {m : Bool} {o s : State} (r : VdpReq) (g : Group) (sel : Tab Nat) (front : Nat) (h : Keeps m o s) : Keeps m o (armGroup s r g sel front) := by
  unfold armGroup
  with_reducible repeat' first | assumption | apply putGroup_keeps | apply answer_keeps | apply standbyCopy_keeps | apply Keeps.foldl | (intro; intros) | extract_lets | apply Keeps.upd

theorem groupCommit_keeps {m : Bool} {o s : State} (r0 : VdpReq) (h : Keeps m o s) : Keeps m o (groupCommit s r0) := by
  unfold groupCommit
  with_reducible repeat' first | assumption | apply unlessRepeated_keeps | apply refuse_keeps | apply putGroup_keeps | apply answer_keeps | apply armGroup_keeps | refine Keeps.fst (by assumption) ?_ | apply Keeps.ite | (intro; intros) | extract_lets | split | apply Keeps.upd

theorem groupDiscard_keeps {m : Bool} {o s : State} (r0 : VdpReq) (h : Keeps m o s) : Keeps m o (groupDiscard s r0) := by
  unfold groupDiscard
  with_reducible repeat' first | assumption | apply unlessRepeated_keeps | apply refuse_keeps | apply putGroup_keeps | apply answer_keeps | apply standbyCopy_keeps | apply Keeps.ite | (intro; intros) | extract_lets | split | apply Keeps.upd

theorem groupStatus_keeps {m : Bool} {o s : State} (r0 : VdpReq) (h : Keeps m o s) : Keeps m o (groupStatus s r0) := by
  unfold groupStatus
  with_reducible repeat' first | assumption | apply unlessRepeated_keeps | apply refuse_keeps | apply putGroup_keeps | apply answer_keeps | apply Keeps.ite | (intro; intros) | extract_lets | split | apply Keeps.upd

theorem atGroupFront_keeps {m : Bool} {o s : State} (x : Staged) (h : Keeps m o s) : Keeps m o (atGroupFront s x) := by
  unfold atGroupFront
  with_reducible repeat' first | assumption | apply Keeps.ite | (intro; intros) | extract_lets | split | apply Keeps.upd

theorem applyStaged_keeps {o u : State} {party : Party} {l : List Staged} : ∀ {s : State},
    applyStaged party l s = some u → Keeps false o s → Keeps false o u := by
  induction l with
  | nil => intro s e h; simp only [applyStaged, Option.some.injEq] at e; exact e ▸ h
  | cons x l ih =>
    intro s e h
    simp only [applyStaged] at e
    split at e
    · cases e
    · exact ih e (atGroupFront_keeps _ (stagedWriter_keeps _ _ _ _ _ _ h))

theorem persistStaged_keeps {m : Bool} {o s : State} (fails : Bool) (l : List Staged) (h : Keeps m o s) : Keeps m o (persistStaged s fails l) := by
  unfold persistStaged
  with_reducible repeat' first | assumption | apply persist_keeps | apply nextFree_keeps | apply report_keeps | apply Keeps.foldl | apply Keeps.ite | (intro; intros) | extract_lets | split | apply Keeps.upd

theorem applyGroup_keeps {o s : State} (nvFails : Bool) (n : Nat) (g : Group) (h : Keeps false o s) : Keeps false o (applyGroup nvFails s n g) := by
  unfold applyGroup
  with_reducible repeat' first | assumption | refine applyStaged_keeps (by assumption) ?_ | apply persistStaged_keeps | apply putGroup_keeps | apply dropGroup_keeps | refine Keeps.fst (by assumption) ?_ | split | apply Keeps.upd

theorem vdpWriteAny_keeps {o s : State} (r : VdpReq) (h : Keeps false o s) : Keeps false o (vdpWriteAny s r) := by
  unfold vdpWriteAny
  split
  · exact imageUpload_keeps _ h
  · exact vdpEntry_keeps _ _ _ (fun _ _ _ h => writerOf_keeps _ _ _ _ _ _ _ h) h

theorem vdpAny_keeps {o s : State} (r : VdpReq) (h : Keeps false o s) : Keeps false o (vdpAny s r) := by
  unfold vdpAny
  with_reducible repeat' first | assumption | apply vdpReadAny_keeps | apply vdpWriteAny_keeps | apply groupOpen_keeps | apply groupCommit_keeps | apply groupDiscard_keeps | apply groupStatus_keeps | apply describe_keeps | apply notifyAck_keeps | apply unlessRepeated_keeps | apply refuse_keeps | refine Keeps.fst (by assumption) ?_ | (intro; intros) | split

theorem epochAtFront_keeps {m : Bool} {o s : State} (h : Keeps m o s) : Keeps m o (epochAtFront s) := by
  unfold epochAtFront
  with_reducible repeat' first | assumption | apply stepEpoch_keeps | refine Keeps.fst (by assumption) ?_ | apply Keeps.ite | split | apply Keeps.upd

theorem groupsAtFront_keeps {o s : State} (nvFails : Bool) (n : Nat) (h : Keeps false o s) : Keeps false o (groupsAtFront nvFails n s) := by
  unfold groupsAtFront
  with_reducible repeat' first | assumption | apply applyGroup_keeps | apply Keeps.foldl | (intro; intros) | extract_lets

theorem reversionAtFront_keeps {m : Bool} {o s : State} (n : Nat) (h : Keeps m o s) : Keeps m o (reversionAtFront n s) := by
  unfold reversionAtFront
  with_reducible repeat' first | assumption | apply changeRef_keeps | refine Keeps.fst (by assumption) ?_ | apply Keeps.ite | split | apply Keeps.upd

theorem switchesAtFront_keeps {m : Bool} {o s : State} (h : Keeps m o s) : Keeps m o (switchesAtFront s) := by
  unfold switchesAtFront
  with_reducible repeat' first | assumption | apply switchAtFront_keeps | apply Keeps.foldl | (intro; intros) | extract_lets

theorem replicaAtFront_keeps {m : Bool} {o s : State} (x1 : Option Int) (h : Keeps m o s) : Keeps m o (replicaAtFront s x1) := by
  unfold replicaAtFront
  with_reducible repeat' first | assumption | apply report_keeps | refine Keeps.fst (by assumption) ?_ | split | apply Keeps.upd

theorem frontWork_keeps {o s : State} (nvFails : Bool) (replica : Option Int) (h : Keeps false o s) : Keeps false o (frontWork s nvFails replica) := by
  unfold frontWork
  with_reducible repeat' first | assumption | apply epochAtFront_keeps | apply replicaAtFront_keeps | apply reversionAtFront_keeps | apply groupsAtFront_keeps | apply switchesAtFront_keeps | apply jobsAtFront_keeps | apply clocksAtFront_keeps | apply sleepAtFront_keeps | apply rotationAtFront_keeps | extract_lets

theorem toFront_keeps {m : Bool} {o s : State} (f : Nat) (h : Keeps m o s) : Keeps m o (toFront s f) := by
  unfold toFront
  with_reducible repeat' first | assumption | apply atCount_keeps | apply slewFronts_keeps

theorem tick_keeps {o s : State} (h : Keeps false o s) : Keeps false o (tick s) := by
  unfold tick
  with_reducible repeat' first | assumption | apply frontWork_keeps | apply toFront_keeps | apply advanceTo_keeps | apply Keeps.ite | split

end Sys2Proof.Machine
end

