-- ==== Sys2Proof/Laws/KeepsHost.lean ====
section
/-! SUPPORT. What the operations of the host interface keep. -/
namespace Sys2Proof.Machine

theorem statusWrite_keeps {m : Bool} {o s : State} (fn : Nat) (r : Reg) (w : Nat) (h : Keeps m o s) : Keeps m o (statusWrite s fn r w) := by
  unfold statusWrite
  with_reducible repeat' first | assumption | apply modFunc_keeps | apply modDomain_keeps | apply modHQ_keeps | refine Keeps.fst (by assumption) ?_ | (intro; intros) | split | apply Keeps.upd

theorem applyDomain_keeps {m : Bool} {o s : State} (d : Nat) (x : PostedWrite) (h : Keeps m o s) : Keeps m o (applyDomain s d x) := by
  unfold applyDomain
  with_reducible repeat' first | assumption | apply syncAdd_keeps | apply requestWake_keeps | apply modDomain_keeps | refine Keeps.fst (by assumption) ?_ | apply Keeps.ite | (intro; intros) | split | apply Keeps.upd

theorem releaseReads_keeps {m : Bool} {o s : State} (d : Nat) (h : Keeps m o s) : Keeps m o (releaseReads s d) := by
  unfold releaseReads
  with_reducible repeat' first | assumption | apply modDomain_keeps | apply emit_keeps | apply Keeps.foldl | apply Keeps.ite | (intro; intros) | extract_lets | split | apply Keeps.upd

theorem postWrite_keeps {m : Bool} {o s : State} (d : Nat) (x : PostedWrite) (h : Keeps m o s) : Keeps m o (postWrite s d x) := by
  unfold postWrite
  with_reducible repeat' first | assumption | apply releaseReads_keeps | apply raiseDomain_keeps | apply modDomain_keeps | apply Keeps.ite | (intro; intros) | extract_lets | split | apply Keeps.upd

theorem settleWrite_keeps {m : Bool} {o s : State} (d : Nat) (h : Keeps m o s) : Keeps m o (settleWrite s d) := by
  unfold settleWrite
  with_reducible repeat' first | assumption | apply releaseReads_keeps | apply applyDomain_keeps | apply modDomain_keeps | refine Keeps.fst (by assumption) ?_ | apply Keeps.ite | (intro; intros) | extract_lets | split | apply Keeps.upd

theorem writeQctrl_keeps {m : Bool} {o s : State} (q : Nat) (v : Nat) (h : Keeps m o s) : Keeps m o (writeQctrl s q v) := by
  unfold writeQctrl
  with_reducible repeat' first | assumption | apply modHQ_keeps | apply raiseQueue_keeps | apply Keeps.ite | (intro; intros) | extract_lets | split | apply Keeps.upd

theorem writeQueueReg_keeps {m : Bool} {o s : State} (q : Nat) (r : Nat) (v : Nat) (h : Keeps m o s) : Keeps m o (writeQueueReg s q r v) := by
  unfold writeQueueReg
  with_reducible repeat' first | assumption | apply writeQctrl_keeps | apply raiseQueue_keeps | apply modHQ_keeps | refine Keeps.fst (by assumption) ?_ | apply Keeps.ite | (intro; intros) | split | apply Keeps.upd

theorem ringMailbox_keeps {o s : State} (fn : Nat) (v : Nat) (nvFails : Bool) (copyFails : Bool) (h : Keeps false o s) : Keeps false o (ringMailbox s fn v nvFails copyFails) := by
  unfold ringMailbox
  with_reducible repeat' first | assumption | apply raiseMbox_keeps | apply modFunc_keeps | apply vdpAny_keeps | apply Keeps.ite | (intro; intros) | extract_lets | split | apply Keeps.upd

theorem bell_keeps {o s : State} (fn : Nat) (v : Nat) (h : Keeps false o s) : Keeps false o (bell s fn v) := by
  unfold bell
  with_reducible repeat' first | assumption | apply ringMailbox_keeps

theorem takeHeld_keeps {o s : State} (fn : Nat) (h : Keeps false o s) : Keeps false o (takeHeld s fn) := by
  unfold takeHeld
  with_reducible repeat' first | assumption | apply vdpAny_keeps | apply modFunc_keeps | refine Keeps.fst (by assumption) ?_ | apply Keeps.ite | (intro; intros) | split | apply Keeps.upd

theorem writeMsix_keeps {m : Bool} {o s : State} (fn : Nat) (i : Nat) (v : Nat) (h : Keeps m o s) : Keeps m o (writeMsix s fn i v) := by
  unfold writeMsix
  with_reducible repeat' first | assumption | apply modFunc_keeps | apply raiseVector_keeps | apply Keeps.ite | (intro; intros) | extract_lets | split | apply Keeps.upd

theorem setReg_keeps {m : Bool} {o s : State} (fn : Nat) (r : Reg) (v : Nat) (h : Keeps m o s) : Keeps m o (setReg s fn r v) := by
  unfold setReg
  with_reducible repeat' first | assumption | apply modFunc_keeps | apply writeQueueReg_keeps | apply writeMsix_keeps | refine Keeps.fst (by assumption) ?_ | (intro; intros) | extract_lets | split | apply Keeps.upd

theorem regWrite_keeps {o s : State} (fn : Nat) (window : Nat) (off : Nat) (w : Nat) (h : Keeps false o s) : Keeps false o (regWrite s fn window off w) := by
  unfold regWrite
  with_reducible repeat' first | assumption | apply raiseHb_keeps | apply statusWrite_keeps | apply postWrite_keeps | apply bell_keeps | apply setReg_keeps | refine Keeps.fst (by assumption) ?_ | apply Keeps.ite | extract_lets | split | apply Keeps.upd

theorem useFn_keeps {m : Bool} {o s : State} (fn : Nat) (h : Keeps m o s) : Keeps m o (useFn s fn) := by
  unfold useFn
  with_reducible repeat' first | assumption | apply wrE_keeps | apply Keeps.ite | split

theorem windowWrite_keeps {o s : State} (fn : Nat) (window : Nat) (off : Nat) (data : List Byte) (h : Keeps false o s) : Keeps false o (windowWrite s fn window off data) := by
  unfold windowWrite
  with_reducible repeat' first | assumption | apply regWrite_keeps | apply raiseHb_keeps | apply Keeps.ite | split

theorem writeTail_keeps {m : Bool} {o s : State} (q : Nat) (v : Nat) (h : Keeps m o s) : Keeps m o (writeTail s q v) := by
  unfold writeTail
  with_reducible repeat' first | assumption | apply raiseQueue_keeps | apply modHQ_keeps | apply Keeps.ite | (intro; intros) | split | apply Keeps.upd

theorem writeHead_keeps {m : Bool} {o s : State} (q : Nat) (v : Nat) (h : Keeps m o s) : Keeps m o (writeHead s q v) := by
  unfold writeHead
  with_reducible repeat' first | assumption | apply raiseQueue_keeps | apply modHQ_keeps | apply Keeps.ite | (intro; intros) | split | apply Keeps.upd

theorem bar2Write_keeps {m : Bool} {o s : State} (fn : Nat) (off : Nat) (data : List Byte) (h : Keeps m o s) : Keeps m o (bar2Write s fn off data) := by
  unfold bar2Write
  with_reducible repeat' first | assumption | apply modHQ_keeps | apply raiseHb_keeps | apply writeTail_keeps | apply writeHead_keeps | refine Keeps.fst (by assumption) ?_ | apply Keeps.ite | (intro; intros) | extract_lets | split | apply Keeps.upd

theorem readNow_keeps {m : Bool} {o s : State} (fn : Nat) (off : Nat) (h : Keeps m o s) : Keeps m o (readNow s fn off) := by
  unfold readNow
  with_reducible repeat' first | assumption | apply emit_keeps

theorem readEpoch_keeps {m : Bool} {o s : State} (fn : Nat) (h : Keeps m o s) : Keeps m o (readEpoch s fn) := by
  unfold readEpoch
  with_reducible repeat' first | assumption | apply readNow_keeps | apply modFunc_keeps | (intro; intros) | apply Keeps.upd

theorem readFence_keeps {m : Bool} {o s : State} (h : Keeps m o s) : Keeps m o (readFence s) := by
  unfold readFence
  with_reducible repeat' first | assumption | apply settleFences_keeps | apply Keeps.upd

theorem readReg_keeps {m : Bool} {o s : State} (fn : Nat) (off : Nat) (h : Keeps m o s) : Keeps m o (readReg s fn off) := by
  unfold readReg
  with_reducible repeat' first | assumption | apply releaseReads_keeps | apply readNow_keeps | apply modDomain_keeps | apply readEpoch_keeps | apply readFence_keeps | refine Keeps.fst (by assumption) ?_ | apply Keeps.ite | (intro; intros) | extract_lets | split | apply Keeps.upd

theorem recoverDomain_keeps {m : Bool} {o s : State} (d : Nat) (h : Keeps m o s) : Keeps m o (recoverDomain s d) := by
  unfold recoverDomain
  with_reducible repeat' first | assumption | apply modDomain_keeps | apply emit_keeps | apply raiseDomain_keeps | apply report_keeps | apply wrE_keeps | apply Keeps.foldl | apply Keeps.ite | (intro; intros) | extract_lets | split | apply Keeps.upd

theorem deliverResponse_keeps {o s : State} (fn : Nat) (h : Keeps false o s) : Keeps false o (deliverResponse s fn) := by
  unfold deliverResponse
  with_reducible repeat' first | assumption | apply takeHeld_keeps | apply raiseMbox_keeps | apply modFunc_keeps | refine Keeps.fst (by assumption) ?_ | (intro; intros) | extract_lets | split | apply Keeps.upd

theorem writeThrough_keeps {o s : State} (off : Nat) (value : Nat) (h : Keeps false o s) : Keeps false o (writeThrough s off value) := by
  unfold writeThrough
  with_reducible repeat' first | assumption | apply settleWrite_keeps | apply regWrite_keeps | refine Keeps.fst (by assumption) ?_ | split

theorem qctrlWrite_keeps {m : Bool} {o s : State} (fn : Nat) (i : Nat) (value : Nat) (h : Keeps m o s) : Keeps m o (qctrlWrite s fn i value) := by
  unfold qctrlWrite
  with_reducible repeat' first | assumption | apply writeQctrl_keeps | refine Keeps.fst (by assumption) ?_ | split

theorem stopQueue_keeps {m : Bool} {o s : State} (q : Nat) (h : Keeps m o s) : Keeps m o (stopQueue s q) := by
  unfold stopQueue
  with_reducible repeat' first | assumption | apply quarantineTag_keeps | apply putTrack_keeps | apply modHQ_keeps | refine Keeps.fst (by assumption) ?_ | apply Keeps.foldl | (intro; intros) | extract_lets | split | apply Keeps.upd

theorem dmaFault_keeps {m : Bool} {o s : State} (q : Nat) (addr : Nat) (h : Keeps m o s) : Keeps m o (dmaFault s q addr) := by
  unfold dmaFault
  with_reducible repeat' first | assumption | apply report_keeps | apply raiseQueue_keeps | apply stopQueue_keeps | extract_lets | apply Keeps.upd

theorem resetFn_keeps {m : Bool} {o s : State} (fn : Nat) (waits : Bool) (h : Keeps m o s) : Keeps m o (resetFn s fn waits) := by
  unfold resetFn
  with_reducible repeat' first | assumption | apply modFunc_keeps | apply dropContext_keeps | apply Keeps.foldl | apply Keeps.ite | (intro; intros) | extract_lets | split | apply Keeps.upd

theorem resetVf_keeps {m : Bool} {o s : State} (v : Nat) (h : Keeps m o s) : Keeps m o (resetVf s v) := by
  unfold resetVf
  with_reducible repeat' first | assumption | apply resetFn_keeps | apply Keeps.ite | split

theorem resetAll_keeps {m : Bool} {o s : State} (h : Keeps m o s) : Keeps m o (resetAll s) := by
  unfold resetAll
  with_reducible repeat' first | assumption | apply resetFn_keeps | apply wrE_keeps | apply Keeps.foldl | (intro; intros) | extract_lets | apply Keeps.upd

theorem flr_keeps {m : Bool} {o s : State} (fn : Nat) (h : Keeps m o s) : Keeps m o (flr s fn) := by
  unfold flr
  with_reducible repeat' first | assumption | apply resetAll_keeps | apply resetVf_keeps | apply Keeps.ite | split

theorem fetchEntry_keeps {m : Bool} {o s : State} (q : Nat) (entry : List Byte) (h : Keeps m o s) : Keeps m o (fetchEntry s q entry) := by
  unfold fetchEntry
  with_reducible repeat' first | assumption | apply modHQ_keeps | apply Keeps.ite | (intro; intros) | extract_lets | split | apply Keeps.upd

theorem issuePiece_keeps {m : Bool} {o s : State} (q : Nat) (idx : Nat) (i : Nat) (kind : Nat) (e : HEntry) (data : List Byte) (c : Option DWord) (h : Keeps m o s) : Keeps m o (issuePiece s q idx i kind e data c) := by
  unfold issuePiece
  with_reducible repeat' first | assumption | apply pieceEnd_keeps | refine sendBridge_keeps (by assumption) ?_ | apply markTwice_keeps | refine Keeps.fst (by assumption) ?_ | apply Keeps.ite | extract_lets | split

theorem issueSignal_keeps {m : Bool} {o s : State} (q : Nat) (idx : Nat) (kind : Nat) (e : HEntry) (operand : Nat) (data : List Byte) (h : Keeps m o s) : Keeps m o (issueSignal s q idx kind e operand data) := by
  unfold issueSignal
  with_reducible repeat' first | assumption | apply modEnt_keeps | refine sendBridge_keeps (by assumption) ?_ | refine Keeps.fst (by assumption) ?_ | apply Keeps.ite | (intro; intros) | extract_lets | split | apply Keeps.upd

theorem issueAdd_keeps {m : Bool} {o s : State} (q : Nat) (idx : Nat) (e : HEntry) (h : Keeps m o s) : Keeps m o (issueAdd s q idx e) := by
  unfold issueAdd
  with_reducible repeat' first | assumption | apply issueSignal_keeps

theorem stepWrite_keeps {m : Bool} {o s : State} (q : Nat) (idx : Nat) (e : HEntry) (data : List Byte) (fault : Bool) (h : Keeps m o s) : Keeps m o (stepWrite s q idx e data fault) := by
  unfold stepWrite
  with_reducible repeat' first | assumption | apply modEnt_keeps | apply pieceEnd_keeps | apply issuePiece_keeps | apply issueAdd_keeps | refine Keeps.fst (by assumption) ?_ | apply Keeps.ite | (intro; intros) | extract_lets | split | apply Keeps.upd

theorem stepRead_keeps {m : Bool} {o s : State} (q : Nat) (idx : Nat) (e : HEntry) (h : Keeps m o s) : Keeps m o (stepRead s q idx e) := by
  unfold stepRead
  with_reducible repeat' first | assumption | apply issuePiece_keeps | apply modEnt_keeps | apply Keeps.ite | (intro; intros) | split | apply Keeps.upd

theorem stepWait_keeps {m : Bool} {o s : State} (q : Nat) (idx : Nat) (e : HEntry) (h : Keeps m o s) : Keeps m o (stepWait s q idx e) := by
  unfold stepWait
  with_reducible repeat' first | assumption | apply modEnt_keeps | apply issueSignal_keeps | apply Keeps.ite | (intro; intros) | extract_lets | split | apply Keeps.upd

theorem signalQueue_keeps {m : Bool} {o s : State} (q : Nat) (h : Keeps m o s) : Keeps m o (signalQueue s q) := by
  unfold signalQueue
  with_reducible repeat' first | assumption | apply modHQ_keeps | apply raiseVector_keeps | apply Keeps.ite | (intro; intros) | extract_lets | split | apply Keeps.upd

theorem writeRecord_keeps {m : Bool} {o s : State} (q : Nat) (e : HEntry) (st : Nat) (d : Nat) (h : Keeps m o s) : Keeps m o (writeRecord s q e st d) := by
  unfold writeRecord
  with_reducible repeat' first | assumption | apply emit_keeps | apply modHQ_keeps | apply signalQueue_keeps | apply Keeps.ite | (intro; intros) | extract_lets | split | apply Keeps.upd

theorem watchAt_keeps {m : Bool} {o s : State} (st : Nat) (p : Pkt) (h : Keeps m o s) : Keeps m o (watchAt s st p) := by
  unfold watchAt
  with_reducible repeat' first | assumption | apply enqueue_keeps | apply bump_keeps | apply Keeps.ite | (intro; intros) | extract_lets | split | apply Keeps.upd

theorem sendBar_keeps {m : Bool} {o s : State} (o1 : BarOp) (data : List Byte) (x3 : Nat) (x4 : Nat) (h : Keeps m o s) : Keeps m o (sendBar s o1 data x3 x4) := by
  induction x3 generalizing s x4 with
  | zero => unfold sendBar; exact h
  | succ n ih =>
    unfold sendBar
    with_reducible repeat' first | assumption | apply ih | apply barPiece_keeps | refine Keeps.fst (by assumption) ?_ | refine sendBridge_keeps (by assumption) ?_ | apply Keeps.ite | extract_lets | split

theorem startBar_keeps {m : Bool} {o s : State} (write : Bool) (off : Nat) (len : Nat) (data : List Byte) (h : Keeps m o s) : Keeps m o (startBar s write off len data) := by
  unfold startBar
  with_reducible repeat' first | assumption | apply sendBar_keeps | apply Keeps.ite | extract_lets | split | apply Keeps.upd

end Sys2Proof.Machine
end

