-- ==== Sys2Proof/Laws/KeepsCommandsA.lean ====
section
/-! SUPPORT. What each command of the tiles and the links keeps: `execX_keeps` says that it answers a next state and
what that state keeps. -/
namespace Sys2Proof.Machine

theorem execCodewordReceive_keeps {m : Bool} {o s : State} (st : Nat) (port : Nat) (line : Nat) (seq : Nat) (data : List Byte) (errs : Nat) (locked : Bool) (h : Keeps m o s) : OutKeeps m o (execCodewordReceive st port line seq data errs locked s) := by
  unfold execCodewordReceive
  with_reducible repeat' first | assumption | apply failMeshLane_keeps | apply nextFree_keeps | apply bump_keeps | apply meshWindow_keeps | apply failCircuitLane_keeps | apply useInjections_keeps | apply noteCorrected_keeps | apply modPort_keeps | apply deliverInOrder_keeps | apply tell_keeps | apply portWindow'_keeps | apply Keeps.ite | apply OutKeeps.next | apply OutKeeps.ite | (intro; intros) | extract_lets | split | apply Keeps.upd

theorem execLaneControlCodeword_keeps {m : Bool} {o s : State} (st : Nat) (port : Nat) (line : Nat) (ack : Option Nat) (naks : List Nat) (credits : List Nat) (lineMap : Nat) (errs : Nat) (h : Keeps m o s) : OutKeeps m o (execLaneControlCodeword st port line ack naks credits lineMap errs s) := by
  unfold execLaneControlCodeword
  with_reducible repeat' first | assumption | apply nextFree_keeps | apply portWindow'_keeps | apply tell_keeps | apply noteCorrected_keeps | apply modPort_keeps | apply dropCodeword_keeps | apply failCircuitLane_keeps | apply pump_keeps | apply reagree_keeps | refine Keeps.fst (by assumption) ?_ | apply Keeps.foldl | apply Keeps.ite | apply OutKeeps.next | apply OutKeeps.ite | (intro; intros) | extract_lets | split | apply Keeps.upd

theorem execCodewordResend_keeps {m : Bool} {o s : State} (st : Nat) (port : Nat) (h : Keeps m o s) : OutKeeps m o (execCodewordResend st port s) := by
  unfold execCodewordResend
  with_reducible repeat' first | assumption | apply advanceTo_keeps | apply modPort_keeps | apply placeCodeword_keeps | apply bump_keeps | refine Keeps.fst (by assumption) ?_ | apply Keeps.ite | apply OutKeeps.next | apply OutKeeps.ite | (intro; intros) | extract_lets | split | apply Keeps.upd

theorem execMeshSlot_keeps {m : Bool} {o s : State} (h : Keeps m o s) : OutKeeps m o (execMeshSlot s) := by
  unfold execMeshSlot
  with_reducible repeat' first | assumption | apply transmit_keeps | apply grantAll_keeps | refine Keeps.fst (by assumption) ?_ | apply Keeps.foldl | apply Keeps.ite | apply OutKeeps.next | apply OutKeeps.ite | (intro; intros) | extract_lets | split | apply Keeps.upd

theorem execMeshSlotAck_keeps {m : Bool} {o s : State} (src : Nat) (seq : Nat) (dst : Nat) (ok : Bool) (h : Keeps m o s) : OutKeeps m o (execMeshSlotAck src seq dst ok s) := by
  unfold execMeshSlotAck
  with_reducible repeat' first | assumption | apply bump_keeps | apply useInjections_keeps | apply modStation_keeps | apply deliverSlots_keeps | apply dropSlot_keeps | refine Keeps.fst (by assumption) ?_ | apply Keeps.ite | apply OutKeeps.next | apply OutKeeps.ite | (intro; intros) | extract_lets | split | apply Keeps.upd

theorem execLoadPlan_keeps {m : Bool} {o s : State} (r : VdpReq) (h : Keeps m o s) : OutKeeps m o (execLoadPlan r s) := by
  unfold execLoadPlan
  with_reducible repeat' first | assumption | apply vdpEntry_keeps | apply startLoadPlan_keeps | apply OutKeeps.next | (intro; intros)

theorem execPlanLoadDone_keeps {m : Bool} {o s : State} (h : Keeps m o s) : OutKeeps m o (execPlanLoadDone s) := by
  unfold execPlanLoadDone
  with_reducible repeat' first | assumption | apply wrE_keeps | apply endOp_keeps | apply setPlanState_keeps | refine Keeps.fst (by assumption) ?_ | apply Keeps.ite | apply OutKeeps.next | apply OutKeeps.ite | extract_lets | split

theorem execPlanBodyWrite_keeps {m : Bool} {o s : State} (p : Nat) (r : VdpReq) (h : Keeps m o s) : OutKeeps m o (execPlanBodyWrite p r s) := by
  unfold execPlanBodyWrite
  with_reducible repeat' first | assumption | apply vdpEntry_keeps | apply writePlanBody_keeps | apply OutKeeps.next | (intro; intros)

theorem execSwitchRequest_keeps {m : Bool} {o s : State} (r : VdpReq) (h : Keeps m o s) : OutKeeps m o (execSwitchRequest r s) := by
  unfold execSwitchRequest
  with_reducible repeat' first | assumption | apply vdpEntry_keeps | apply requestSwitch_keeps | refine Keeps.fst (by assumption) ?_ | apply OutKeeps.next | (intro; intros) | extract_lets | split | apply Keeps.upd

theorem execPlanSwitchDrain_keeps {m : Bool} {o s : State} (h : Keeps m o s) : OutKeeps m o (execPlanSwitchDrain s) := by
  unfold execPlanSwitchDrain
  with_reducible repeat' first | assumption | apply advanceTo_keeps | apply modPort_keeps | refine Keeps.fst (by assumption) ?_ | apply Keeps.foldl | apply OutKeeps.next | (intro; intros) | extract_lets | split | apply Keeps.upd

theorem execPlanSwitchFirstData_keeps {m : Bool} {o s : State} (st : Nat) (port : Nat) (ns : Nat) (failedLanes farLanes : Nat) (h : Keeps m o s) : OutKeeps m o (execPlanSwitchFirstData st port ns failedLanes farLanes s) := by
  unfold execPlanSwitchFirstData
  with_reducible repeat' first | assumption | apply modPort_keeps | apply portReport_keeps | apply wrE_keeps | apply stayDown_keeps | apply agreeLines_keeps | apply switchTimed_keeps | apply tell_keeps | apply pump_keeps | refine Keeps.fst (by assumption) ?_ | apply Keeps.ite | apply OutKeeps.next | apply OutKeeps.ite | (intro; intros) | extract_lets | split | apply Keeps.upd

theorem execHemLaneFailed_keeps {o s : State} (link : Nat) (line : Nat) (h : Keeps false o s) : OutKeeps false o (execHemLaneFailed link line s) := by
  unfold execHemLaneFailed
  with_reducible repeat' first | assumption | apply failHemLane_keeps | apply Keeps.ite | apply OutKeeps.next | apply OutKeeps.ite | split

theorem execHemFrameReceive_keeps {o s : State} (link : Nat) (line : Nat) (seq : Nat) (frame : List Byte) (errs : Nat) (h : Keeps false o s) : OutKeeps false o (execHemFrameReceive link line seq frame errs s) := by
  unfold execHemFrameReceive
  with_reducible repeat' first | assumption | apply useInjections_keeps | apply nextFree_keeps | apply noteSymbols_keeps | apply frameWindow_keeps | apply tellGroup_keeps | apply frameLost_keeps | apply piggyback_keeps | apply frameData_keeps | apply Keeps.ite | apply OutKeeps.next | apply OutKeeps.ite | extract_lets | split

theorem execHemControlFrame_keeps {o s : State} (link : Nat) (line : Nat) (frame : List Byte) (errs : Nat) (h : Keeps false o s) : OutKeeps false o (execHemControlFrame link line frame errs s) := by
  unfold execHemControlFrame
  with_reducible repeat' first | assumption | apply useInjections_keeps | apply nextFree_keeps | apply noteSymbols_keeps | apply frameWindow_keeps | apply modGroup_keeps | apply checkIdentity_keeps | apply downWithoutLanes_keeps | apply takeControl_keeps | apply offsetStamp_keeps | apply tellGroup_keeps | apply piggyback_keeps | apply Keeps.ite | apply OutKeeps.next | apply OutKeeps.ite | (intro; intros) | extract_lets | split

theorem execHemFrameResend_keeps {m : Bool} {o s : State} (link : Nat) (g : Nat) (h : Keeps m o s) : OutKeeps m o (execHemFrameResend link g s) := by
  unfold execHemFrameResend
  with_reducible repeat' first | assumption | apply advanceTo_keeps | apply hemPumpAll_keeps | apply dropFrame_keeps | apply modGroup_keeps | apply placeFrame_keeps | apply bump_keeps | refine Keeps.fst (by assumption) ?_ | apply Keeps.ite | apply OutKeeps.next | apply OutKeeps.ite | (intro; intros) | extract_lets | split | apply Keeps.upd

theorem execHemTrainingStart_keeps {m : Bool} {o s : State} (link : Nat) (g : Nat) (ms : List Measure) (h : Keeps m o s) : OutKeeps m o (execHemTrainingStart link g ms s) := by
  unfold execHemTrainingStart
  with_reducible repeat' first | assumption | apply modGroup_keeps | apply emitFrame_keeps | apply applyDecided_keeps | apply hemReport_keeps | apply tellGroup_keeps | apply Keeps.foldl | apply Keeps.ite | apply OutKeeps.next | apply OutKeeps.ite | (intro; intros) | extract_lets | split | apply Keeps.upd

theorem execHemGroupUp_keeps {m : Bool} {o s : State} (link : Nat) (g : Nat) (latency : Nat) (h : Keeps m o s) : OutKeeps m o (execHemGroupUp link g latency s) := by
  unfold execHemGroupUp
  with_reducible repeat' first | assumption | apply modGroup_keeps | apply tellGroup_keeps | apply hemPumpAll_keeps | apply Keeps.ite | apply OutKeeps.next | apply OutKeeps.ite | (intro; intros) | extract_lets | split | apply Keeps.upd

theorem execClearQuarantine_keeps {m : Bool} {o s : State} (r : VdpReq) (h : Keeps m o s) : OutKeeps m o (execClearQuarantine r s) := by
  unfold execClearQuarantine
  with_reducible repeat' first | assumption | apply vdpEntry_keeps | apply clearQuarantine_keeps | apply OutKeeps.next | (intro; intros)

theorem execLossOfLight_keeps {o s : State} (link : Nat) (group : Nat) (space : Bool) (h : Keeps false o s) : OutKeeps false o (execLossOfLight link group space s) := by
  unfold execLossOfLight
  with_reducible repeat' first | assumption | apply loseLight_keeps | apply Keeps.ite | apply OutKeeps.next | apply OutKeeps.ite | split

theorem execPortRolesWrite_keeps {o s : State} (x : Nat) (r : VdpReq) (h : Keeps false o s) : OutKeeps false o (execPortRolesWrite x r s) := by
  unfold execPortRolesWrite
  with_reducible repeat' first | assumption | apply vdpEntry_keeps | apply writeRoles_keeps | apply OutKeeps.next | (intro; intros)

theorem execNodeNumberWrite_keeps {m : Bool} {o s : State} (r : VdpReq) (h : Keeps m o s) : OutKeeps m o (execNodeNumberWrite r s) := by
  unfold execNodeNumberWrite
  with_reducible repeat' first | assumption | apply vdpEntry_keeps | apply writeNode_keeps | apply OutKeeps.next | (intro; intros)

theorem execRouteSetWrite_keeps {m : Bool} {o s : State} (r : VdpReq) (h : Keeps m o s) : OutKeeps m o (execRouteSetWrite r s) := by
  unfold execRouteSetWrite
  with_reducible repeat' first | assumption | apply vdpEntry_keeps | apply writeRouteSet_keeps | apply OutKeeps.next | (intro; intros)

theorem execAllowedSlicesWrite_keeps {m : Bool} {o s : State} (r : VdpReq) (h : Keeps m o s) : OutKeeps m o (execAllowedSlicesWrite r s) := by
  unfold execAllowedSlicesWrite
  with_reducible repeat' first | assumption | apply vdpEntry_keeps | apply writeSlices_keeps | apply OutKeeps.next | (intro; intros)

theorem execMulticastCopyReceive_keeps {o s : State} (link : Nat) (p : Pkt) (h : Keeps false o s) : OutKeeps false o (execMulticastCopyReceive link p s) := by
  unfold execMulticastCopyReceive
  with_reducible repeat' first | assumption | apply arriveCopy_keeps | apply Keeps.ite | apply OutKeeps.next | apply OutKeeps.ite | split

theorem execMulticastGroupWrite_keeps {m : Bool} {o s : State} (r : VdpReq) (h : Keeps m o s) : OutKeeps m o (execMulticastGroupWrite r s) := by
  unfold execMulticastGroupWrite
  with_reducible repeat' first | assumption | apply vdpEntry_keeps | apply writeMulticast_keeps | apply OutKeeps.next | (intro; intros)

theorem execStartSweep_keeps {m : Bool} {o s : State} (r : VdpReq) (h : Keeps m o s) : OutKeeps m o (execStartSweep r s) := by
  unfold execStartSweep
  with_reducible repeat' first | assumption | apply vdpEntry_keeps | apply startSweep_keeps | apply OutKeeps.next | (intro; intros)

theorem execSweep_keeps {o s : State} (link : Nat) (group : Nat) (p : Pkt) (h : Keeps false o s) : OutKeeps false o (execSweep link group p s) := by
  unfold execSweep
  with_reducible repeat' first | assumption | apply sweepArrive_keeps | apply Keeps.ite | apply OutKeeps.next | apply OutKeeps.ite | split

theorem execSweepReply_keeps {m : Bool} {o s : State} (p : Pkt) (h : Keeps m o s) : OutKeeps m o (execSweepReply p s) := by
  unfold execSweepReply
  with_reducible repeat' first | assumption | apply endSweep_keeps | apply Keeps.ite | apply OutKeeps.next | apply OutKeeps.ite | extract_lets | split

theorem execSweepLost_keeps {m : Bool} {o s : State} (h : Keeps m o s) : OutKeeps m o (execSweepLost s) := by
  unfold execSweepLost
  with_reducible repeat' first | assumption | apply endSweep_keeps | apply advanceTo_keeps | apply Keeps.ite | apply OutKeeps.next | apply OutKeeps.ite | split

theorem execHemPacketReceive_keeps {o s : State} (link : Nat) (group : Nat) (data : List Byte) (space : Bool) (h : Keeps false o s) : OutKeeps false o (execHemPacketReceive link group data space s) := by
  unfold execHemPacketReceive
  with_reducible repeat' first | assumption | apply hemReport_keeps | apply bump_keeps | apply leaveBuffer_keeps | apply sliceFail_keeps | apply arriveCopy_keeps | apply sweepArrive_keeps | apply forwardPkt_keeps | refine Keeps.fst (by assumption) ?_ | apply Keeps.ite | apply OutKeeps.next | apply OutKeeps.ite | extract_lets | split

theorem execRouteFail_keeps {o s : State} (st : Nat) (p : Pkt) (h : Keeps false o s) : OutKeeps false o (execRouteFail st p s) := by
  unfold execRouteFail
  with_reducible repeat' first | assumption | apply failAtSource_keeps | apply Keeps.ite | apply OutKeeps.next | apply OutKeeps.ite | split

theorem execSliceFail_keeps {o s : State} (st : Nat) (p : Pkt) (h : Keeps false o s) : OutKeeps false o (execSliceFail st p s) := by
  unfold execSliceFail
  with_reducible repeat' first | assumption | apply failAtSource_keeps | apply Keeps.ite | apply OutKeeps.next | apply OutKeeps.ite | split

theorem execPacketSend_keeps {o s : State} (st : Nat) (crossing : Nat) (space : Bool) (h : Keeps false o s) :
    OutKeeps false o (execPacketSend st crossing space s) := by
  unfold execPacketSend
  split
  · exact .next h
  · have hu := settleReplicator_keeps (o := o) st h
    extract_lets u
    have hu : Keeps false o u := hu
    clear_value u
    split
    · next t e =>
      refine .next ?_
      simp only [Option.orElse_eq_orElse, Option.orElse_eq_or] at e
      rcases Option.or_eq_some_iff.mp e with e | ⟨-, e⟩
      · exact takeFirst_keeps e hu
      · rcases Option.or_eq_some_iff.mp e with e | ⟨-, e⟩
        · exact copyFirst_keeps e hu
        · exact releaseFirst_keeps e hu
    · exact .next hu

theorem execShaperRelease_keeps {o s : State} (slot : Nat) (crossing : Nat) (space : Bool) (h : Keeps false o s) : OutKeeps false o (execShaperRelease slot crossing space s) := by
  unfold execShaperRelease
  with_reducible repeat' first | assumption | apply advanceTo_keeps | apply putShaper_keeps | apply countOverrun_keeps | apply depart_keeps | refine Keeps.fst (by assumption) ?_ | apply Keeps.ite | apply OutKeeps.next | apply OutKeeps.ite | (intro; intros) | extract_lets | split | apply Keeps.upd

theorem execLoadSchedule_keeps {m : Bool} {o s : State} (r : VdpReq) (h : Keeps m o s) : OutKeeps m o (execLoadSchedule r s) := by
  unfold execLoadSchedule
  with_reducible repeat' first | assumption | apply vdpEntry_keeps | apply startLoadSchedule_keeps | apply OutKeeps.next | (intro; intros)

theorem execScheduleLoadDone_keeps {m : Bool} {o s : State} (h : Keeps m o s) : OutKeeps m o (execScheduleLoadDone s) := by
  unfold execScheduleLoadDone
  with_reducible repeat' first | assumption | apply wrE_keeps | apply endOp_keeps | apply setSchState_keeps | refine Keeps.fst (by assumption) ?_ | apply Keeps.ite | apply OutKeeps.next | apply OutKeeps.ite | extract_lets | split

theorem execScheduleBodyWrite_keeps {m : Bool} {o s : State} (i : Nat) (r : VdpReq) (h : Keeps m o s) : OutKeeps m o (execScheduleBodyWrite i r s) := by
  unfold execScheduleBodyWrite
  with_reducible repeat' first | assumption | apply vdpEntry_keeps | apply writeSchedule_keeps | apply OutKeeps.next | (intro; intros)

theorem execTdIssue_keeps {o s : State} (t p rd : Nat) (rs1 rs2 : DWord) (pmpDenied : Bool) (h : Keeps false o s) :
    OutKeeps false o (execTdIssue t p rd rs1 rs2 pmpDenied s) := by
  unfold execTdIssue
  extract_lets a tl d kind core q code
  clear_value q code core
  split
  · exact .next h
  · split
    · exact .next (setRd_keeps _ _ _ _ h)
    · split
      · exact .next (raiseExc_keeps _ _ _ h)
      · split
        · refine .next ?_
          extract_lets
          split
          · exact abortDescriptor_keeps _ _ _ _ (setRd_keeps _ _ _ _ (modSCore_keeps _ _ _ (setCoreQueue_keeps _ _ _ _ h)))
          · exact setRd_keeps _ _ _ _ (modSCore_keeps _ _ _ (setCoreQueue_keeps _ _ _ _ h))
        · exact .next (setRd_keeps _ _ _ _ h)

theorem execTdAbort_keeps {o s : State} (t : Nat) (p : Nat) (rd : Nat) (rs1 : DWord) (rs2 : DWord) (h : Keeps false o s) : OutKeeps false o (execTdAbort t p rd rs1 rs2 s) := by
  unfold execTdAbort
  with_reducible repeat' first | assumption | apply setRd_keeps | apply setCoreQueue_keeps | apply abortDescriptor_keeps | refine Keeps.fst (by assumption) ?_ | apply Keeps.ite | apply OutKeeps.next | apply OutKeeps.ite | (intro; intros) | extract_lets | split | apply Keeps.upd

theorem execTdPoll_keeps {m : Bool} {o s : State} (t : Nat) (p : Nat) (rd : Nat) (rs1 : DWord) (h : Keeps m o s) : OutKeeps m o (execTdPoll t p rd rs1 s) := by
  unfold execTdPoll
  with_reducible repeat' first | assumption | apply raiseExc_keeps | apply setRd_keeps | apply Keeps.ite | apply OutKeeps.next | apply OutKeeps.ite | extract_lets | split

theorem execTdPop_keeps {m : Bool} {o s : State} (t : Nat) (p : Nat) (rs1 : DWord) (h : Keeps m o s) : OutKeeps m o (execTdPop t p rs1 s) := by
  unfold execTdPop
  with_reducible repeat' first | assumption | apply raiseExc_keeps | apply clearExc_keeps | apply modSCore_keeps | apply Keeps.ite | apply OutKeeps.next | apply OutKeeps.ite | (intro; intros) | extract_lets | split | apply Keeps.upd

theorem execSySignal_keeps {m : Bool} {o s : State} (t : Nat) (p : Nat) (rs1 : DWord) (rs2 : DWord) (h : Keeps m o s) : OutKeeps m o (execSySignal t p rs1 rs2 s) := by
  unfold execSySignal
  with_reducible repeat' first | assumption | apply raiseExc_keeps | apply syncAdd_keeps | apply clearExc_keeps | apply Keeps.ite | apply OutKeeps.next | apply OutKeeps.ite | split

theorem execSyWait_keeps {m : Bool} {o s : State} (t : Nat) (p : Nat) (rd : Nat) (rs1 : DWord) (rs2 : DWord) (tdwait : DWord) (h : Keeps m o s) : OutKeeps m o (execSyWait t p rd rs1 rs2 tdwait s) := by
  unfold execSyWait
  with_reducible repeat' first | assumption | apply raiseExc_keeps | apply modSCore_keeps | apply setRd_keeps | apply Keeps.ite | apply OutKeeps.next | apply OutKeeps.ite | (intro; intros) | extract_lets | split | apply Keeps.upd

theorem execSyWaitRelease_keeps {m : Bool} {o s : State} (t : Nat) (p : Nat) (h : Keeps m o s) : OutKeeps m o (execSyWaitRelease t p s) := by
  unfold execSyWaitRelease
  with_reducible repeat' first | assumption | apply setRd_keeps | apply modSCore_keeps | refine Keeps.fst (by assumption) ?_ | apply Keeps.ite | apply OutKeeps.next | apply OutKeeps.ite | (intro; intros) | extract_lets | split | apply Keeps.upd

theorem execSyWaitTimeout_keeps {m : Bool} {o s : State} (t : Nat) (p : Nat) (h : Keeps m o s) : OutKeeps m o (execSyWaitTimeout t p s) := by
  unfold execSyWaitTimeout
  with_reducible repeat' first | assumption | apply advanceTo_keeps | apply setRd_keeps | apply modSCore_keeps | refine Keeps.fst (by assumption) ?_ | apply Keeps.ite | apply OutKeeps.next | apply OutKeeps.ite | (intro; intros) | extract_lets | split | apply Keeps.upd

theorem execTdFence_keeps {m : Bool} {o s : State} (t : Nat) (p : Nat) (h : Keeps m o s) : OutKeeps m o (execTdFence t p s) := by
  unfold execTdFence
  with_reducible repeat' first | assumption | apply clearExc_keeps | apply modSCore_keeps | apply Keeps.ite | apply OutKeeps.next | apply OutKeeps.ite | (intro; intros) | extract_lets | split | apply Keeps.upd

theorem execTdFenceRelease_keeps {m : Bool} {o s : State} (t : Nat) (p : Nat) (h : Keeps m o s) : OutKeeps m o (execTdFenceRelease t p s) := by
  unfold execTdFenceRelease
  with_reducible repeat' first | assumption | apply modSCore_keeps | refine Keeps.fst (by assumption) ?_ | apply Keeps.ite | apply OutKeeps.next | apply OutKeeps.ite | (intro; intros) | split | apply Keeps.upd

theorem execTdcqWrite_keeps {o s : State} (t : Nat) (p : Nat) (q : Nat) (v : DWord) (h : Keeps false o s) : OutKeeps false o (execTdcqWrite t p q v s) := by
  unfold execTdcqWrite
  with_reducible repeat' first | assumption | apply clearExc_keeps | apply modSCore_keeps | apply raiseExc_keeps | apply writeHeldAll_keeps | refine Keeps.fst (by assumption) ?_ | apply Keeps.ite | apply OutKeeps.next | apply OutKeeps.ite | (intro; intros) | extract_lets | split | apply Keeps.upd

theorem execCompletionRecordDeferred_keeps {o s : State} (t : Nat) (p : Nat) (q : Nat) (h : Keeps false o s) : OutKeeps false o (execCompletionRecordDeferred t p q s) := by
  unfold execCompletionRecordDeferred
  with_reducible repeat' first | assumption | apply writeHeld_keeps | apply Keeps.ite | apply OutKeeps.next | apply OutKeeps.ite | split

theorem execSCoreCheckReplay_keeps {o s : State} (t : Nat) (p : Nat) (passes : Bool) (h : Keeps false o s) : OutKeeps false o (execSCoreCheckReplay t p passes s) := by
  unfold execSCoreCheckReplay
  with_reducible repeat' first | assumption | apply coreReport_keeps | apply modSCore_keeps | apply confirmedFault_keeps | apply Keeps.ite | apply OutKeeps.next | apply OutKeeps.ite | (intro; intros) | extract_lets | split | apply Keeps.upd

theorem execDescriptorStart_keeps {o s : State} (t : Nat) (kind : CoreKind) (p : Nat) (flips : List Flip) (h : Keeps false o s) :
    OutKeeps false o (execDescriptorStart t kind p flips s) := by
  unfold execDescriptorStart
  extract_lets k
  split
  · exact .next h
  · split
    · exact .next h
    · next e _ =>
      extract_lets ready r r2
      split
      · exact .next h
      · split
        · exact .next (abortOrSleep_keeps _ _ _ _ _ _ h)
        · split
          · exact .next h
          · have h2 : Keeps false o r2.s := by
              unfold r2
              split
              · exact takeBlocks_keeps _ _ _ _ _ _ h
              · exact h
            clear_value r2
            split
            · exact .next (settle_keeps _ _ _ h2)
            · exact .next (keepDesc_keeps _ _ _ _ h2)

theorem execDescriptorComplete_keeps {o s : State} (t : Nat) (kind : CoreKind) (p : Nat) (flips : List Flip)
    (res : List ResidueEvent) (wfail : List Nat) (upTo : Nat) (h : Keeps false o s) :
    OutKeeps false o (execDescriptorComplete t kind p flips res wfail upTo s) := by
  unfold execDescriptorComplete
  extract_lets k
  split
  · exact .next h
  · split
    · exact .next h
    · next e _ =>
      split
      · exact .next h
      · split
        · exact .next (settle_keeps _ _ _ h)
        · extract_lets r r2
          have h1 : Keeps false o r.s := runBlocks_keeps _ _ _ _ _ _ _ _ h
          have h2 : Keeps false o r2.s := by
            unfold r2
            split
            · exact h1
            · exact h1
          exact .next (settle_keeps _ _ _ h2)

theorem execStitchRepeatFetch_keeps {o s : State} (t : Nat) (kind : CoreKind) (p : Nat) (flips : List Flip) (h : Keeps false o s) : OutKeeps false o (execStitchRepeatFetch t kind p flips s) := by
  unfold execStitchRepeatFetch
  with_reducible repeat' first | assumption | apply fetch_keeps | apply confirmedFault_keeps | apply coreReport_keeps | apply endEarly_keeps | apply bump_keeps | apply keepDesc_keeps | apply programError_keeps | apply containRange_keeps | refine Keeps.fst (by assumption) ?_ | apply Keeps.ite | apply OutKeeps.next | apply OutKeeps.ite | (intro; intros) | extract_lets | split | apply Keeps.upd

theorem execSCoreLoadStore_keeps {o s : State} (t : Nat) (p : Nat) (store : Bool) (addr : Nat) (size : Nat) (data : DWord) (rd : Nat) (signExt : Bool) (pmpDenied : Bool) (flips : List Flip) (fails : Nat) (h : Keeps false o s) : OutKeeps false o (execSCoreLoadStore t p store addr size data rd signExt pmpDenied flips fails s) := by
  unfold execSCoreLoadStore
  with_reducible repeat' first | assumption | apply raiseExc_keeps | apply bumpN_keeps | apply report_keeps | apply countRefused_keeps | apply clearExc_keeps | apply rawWrite_keeps | apply readBadRows_keeps | apply consumePoison_keeps | apply contain_keeps | apply containRange_keeps | apply coreReport_keeps | apply setLoaded_keeps | refine Keeps.fst (by assumption) ?_ | apply Keeps.ite | apply OutKeeps.next | apply OutKeeps.ite | (intro; intros) | extract_lets | split | apply Keeps.upd

theorem execXmtdWord_keeps {o s : State} (t : Nat) (p : Nat) (w : Word) (h : Keeps false o s) : OutKeeps false o (execXmtdWord t p w s) := by
  unfold execXmtdWord
  with_reducible repeat' first | assumption | apply execTdIssue_keeps | apply execTdAbort_keeps | apply execTdPoll_keeps | apply execTdPop_keeps | apply execSySignal_keeps | apply execSyWait_keeps | apply execTdFence_keeps | apply raiseExc_keeps | refine Keeps.fst (by assumption) ?_ | apply Keeps.ite | apply OutKeeps.next | apply OutKeeps.ite | extract_lets | split

theorem execContributeSend_keeps {o s : State} (slot : Nat) (m1 : Nat) (first : List Flip) (again : List Flip) (h : Keeps false o s) : OutKeeps false o (execContributeSend slot m1 first again s) := by
  unfold execContributeSend
  with_reducible repeat' first | assumption | apply contributeBlock_keeps | apply modRun_keeps | refine Keeps.fst (by assumption) ?_ | apply Keeps.ite | apply OutKeeps.next | apply OutKeeps.ite | (intro; intros) | extract_lets | split | apply Keeps.upd

theorem execExponentScanDone_keeps {o s : State} (slot : Nat) (t : Nat) (h : Keeps false o s) :
    OutKeeps false o (execExponentScanDone slot t s) := by
  unfold execExponentScanDone
  extract_lets b
  clear_value b
  split
  · exact .next h
  · next r _ =>
    split
    · exact .next h
    · have hf := fun l : List Step => Keeps.foldlFst (b := some ([] : List Val)) (l := l) (f := scanStep slot t) h
        (fun a x k => scanStep_keeps slot t a x k)
      split
      · next e => exact .next (Keeps.fst e (hf _))
      · next e =>
        extract_lets v u w
        have h1 := Keeps.fst e (hf _)
        have h2 : Keeps false o u := modRun_keeps _ _ h1
        clear_value u v
        have h3 : Keeps false o w := Keeps.foldl h2 (fun s x k => stepSend_keeps _ _ _ _ _ k)
        clear_value w
        exact .next (settleStage_keeps _ h3)

theorem execExponent_keeps {o s : State} (t : Nat) (p : Pkt) (h : Keeps false o s) : OutKeeps false o (execExponent t p s) := by
  unfold execExponent
  with_reducible repeat' first | assumption | apply negative_keeps | apply absorb_keeps | apply modNode_keeps | apply settleStage_keeps | apply sendAnchor_keeps | apply anchorNode_keeps | apply stepSend_keeps | refine Keeps.fst (by assumption) ?_ | apply Keeps.foldl | apply Keeps.ite | apply OutKeeps.next | apply OutKeeps.ite | (intro; intros) | extract_lets | split | apply Keeps.upd

theorem execAnchor_keeps {o s : State} (t : Nat) (p : Pkt) (h : Keeps false o s) : OutKeeps false o (execAnchor t p s) := by
  unfold execAnchor
  with_reducible repeat' first | assumption | apply negative_keeps | apply absorb_keeps | apply settleStage_keeps | apply takeAnchor_keeps | refine Keeps.fst (by assumption) ?_ | apply Keeps.foldl | apply Keeps.ite | apply OutKeeps.next | apply OutKeeps.ite | (intro; intros) | extract_lets | split

theorem execPartialBlock_keeps {o s : State} (t : Nat) (p : Pkt) (dual : Nat) (err : Option (Nat × DWord)) (h : Keeps false o s) : OutKeeps false o (execPartialBlock t p dual err s) := by
  unfold execPartialBlock
  with_reducible repeat' first | assumption | apply negative_keeps | apply takePartial_keeps | apply Keeps.ite | apply OutKeeps.next | apply OutKeeps.ite | split

theorem execGrant_keeps {o s : State} (t : Nat) (p : Pkt) (h : Keeps false o s) : OutKeeps false o (execGrant t p s) := by
  unfold execGrant
  with_reducible repeat' first | assumption | apply negative_keeps | apply absorb_keeps | apply modRun_keeps | apply pumpForward_keeps | refine Keeps.fst (by assumption) ?_ | apply Keeps.foldl | apply Keeps.ite | apply OutKeeps.next | apply OutKeeps.ite | (intro; intros) | extract_lets | split | apply Keeps.upd

theorem execResult_keeps {o s : State} (t : Nat) (p : Pkt) (h : Keeps false o s) : OutKeeps false o (execResult t p s) := by
  unfold execResult
  with_reducible repeat' first | assumption | apply negative_keeps | apply takeResult_keeps | apply Keeps.ite | apply OutKeeps.next | apply OutKeeps.ite | split

theorem execRefetch_keeps {o s : State} (t : Nat) (p : Pkt) (h : Keeps false o s) : OutKeeps false o (execRefetch t p s) := by
  unfold execRefetch
  with_reducible repeat' first | assumption | apply negative_keeps | apply absorb_keeps | apply resendResult_keeps | refine Keeps.fst (by assumption) ?_ | apply Keeps.ite | apply OutKeeps.next | apply OutKeeps.ite | split

theorem execResend_keeps {o s : State} (t : Nat) (p : Pkt) (first : List Flip) (again : List Flip) (h : Keeps false o s) : OutKeeps false o (execResend t p first again s) := by
  unfold execResend
  with_reducible repeat' first | assumption | apply negative_keeps | apply repeatNode_keeps | apply absorb_keeps | apply resendResult_keeps | apply resendStep_keeps | refine Keeps.fst (by assumption) ?_ | apply Keeps.foldl | apply Keeps.ite | apply OutKeeps.next | apply OutKeeps.ite | (intro; intros) | extract_lets | split

theorem execPhaseBegin_keeps {o s : State} (slot : Nat) (h : Keeps false o s) : OutKeeps false o (execPhaseBegin slot s) := by
  unfold execPhaseBegin
  with_reducible repeat' first | assumption | apply postNext_keeps | apply pumpForward_keeps | apply modRun_keeps | refine Keeps.fst (by assumption) ?_ | apply Keeps.ite | apply OutKeeps.next | apply OutKeeps.ite | (intro; intros) | extract_lets | split | apply Keeps.upd

theorem execPhaseComplete_keeps {o s : State} (slot : Nat) (h : Keeps false o s) : OutKeeps false o (execPhaseComplete slot s) := by
  unfold execPhaseComplete
  with_reducible repeat' first | assumption | apply postNext_keeps | apply modRun_keeps | refine Keeps.fst (by assumption) ?_ | apply Keeps.ite | apply OutKeeps.next | apply OutKeeps.ite | (intro; intros) | extract_lets | split | apply Keeps.upd

theorem execRunStart_keeps {o s : State} (slot : Nat) (h : Keeps false o s) : OutKeeps false o (execRunStart slot s) := by
  unfold execRunStart
  with_reducible repeat' first | assumption | apply finishRun_keeps | apply putRun_keeps | apply setSchState_keeps | apply postOffset_keeps | apply settleStage_keeps | apply postNext_keeps | apply Keeps.foldl | apply Keeps.ite | apply OutKeeps.next | apply OutKeeps.ite | (intro; intros) | extract_lets | split | apply Keeps.upd

theorem execRunEnd_keeps {o s : State} (slot : Nat) (h : Keeps false o s) : OutKeeps false o (execRunEnd slot s) := by
  unfold execRunEnd
  with_reducible repeat' first | assumption | apply finishRun_keeps | refine Keeps.fst (by assumption) ?_ | apply Keeps.ite | apply OutKeeps.next | apply OutKeeps.ite | extract_lets | split

theorem execRunTimeout_keeps {o s : State} (slot : Nat) (h : Keeps false o s) : OutKeeps false o (execRunTimeout slot s) := by
  unfold execRunTimeout
  with_reducible repeat' first | assumption | apply failRun_keeps | apply advanceTo_keeps | refine Keeps.fst (by assumption) ?_ | apply OutKeeps.next | split

theorem execLoadReq_keeps {o s : State} (st : Nat) (p : Pkt) (first : List Flip) (again : List Flip) (h : Keeps false o s) : OutKeeps false o (execLoadReq st p first again s) := by
  unfold execLoadReq
  with_reducible repeat' first | assumption | apply serve_keeps | apply routerFetch_keeps | apply refuseReq_keeps | apply performed_keeps | apply rawFetch_keeps | refine Keeps.fst (by assumption) ?_ | apply Keeps.ite | apply OutKeeps.next | apply OutKeeps.ite | (intro; intros) | extract_lets | split

theorem execStoreReq_keeps {o s : State} (st : Nat) (p : Pkt) (fails : Bool) (h : Keeps false o s) : OutKeeps false o (execStoreReq st p fails s) := by
  unfold execStoreReq
  with_reducible repeat' first | assumption | apply serve_keeps | apply storeData_keeps | apply complete_keeps | apply refuseReq_keeps | apply performed_keeps | refine Keeps.fst (by assumption) ?_ | apply OutKeeps.next | (intro; intros) | extract_lets | split

theorem execMstoreReq_keeps {o s : State} (st : Nat) (p : Pkt) (fails : Bool) (h : Keeps false o s) : OutKeeps false o (execMstoreReq st p fails s) := by
  unfold execMstoreReq
  with_reducible repeat' first | assumption | apply bump_keeps | apply report_keeps | apply startWake_keeps | apply emit_keeps | apply storeData_keeps | apply signalPacket_keeps | refine Keeps.fst (by assumption) ?_ | apply Keeps.ite | apply OutKeeps.next | apply OutKeeps.ite | (intro; intros) | extract_lets | split | apply Keeps.upd

theorem execAtomicReq_keeps {o s : State} (st : Nat) (p : Pkt) (fl : List Flip) (fails : Bool) (h : Keeps false o s) : OutKeeps false o (execAtomicReq st p fl fails s) := by
  unfold execAtomicReq
  with_reducible repeat' first | assumption | apply serve_keeps | apply rawFetch_keeps | apply refuseReq_keeps | apply performed_keeps | apply countRefused_keeps | apply rawWrite_keeps | refine Keeps.fst (by assumption) ?_ | apply Keeps.ite | apply OutKeeps.next | apply OutKeeps.ite | (intro; intros) | extract_lets | split

theorem execReduceReq_keeps {o s : State} (st : Nat) (p : Pkt) (first again : List Flip) (fails : Bool) (h : Keeps false o s) :
    OutKeeps false o (execReduceReq st p first again fails s) := by
  unfold execReduceReq
  refine .next (serve_keeps _ _ _ _ _ (fun s x h => ?_) h)
  extract_lets ops block got
  split
  · exact refuseReq_keeps _ _ _ _ h
  · have hg : Keeps false o got.1 := by
      unfold got
      split
      · exact routerFetch_keeps _ _ _ _ _ _ h
      · have hr := rawFetch_keeps x.tile x.addr (qData p).length first h
        split
        · next e => exact Keeps.fst e hr
        · next e => exact Keeps.fst e hr
    clear_value got
    split
    · exact refuseReq_keeps _ _ _ _ hg
    · extract_lets poison zs u
      have hu : Keeps false o u := Keeps.ite (engineConsumes_keeps _ _ _ hg) hg
      clear_value u zs poison
      split
      next e =>
      have h2 := Keeps.fst e (engineInjected_keeps _ _ _ hu)
      split
      · next e => exact refuseReq_keeps _ _ _ _ (Keeps.fst e (writeReduced_keeps _ _ _ _ _ _ h2))
      · next e => exact performed_keeps _ _ _ _ _ _ (Keeps.fst e (writeReduced_keeps _ _ _ _ _ _ h2))

theorem execSyncAdd_keeps {m : Bool} {o s : State} (st : Nat) (p : Pkt) (h : Keeps m o s) : OutKeeps m o (execSyncAdd st p s) := by
  unfold execSyncAdd
  with_reducible repeat' first | assumption | apply syncRequest_keeps | apply syncAdd_keeps | apply performed_keeps | apply OutKeeps.next | (intro; intros) | extract_lets

theorem execSyncRead_keeps {m : Bool} {o s : State} (st : Nat) (p : Pkt) (h : Keeps m o s) : OutKeeps m o (execSyncRead st p s) := by
  unfold execSyncRead
  with_reducible repeat' first | assumption | apply syncRequest_keeps | apply performed_keeps | apply OutKeeps.next | (intro; intros)

theorem execAcquire_keeps {m : Bool} {o s : State} (st : Nat) (p : Pkt) (h : Keeps m o s) : OutKeeps m o (execAcquire st p s) := by
  unfold execAcquire
  with_reducible repeat' first | assumption | apply leaseRequest_keeps | apply performed_keeps | apply putLease_keeps | apply complete_keeps | refine Keeps.fst (by assumption) ?_ | apply Keeps.ite | apply OutKeeps.next | apply OutKeeps.ite | (intro; intros) | extract_lets | split | apply Keeps.upd

theorem execRenew_keeps {m : Bool} {o s : State} (st : Nat) (p : Pkt) (h : Keeps m o s) : OutKeeps m o (execRenew st p s) := by
  unfold execRenew
  with_reducible repeat' first | assumption | apply leaseRequest_keeps | apply performed_keeps | apply putLease_keeps | apply refuseReq_keeps | apply Keeps.ite | apply OutKeeps.next | apply OutKeeps.ite | (intro; intros) | split | apply Keeps.upd

theorem execRelease_keeps {m : Bool} {o s : State} (st : Nat) (p : Pkt) (h : Keeps m o s) : OutKeeps m o (execRelease st p s) := by
  unfold execRelease
  with_reducible repeat' first | assumption | apply leaseRequest_keeps | apply performed_keeps | apply putLease_keeps | apply refuseReq_keeps | apply Keeps.ite | apply OutKeeps.next | apply OutKeeps.ite | (intro; intros) | split | apply Keeps.upd

theorem execLeaseExpiry_keeps {m : Bool} {o s : State} (i : Nat) (h : Keeps m o s) : OutKeeps m o (execLeaseExpiry i s) := by
  unfold execLeaseExpiry
  with_reducible repeat' first | assumption | apply settleLease_keeps | apply advanceTo_keeps | apply Keeps.ite | apply OutKeeps.next | apply OutKeeps.ite | extract_lets | split

theorem execRevokeLease_keeps {m : Bool} {o s : State} (r : VdpReq) (h : Keeps m o s) : OutKeeps m o (execRevokeLease r s) := by
  unfold execRevokeLease
  with_reducible repeat' first | assumption | apply vdpEntry_keeps | apply revokeLease_keeps | apply OutKeeps.next | (intro; intros)

theorem execOwnGive_keeps {m : Bool} {o s : State} (st : Nat) (p : Pkt) (h : Keeps m o s) : OutKeeps m o (execOwnGive st p s) := by
  unfold execOwnGive
  with_reducible repeat' first | assumption | apply checked_keeps | apply performed_keeps | apply putRegion_keeps | apply OutKeeps.next | (intro; intros) | extract_lets

theorem execSetOwner_keeps {m : Bool} {o s : State} (r : VdpReq) (h : Keeps m o s) : OutKeeps m o (execSetOwner r s) := by
  unfold execSetOwner
  with_reducible repeat' first | assumption | apply vdpEntry_keeps | apply setOwnerEntry_keeps | apply OutKeeps.next | (intro; intros)

theorem execRegionRecordWrite_keeps {m : Bool} {o s : State} (r : VdpReq) (h : Keeps m o s) : OutKeeps m o (execRegionRecordWrite r s) := by
  unfold execRegionRecordWrite
  with_reducible repeat' first | assumption | apply vdpEntry_keeps | apply writeRegion_keeps | apply OutKeeps.next | (intro; intros)

theorem execFabricQueueEnable_keeps {o s : State} (t : Nat) (q : Nat) (h : Keeps false o s) : OutKeeps false o (execFabricQueueEnable t q s) := by
  unfold execFabricQueueEnable
  with_reducible repeat' first | assumption | apply modQueue_keeps | apply putCtl_keeps | apply syncPut_keeps | apply tileReport_keeps | apply Keeps.ite | apply OutKeeps.next | apply OutKeeps.ite | (intro; intros) | extract_lets | split | apply Keeps.upd

theorem execFabricQueueDisabled_keeps {m : Bool} {o s : State} (t : Nat) (q : Nat) (h : Keeps m o s) : OutKeeps m o (execFabricQueueDisabled t q s) := by
  unfold execFabricQueueDisabled
  with_reducible repeat' first | assumption | apply modQueue_keeps | apply Keeps.ite | apply OutKeeps.next | apply OutKeeps.ite | (intro; intros) | extract_lets | split | apply Keeps.upd

theorem execFabricEntryIssue_keeps {o s : State} (t : Nat) (q : Nat) (first : List Flip) (again : List Flip) (h : Keeps false o s) : OutKeeps false o (execFabricEntryIssue t q first again s) := by
  unfold execFabricEntryIssue
  with_reducible repeat' first | assumption | apply issueEntry_keeps | apply Keeps.ite | apply OutKeeps.next | apply OutKeeps.ite | split

theorem execFence_keeps {o s : State} (t : Nat) (q : Nat) (h : Keeps false o s) : OutKeeps false o (execFence t q s) := by
  unfold execFence
  with_reducible repeat' first | assumption | apply issueEntry_keeps | apply Keeps.ite | apply OutKeeps.next | apply OutKeeps.ite | split

theorem execFenceComplete_keeps {o s : State} (t : Nat) (q : Nat) (h : Keeps false o s) : OutKeeps false o (execFenceComplete t q s) := by
  unfold execFenceComplete
  with_reducible repeat' first | assumption | apply completeFence_keeps | apply OutKeeps.next

theorem execCompletion_keeps {o s : State} (st : Nat) (p : Pkt) (first : List Flip) (again : List Flip) (h : Keeps false o s) : OutKeeps false o (execCompletion st p first again s) := by
  unfold execCompletion
  with_reducible repeat' first | assumption | apply collectiveAnswer_keeps | apply bump_keeps | apply takeAnswer_keeps | apply absorbAnswer_keeps | refine Keeps.fst (by assumption) ?_ | apply Keeps.ite | apply OutKeeps.next | apply OutKeeps.ite | split

theorem execRequestTimeout_keeps {o s : State} (st : Nat) (tag : Nat) (h : Keeps false o s) : OutKeeps false o (execRequestTimeout st tag s) := by
  unfold execRequestTimeout
  with_reducible repeat' first | assumption | apply bump_keeps | apply advanceTo_keeps | apply report_keeps | apply drainEnded_keeps | apply endTrack_keeps | refine Keeps.fst (by assumption) ?_ | apply Keeps.ite | apply OutKeeps.next | apply OutKeeps.ite | extract_lets | split | apply Keeps.upd

theorem execTagQuarantineExpiry_keeps {m : Bool} {o s : State} (st : Nat) (tag : Nat) (h : Keeps m o s) : OutKeeps m o (execTagQuarantineExpiry st tag s) := by
  unfold execTagQuarantineExpiry
  with_reducible repeat' first | assumption | apply releaseTag_keeps | apply advanceTo_keeps | apply Keeps.ite | apply OutKeeps.next | apply OutKeeps.ite | extract_lets | split

theorem execTearDownSlice_keeps {o s : State} (r : VdpReq) (h : Keeps false o s) : OutKeeps false o (execTearDownSlice r s) := by
  unfold execTearDownSlice
  with_reducible repeat' first | assumption | apply vdpEntry_keeps | apply tearDown_keeps | apply OutKeeps.next | (intro; intros)

theorem execTeardownDone_keeps {o s : State} (h : Keeps false o s) : OutKeeps false o (execTeardownDone s) := by
  unfold execTeardownDone
  with_reducible repeat' first | assumption | apply finishTeardown_keeps | apply Keeps.ite | apply OutKeeps.next | apply OutKeeps.ite | extract_lets | split

theorem execFlowRecordWrite_keeps {m : Bool} {o s : State} (r : VdpReq) (h : Keeps m o s) : OutKeeps m o (execFlowRecordWrite r s) := by
  unfold execFlowRecordWrite
  with_reducible repeat' first | assumption | apply vdpEntry_keeps | apply writeFlow_keeps | apply OutKeeps.next | (intro; intros)

theorem execAdmitSlice_keeps {m : Bool} {o s : State} (r : VdpReq) (h : Keeps m o s) : OutKeeps m o (execAdmitSlice r s) := by
  unfold execAdmitSlice
  with_reducible repeat' first | assumption | apply vdpEntry_keeps | apply startAdmission_keeps | apply OutKeeps.next | (intro; intros)

theorem execAdmissionDone_keeps {m : Bool} {o s : State} (h : Keeps m o s) : OutKeeps m o (execAdmissionDone s) := by
  unfold execAdmissionDone
  with_reducible repeat' first | assumption | apply wrB_keeps | apply endOp_keeps | apply acceptJob_keeps | apply bump_keeps | apply Keeps.ite | apply OutKeeps.next | apply OutKeeps.ite | (intro; intros) | extract_lets | split

theorem execWithdrawSlice_keeps {m : Bool} {o s : State} (r : VdpReq) (h : Keeps m o s) : OutKeeps m o (execWithdrawSlice r s) := by
  unfold execWithdrawSlice
  with_reducible repeat' first | assumption | apply vdpEntry_keeps | apply withdraw_keeps | apply OutKeeps.next | (intro; intros)

theorem execAdmissionRecompute_keeps {m : Bool} {o s : State} (h : Keeps m o s) : OutKeeps m o (execAdmissionRecompute s) := by
  unfold execAdmissionRecompute
  with_reducible repeat' first | assumption | apply recomputeAdmission_keeps | apply OutKeeps.next

theorem execLaserMonitorSample_keeps {o s : State} (g : Nat) (lowLines : Nat) (h : Keeps false o s) : OutKeeps false o (execLaserMonitorSample g lowLines s) := by
  unfold execLaserMonitorSample
  with_reducible repeat' first | assumption | apply laserCause_keeps | apply Keeps.ite | apply OutKeeps.next | apply OutKeeps.ite | extract_lets | split | apply Keeps.upd

theorem execLaserDriveApply_keeps {m : Bool} {o s : State} (g : Nat) (h : Keeps m o s) : OutKeeps m o (execLaserDriveApply g s) := by
  unfold execLaserDriveApply
  with_reducible repeat' first | assumption | apply setGap_keeps | apply atCount_keeps | refine Keeps.fst (by assumption) ?_ | apply Keeps.ite | apply OutKeeps.next | apply OutKeeps.ite | split | apply Keeps.upd

theorem execLaserLineCheck_keeps {m : Bool} {o s : State} (g : Nat) (bad : Nat) (h : Keeps m o s) : OutKeeps m o (execLaserLineCheck g bad s) := by
  unfold execLaserLineCheck
  with_reducible repeat' first | assumption | apply atCount_keeps | apply setGap_keeps | apply laserReport_keeps | refine Keeps.fst (by assumption) ?_ | apply Keeps.ite | apply OutKeeps.next | apply OutKeeps.ite | extract_lets | split | apply Keeps.upd

theorem execLaserGapEnd_keeps {o s : State} (g : Nat) (h : Keeps false o s) : OutKeeps false o (execLaserGapEnd g s) := by
  unfold execLaserGapEnd
  with_reducible repeat' first | assumption | apply setGap_keeps | apply atCount_keeps | apply nextWaiting_keeps | apply completeGap_keeps | apply failGap_keeps | refine Keeps.fst (by assumption) ?_ | apply Keeps.ite | apply OutKeeps.next | apply OutKeeps.ite | extract_lets | split

theorem execSwitchLaserGroup_keeps {o s : State} (r : VdpReq) (h : Keeps false o s) : OutKeeps false o (execSwitchLaserGroup r s) := by
  unfold execSwitchLaserGroup
  with_reducible repeat' first | assumption | apply vdpEntry_keeps | apply switchGroup_keeps | apply OutKeeps.next | (intro; intros)

theorem execRestartLaserDie_keeps {m : Bool} {o s : State} (r : VdpReq) (h : Keeps m o s) : OutKeeps m o (execRestartLaserDie r s) := by
  unfold execRestartLaserDie
  with_reducible repeat' first | assumption | apply vdpEntry_keeps | apply restartDie_keeps | apply OutKeeps.next | (intro; intros)

theorem execLaserRestartCheckDone_keeps {m : Bool} {o s : State} (k : Nat) (passes : Bool) (h : Keeps m o s) : OutKeeps m o (execLaserRestartCheckDone k passes s) := by
  unfold execLaserRestartCheckDone
  with_reducible repeat' first | assumption | apply setLaserDie_keeps | apply nextFree_keeps | apply laserReport_keeps | apply Keeps.ite | apply OutKeeps.next | apply OutKeeps.ite | extract_lets | split | apply Keeps.upd

theorem execRowRead_keeps {m : Bool} {o s : State} (t : Nat) (die : Nat) (row : Nat) (ask : PortAsk) (errs : List Flip) (fails : Nat) (h : Keeps m o s) : OutKeeps m o (execRowRead t die row ask errs fails s) := by
  unfold execRowRead
  with_reducible repeat' first | assumption | apply rowInjections_keeps | apply portAccept_keeps | apply foundBad_keeps | apply countCorrected_keeps | apply nextFree_keeps | apply countMiscorrected_keeps | apply crossing_keeps | apply portAnswer_keeps | apply deliverBad_keeps | refine Keeps.fst (by assumption) ?_ | apply Keeps.ite | apply OutKeeps.next | apply OutKeeps.ite | (intro; intros) | extract_lets | split | apply Keeps.upd

theorem execRowWrite_keeps {o s : State} (t die row : Nat) (ask : PortAsk) (data : List Byte) (cell : Option CellWord) (fails : Nat)
    (h : Keeps false o s) : OutKeeps false o (execRowWrite t die row ask data cell fails s) := by
  unfold execRowWrite
  split
  · exact .next h
  · extract_lets u u1 u2
    have h1 : Keeps false o u := crossing_keeps _ _ _ _ (portAccept_keeps _ _ _ h)
    clear_value u
    split
    · exact .next (writeFailure_keeps _ _ _ _ h1)
    · exact .next (portAnswer_keeps _ _ _ _ (putCell_keeps _ _ _ _ (setBadRow_keeps _ _ (Keeps.wr h1 (Memory.wf_wrBytes _ _)))))

theorem execMaskedRowWrite_keeps {o s : State} (t die row : Nat) (ask : PortAsk) (mask : Nat) (data : List Byte) (cell : Option CellWord)
    (errs : List Flip) (fails : Nat) (h : Keeps false o s) :
    OutKeeps false o (execMaskedRowWrite t die row ask mask data cell errs fails s) := by
  unfold execMaskedRowWrite
  split
  · exact .next h
  · extract_lets u w code d merge
    have h1 : Keeps false o u := crossing_keeps _ _ _ _ (portAccept_keeps _ _ _ h)
    have h2 : Keeps false o w := rowInjections_keeps _ _ _ h1
    have hm : ∀ s, Keeps false o s → Keeps false o (merge s) := fun s h =>
      portAnswer_keeps _ _ _ _ (putCell_keeps _ _ _ _ (Keeps.wr h (Memory.wf_wrBytes _ _)))
    clear_value u w merge code
    split
    · exact .next (writeFailure_keeps _ _ _ _ h1)
    · split
      · exact .next (writeFailure_keeps _ _ _ _ (foundBad_keeps _ _ _ h1))
      · split
        · exact .next (hm _ h2)
        · exact .next (hm _ (countCorrected_keeps _ _ h2))
        · exact .next (writeFailure_keeps _ _ _ _ (nextFree_keeps (foundBad_keeps _ _ _ h2)))
        · exact .next (hm _ (nextFree_keeps (countMiscorrected_keeps _ _ _ (Keeps.wr h2 (Memory.wf_wrBytes _ _)))))

theorem execRefresh_keeps {m : Bool} {o s : State} (t : Nat) (die : Nat) (bank : Nat) (due : Bool) (waiting : Bool) (h : Keeps m o s) : OutKeeps m o (execRefresh t die bank due waiting s) := by
  unfold execRefresh
  with_reducible repeat' first | assumption | apply modDie_keeps | apply Keeps.ite | apply OutKeeps.next | apply OutKeeps.ite | (intro; intros) | extract_lets | split | apply Keeps.upd

theorem execSelfRefreshDrainDone_keeps {m : Bool} {o s : State} (t : Nat) (die : Nat) (h : Keeps m o s) : OutKeeps m o (execSelfRefreshDrainDone t die s) := by
  unfold execSelfRefreshDrainDone
  with_reducible repeat' first | assumption | apply modDie_keeps | apply Keeps.ite | apply OutKeeps.next | apply OutKeeps.ite | (intro; intros) | extract_lets | split | apply Keeps.upd

theorem execSelfRefreshExit_keeps {m : Bool} {o s : State} (t : Nat) (die : Nat) (fails : Nat) (h : Keeps m o s) : OutKeeps m o (execSelfRefreshExit t die fails s) := by
  unfold execSelfRefreshExit
  with_reducible repeat' first | assumption | apply modDie_keeps | apply bumpN_keeps | apply Keeps.ite | apply OutKeeps.next | apply OutKeeps.ite | (intro; intros) | extract_lets | split | apply Keeps.upd

theorem execPatrolScrubRow_keeps {o s : State} (t : Nat) (die : Nat) (errs : List Flip) (h : Keeps false o s) : OutKeeps false o (execPatrolScrubRow t die errs s) := by
  unfold execPatrolScrubRow
  with_reducible repeat' first | assumption | apply scrubRow_keeps | apply modDie_keeps | apply Keeps.ite | apply OutKeeps.next | apply OutKeeps.ite | (intro; intros) | extract_lets | split | apply Keeps.upd

theorem execDemandScrub_keeps {m : Bool} {o s : State} (r : VdpReq) (h : Keeps m o s) : OutKeeps m o (execDemandScrub r s) := by
  unfold execDemandScrub
  with_reducible repeat' first | assumption | apply vdpEntry_keeps | apply startDemandScrub_keeps | apply OutKeeps.next | (intro; intros)

theorem execDemandScrubDone_keeps {o s : State} (errs : List RowErr) (h : Keeps false o s) : OutKeeps false o (execDemandScrubDone errs s) := by
  unfold execDemandScrubDone
  with_reducible repeat' first | assumption | apply demandTile_keeps | apply endOp_keeps | apply Keeps.foldl | apply Keeps.ite | apply OutKeeps.next | apply OutKeeps.ite | (intro; intros) | extract_lets | split

theorem execFill_keeps {m : Bool} {o s : State} (r : VdpReq) (h : Keeps m o s) : OutKeeps m o (execFill r s) := by
  unfold execFill
  with_reducible repeat' first | assumption | apply vdpEntry_keeps | apply startFill_keeps | apply OutKeeps.next | (intro; intros)

theorem execFillDone_keeps {o s : State} (h : Keeps false o s) : OutKeeps false o (execFillDone s) := by
  unfold execFillDone
  with_reducible repeat' first | assumption | apply endOp_keeps | apply fillRows_keeps | apply Keeps.ite | apply OutKeeps.next | apply OutKeeps.ite | split

theorem execRowRateStepEscalate_keeps {m : Bool} {o s : State} (t : Nat) (h : Keeps m o s) : OutKeeps m o (execRowRateStepEscalate t s) := by
  unfold execRowRateStepEscalate
  with_reducible repeat' first | assumption | apply setRowStep_keeps | apply advanceTo_keeps | apply Keeps.ite | apply OutKeeps.next | apply OutKeeps.ite | extract_lets | split

theorem execRowRateStepUp_keeps {m : Bool} {o s : State} (t : Nat) (h : Keeps m o s) : OutKeeps m o (execRowRateStepUp t s) := by
  unfold execRowRateStepUp
  with_reducible repeat' first | assumption | apply setRowStep_keeps | apply advanceTo_keeps | apply Keeps.ite | apply OutKeeps.next | apply OutKeeps.ite | extract_lets | split

theorem execTileResetComplete_keeps {o s : State} (t : Nat) (h : Keeps false o s) : OutKeeps false o (execTileResetComplete t s) := by
  unfold execTileResetComplete
  with_reducible repeat' first | assumption | apply finishReset_keeps | apply OutKeeps.next

theorem execClearConfirmedFaults_keeps {m : Bool} {o s : State} (t : Nat) (r : VdpReq) (h : Keeps m o s) : OutKeeps m o (execClearConfirmedFaults t r s) := by
  unfold execClearConfirmedFaults
  with_reducible repeat' first | assumption | apply vdpEntry_keeps | apply clearCounts_keeps | apply OutKeeps.next | (intro; intros) | apply Keeps.upd

end Sys2Proof.Machine
end

