-- ==== Sys2Proof/Laws/KeepsCommandsB.lean ====
section
/-! SUPPORT. What each command of the base, the control plane and the host interface keeps. -/
namespace Sys2Proof.Machine

theorem execErrorReport_keeps {m : Bool} {o s : State} (k : Nat) (h : Keeps m o s) : OutKeeps m o (execErrorReport k s) := by
  unfold execErrorReport
  with_reducible repeat' first | assumption | apply takeReport_keeps | refine Keeps.fst (by assumption) ?_ | apply OutKeeps.next | split | apply Keeps.upd

theorem execSquallEnd_keeps {m : Bool} {o s : State} (cls : Nat) (h : Keeps m o s) : OutKeeps m o (execSquallEnd cls s) := by
  unfold execSquallEnd
  with_reducible repeat' first | assumption | apply setSquall_keeps | apply atCount_keeps | apply logRecord_keeps | refine Keeps.fst (by assumption) ?_ | apply OutKeeps.next | extract_lets | split | apply Keeps.upd

theorem execTableScrub_keeps {o s : State} (fixed : List Nat) (bad : List (TableRef × Nat)) (h : Keeps false o s) : OutKeeps false o (execTableScrub fixed bad s) := by
  unfold execTableScrub
  with_reducible repeat' first | assumption | apply report_keeps | apply invalidate_keeps | apply Keeps.foldl | apply Keeps.ite | apply OutKeeps.next | apply OutKeeps.ite | (intro; intros) | extract_lets | split | apply Keeps.upd

theorem execClockLockLoss_keeps {o s : State} (t : Nat) (h : Keeps false o s) : OutKeeps false o (execClockLockLoss t s) := by
  unfold execClockLockLoss
  with_reducible repeat' first | assumption | apply tileReset_keeps | apply confirmedFault_keeps | apply tileReport_keeps | apply Keeps.ite | apply OutKeeps.next | apply OutKeeps.ite | split

theorem execForecastHeartbeatMiss_keeps {m : Bool} {o s : State} (h : Keeps m o s) : OutKeeps m o (execForecastHeartbeatMiss s) := by
  unfold execForecastHeartbeatMiss
  with_reducible repeat' first | assumption | apply report_keeps | apply Keeps.ite | apply OutKeeps.next | apply OutKeeps.ite | extract_lets | split | apply Keeps.upd

theorem execClearThrough_keeps {m : Bool} {o s : State} (k : Nat) (r : VdpReq) (h : Keeps m o s) : OutKeeps m o (execClearThrough k r s) := by
  unfold execClearThrough
  with_reducible repeat' first | assumption | apply vdpEntry_keeps | apply clearLog_keeps | apply Keeps.ite | apply OutKeeps.next | apply OutKeeps.ite | (intro; intros) | split | apply Keeps.upd

theorem execSelfTest_keeps {o s : State} (u : UnitId) (passes : Bool) (h : Keeps false o s) : OutKeeps false o (execSelfTest u passes s) := by
  unfold execSelfTest
  with_reducible repeat' first | assumption | apply commandedTest_keeps | apply advanceTo_keeps | apply runSelfTest_keeps | apply modTile_keeps | refine Keeps.fst (by assumption) ?_ | apply Keeps.ite | apply OutKeeps.next | apply OutKeeps.ite | (intro; intros) | extract_lets | split | apply Keeps.upd

theorem execStartSelfTest_keeps {m : Bool} {o s : State} (r : VdpReq) (h : Keeps m o s) : OutKeeps m o (execStartSelfTest r s) := by
  unfold execStartSelfTest
  with_reducible repeat' first | assumption | apply vdpEntry_keeps | apply startSelfTest_keeps | apply OutKeeps.next | (intro; intros)

theorem execDiagnosticMode_keeps {o s : State} (r : VdpReq) (h : Keeps false o s) : OutKeeps false o (execDiagnosticMode r s) := by
  unfold execDiagnosticMode
  with_reducible repeat' first | assumption | apply vdpEntry_keeps | apply setDiag_keeps | apply OutKeeps.next | (intro; intros)

theorem execFaultInjection_keeps {m : Bool} {o s : State} (r : VdpReq) (h : Keeps m o s) : OutKeeps m o (execFaultInjection r s) := by
  unfold execFaultInjection
  with_reducible repeat' first | assumption | apply vdpEntry_keeps | apply queueInjection_keeps | apply OutKeeps.next | (intro; intros)

theorem execSeamTapOverride_keeps {m : Bool} {o s : State} (r : VdpReq) (h : Keeps m o s) : OutKeeps m o (execSeamTapOverride r s) := by
  unfold execSeamTapOverride
  with_reducible repeat' first | assumption | apply vdpEntry_keeps | apply overrideTap_keeps | apply OutKeeps.next | (intro; intros)

theorem execReferenceFailure_keeps {m : Bool} {o s : State} (src : Nat) (h : Keeps m o s) : OutKeeps m o (execReferenceFailure src s) := by
  unfold execReferenceFailure
  with_reducible repeat' first | assumption | apply setRef_keeps | apply changeRef_keeps | refine Keeps.fst (by assumption) ?_ | apply Keeps.ite | apply OutKeeps.next | apply OutKeeps.ite | extract_lets | split | apply Keeps.upd

theorem execReferenceReturn_keeps {m : Bool} {o s : State} (src : Nat) (h : Keeps m o s) : OutKeeps m o (execReferenceReturn src s) := by
  unfold execReferenceReturn
  with_reducible repeat' first | assumption | apply setRef_keeps | apply Keeps.ite | apply OutKeeps.next | apply OutKeeps.ite | extract_lets | split | apply Keeps.upd

theorem execReferenceQualified_keeps {m : Bool} {o s : State} (src : Nat) (h : Keeps m o s) : OutKeeps m o (execReferenceQualified src s) := by
  unfold execReferenceQualified
  with_reducible repeat' first | assumption | apply postReversion_keeps | apply setRef_keeps | apply advanceTo_keeps | apply Keeps.ite | apply OutKeeps.next | apply OutKeeps.ite | split

theorem execHoldoverFailure_keeps {m : Bool} {o s : State} (h : Keeps m o s) : OutKeeps m o (execHoldoverFailure s) := by
  unfold execHoldoverFailure
  with_reducible repeat' first | assumption | apply refReport_keeps | apply setRef_keeps | apply Keeps.ite | apply OutKeeps.next | apply OutKeeps.ite | split | apply Keeps.upd

theorem execEpochOffsetAverage_keeps {m : Bool} {o s : State} (h : Keeps m o s) : OutKeeps m o (execEpochOffsetAverage s) := by
  unfold execEpochOffsetAverage
  with_reducible repeat' first | assumption | apply wrE_keeps | apply stepEpoch_keeps | apply noteOffset_keeps | apply Keeps.ite | apply OutKeeps.next | apply OutKeeps.ite | extract_lets | split | apply Keeps.upd

theorem execFallBackRequest_keeps {m : Bool} {o s : State} (t : Nat) (h : Keeps m o s) : OutKeeps m o (execFallBackRequest t s) := by
  unfold execFallBackRequest
  with_reducible repeat' first | assumption | apply bump_keeps | apply modTile_keeps | apply Keeps.ite | apply OutKeeps.next | apply OutKeeps.ite | (intro; intros) | extract_lets | split | apply Keeps.upd

theorem execFallBackWithdraw_keeps {m : Bool} {o s : State} (t : Nat) (h : Keeps m o s) : OutKeeps m o (execFallBackWithdraw t s) := by
  unfold execFallBackWithdraw
  with_reducible repeat' first | assumption | apply modTile_keeps | apply advanceTo_keeps | apply Keeps.ite | apply OutKeeps.next | apply OutKeeps.ite | (intro; intros) | extract_lets | split | apply Keeps.upd

theorem execModeSelect_keeps {m : Bool} {o s : State} (r : VdpReq) (h : Keeps m o s) : OutKeeps m o (execModeSelect r s) := by
  unfold execModeSelect
  with_reducible repeat' first | assumption | apply vdpEntry_keeps | apply writeMode_keeps | apply OutKeeps.next | (intro; intros)

theorem execTileClockLimit_keeps {m : Bool} {o s : State} (r : VdpReq) (h : Keeps m o s) : OutKeeps m o (execTileClockLimit r s) := by
  unfold execTileClockLimit
  with_reducible repeat' first | assumption | apply vdpEntry_keeps | apply writeLimit_keeps | apply OutKeeps.next | (intro; intros)

theorem execTilePowerEstimate_keeps {m : Bool} {o s : State} (t : Nat) (total : Nat) (dyn : Nat) (h : Keeps m o s) : OutKeeps m o (execTilePowerEstimate t total dyn s) := by
  unfold execTilePowerEstimate
  with_reducible repeat' first | assumption | apply Keeps.ite | apply OutKeeps.next | apply OutKeeps.ite | (intro; intros) | split | apply Keeps.upd

theorem execCapLoopIteration_keeps {m : Bool} {o s : State} (h : Keeps m o s) : OutKeeps m o (execCapLoopIteration s) := by
  unfold execCapLoopIteration
  with_reducible repeat' first | assumption | apply atCount_keeps | apply iterate_keeps | apply Keeps.ite | apply OutKeeps.next | apply OutKeeps.ite | extract_lets | split | apply Keeps.upd

theorem execPackagePowerEstimate_keeps {m : Bool} {o s : State} (fixed : Nat) (h : Keeps m o s) : OutKeeps m o (execPackagePowerEstimate fixed s) := by
  unfold execPackagePowerEstimate
  with_reducible repeat' first | assumption | apply wrE_keeps | apply stillSkip_keeps | apply outOfTurn_keeps | apply Keeps.ite | apply OutKeeps.next | apply OutKeeps.ite | extract_lets | split | apply Keeps.upd

theorem execCapSkipEnd_keeps {m : Bool} {o s : State} (h : Keeps m o s) : OutKeeps m o (execCapSkipEnd s) := by
  unfold execCapSkipEnd
  with_reducible repeat' first | assumption | apply advanceTo_keeps | apply settleSkip_keeps | apply Keeps.ite | apply OutKeeps.next | apply OutKeeps.ite | extract_lets | split | apply Keeps.upd

theorem execPowerCap_keeps {m : Bool} {o s : State} (r : VdpReq) (h : Keeps m o s) : OutKeeps m o (execPowerCap r s) := by
  unfold execPowerCap
  with_reducible repeat' first | assumption | apply vdpEntry_keeps | apply wrE_keeps | apply OutKeeps.next | (intro; intros) | apply Keeps.upd

theorem execHousekeepingRound_keeps {m : Bool} {o s : State} (mv : Nat) (ma : Nat) (h : Keeps m o s) : OutKeeps m o (execHousekeepingRound mv ma s) := by
  unfold execHousekeepingRound
  with_reducible repeat' first | assumption | apply wrE_keeps | apply readSensors_keeps | apply noteInput_keeps | apply settleOffset_keeps | apply countEnergy_keeps | apply Keeps.ite | apply OutKeeps.next | apply OutKeeps.ite | extract_lets | split

theorem execThrottleCeilingDrop_keeps {m : Bool} {o s : State} (t : Nat) (h : Keeps m o s) : OutKeeps m o (execThrottleCeilingDrop t s) := by
  unfold execThrottleCeilingDrop
  with_reducible repeat' first | assumption | apply advanceTo_keeps | apply modTile_keeps | refine Keeps.fst (by assumption) ?_ | apply Keeps.ite | apply OutKeeps.next | apply OutKeeps.ite | (intro; intros) | extract_lets | split | apply Keeps.upd

theorem execThrottleRecoveryStep_keeps {m : Bool} {o s : State} (t : Nat) (h : Keeps m o s) : OutKeeps m o (execThrottleRecoveryStep t s) := by
  unfold execThrottleRecoveryStep
  with_reducible repeat' first | assumption | apply advanceTo_keeps | apply modTile_keeps | refine Keeps.fst (by assumption) ?_ | apply OutKeeps.next | (intro; intros) | extract_lets | split | apply Keeps.upd

theorem execTemperatureSample_keeps {o s : State} (die : Nat) (temp : Int) (h : Keeps false o s) : OutKeeps false o (execTemperatureSample die temp s) := by
  unfold execTemperatureSample
  with_reducible repeat' first | assumption | apply settleCool_keeps | apply judgeSample_keeps | apply Keeps.ite | apply OutKeeps.next | apply OutKeeps.ite | split | apply Keeps.upd

theorem execReleaseThermalLatch_keeps {m : Bool} {o s : State} (r : VdpReq) (h : Keeps m o s) : OutKeeps m o (execReleaseThermalLatch r s) := by
  unfold execReleaseThermalLatch
  with_reducible repeat' first | assumption | apply vdpEntry_keeps | apply releaseLatch_keeps | apply OutKeeps.next | (intro; intros)

theorem execRailFault_keeps {m : Bool} {o s : State} (t : Nat) (h : Keeps m o s) : OutKeeps m o (execRailFault t s) := by
  unfold execRailFault
  with_reducible repeat' first | assumption | apply tileReport_keeps | apply modTile_keeps | apply settleTimers_keeps | apply tileReset_keeps | apply Keeps.ite | apply OutKeeps.next | apply OutKeeps.ite | (intro; intros) | extract_lets | split | apply Keeps.upd

theorem execRailRecovery_keeps {o s : State} (t : Nat) (h : Keeps false o s) : OutKeeps false o (execRailRecovery t s) := by
  unfold execRailRecovery
  with_reducible repeat' first | assumption | apply finishReset_keeps | apply modTile_keeps | apply settleTimers_keeps | apply settleThrottle_keeps | apply Keeps.ite | apply OutKeeps.next | apply OutKeeps.ite | (intro; intros) | extract_lets | split | apply Keeps.upd

theorem execInputFault_keeps {o s : State} (h : Keeps false o s) : OutKeeps false o (execInputFault s) := by
  unfold execInputFault
  with_reducible repeat' first | assumption | apply mainOff_keeps | apply nextFree_keeps | apply report_keeps | apply Keeps.ite | apply OutKeeps.next | apply OutKeeps.ite | extract_lets | split | apply Keeps.upd

theorem execStartCalibration_keeps {o s : State} (r : VdpReq) (h : Keeps false o s) : OutKeeps false o (execStartCalibration r s) := by
  unfold execStartCalibration
  with_reducible repeat' first | assumption | apply vdpEntry_keeps | apply startCalibration_keeps | apply OutKeeps.next | (intro; intros)

theorem execCalibrationStageDone_keeps {o s : State} (fields lines groups : List Measure) (h : Keeps false o s) : OutKeeps false o (execCalibrationStageDone fields lines groups s) := by
  unfold execCalibrationStageDone
  with_reducible repeat' first | assumption | apply spareReceivers_keeps | apply countThird_keeps | apply calibrateOne_keeps | apply putOp_keeps | apply squelchGroups_keeps | apply Keeps.foldl | apply Keeps.ite | apply OutKeeps.next | apply OutKeeps.ite | (intro; intros) | extract_lets | split | apply Keeps.upd

theorem execCalibrationDone_keeps {o s : State} (h : Keeps false o s) : OutKeeps false o (execCalibrationDone s) := by
  unfold execCalibrationDone
  with_reducible repeat' first | assumption | apply wrE_keeps | apply endOp_keeps | apply report_keeps | apply squelchAll_keeps | apply releaseHeld_keeps | apply Keeps.ite | apply OutKeeps.next | apply OutKeeps.ite | extract_lets | split | apply Keeps.upd

theorem execRotationStepEnd_keeps {o s : State} (inner links : List Measure) (h : Keeps false o s) : OutKeeps false o (execRotationStepEnd inner links s) := by
  unfold execRotationStepEnd
  with_reducible repeat' first | assumption | apply countThird_keeps | apply recalibrateOne_keeps | apply wrE_keeps | refine Keeps.fst (by assumption) ?_ | apply Keeps.foldl | apply Keeps.ite | apply OutKeeps.next | apply OutKeeps.ite | (intro; intros) | extract_lets | split | apply Keeps.upd

theorem execSeamTapSweep_keeps {m : Bool} {o s : State} (id low high : Nat) (h : Keeps m o s) : OutKeeps m o (execSeamTapSweep id low high s) := by
  unfold execSeamTapSweep
  with_reducible repeat' first | assumption | apply sweepLost_keeps | apply sweepPair_keeps | refine Keeps.fst (by assumption) ?_ | apply Keeps.ite | apply OutKeeps.next | apply OutKeeps.ite | (intro; intros) | extract_lets | split | apply Keeps.upd

theorem execChannelRecalibration_keeps {o s : State} (t : Nat) (die : Nat) (ms : List Measure) (h : Keeps false o s) : OutKeeps false o (execChannelRecalibration t die ms s) := by
  unfold execChannelRecalibration
  with_reducible repeat' first | assumption | apply modDie_keeps | apply countThird_keeps | apply calibrateOne_keeps | apply Keeps.foldl | apply Keeps.ite | apply OutKeeps.next | apply OutKeeps.ite | (intro; intros) | extract_lets | split | apply Keeps.upd

theorem execChannelSample_keeps {m : Bool} {o s : State} (ch : Nat) (x : Int) (h : Keeps m o s) : OutKeeps m o (execChannelSample ch x s) := by
  unfold execChannelSample
  with_reducible repeat' first | assumption | apply coolByChannel_keeps | apply Keeps.ite | apply OutKeeps.next | apply OutKeeps.ite | (intro; intros) | extract_lets | split | apply Keeps.upd

theorem execForecastDecision_keeps {m : Bool} {o s : State} (h : Keeps m o s) : OutKeeps m o (execForecastDecision s) := by
  unfold execForecastDecision
  with_reducible repeat' first | assumption | apply decideWake_keeps | apply Keeps.ite | apply OutKeeps.next | apply OutKeeps.ite | extract_lets | split | apply Keeps.upd

theorem execSleepRequest_keeps {m : Bool} {o s : State} (r : VdpReq) (h : Keeps m o s) : OutKeeps m o (execSleepRequest r s) := by
  unfold execSleepRequest
  with_reducible repeat' first | assumption | apply vdpEntry_keeps | apply sleepRequest_keeps | apply OutKeeps.next | (intro; intros)

theorem execDozeStageDone_keeps {o s : State} (h : Keeps false o s) : OutKeeps false o (execDozeStageDone s) := by
  unfold execDozeStageDone
  with_reducible repeat' first | assumption | apply stageEnds_keeps | apply drainTiles_keeps | apply Keeps.ite | apply OutKeeps.next | apply OutKeeps.ite | split

theorem execNapStageDone_keeps {o s : State} (h : Keeps false o s) : OutKeeps false o (execNapStageDone s) := by
  unfold execNapStageDone
  with_reducible repeat' first | assumption | apply stageEnds_keeps | apply circuitsDark_keeps | apply squelchGroups_keeps | refine Keeps.fst (by assumption) ?_ | apply Keeps.ite | apply OutKeeps.next | apply OutKeeps.ite | (intro; intros) | split

theorem execHibernateStageDone_keeps {o s : State} (h : Keeps false o s) : OutKeeps false o (execHibernateStageDone s) := by
  unfold execHibernateStageDone
  with_reducible repeat' first | assumption | apply pldmEvent_keeps | apply mainOff_keeps | apply squelchGroups_keeps | apply Keeps.ite | apply OutKeeps.next | apply OutKeeps.ite | (intro; intros) | extract_lets | split | apply Keeps.upd

theorem execWakeComplete_keeps {m : Bool} {o s : State} (h : Keeps m o s) : OutKeeps m o (execWakeComplete s) := by
  unfold execWakeComplete
  with_reducible repeat' first | assumption | apply setSleep_keeps | apply openTiles_keeps | apply acceptEntry_keeps | refine Keeps.fst (by assumption) ?_ | apply Keeps.ite | apply OutKeeps.next | apply OutKeeps.ite | extract_lets | split | apply Keeps.upd

theorem execMantleRefresh_keeps {m : Bool} {o s : State} (h : Keeps m o s) : OutKeeps m o (execMantleRefresh s) := by
  unfold execMantleRefresh
  with_reducible repeat' first | assumption | apply Keeps.ite | apply OutKeeps.next | apply OutKeeps.ite | split | apply Keeps.upd

theorem execMantleOwnershipExpiry_keeps {m : Bool} {o s : State} (h : Keeps m o s) : OutKeeps m o (execMantleOwnershipExpiry s) := by
  unfold execMantleOwnershipExpiry
  with_reducible repeat' first | assumption | apply advanceTo_keeps | apply releaseLine_keeps | apply cutMantle_keeps | refine Keeps.fst (by assumption) ?_ | apply OutKeeps.next | extract_lets | split

theorem execStandbyClaim_keeps {m : Bool} {o s : State} (h : Keeps m o s) : OutKeeps m o (execStandbyClaim s) := by
  unfold execStandbyClaim
  with_reducible repeat' first | assumption | apply switchMantle_keeps | apply becomeActive_keeps | apply advanceTo_keeps | refine Keeps.fst (by assumption) ?_ | apply Keeps.ite | apply OutKeeps.next | apply OutKeeps.ite | split

theorem execMantleClaimTimeout_keeps {m : Bool} {o s : State} (h : Keeps m o s) : OutKeeps m o (execMantleClaimTimeout s) := by
  unfold execMantleClaimTimeout
  with_reducible repeat' first | assumption | apply advanceTo_keeps | apply reclaim_keeps | apply latentMantle_keeps | apply raiseAllHb_keeps | refine Keeps.fst (by assumption) ?_ | apply Keeps.ite | apply OutKeeps.next | apply OutKeeps.ite | extract_lets | split | apply Keeps.upd

theorem execHandOverReclaim_keeps {m : Bool} {o s : State} (h : Keeps m o s) : OutKeeps m o (execHandOverReclaim s) := by
  unfold execHandOverReclaim
  with_reducible repeat' first | assumption | apply reclaim_keeps | apply advanceTo_keeps | refine Keeps.fst (by assumption) ?_ | apply OutKeeps.next | split

theorem execHandOver_keeps {m : Bool} {o s : State} (r : VdpReq) (h : Keeps m o s) : OutKeeps m o (execHandOver r s) := by
  unfold execHandOver
  with_reducible repeat' first | assumption | apply vdpEntry_keeps | apply handOver_keeps | apply OutKeeps.next | (intro; intros)

theorem execRestartStandby_keeps {m : Bool} {o s : State} (r : VdpReq) (h : Keeps m o s) : OutKeeps m o (execRestartStandby r s) := by
  unfold execRestartStandby
  with_reducible repeat' first | assumption | apply vdpEntry_keeps | apply restartStandby_keeps | apply OutKeeps.next | (intro; intros)

theorem execNotifyAck_keeps {m : Bool} {o s : State} (r : VdpReq) (h : Keeps m o s) : OutKeeps m o (execNotifyAck r s) := by
  unfold execNotifyAck
  with_reducible repeat' first | assumption | apply notifyAck_keeps | apply OutKeeps.next

theorem execNotifyResend_keeps {m : Bool} {o s : State} (target : Nat) (seq : Nat) (h : Keeps m o s) : OutKeeps m o (execNotifyResend target seq s) := by
  unfold execNotifyResend
  with_reducible repeat' first | assumption | apply advanceTo_keeps | apply bump_keeps | apply emit_keeps | refine Keeps.fst (by assumption) ?_ | apply Keeps.ite | apply OutKeeps.next | apply OutKeeps.ite | (intro; intros) | extract_lets | split | apply Keeps.upd

theorem execSnapshotRelease_keeps {m : Bool} {o s : State} (id : Nat) (h : Keeps m o s) : OutKeeps m o (execSnapshotRelease id s) := by
  unfold execSnapshotRelease
  with_reducible repeat' first | assumption | apply advanceTo_keeps | refine Keeps.fst (by assumption) ?_ | apply OutKeeps.next | (intro; intros) | extract_lets | split | apply Keeps.upd

theorem execPartialWriteDiscard_keeps {m : Bool} {o s : State} (party : Party) (index : Nat) (sub : Nat) (group : Nat) (h : Keeps m o s) : OutKeeps m o (execPartialWriteDiscard party index sub group s) := by
  unfold execPartialWriteDiscard
  with_reducible repeat' first | assumption | apply advanceTo_keeps | apply failUpload_keeps | refine Keeps.fst (by assumption) ?_ | apply Keeps.ite | apply OutKeeps.next | apply OutKeeps.ite | (intro; intros) | extract_lets | split | apply Keeps.upd

theorem execGroupExpiry_keeps {m : Bool} {o s : State} (n : Nat) (h : Keeps m o s) : OutKeeps m o (execGroupExpiry n s) := by
  unfold execGroupExpiry
  with_reducible repeat' first | assumption | apply putGroup_keeps | apply advanceTo_keeps | apply Keeps.ite | apply OutKeeps.next | apply OutKeeps.ite | extract_lets | split | apply Keeps.upd

theorem execContextRelease_keeps {m : Bool} {o s : State} (party : Party) (h : Keeps m o s) : OutKeeps m o (execContextRelease party s) := by
  unfold execContextRelease
  with_reducible repeat' first | assumption | apply dropContext_keeps | apply advanceTo_keeps | refine Keeps.fst (by assumption) ?_ | apply OutKeeps.next | split

theorem execEntdaa_keeps {m : Bool} {o s : State} (addr : Nat) (h : Keeps m o s) : OutKeeps m o (execEntdaa addr s) := by
  unfold execEntdaa
  with_reducible repeat' first | assumption | apply Keeps.ite | apply OutKeeps.next | apply OutKeeps.ite | split | apply Keeps.upd

theorem execSetEndpointId_keeps {m : Bool} {o s : State} (eid : Nat) (h : Keeps m o s) : OutKeeps m o (execSetEndpointId eid s) := by
  unfold execSetEndpointId
  with_reducible repeat' first | assumption | apply wrE_keeps | apply Keeps.ite | apply OutKeeps.next | apply OutKeeps.ite | split

theorem execPldmRequest_keeps {m : Bool} {o s : State} (eid : Nat) (cmd : PldmCmd) (h : Keeps m o s) : OutKeeps m o (execPldmRequest eid cmd s) := by
  unfold execPldmRequest
  with_reducible repeat' first | assumption | apply pldmAnswer_keeps | apply pldmOpen_keeps | refine Keeps.fst (by assumption) ?_ | apply Keeps.ite | apply OutKeeps.next | apply OutKeeps.ite | split | apply Keeps.upd

theorem execOperationAbort_keeps {o s : State} (id : Nat) (units : Nat) (r : VdpReq) (h : Keeps false o s) : OutKeeps false o (execOperationAbort id units r s) := by
  unfold execOperationAbort
  with_reducible repeat' first | assumption | apply vdpEntry_keeps | apply abortOperation_keeps | apply Keeps.ite | apply OutKeeps.next | apply OutKeeps.ite | (intro; intros) | split

theorem execImageUpload_keeps {m : Bool} {o s : State} (r : VdpReq) (h : Keeps m o s) : OutKeeps m o (execImageUpload r s) := by
  unfold execImageUpload
  with_reducible repeat' first | assumption | apply imageUpload_keeps | apply OutKeeps.next

theorem execRenumbering_keeps {m : Bool} {o s : State} (h : Keeps m o s) : OutKeeps m o (execRenumbering s) := by
  unfold execRenumbering
  with_reducible repeat' first | assumption | apply renumber_keeps | apply Keeps.ite | apply OutKeeps.next | apply OutKeeps.ite | split

theorem execStandbyRailUp_keeps {m : Bool} {o s : State} (h : Keeps m o s) : OutKeeps m o (execStandbyRailUp s) := by
  unfold execStandbyRailUp
  with_reducible repeat' first | assumption | apply Keeps.ite | apply OutKeeps.next | apply OutKeeps.ite | extract_lets | split | apply Keeps.upd

theorem execStandbyRailLoss_keeps {o s : State} (h : Keeps false o s) : OutKeeps false o (execStandbyRailLoss s) := by
  unfold execStandbyRailLoss
  extract_lets u b
  have h1 : Keeps false o u := Keeps.foldl h (fun s x h => modTile_keeps _ _ h)
  clear_value u
  split
  · exact .next h
  · exact .next ⟨⟨h1.pending, h1.part, h1.fused, h1.now, h1.out, h1.free, fun _ => rfl, fun _ => Nat.zero_le 16⟩, fun e => nomatch e⟩

theorem execMantleBootDone_keeps {m : Bool} {o s : State} (m1 : Nat) (bad0 : Bool) (bad1 : Bool) (h : Keeps m o s) : OutKeeps m o (execMantleBootDone m1 bad0 bad1 s) := by
  unfold execMantleBootDone
  with_reducible repeat' first | assumption | apply mantleReady_keeps | apply setDieState_keeps | apply becomeActive_keeps | refine Keeps.fst (by assumption) ?_ | apply Keeps.ite | apply OutKeeps.next | apply OutKeeps.ite | extract_lets | split | apply Keeps.upd

theorem execMantleRestartN_keeps {m : Bool} {o s : State} (m1 : Nat) (h : Keeps m o s) : OutKeeps m o (execMantleRestartN m1 s) := by
  unfold execMantleRestartN
  with_reducible repeat' first | assumption | apply cutMantle_keeps | apply releaseLine_keeps | apply setDieState_keeps | apply Keeps.ite | apply OutKeeps.next | apply OutKeeps.ite | extract_lets | split

theorem execSpiSel_keeps {m : Bool} {o s : State} (high : Bool) (a : Option (List Byte)) (b : Option (List Byte)) (h : Keeps m o s) : OutKeeps m o (execSpiSel high a b s) := by
  unfold execSpiSel
  with_reducible repeat' first | assumption | apply Keeps.ite | apply OutKeeps.next | apply OutKeeps.ite | (intro; intros) | extract_lets | split | apply Keeps.upd

theorem execMainRailsStart_keeps {m : Bool} {o s : State} (h : Keeps m o s) : OutKeeps m o (execMainRailsStart s) := by
  unfold execMainRailsStart
  with_reducible repeat' first | assumption | apply startMains_keeps | apply Keeps.ite | apply OutKeeps.next | apply OutKeeps.ite | extract_lets | split | apply Keeps.upd

theorem execThaw_keeps {m : Bool} {o s : State} (h : Keeps m o s) : OutKeeps m o (execThaw s) := by
  unfold execThaw
  with_reducible repeat' first | assumption | apply advanceTo_keeps | apply startMains_keeps | refine Keeps.fst (by assumption) ?_ | apply Keeps.ite | apply OutKeeps.next | apply OutKeeps.ite | extract_lets | split | apply Keeps.upd

theorem execInputRecovery_keeps {m : Bool} {o s : State} (h : Keeps m o s) : OutKeeps m o (execInputRecovery s) := by
  unfold execInputRecovery
  with_reducible repeat' first | assumption | apply advanceTo_keeps | apply startMains_keeps | refine Keeps.fst (by assumption) ?_ | apply Keeps.ite | apply OutKeeps.next | apply OutKeeps.ite | extract_lets | split | apply Keeps.upd

theorem execStartUpStageDone_keeps {o s : State} (dies : Nat) (failed : List (Nat × Nat)) (mats : List MatRef) (h : Keeps false o s) : OutKeeps false o (execStartUpStageDone dies failed mats s) := by
  unfold execStartUpStageDone
  with_reducible repeat' first | assumption | apply setStage_keeps | apply stageRails_keeps | apply stageLasers_keeps | apply stagePattern_keeps | apply stageClear_keeps | apply stageConfigure_keeps | apply stageReady_keeps | refine Keeps.fst (by assumption) ?_ | apply Keeps.ite | apply OutKeeps.next | apply OutKeeps.ite | split

theorem execGuestDiscovery_keeps {o s : State} (sites : List GuestSite) (h : Keeps false o s) : OutKeeps false o (execGuestDiscovery sites s) := by
  unfold execGuestDiscovery
  with_reducible repeat' first | assumption | apply wrB_keeps | apply wrE_keeps | apply setStage_keeps | apply settleRoles_keeps | apply foundGuest_keeps | apply Keeps.foldl | apply Keeps.ite | apply OutKeeps.next | apply OutKeeps.ite | (intro; intros) | extract_lets | split | apply Keeps.upd

theorem execGuestLinkFailure_keeps {m : Bool} {o s : State} (g : Nat) (h : Keeps m o s) : OutKeeps m o (execGuestLinkFailure g s) := by
  unfold execGuestLinkFailure
  with_reducible repeat' first | assumption | apply modTile_keeps | apply Keeps.ite | apply OutKeeps.next | apply OutKeeps.ite | (intro; intros) | extract_lets | split | apply Keeps.upd

theorem execGuestLinkRetrained_keeps {m : Bool} {o s : State} (g : Nat) (h : Keeps m o s) : OutKeeps m o (execGuestLinkRetrained g s) := by
  unfold execGuestLinkRetrained
  with_reducible repeat' first | assumption | apply modTile_keeps | apply guestReport_keeps | apply wrE_keeps | apply Keeps.ite | apply OutKeeps.next | apply OutKeeps.ite | (intro; intros) | extract_lets | split | apply Keeps.upd

theorem execMainEnableDeassert_keeps {m : Bool} {o s : State} (h : Keeps m o s) : OutKeeps m o (execMainEnableDeassert s) := by
  unfold execMainEnableDeassert
  with_reducible repeat' first | assumption | apply beginShutdown_keeps | apply Keeps.ite | apply OutKeeps.next | apply OutKeeps.ite | extract_lets | split | apply Keeps.upd

theorem execOrderlyShutdownStep_keeps {o s : State} (h : Keeps false o s) : OutKeeps false o (execOrderlyShutdownStep s) := by
  unfold execOrderlyShutdownStep
  with_reducible repeat' first | assumption | apply finishTeardown_keeps | apply startTeardown_keeps | apply drainTiles_keeps | apply squelchGroups_keeps | apply hostDown_keeps | apply mainOff_keeps | apply freeMantles_keeps | apply holdMantles_keeps | refine Keeps.fst (by assumption) ?_ | apply Keeps.foldl | apply Keeps.ite | apply OutKeeps.next | apply OutKeeps.ite | (intro; intros) | extract_lets | split | apply Keeps.upd

theorem execRestartModule_keeps {m : Bool} {o s : State} (r : VdpReq) (h : Keeps m o s) : OutKeeps m o (execRestartModule r s) := by
  unfold execRestartModule
  with_reducible repeat' first | assumption | apply vdpEntry_keeps | apply restartModule_keeps | apply OutKeeps.next | (intro; intros)

theorem execModuleResetN_keeps {o s : State} (h : Keeps false o s) : OutKeeps false o (execModuleResetN s) := by
  unfold execModuleResetN
  with_reducible repeat' first | assumption | apply holdMantles_keeps | apply mainOff_keeps | apply OutKeeps.next | extract_lets | apply Keeps.upd

theorem execModuleResetNRelease_keeps {m : Bool} {o s : State} (h : Keeps m o s) : OutKeeps m o (execModuleResetNRelease s) := by
  unfold execModuleResetNRelease
  with_reducible repeat' first | assumption | apply freeMantles_keeps | apply Keeps.ite | apply OutKeeps.next | apply OutKeeps.ite | extract_lets | split | apply Keeps.upd

theorem execJ1Withdrawal_keeps {o s : State} (h : Keeps false o s) : OutKeeps false o (execJ1Withdrawal s) := by
  unfold execJ1Withdrawal
  with_reducible repeat' first | assumption | apply mainOff_keeps | apply OutKeeps.next | extract_lets | apply Keeps.upd

theorem execErasePersistentStore_keeps {m : Bool} {o s : State} (r : VdpReq) (h : Keeps m o s) : OutKeeps m o (execErasePersistentStore r s) := by
  unfold execErasePersistentStore
  with_reducible repeat' first | assumption | apply vdpEntry_keeps | apply eraseStore_keeps | apply OutKeeps.next | (intro; intros)

theorem execRestoreDefaults_keeps {o s : State} (r : VdpReq) (h : Keeps false o s) : OutKeeps false o (execRestoreDefaults r s) := by
  unfold execRestoreDefaults
  exact .next (vdpEntry_keeps _ _ _ (fun _ _ _ h => writerOf_keeps _ _ _ _ _ _ _ h) h)

theorem execDescribe_keeps {m : Bool} {o s : State} (r : VdpReq) (h : Keeps m o s) : OutKeeps m o (execDescribe r s) := by
  unfold execDescribe
  with_reducible repeat' first | assumption | apply describe_keeps | apply OutKeeps.next

theorem execGroupOpen_keeps {m : Bool} {o s : State} (r : VdpReq) (h : Keeps m o s) : OutKeeps m o (execGroupOpen r s) := by
  unfold execGroupOpen
  with_reducible repeat' first | assumption | apply groupOpen_keeps | apply OutKeeps.next

theorem execGroupCommit_keeps {m : Bool} {o s : State} (r : VdpReq) (h : Keeps m o s) : OutKeeps m o (execGroupCommit r s) := by
  unfold execGroupCommit
  with_reducible repeat' first | assumption | apply groupCommit_keeps | apply OutKeeps.next

theorem execGroupDiscard_keeps {m : Bool} {o s : State} (r : VdpReq) (h : Keeps m o s) : OutKeeps m o (execGroupDiscard r s) := by
  unfold execGroupDiscard
  with_reducible repeat' first | assumption | apply groupDiscard_keeps | apply OutKeeps.next

theorem execGroupStatus_keeps {m : Bool} {o s : State} (r : VdpReq) (h : Keeps m o s) : OutKeeps m o (execGroupStatus r s) := by
  unfold execGroupStatus
  with_reducible repeat' first | assumption | apply groupStatus_keeps | apply OutKeeps.next

theorem execVdpRead_keeps {o s : State} (r : VdpReq) (h : Keeps false o s) : OutKeeps false o (execVdpRead r s) := by
  unfold execVdpRead
  with_reducible repeat' first | assumption | apply vdpReadAny_keeps | apply vdpAny_keeps | apply Keeps.ite | apply OutKeeps.next | apply OutKeeps.ite | split

theorem execVdpWrite_keeps {o s : State} (r : VdpReq) (h : Keeps false o s) : OutKeeps false o (execVdpWrite r s) := by
  unfold execVdpWrite
  with_reducible repeat' first | assumption | apply vdpWriteAny_keeps | apply vdpAny_keeps | apply Keeps.ite | apply OutKeeps.next | apply OutKeeps.ite | split | apply Keeps.upd

theorem execClockFront_keeps {o s : State} (front : Nat) (nvFails : Bool) (replica : Option Int) (h : Keeps false o s) : OutKeeps false o (execClockFront front nvFails replica s) := by
  unfold execClockFront
  with_reducible repeat' first | assumption | apply frontWork_keeps | apply toFront_keeps | apply Keeps.ite | apply OutKeeps.next | apply OutKeeps.ite | extract_lets | split

theorem hostAccess_keeps {m : Bool} {o s : State} (fn : Nat) (f : State → State)
    (k : ∀ s, Keeps m o s → Keeps m o (f s)) (h : Keeps m o s) : OutKeeps m o (hostAccess s fn f) := by
  unfold hostAccess
  refine OutKeeps.next ?_
  split
  · exact k _ (useFn_keeps _ h)
  · exact h

theorem execRegPlainWrite_keeps {o s : State} (fn : Nat) (bar : Nat) (off : Nat) (data : List Byte) (h : Keeps false o s) : OutKeeps false o (execRegPlainWrite fn bar off data s) := by
  unfold execRegPlainWrite
  with_reducible repeat' first | assumption | apply hostAccess_keeps | apply bar2Write_keeps | apply windowWrite_keeps | apply Keeps.ite | apply OutKeeps.next | apply OutKeeps.ite | (intro; intros) | split

theorem execSetAliasWrite_keeps {o s : State} (fn : Nat) (off : Nat) (data : List Byte) (h : Keeps false o s) : OutKeeps false o (execSetAliasWrite fn off data s) := by
  unfold execSetAliasWrite
  with_reducible repeat' first | assumption | apply hostAccess_keeps | apply windowWrite_keeps | apply OutKeeps.next | (intro; intros)

theorem execClearAliasWrite_keeps {o s : State} (fn : Nat) (off : Nat) (data : List Byte) (h : Keeps false o s) : OutKeeps false o (execClearAliasWrite fn off data s) := by
  unfold execClearAliasWrite
  with_reducible repeat' first | assumption | apply hostAccess_keeps | apply windowWrite_keeps | apply OutKeeps.next | (intro; intros)

theorem execToggleAliasWrite_keeps {o s : State} (fn : Nat) (off : Nat) (data : List Byte) (h : Keeps false o s) : OutKeeps false o (execToggleAliasWrite fn off data s) := by
  unfold execToggleAliasWrite
  with_reducible repeat' first | assumption | apply hostAccess_keeps | apply windowWrite_keeps | apply OutKeeps.next | (intro; intros)

theorem execStatusRegisterWrite_keeps {o s : State} (fn : Nat) (off : Nat) (value : Nat) (h : Keeps false o s) : OutKeeps false o (execStatusRegisterWrite fn off value s) := by
  unfold execStatusRegisterWrite
  with_reducible repeat' first | assumption | apply hostAccess_keeps | apply windowWrite_keeps | apply Keeps.ite | apply OutKeeps.next | apply OutKeeps.ite | (intro; intros) | split

theorem execDomainWrite_keeps {o s : State} (fn : Nat) (window : Nat) (off : Nat) (value : Nat) (h : Keeps false o s) : OutKeeps false o (execDomainWrite fn window off value s) := by
  unfold execDomainWrite
  with_reducible repeat' first | assumption | apply hostAccess_keeps | apply windowWrite_keeps | apply Keeps.ite | apply OutKeeps.next | apply OutKeeps.ite | (intro; intros) | split

theorem execDomainWriteApplied_keeps {m : Bool} {o s : State} (d : Nat) (h : Keeps m o s) : OutKeeps m o (execDomainWriteApplied d s) := by
  unfold execDomainWriteApplied
  with_reducible repeat' first | assumption | apply settleWrite_keeps | apply OutKeeps.next

theorem execEpochLoRead_keeps {m : Bool} {o s : State} (fn : Nat) (h : Keeps m o s) : OutKeeps m o (execEpochLoRead fn s) := by
  unfold execEpochLoRead
  with_reducible repeat' first | assumption | apply hostAccess_keeps | apply readEpoch_keeps | apply OutKeeps.next | (intro; intros)

theorem execBar4FenceRead_keeps {m : Bool} {o s : State} (h : Keeps m o s) : OutKeeps m o (execBar4FenceRead s) := by
  unfold execBar4FenceRead
  with_reducible repeat' first | assumption | apply hostAccess_keeps | apply readFence_keeps | apply OutKeeps.next

theorem execDomainRegisterRead_keeps {m : Bool} {o s : State} (fn : Nat) (off : Nat) (h : Keeps m o s) : OutKeeps m o (execDomainRegisterRead fn off s) := by
  unfold execDomainRegisterRead
  with_reducible repeat' first | assumption | apply hostAccess_keeps | apply readReg_keeps | apply emit_keeps | apply raiseHb_keeps | apply Keeps.ite | apply OutKeeps.next | apply OutKeeps.ite | (intro; intros) | split

theorem execDomainReadRecovery_keeps {m : Bool} {o s : State} (d : Nat) (h : Keeps m o s) : OutKeeps m o (execDomainReadRecovery d s) := by
  unfold execDomainReadRecovery
  with_reducible repeat' first | assumption | apply releaseReads_keeps | apply recoverDomain_keeps | apply advanceTo_keeps | apply Keeps.ite | apply OutKeeps.next | apply OutKeeps.ite | extract_lets | split

theorem execMboxDoorbell_keeps {o s : State} (fn : Nat) (value : Nat) (nvFails : Bool) (copyFails : Bool) (h : Keeps false o s) : OutKeeps false o (execMboxDoorbell fn value nvFails copyFails s) := by
  unfold execMboxDoorbell
  with_reducible repeat' first | assumption | apply hostAccess_keeps | apply ringMailbox_keeps | apply OutKeeps.next | (intro; intros)

theorem execMailboxResponse_keeps {o s : State} (fn : Nat) (h : Keeps false o s) : OutKeeps false o (execMailboxResponse fn s) := by
  unfold execMailboxResponse
  with_reducible repeat' first | assumption | apply hostAccess_keeps | apply deliverResponse_keeps | apply OutKeeps.next | (intro; intros)

theorem execTileSyncAdd_keeps {o s : State} (t : Nat) (value : Nat) (h : Keeps false o s) : OutKeeps false o (execTileSyncAdd t value s) := by
  unfold execTileSyncAdd
  with_reducible repeat' first | assumption | apply hostAccess_keeps | apply writeThrough_keeps | apply Keeps.ite | apply OutKeeps.next | apply OutKeeps.ite | (intro; intros) | split

theorem execBaseSyncAdd_keeps {o s : State} (value : Nat) (h : Keeps false o s) : OutKeeps false o (execBaseSyncAdd value s) := by
  unfold execBaseSyncAdd
  with_reducible repeat' first | assumption | apply hostAccess_keeps | apply writeThrough_keeps | apply OutKeeps.next | (intro; intros)

theorem execFcWake_keeps {o s : State} (value : Nat) (h : Keeps false o s) : OutKeeps false o (execFcWake value s) := by
  unfold execFcWake
  with_reducible repeat' first | assumption | apply hostAccess_keeps | apply writeThrough_keeps | apply OutKeeps.next | (intro; intros)

theorem execQueueEnable_keeps {m : Bool} {o s : State} (fn : Nat) (i : Nat) (value : Nat) (h : Keeps m o s) : OutKeeps m o (execQueueEnable fn i value s) := by
  unfold execQueueEnable
  with_reducible repeat' first | assumption | apply hostAccess_keeps | apply qctrlWrite_keeps | apply OutKeeps.next | (intro; intros)

theorem execQueueDisable_keeps {m : Bool} {o s : State} (fn : Nat) (i : Nat) (value : Nat) (h : Keeps m o s) : OutKeeps m o (execQueueDisable fn i value s) := by
  unfold execQueueDisable
  with_reducible repeat' first | assumption | apply hostAccess_keeps | apply qctrlWrite_keeps | apply OutKeeps.next | (intro; intros)

theorem execQueueDisabled_keeps {m : Bool} {o s : State} (q : Nat) (h : Keeps m o s) : OutKeeps m o (execQueueDisabled q s) := by
  unfold execQueueDisabled
  with_reducible repeat' first | assumption | apply raiseQueue_keeps | apply modHQ_keeps | apply Keeps.ite | apply OutKeeps.next | apply OutKeeps.ite | (intro; intros) | extract_lets | split | apply Keeps.upd

theorem execSqTail_keeps {m : Bool} {o s : State} (fn : Nat) (i : Nat) (value : Nat) (h : Keeps m o s) : OutKeeps m o (execSqTail fn i value s) := by
  unfold execSqTail
  with_reducible repeat' first | assumption | apply hostAccess_keeps | apply writeTail_keeps | refine Keeps.fst (by assumption) ?_ | apply OutKeeps.next | (intro; intros) | split

theorem execCqHead_keeps {m : Bool} {o s : State} (fn : Nat) (i : Nat) (value : Nat) (h : Keeps m o s) : OutKeeps m o (execCqHead fn i value s) := by
  unfold execCqHead
  with_reducible repeat' first | assumption | apply hostAccess_keeps | apply writeHead_keeps | refine Keeps.fst (by assumption) ?_ | apply OutKeeps.next | (intro; intros) | split

theorem execPerstDeassert_keeps {m : Bool} {o s : State} (h : Keeps m o s) : OutKeeps m o (execPerstDeassert s) := by
  unfold execPerstDeassert
  with_reducible repeat' first | assumption | apply Keeps.ite | apply OutKeeps.next | apply OutKeeps.ite | split | apply Keeps.upd

theorem execPcieLinkTraining_keeps {m : Bool} {o s : State} (width : Nat) (rate : Nat) (flit : Bool) (h : Keeps m o s) : OutKeeps m o (execPcieLinkTraining width rate flit s) := by
  unfold execPcieLinkTraining
  with_reducible repeat' first | assumption | apply advanceTo_keeps | apply wrE_keeps | apply report_keeps | apply raiseHb_keeps | apply Keeps.ite | apply OutKeeps.next | apply OutKeeps.ite | extract_lets | split | apply Keeps.upd

theorem execQueueDmaFault_keeps {m : Bool} {o s : State} (q : Nat) (cq : Bool) (h : Keeps m o s) : OutKeeps m o (execQueueDmaFault q cq s) := by
  unfold execQueueDmaFault
  with_reducible repeat' first | assumption | apply dmaFault_keeps | apply Keeps.ite | apply OutKeeps.next | apply OutKeeps.ite | extract_lets | split

theorem execBusMasterDisable_keeps {m : Bool} {o s : State} (fn : Nat) (h : Keeps m o s) : OutKeeps m o (execBusMasterDisable fn s) := by
  unfold execBusMasterDisable
  with_reducible repeat' first | assumption | apply hostAccess_keeps | apply dmaFault_keeps | apply Keeps.foldl | apply Keeps.ite | apply OutKeeps.next | apply OutKeeps.ite | (intro; intros) | extract_lets | split

theorem execVfReset_keeps {m : Bool} {o s : State} (v : Nat) (h : Keeps m o s) : OutKeeps m o (execVfReset v s) := by
  unfold execVfReset
  with_reducible repeat' first | assumption | apply resetVf_keeps | apply Keeps.ite | apply OutKeeps.next | apply OutKeeps.ite | split

theorem execVfResetComplete_keeps {m : Bool} {o s : State} (fn : Nat) (h : Keeps m o s) : OutKeeps m o (execVfResetComplete fn s) := by
  unfold execVfResetComplete
  with_reducible repeat' first | assumption | apply modFunc_keeps | apply advanceTo_keeps | apply quarantineTag_keeps | apply putTrack_keeps | apply wrE_keeps | apply report_keeps | apply raiseHb_keeps | refine Keeps.fst (by assumption) ?_ | apply Keeps.foldl | apply Keeps.ite | apply OutKeeps.next | apply OutKeeps.ite | (intro; intros) | extract_lets | split | apply Keeps.upd

theorem execHotReset_keeps {m : Bool} {o s : State} (linkLost : Bool) (h : Keeps m o s) : OutKeeps m o (execHotReset linkLost s) := by
  unfold execHotReset
  with_reducible repeat' first | assumption | apply resetAll_keeps | apply Keeps.ite | apply OutKeeps.next | apply OutKeeps.ite | extract_lets | split | apply Keeps.upd

theorem execFunctionLevelReset_keeps {m : Bool} {o s : State} (fn : Nat) (h : Keeps m o s) : OutKeeps m o (execFunctionLevelReset fn s) := by
  unfold execFunctionLevelReset
  with_reducible repeat' first | assumption | apply flr_keeps | apply Keeps.ite | apply OutKeeps.next | apply OutKeeps.ite | split

theorem execD3hotEntry_keeps {m : Bool} {o s : State} (fn : Nat) (h : Keeps m o s) : OutKeeps m o (execD3hotEntry fn s) := by
  unfold execD3hotEntry
  with_reducible repeat' first | assumption | apply flr_keeps | apply Keeps.ite | apply OutKeeps.next | apply OutKeeps.ite | (intro; intros) | split

theorem execSqEntryFetch_keeps {m : Bool} {o s : State} (q : Nat) (entry : List Byte) (h : Keeps m o s) : OutKeeps m o (execSqEntryFetch q entry s) := by
  unfold execSqEntryFetch
  with_reducible repeat' first | assumption | apply fetchEntry_keeps | apply OutKeeps.next

theorem execWrite_keeps {m : Bool} {o s : State} (q : Nat) (idx : Nat) (data : List Byte) (fault : Bool) (h : Keeps m o s) : OutKeeps m o (execWrite q idx data fault s) := by
  unfold execWrite
  with_reducible repeat' first | assumption | apply stepWrite_keeps | refine Keeps.fst (by assumption) ?_ | apply OutKeeps.next | split

theorem execRead_keeps {m : Bool} {o s : State} (q : Nat) (idx : Nat) (h : Keeps m o s) : OutKeeps m o (execRead q idx s) := by
  unfold execRead
  with_reducible repeat' first | assumption | apply stepRead_keeps | refine Keeps.fst (by assumption) ?_ | apply OutKeeps.next | split

theorem execSignal_keeps {m : Bool} {o s : State} (q : Nat) (idx : Nat) (h : Keeps m o s) : OutKeeps m o (execSignal q idx s) := by
  unfold execSignal
  with_reducible repeat' first | assumption | apply issueAdd_keeps | refine Keeps.fst (by assumption) ?_ | apply Keeps.ite | apply OutKeeps.next | apply OutKeeps.ite | split

theorem execWait_keeps {m : Bool} {o s : State} (q : Nat) (idx : Nat) (h : Keeps m o s) : OutKeeps m o (execWait q idx s) := by
  unfold execWait
  with_reducible repeat' first | assumption | apply stepWait_keeps | refine Keeps.fst (by assumption) ?_ | apply OutKeeps.next | split

theorem execWaitTimeout_keeps {m : Bool} {o s : State} (q : Nat) (idx : Nat) (h : Keeps m o s) : OutKeeps m o (execWaitTimeout q idx s) := by
  unfold execWaitTimeout
  with_reducible repeat' first | assumption | apply quarantineTag_keeps | apply putTrack_keeps | apply advanceTo_keeps | apply modEnt_keeps | refine Keeps.fst (by assumption) ?_ | apply Keeps.ite | apply OutKeeps.next | apply OutKeeps.ite | (intro; intros) | extract_lets | split | apply Keeps.upd

theorem execBarrier_keeps {m : Bool} {o s : State} (q : Nat) (idx : Nat) (h : Keeps m o s) : OutKeeps m o (execBarrier q idx s) := by
  unfold execBarrier
  with_reducible repeat' first | assumption | apply modEnt_keeps | refine Keeps.fst (by assumption) ?_ | apply Keeps.ite | apply OutKeeps.next | apply OutKeeps.ite | (intro; intros) | split | apply Keeps.upd

theorem execCqRecordWrite_keeps {m : Bool} {o s : State} (q : Nat) (idx : Nat) (h : Keeps m o s) : OutKeeps m o (execCqRecordWrite q idx s) := by
  unfold execCqRecordWrite
  with_reducible repeat' first | assumption | apply raiseQueue_keeps | apply modHQ_keeps | apply writeRecord_keeps | refine Keeps.fst (by assumption) ?_ | apply Keeps.ite | apply OutKeeps.next | apply OutKeeps.ite | (intro; intros) | extract_lets | split | apply Keeps.upd

theorem execCqCoalesceTimer_keeps {m : Bool} {o s : State} (q : Nat) (h : Keeps m o s) : OutKeeps m o (execCqCoalesceTimer q s) := by
  unfold execCqCoalesceTimer
  with_reducible repeat' first | assumption | apply signalQueue_keeps | apply advanceTo_keeps | apply Keeps.ite | apply OutKeeps.next | apply OutKeeps.ite | extract_lets | split

theorem execWatch_keeps {m : Bool} {o s : State} (st : Nat) (p : Pkt) (h : Keeps m o s) : OutKeeps m o (execWatch st p s) := by
  unfold execWatch
  with_reducible repeat' first | assumption | apply watchAt_keeps | apply OutKeeps.next

theorem execWatchFire_keeps {o s : State} (p : Pkt) (h : Keeps false o s) : OutKeeps false o (execWatchFire p s) := by
  unfold execWatchFire
  exact execCompletion_keeps _ _ _ _ h

theorem execWatchExpiry_keeps {m : Bool} {o s : State} (t : Nat) (name : Nat) (h : Keeps m o s) : OutKeeps m o (execWatchExpiry t name s) := by
  unfold execWatchExpiry
  with_reducible repeat' first | assumption | apply atCount_keeps | refine Keeps.fst (by assumption) ?_ | apply Keeps.foldl | apply OutKeeps.next | (intro; intros) | extract_lets | split | apply Keeps.upd

theorem execBar4Write_keeps {m : Bool} {o s : State} (off : Nat) (data : List Byte) (h : Keeps m o s) : OutKeeps m o (execBar4Write off data s) := by
  unfold execBar4Write
  with_reducible repeat' first | assumption | apply hostAccess_keeps | apply raiseBar_keeps | apply startBar_keeps | apply Keeps.ite | apply OutKeeps.next | apply OutKeeps.ite | (intro; intros) | split

theorem execBar4Read_keeps {m : Bool} {o s : State} (off : Nat) (len : Nat) (h : Keeps m o s) : OutKeeps m o (execBar4Read off len s) := by
  unfold execBar4Read
  with_reducible repeat' first | assumption | apply hostAccess_keeps | apply emit_keeps | apply raiseBar_keeps | apply startBar_keeps | apply Keeps.ite | apply OutKeeps.next | apply OutKeeps.ite | (intro; intros) | extract_lets | split

end Sys2Proof.Machine
end

