-- ==== Sys2Proof/Laws/Vdp.lean ====
section
/-! SUPPORT. What the operations of the dictionary protocol do: a granted request, answers and
the persistent store. -/
namespace Sys2Proof.Machine

theorem standbyCopy_false (s : State) : standbyCopy s false = s := rfl

/-- A granted request: the entry's rules take effect on the whole value, then the value is
stored where it is RWP, then the answer leaves. -/
theorem vdpEntry_served {s : State} {r : VdpReq} {ok : State → Tab Nat → List Byte → Bool}
    {effect : State → Tab Nat → List Byte → Effect} (h : granted s r = true)
    (hok : ok s (selects s r) r.data = true) (hst : (effect s (selects s r) r.data).status = 0) :
    vdpEntry s r ok effect = served (effect s (selects s r) r.data) r := by
  simp only [granted, Bool.and_eq_true, Bool.not_eq_true', decide_eq_true_eq, Bool.or_eq_true,
    Option.isNone_iff_eq_none] at h
  obtain ⟨⟨⟨⟨⟨⟨⟨⟨⟨h1, h2⟩, h3⟩, h4⟩, h5⟩, h6⟩, h7⟩, h8⟩, h9⟩, h10⟩ := h
  cases he : findEntry r.index r.sub with
  | none => simp [he] at h7
  | some e =>
    simp only [he, Bool.and_eq_true, Bool.not_eq_true', Option.bind_some] at h7 h5
    obtain ⟨⟨h71, h72⟩, h73⟩ := h7
    have ht : takeSegment s r = (s, some r.data, 0) := by
      unfold takeSegment
      simp only [he, Option.bind_some]
      cases hz : etypeSize e.ty with
      | some n => rfl
      | none =>
        have : r.offset = 0 ∧ r.dataLen = r.total := by simpa [hz] using h5
        simp [this]
    have hb : (e.betweenJobs && !noJobs s) = false := by
      cases hbj : e.betweenJobs <;> simp_all
    have ho : ¬ (¬ r.opcode = 2 ∧ ¬ r.opcode = 3) := fun ⟨a, b⟩ => h4.elim a b
    have hp : ¬ (e.acc = EAccess.rwp ∧ r.nvFails = true) := by
      intro ⟨a, b⟩; simp [a, b] at h73
    have hok' : ok s (contextOf s r.src).sel r.data = true := hok
    have hst' : (effect s (contextOf s r.src).sel r.data).status = 0 := hst
    simp [vdpEntry, h1, h2, h3, ht, h6, perform, he, h71, hb, h8, h9, h10, ho, hp, hok', hst', served,
      isPersistent, standbyCopy_false, selects]

/-! ### What answers leave alone -/

section
variable (s : State) (r : VdpReq) (x : VdpResp)
@[simp] theorem sendResp_pending (p : Party) : (sendResp s p x).pending = s.pending := by unfold sendResp; split <;> rfl
@[simp] theorem putContext_pending (c : Context) : (putContext s c).pending = s.pending := rfl
@[simp] theorem answer_pending : (answer s r x).pending = s.pending := by unfold answer; simp only [sendResp_pending]; split <;> rfl
@[simp] theorem sendResp_now (p : Party) : (sendResp s p x).now = s.now := by unfold sendResp; split <;> rfl
@[simp] theorem putContext_now (c : Context) : (putContext s c).now = s.now := rfl
@[simp] theorem answer_now : (answer s r x).now = s.now := by unfold answer; simp only [sendResp_now]; split <;> rfl
@[simp] theorem sendResp_epochOff (p : Party) : (sendResp s p x).epochOff = s.epochOff := by unfold sendResp; split <;> rfl
@[simp] theorem putContext_epochOff (c : Context) : (putContext s c).epochOff = s.epochOff := rfl
@[simp] theorem answer_epochOff : (answer s r x).epochOff = s.epochOff := by unfold answer; simp only [sendResp_epochOff]; split <;> rfl
@[simp] theorem sendResp_part (p : Party) : (sendResp s p x).part = s.part := by unfold sendResp; split <;> rfl
@[simp] theorem putContext_part (c : Context) : (putContext s c).part = s.part := rfl
@[simp] theorem answer_part : (answer s r x).part = s.part := by unfold answer; simp only [sendResp_part]; split <;> rfl
@[simp] theorem sendResp_free (p : Party) : (sendResp s p x).free = s.free := by unfold sendResp; split <;> rfl
@[simp] theorem putContext_free (c : Context) : (putContext s c).free = s.free := rfl
@[simp] theorem answer_free : (answer s r x).free = s.free := by unfold answer; simp only [sendResp_free]; split <;> rfl
@[simp] theorem sendResp_mem (p : Party) : (sendResp s p x).mem = s.mem := by unfold sendResp; split <;> rfl
@[simp] theorem putContext_mem (c : Context) : (putContext s c).mem = s.mem := rfl
@[simp] theorem answer_mem : (answer s r x).mem = s.mem := by unfold answer; simp only [sendResp_mem]; split <;> rfl
@[simp] theorem sendResp_cells (p : Party) : (sendResp s p x).cells = s.cells := by unfold sendResp; split <;> rfl
@[simp] theorem putContext_cells (c : Context) : (putContext s c).cells = s.cells := rfl
@[simp] theorem answer_cells : (answer s r x).cells = s.cells := by unfold answer; simp only [sendResp_cells]; split <;> rfl
@[simp] theorem sendResp_badRows (p : Party) : (sendResp s p x).badRows = s.badRows := by unfold sendResp; split <;> rfl
@[simp] theorem putContext_badRows (c : Context) : (putContext s c).badRows = s.badRows := rfl
@[simp] theorem answer_badRows : (answer s r x).badRows = s.badRows := by unfold answer; simp only [sendResp_badRows]; split <;> rfl
@[simp] theorem sendResp_fusedTiles (p : Party) : (sendResp s p x).fusedTiles = s.fusedTiles := by unfold sendResp; split <;> rfl
@[simp] theorem putContext_fusedTiles (c : Context) : (putContext s c).fusedTiles = s.fusedTiles := rfl
@[simp] theorem answer_fusedTiles : (answer s r x).fusedTiles = s.fusedTiles := by unfold answer; simp only [sendResp_fusedTiles]; split <;> rfl
@[simp] theorem sendResp_retiredTiles (p : Party) : (sendResp s p x).retiredTiles = s.retiredTiles := by unfold sendResp; split <;> rfl
@[simp] theorem putContext_retiredTiles (c : Context) : (putContext s c).retiredTiles = s.retiredTiles := rfl
@[simp] theorem answer_retiredTiles : (answer s r x).retiredTiles = s.retiredTiles := by unfold answer; simp only [sendResp_retiredTiles]; split <;> rfl
@[simp] theorem sendResp_pendingTiles (p : Party) : (sendResp s p x).pendingTiles = s.pendingTiles := by unfold sendResp; split <;> rfl
@[simp] theorem putContext_pendingTiles (c : Context) : (putContext s c).pendingTiles = s.pendingTiles := rfl
@[simp] theorem answer_pendingTiles : (answer s r x).pendingTiles = s.pendingTiles := by unfold answer; simp only [sendResp_pendingTiles]; split <;> rfl
@[simp] theorem sendResp_guestSites (p : Party) : (sendResp s p x).guestSites = s.guestSites := by unfold sendResp; split <;> rfl
@[simp] theorem putContext_guestSites (c : Context) : (putContext s c).guestSites = s.guestSites := rfl
@[simp] theorem answer_guestSites : (answer s r x).guestSites = s.guestSites := by unfold answer; simp only [sendResp_guestSites]; split <;> rfl
@[simp] theorem sendResp_tiles (p : Party) : (sendResp s p x).tiles = s.tiles := by unfold sendResp; split <;> rfl
@[simp] theorem putContext_tiles (c : Context) : (putContext s c).tiles = s.tiles := rfl
@[simp] theorem answer_tiles : (answer s r x).tiles = s.tiles := by unfold answer; simp only [sendResp_tiles]; split <;> rfl
@[simp] theorem sendResp_baseSync (p : Party) : (sendResp s p x).baseSync = s.baseSync := by unfold sendResp; split <;> rfl
@[simp] theorem putContext_baseSync (c : Context) : (putContext s c).baseSync = s.baseSync := rfl
@[simp] theorem answer_baseSync : (answer s r x).baseSync = s.baseSync := by unfold answer; simp only [sendResp_baseSync]; split <;> rfl
@[simp] theorem sendResp_dict (p : Party) : (sendResp s p x).dict = s.dict := by unfold sendResp; split <;> rfl
@[simp] theorem putContext_dict (c : Context) : (putContext s c).dict = s.dict := rfl
@[simp] theorem answer_dict : (answer s r x).dict = s.dict := by unfold answer; simp only [sendResp_dict]; split <;> rfl
@[simp] theorem sendResp_blobs (p : Party) : (sendResp s p x).blobs = s.blobs := by unfold sendResp; split <;> rfl
@[simp] theorem putContext_blobs (c : Context) : (putContext s c).blobs = s.blobs := rfl
@[simp] theorem answer_blobs : (answer s r x).blobs = s.blobs := by unfold answer; simp only [sendResp_blobs]; split <;> rfl
@[simp] theorem sendResp_injections (p : Party) : (sendResp s p x).injections = s.injections := by unfold sendResp; split <;> rfl
@[simp] theorem putContext_injections (c : Context) : (putContext s c).injections = s.injections := rfl
@[simp] theorem answer_injections : (answer s r x).injections = s.injections := by unfold answer; simp only [sendResp_injections]; split <;> rfl
@[simp] theorem sendResp_tested (p : Party) : (sendResp s p x).tested = s.tested := by unfold sendResp; split <;> rfl
@[simp] theorem putContext_tested (c : Context) : (putContext s c).tested = s.tested := rfl
@[simp] theorem answer_tested : (answer s r x).tested = s.tested := by unfold answer; simp only [sendResp_tested]; split <;> rfl
@[simp] theorem sendResp_log (p : Party) : (sendResp s p x).log = s.log := by unfold sendResp; split <;> rfl
@[simp] theorem putContext_log (c : Context) : (putContext s c).log = s.log := rfl
@[simp] theorem answer_log : (answer s r x).log = s.log := by unfold answer; simp only [sendResp_log]; split <;> rfl
@[simp] theorem sendResp_ops (p : Party) : (sendResp s p x).ops = s.ops := by unfold sendResp; split <;> rfl
@[simp] theorem putContext_ops (c : Context) : (putContext s c).ops = s.ops := rfl
@[simp] theorem answer_ops : (answer s r x).ops = s.ops := by unfold answer; simp only [sendResp_ops]; split <;> rfl
@[simp] theorem sendResp_bas (p : Party) : (sendResp s p x).bas = s.bas := by unfold sendResp; split <;> rfl
@[simp] theorem putContext_bas (c : Context) : (putContext s c).bas = s.bas := rfl
@[simp] theorem answer_bas : (answer s r x).bas = s.bas := by unfold answer; simp only [sendResp_bas]; split <;> rfl
@[simp] theorem sendResp_col (p : Party) : (sendResp s p x).col = s.col := by unfold sendResp; split <;> rfl
@[simp] theorem putContext_col (c : Context) : (putContext s c).col = s.col := rfl
@[simp] theorem answer_col : (answer s r x).col = s.col := by unfold answer; simp only [sendResp_col]; split <;> rfl
@[simp] theorem sendResp_hem (p : Party) : (sendResp s p x).hem = s.hem := by unfold sendResp; split <;> rfl
@[simp] theorem putContext_hem (c : Context) : (putContext s c).hem = s.hem := rfl
@[simp] theorem answer_hem : (answer s r x).hem = s.hem := by unfold answer; simp only [sendResp_hem]; split <;> rfl
@[simp] theorem sendResp_fab (p : Party) : (sendResp s p x).fab = s.fab := by unfold sendResp; split <;> rfl
@[simp] theorem putContext_fab (c : Context) : (putContext s c).fab = s.fab := rfl
@[simp] theorem answer_fab : (answer s r x).fab = s.fab := by unfold answer; simp only [sendResp_fab]; split <;> rfl
@[simp] theorem sendResp_adm (p : Party) : (sendResp s p x).adm = s.adm := by unfold sendResp; split <;> rfl
@[simp] theorem putContext_adm (c : Context) : (putContext s c).adm = s.adm := rfl
@[simp] theorem answer_adm : (answer s r x).adm = s.adm := by unfold answer; simp only [sendResp_adm]; split <;> rfl
@[simp] theorem sendResp_clk (p : Party) : (sendResp s p x).clk = s.clk := by unfold sendResp; split <;> rfl
@[simp] theorem putContext_clk (c : Context) : (putContext s c).clk = s.clk := rfl
@[simp] theorem answer_clk : (answer s r x).clk = s.clk := by unfold answer; simp only [sendResp_clk]; split <;> rfl
@[simp] theorem sendResp_pow (p : Party) : (sendResp s p x).pow = s.pow := by unfold sendResp; split <;> rfl
@[simp] theorem putContext_pow (c : Context) : (putContext s c).pow = s.pow := rfl
@[simp] theorem answer_pow : (answer s r x).pow = s.pow := by unfold answer; simp only [sendResp_pow]; split <;> rfl
@[simp] theorem sendResp_cal (p : Party) : (sendResp s p x).cal = s.cal := by unfold sendResp; split <;> rfl
@[simp] theorem putContext_cal (c : Context) : (putContext s c).cal = s.cal := rfl
@[simp] theorem answer_cal : (answer s r x).cal = s.cal := by unfold answer; simp only [sendResp_cal]; split <;> rfl
@[simp] theorem sendResp_las (p : Party) : (sendResp s p x).las = s.las := by unfold sendResp; split <;> rfl
@[simp] theorem putContext_las (c : Context) : (putContext s c).las = s.las := rfl
@[simp] theorem answer_las : (answer s r x).las = s.las := by unfold answer; simp only [sendResp_las]; split <;> rfl
@[simp] theorem sendResp_fc (p : Party) : (sendResp s p x).fc = s.fc := by unfold sendResp; split <;> rfl
@[simp] theorem putContext_fc (c : Context) : (putContext s c).fc = s.fc := rfl
@[simp] theorem answer_fc : (answer s r x).fc = s.fc := by unfold answer; simp only [sendResp_fc]; split <;> rfl
@[simp] theorem sendResp_boot (p : Party) : (sendResp s p x).boot = s.boot := by unfold sendResp; split <;> rfl
@[simp] theorem putContext_boot (c : Context) : (putContext s c).boot = s.boot := rfl
@[simp] theorem answer_boot : (answer s r x).boot = s.boot := by unfold answer; simp only [sendResp_boot]; split <;> rfl
@[simp] theorem sendResp_host (p : Party) : (sendResp s p x).host = s.host := by unfold sendResp; split <;> rfl
@[simp] theorem putContext_host (c : Context) : (putContext s c).host = s.host := rfl
@[simp] theorem answer_host : (answer s r x).host = s.host := by unfold answer; simp only [sendResp_host]; split <;> rfl
@[simp] theorem persist_pending (i j : Nat) : (persist s i j).pending = s.pending := rfl
@[simp] theorem persist_now (i j : Nat) : (persist s i j).now = s.now := rfl
@[simp] theorem persist_epochOff (i j : Nat) : (persist s i j).epochOff = s.epochOff := rfl
@[simp] theorem persist_part (i j : Nat) : (persist s i j).part = s.part := rfl
@[simp] theorem persist_out (i j : Nat) : (persist s i j).out = s.out := rfl
@[simp] theorem persist_free (i j : Nat) : (persist s i j).free = s.free := rfl
@[simp] theorem persist_mem (i j : Nat) : (persist s i j).mem = s.mem := rfl
@[simp] theorem persist_cells (i j : Nat) : (persist s i j).cells = s.cells := rfl
@[simp] theorem persist_badRows (i j : Nat) : (persist s i j).badRows = s.badRows := rfl
@[simp] theorem persist_fusedTiles (i j : Nat) : (persist s i j).fusedTiles = s.fusedTiles := rfl
@[simp] theorem persist_retiredTiles (i j : Nat) : (persist s i j).retiredTiles = s.retiredTiles := rfl
@[simp] theorem persist_pendingTiles (i j : Nat) : (persist s i j).pendingTiles = s.pendingTiles := rfl
@[simp] theorem persist_guestSites (i j : Nat) : (persist s i j).guestSites = s.guestSites := rfl
@[simp] theorem persist_tiles (i j : Nat) : (persist s i j).tiles = s.tiles := rfl
@[simp] theorem persist_baseSync (i j : Nat) : (persist s i j).baseSync = s.baseSync := rfl
@[simp] theorem persist_dict (i j : Nat) : (persist s i j).dict = s.dict := rfl
@[simp] theorem persist_blobs (i j : Nat) : (persist s i j).blobs = s.blobs := rfl
@[simp] theorem persist_injections (i j : Nat) : (persist s i j).injections = s.injections := rfl
@[simp] theorem persist_tested (i j : Nat) : (persist s i j).tested = s.tested := rfl
@[simp] theorem persist_log (i j : Nat) : (persist s i j).log = s.log := rfl
@[simp] theorem persist_ops (i j : Nat) : (persist s i j).ops = s.ops := rfl
@[simp] theorem persist_bas (i j : Nat) : (persist s i j).bas = s.bas := rfl
@[simp] theorem persist_col (i j : Nat) : (persist s i j).col = s.col := rfl
@[simp] theorem persist_hem (i j : Nat) : (persist s i j).hem = s.hem := rfl
@[simp] theorem persist_fab (i j : Nat) : (persist s i j).fab = s.fab := rfl
@[simp] theorem persist_adm (i j : Nat) : (persist s i j).adm = s.adm := rfl
@[simp] theorem persist_clk (i j : Nat) : (persist s i j).clk = s.clk := rfl
@[simp] theorem persist_pow (i j : Nat) : (persist s i j).pow = s.pow := rfl
@[simp] theorem persist_cal (i j : Nat) : (persist s i j).cal = s.cal := rfl
@[simp] theorem persist_las (i j : Nat) : (persist s i j).las = s.las := rfl
@[simp] theorem persist_fc (i j : Nat) : (persist s i j).fc = s.fc := rfl
@[simp] theorem persist_boot (i j : Nat) : (persist s i j).boot = s.boot := rfl
@[simp] theorem persist_host (i j : Nat) : (persist s i j).host = s.host := rfl
@[simp] theorem served_pending (e : Effect) : (served e r).pending = e.s.pending := by unfold served; simp only [answer_pending]; split <;> rfl
@[simp] theorem served_now (e : Effect) : (served e r).now = e.s.now := by unfold served; simp only [answer_now]; split <;> rfl
@[simp] theorem served_epochOff (e : Effect) : (served e r).epochOff = e.s.epochOff := by unfold served; simp only [answer_epochOff]; split <;> rfl
@[simp] theorem served_part (e : Effect) : (served e r).part = e.s.part := by unfold served; simp only [answer_part]; split <;> rfl
@[simp] theorem served_free (e : Effect) : (served e r).free = e.s.free := by unfold served; simp only [answer_free]; split <;> rfl
@[simp] theorem served_mem (e : Effect) : (served e r).mem = e.s.mem := by unfold served; simp only [answer_mem]; split <;> rfl
@[simp] theorem served_cells (e : Effect) : (served e r).cells = e.s.cells := by unfold served; simp only [answer_cells]; split <;> rfl
@[simp] theorem served_badRows (e : Effect) : (served e r).badRows = e.s.badRows := by unfold served; simp only [answer_badRows]; split <;> rfl
@[simp] theorem served_fusedTiles (e : Effect) : (served e r).fusedTiles = e.s.fusedTiles := by unfold served; simp only [answer_fusedTiles]; split <;> rfl
@[simp] theorem served_retiredTiles (e : Effect) : (served e r).retiredTiles = e.s.retiredTiles := by unfold served; simp only [answer_retiredTiles]; split <;> rfl
@[simp] theorem served_pendingTiles (e : Effect) : (served e r).pendingTiles = e.s.pendingTiles := by unfold served; simp only [answer_pendingTiles]; split <;> rfl
@[simp] theorem served_guestSites (e : Effect) : (served e r).guestSites = e.s.guestSites := by unfold served; simp only [answer_guestSites]; split <;> rfl
@[simp] theorem served_tiles (e : Effect) : (served e r).tiles = e.s.tiles := by unfold served; simp only [answer_tiles]; split <;> rfl
@[simp] theorem served_baseSync (e : Effect) : (served e r).baseSync = e.s.baseSync := by unfold served; simp only [answer_baseSync]; split <;> rfl
@[simp] theorem served_dict (e : Effect) : (served e r).dict = e.s.dict := by unfold served; simp only [answer_dict]; split <;> rfl
@[simp] theorem served_blobs (e : Effect) : (served e r).blobs = e.s.blobs := by unfold served; simp only [answer_blobs]; split <;> rfl
@[simp] theorem served_injections (e : Effect) : (served e r).injections = e.s.injections := by unfold served; simp only [answer_injections]; split <;> rfl
@[simp] theorem served_tested (e : Effect) : (served e r).tested = e.s.tested := by unfold served; simp only [answer_tested]; split <;> rfl
@[simp] theorem served_log (e : Effect) : (served e r).log = e.s.log := by unfold served; simp only [answer_log]; split <;> rfl
@[simp] theorem served_ops (e : Effect) : (served e r).ops = e.s.ops := by unfold served; simp only [answer_ops]; split <;> rfl
@[simp] theorem served_bas (e : Effect) : (served e r).bas = e.s.bas := by unfold served; simp only [answer_bas]; split <;> rfl
@[simp] theorem served_col (e : Effect) : (served e r).col = e.s.col := by unfold served; simp only [answer_col]; split <;> rfl
@[simp] theorem served_hem (e : Effect) : (served e r).hem = e.s.hem := by unfold served; simp only [answer_hem]; split <;> rfl
@[simp] theorem served_fab (e : Effect) : (served e r).fab = e.s.fab := by unfold served; simp only [answer_fab]; split <;> rfl
@[simp] theorem served_adm (e : Effect) : (served e r).adm = e.s.adm := by unfold served; simp only [answer_adm]; split <;> rfl
@[simp] theorem served_clk (e : Effect) : (served e r).clk = e.s.clk := by unfold served; simp only [answer_clk]; split <;> rfl
@[simp] theorem served_pow (e : Effect) : (served e r).pow = e.s.pow := by unfold served; simp only [answer_pow]; split <;> rfl
@[simp] theorem served_cal (e : Effect) : (served e r).cal = e.s.cal := by unfold served; simp only [answer_cal]; split <;> rfl
@[simp] theorem served_las (e : Effect) : (served e r).las = e.s.las := by unfold served; simp only [answer_las]; split <;> rfl
@[simp] theorem served_fc (e : Effect) : (served e r).fc = e.s.fc := by unfold served; simp only [answer_fc]; split <;> rfl
@[simp] theorem served_boot (e : Effect) : (served e r).boot = e.s.boot := by unfold served; simp only [answer_boot]; split <;> rfl
@[simp] theorem served_host (e : Effect) : (served e r).host = e.s.host := by unfold served; simp only [answer_host]; split <;> rfl
end

/-- A granted request that the entry's own rules refuse: the answer carries their status. -/
theorem vdpEntry_refused {s : State} {r : VdpReq} {ok : State → Tab Nat → List Byte → Bool}
    {effect : State → Tab Nat → List Byte → Effect} (h : granted s r = true) (hok : ok s (selects s r) r.data = true)
    (hst : (effect s (selects s r) r.data).status ≠ 0) :
    vdpEntry s r ok effect = answer (effect s (selects s r) r.data).s r
      (respOf r (effect s (selects s r) r.data).status (effect s (selects s r) r.data).detail (effect s (selects s r) r.data).data) := by
  simp only [granted, Bool.and_eq_true, Bool.not_eq_true', decide_eq_true_eq, Bool.or_eq_true, Option.isNone_iff_eq_none] at h
  obtain ⟨⟨⟨⟨⟨⟨⟨⟨⟨h1, h2⟩, h3⟩, h4⟩, h5⟩, h6⟩, h7⟩, h8⟩, h9⟩, h10⟩ := h
  unfold vdpEntry
  rw [h1, h2]
  have hc : ¬ (decide (r.opcode ≠ 2) && decide (r.opcode ≠ 3)) = true := by simp; omega
  have ht : takeSegment s r = (s, some r.data, 0) := by
    unfold takeSegment
    rcases h5 with h5 | h5
    · obtain ⟨x, hx⟩ := Option.isSome_iff_exists.1 h5
      rw [hx]
    · cases (findEntry r.index r.sub).bind fun e => etypeSize e.ty with
      | some _ => rfl
      | none => simp [h5]
  simp only [Bool.not_true, Bool.false_eq_true, if_false, h3, ne_eq, not_true, hc, ht, h6, Bool.false_and, decide_false]
  unfold perform
  split at h7
  · next e he =>
    simp only [Bool.and_eq_true, Bool.or_eq_true, Bool.not_eq_true', Bool.and_eq_false_iff, decide_eq_false_iff_not] at h7
    rw [he]
    simp only [selects] at hok hst ⊢
    simp only [h7.1.1, hok, Bool.not_true, Bool.or_self, Bool.false_eq_true, if_false, h6, ne_eq, not_true, h8, h9, hst, not_false_eq_true, if_true]
    rw [if_neg (by rcases h7.1.2 with a | a <;> simp [a]), if_neg (by rcases h7.2 with a | a <;> simp [a])]
  · cases h7

end Sys2Proof.Machine
end

