-- ==== Sys2Proof/Tests/Slice0.lean ====
section
/-! SUPPORT. The model's own tests: the check of well-formedness, states that meet the hypotheses of the
statements, and small tests whose results are worked out from the spec. -/
namespace Sys2Proof.Tests
open Sys2Proof Sys2Proof.Machine

set_option maxRecDepth 20000

/-- A module whose tiles run. -/
def bench : State := { boot := { tilesOn := true } }

/-- A module that is READY under Mantle A, with its host link up. -/
def lit : State := { boot := { tilesOn := true, standby := true, mainOn := true, readyAt := some 0, stage := 10 }
                     mantle := { owner := some 0, dieA := 3 }, host := { linkUp := true } }

/-- A message from the board's controller with these bytes. -/
def msg (op : Nat) (data : List Byte) : VdpReq :=
  { src := .mctp 8, version := 1, opcode := op, data := data, dataLen := data.length, total := data.length }


/-- StepRunsTheFrontCommand: a command waits, and none does. -/
theorem witness_StepRunsTheFrontCommand :
    ({ bench with pending := [.meshSlot] } : State).pending = .meshSlot :: [] ∧ bench.pending = [] ∧
    epoch bench % 4096 ≠ 4095 := by decide

/-! ### Cores -/

/-- The bytes of a MOVE of one binary16 element from 0 to 0x1000, waiting on nothing (R71, R72):
they stand at the start of tile 0's pool. -/
def moveCells : List Host.Cell :=
  [(6, 0x30), (7, 0x02), (8, 1), (11, 1), (41, 0x10), (112, 0xFF), (113, 0xFF), (118, 0xFF), (119, 0xFF)].map
    (fun e => ⟨2 ^ 50 + e.1, BitVec.ofNat 8 e.2⟩)

/-- The same descriptor as a number. -/
def moveDesc : Nat := 0x0230 * 2 ^ 48 + 0x1000001 * 2 ^ 64 + 0x1000 <<< 320 + 0xFFFF00000000FFFF <<< 896

def moveBench : State := { bench with mem := moveCells }

/-- A tile whose M-core 0 holds a descriptor. -/
def queued (e : QDesc) : State := { bench with tiles := [(0, { mQueue := [(0, [e])] })] }

/-- A tile whose S-core 0 is as given. -/
def scored (c : SCore) : State := { bench with tiles := [(0, { sCores := [(0, c)] })] }

theorem witness_TdIssueQueuesTheDescriptor :
    sCoreRuns moveBench 0 0 = true ∧
    ¬ ((0x1000000001 : Nat) % 128 = 0) ∧ ¬ (onDieBase + poolBytes + 128 ≤ onDieBase + poolBytes) ∧
    (onDieBase % 128 = 0 ∧ onDieBase + 128 ≤ onDieBase + poolBytes) ∧
    (false || pmpDenies (getSCore moveBench 0 0) onDieBase 128 false) = false ∧
    (true || pmpDenies (getSCore moveBench 0 0) onDieBase 128 false) = true ∧
    pmpDenies { user := true } onDieBase 128 false = true ∧
    physCore (getTile moveBench 0) 0 0 = some 0 ∧ physCore (getTile moveBench 0) 1 31 = some 31 ∧ 1 < bits 0x200 8 2 ∧
    leNat (bytesAt moveBench 0 onDieBase 128) = moveDesc ∧
    issueCode (getTile moveBench 0) moveDesc 0 (some 0) 0 = 0 ∧
    bit (pendingCores (getTile moveBench 0) 0) 0 = false ∧
    (let tl : Tile := { pendingM := 1 }
     issueCode tl moveDesc 0 (some 0) 0 = 0 ∧ bit (pendingCores tl 0) 0 = true) ∧
    issueCode (getTile bench 0) (leNat (bytesAt bench 0 (onDieBase + poolBytes - 128) 128)) 0 (some 0) 0 ≠ 0 := by
  decide

theorem witness_XmtdReadsAndWritesItsQueues :
    sCoreRuns bench 0 9 = false ∧ sCoreRuns bench 0 7 = true ∧
    (let s := scored { cq := [(3, { csr := 1#64, count := 1 })] }
     let q := Tab.get {} (getSCore s 0 0).cq 3
     sCoreRuns s 0 0 = true ∧ (cqEnabled q && decide (0 < q.count)) = true) ∧
    (let q := Tab.get {} (getSCore bench 0 0).cq 0
     (cqEnabled q && decide (0 < q.count)) = false) ∧ (3 : Nat) < 4 ∧ 1 < bits 0x200 8 2 ∧
    (let mine := fun (e : QDesc) => e.ticket = 0 && e.score = 0 && e.record.isNone
     (coreQueue bench 0 0 0).find? mine = none ∧
     (coreQueue (queued { d := moveDesc, ticket := 0, score := 0 }) 0 0 0).find? mine
       = some { d := moveDesc, ticket := 0, score := 0 } ∧
     ((coreQueue (queued { d := moveDesc, ticket := 0, score := 0, started := true }) 0 0 0).find? mine).isSome = true) ∧
    outstanding (clearExc bench 0 0) 0 0 = 0 ∧
    outstanding (clearExc (queued { d := moveDesc, ticket := 0, score := 0 }) 0 0) 0 0 ≠ 0 ∧
    (getSCore (scored { stalls := [.fence] }) 0 0).stalls = .fence :: [] ∧
    (getSCore bench 0 0).user = false ∧ (getSCore (scored { user := true }) 0 0).user = true ∧
    (csrWrite (getSCore bench 0 0) 0x304 1#64).isSome = true ∧ csrWrite (getSCore (scored { user := true }) 0 0) 0x304 1#64 = none := by
  decide

theorem witness_SyncInstructionsCountAndWait :
    syncNameOk 0x400 = false ∧ syncNameOk 0x3FF = true ∧ syncNameOk 0x9FFF = true ∧ syncNameOk 0xA000 = false ∧
    ((syncGet bench 0 0 - 0#32).toNat < 2 ^ 31) ∧ (2 ^ 31 ≤ (syncGet bench 0 0 - 0x80000000#32).toNat) ∧
    (getSCore (scored { stalls := [.sync 0 0#32 5 none] }) 0 0).stalls = .sync 0 0#32 5 none :: [] ∧
    (getSCore (scored { stalls := [.sync 0 1#32 5 (some 9)] }) 0 0).stalls = .sync 0 1#32 5 (some 9) :: [] ∧
    2 ^ 31 ≤ (syncGet bench 0 0 - 1#32).toNat := by decide

/-- A tile with its DRAM dies active. -/
def dramBench : State := { bench with tiles := [(0, { dies := [(0, { state := 1 }), (1, { state := 1 }), (2, { state := 1 })] })] }

/-- dramBench with its first row marked bad. -/
def markedBench : State := { dramBench with badRows := [(rowKey 0 0 0, true)] }

theorem witness_SCoreLoadsStoresAndCheckReplays :
    sCoreRuns bench 0 0 = true ∧
    (let a := onDieBase + poolBytes - 8
     (sCoreRange bench 0 a 8 && rangeAwake (getTile bench 0) a 8) = true ∧ diesOf (getTile bench 0) a 8 = [] ∧
     pmpDenies (getSCore bench 0 0) a 8 true = false ∧ pmpDenies (getSCore (scored { user := true }) 0 0) a 8 true = true) ∧
    sCoreRange bench 0 (onDieBase + poolBytes - 7) 8 = false ∧
    ((sCoreRange dramBench 0 0 8 && rangeAwake (getTile dramBench 0) 0 8) = true ∧ diesOf (getTile dramBench 0) 0 8 ≠ [] ∧
     sCoreRuns dramBench 0 0 = true ∧ anyBadRow (bumpN dramBench 0x6300 5 2) 0 0 8 = false) ∧
    ((sCoreRange markedBench 0 0 8 && rangeAwake (getTile markedBench 0) 0 8) = true ∧ sCoreRuns markedBench 0 0 = true ∧
     anyBadRow (bumpN markedBench 0x6300 5 0) 0 0 8 = true) ∧ poisonMode bench = false := by
  decide

/-- A VCVT of one binary16 element of the pool to an accumulator, which scans for its anchor (R71, R72, R75). -/
def scanDesc : Nat := 0x1030D40400000000 + (0x1000001 <<< 64) + (0x1000000000 <<< 192)
  + (0x1000001000 <<< 320) + (0xFFFF00000000FFFF <<< 896)

/-- A MOVE within the pool. -/
def poolDesc : Nat := 0x0230 * 2 ^ 48 + (0x1000001 <<< 64) + (0x1000000000 <<< 192) + (0x1000001000 <<< 320)
  + (0xFFFF00000000FFFF <<< 896)

/-- poolDesc, waiting for its sync object 0 to count 1. -/
def waitDesc : Nat := poolDesc - (0xFFFF <<< 896) + (1 <<< 928)

theorem witness_DescriptorsStartRunAndEnd :
    (let s := queued { d := moveDesc, ticket := 0, score := 0 }
     tileRuns s 0 = true ∧ holdsRecord s 0 0 0 = false ∧ headOf s 0 0 0 = some { d := moveDesc, ticket := 0, score := 0 } ∧
     dWaitSync moveDesc = 0xFFFF ∧ asleepOperand s 0 false moveDesc = some 0) ∧
    (dWaitSync waitDesc = 0 ∧ reaches (syncGet (queued { d := waitDesc, ticket := 0, score := 0 }) 0 0) (BitVec.ofNat 32 (dWaitValue waitDesc)) = false) ∧
    (let s := queued { d := poolDesc, ticket := 0, score := 0 }
     asleepOperand s 0 false poolDesc = none ∧ s.fc.closed = false ∧ scans poolDesc = false) ∧
    (let s := queued { d := moveDesc, ticket := 0, score := 0, started := true }
     tileWorks s 0 = true ∧ (headOf s 0 0 0).isSome = true ∧ (asleepOperand s 0 true moveDesc).isSome = true) ∧
    (let s := queued { d := poolDesc, ticket := 0, score := 0, started := true }
     tileWorks s 0 = true ∧ (headOf s 0 0 0).isSome = true ∧ asleepOperand s 0 true poolDesc = none ∧
     (runBlocks 0 0 0 [] [] [] 0 (outBlocks poolDesc) { s := s, e := { d := poolDesc, ticket := 0, score := 0, started := true } }).stop = none) ∧
    (let s := queued { d := scanDesc, ticket := 0, score := 0 }
     asleepOperand s 0 false scanDesc = none ∧ scans scanDesc = true ∧
     (takeBlocks 0 1 0 false [] (scanBlocks scanDesc) { s := s, e := { d := scanDesc, ticket := 0, score := 0 } }).stop = none) ∧
    (let r : List Byte := [0#8]
     let s : State := { bench with tiles := [(0, { mQueue := [(0, [{ d := poolDesc, ticket := 0, score := 0, record := some r }])], sCores := [(0, { cq := [(0, { csr := 1#64 })] })] })] }
     tileOpen s 0 = true ∧ cqOpen s 0 0 0 = true ∧ (oldestHeld (heldFor s 0 0 0)).isSome = true) ∧
    (let m : Mismatch := { addr := onDieBase, tid := 0, blk := 0, first := 0#64 }
     let s := queued { d := poolDesc, ticket := 0, score := 0, started := true, mismatch := some m }
     (coreQueue s 0 0 0) = { d := poolDesc, ticket := 0, score := 0, started := true, mismatch := some m } :: [] ∧
     (match (fetch s 0 m.addr m.tid m.blk [] []).2 with | .ok _ _ => true | _ => false) = true) := by
  decide +kernel

theorem witness_RowPortsReadAndWriteRows :
    (rowOpen dramBench 0 0 0 = true ∧ portTakes dramBench 0 (portOf 0 0) 0 [] = true) ∧
    (rowOpen dramBench 0 2 (2 ^ 23 - 1) = true ∧ portTakes dramBench 0 (portOf 2 (2 ^ 23 - 1)) 104 [] = true) ∧
    (let a := portAccept dramBench 0 (portOf 0 0) 0
     Tab.get false (rowInjections a 0 0 (rowBytes a 0 0 0)).badRows (rowKey 0 0 0) = false ∧
     Tab.get false (crossing a 0 0 0 2).badRows (rowKey 0 0 0) = false) ∧
    (rowOpen markedBench 0 0 0 = true ∧ portTakes markedBench 0 (portOf 0 0) 0 [] = true ∧
     Tab.get false (crossing (portAccept markedBench 0 (portOf 0 0) 0) 0 0 0 0).badRows (rowKey 0 0 0) = true) := by decide

/-- A tile whose DRAM die 0 is as given. -/
def died (x : DramDie) : State := { bench with tiles := [(0, { dies := [(0, x)] })] }

theorem witness_RefreshScrubAndSelfRefreshKeepADie :
    (dieBuilt dramBench 0 0 = true ∧ (getDie dramBench 0 0).state = 1 ∧ rdE dramBench 0xF000 0xA ≠ 1) ∧
    (let s := died { state := 1, owed := [(255, 8)] }
     dieBuilt s 0 0 = true ∧ Tab.get 0 (getDie s 0 0).owed 255 + b2n false ≤ 8 ∧ 8 < Tab.get 0 (getDie s 0 0).owed 255 + b2n true) ∧
    (let s := died { state := 1, draining := true }
     dieBuilt s 0 0 = true ∧ (getDie s 0 0).draining = true ∧ runsDescriptor s 0 = false) ∧
    (let s : State := { died { state := 2 } with boot := { tilesOn := true, mainOn := true } }
     dieBuilt s 0 0 = true ∧ (getDie s 0 0).state = 2 ∧ s.boot.mainOn = true ∧ s.fc.closed = false) ∧
    (let s : State := { dramBench with tiles := [(0, { rowStep := 2 })] }
     dieBuilt s 0 0 = true ∧ (getTile s 0).rowStep = 2 ∧ stepHolds s 0 2 = false) ∧
    (let s : State := { lit with pow := { stages := (List.range 30).map (fun k => (k, 2)) }, tiles := [(0, { rowStep := 3 })] }
     dieBuilt s 0 0 = true ∧ (getTile s 0).rowStep = 3 ∧ 2 ≤ tileStage s 0) := by decide

/-- A module with a long operation running. -/
def running (k arg total : Nat) (s : State) : State :=
  { s with ops := Tab.put {} s.ops k { state := 1, arg := arg, total := total } }

theorem witness_ScrubFillAndClearCommandsRun :
    (granted lit (atEntry (msg 3 (leBytes 4 0xFFFFFF)) 0x6400 2) = true ∧ opRunning lit 3 = false) ∧
    opRunning (running 3 1 100 lit) 3 = true ∧
    (granted lit (atEntry (msg 3 (leBytes 4 1)) 0x6400 6) = true ∧ opRunning lit 4 = false) ∧
    (fillRangeOk 0 (24 * gib) = true ∧ fillRangeOk 0 (24 * gib + 1024) = false ∧ fillRangeOk (rdE lit 0x6400 4) (rdE lit 0x6400 5) = true) ∧
    (let s := wrE lit 0x6400 5 1
     granted s (atEntry (msg 3 (leBytes 4 1)) 0x6400 6) = true ∧ opRunning s 4 = false ∧ fillRangeOk (rdE s 0x6400 4) (rdE s 0x6400 5) = false) ∧
    opRunning (running 4 1 8 lit) 4 = true ∧
    granted lit (atEntry (msg 3 [1#8]) (instIndex 0x6600 24 0) 6) = true := by decide

theorem witness_TileResetSelfTestAndRenumberingEndAsStated :
    (let s : State := { bench with tiles := [(0, { reset := some { cause := 0, since := 0 } })] }
     (getTile s 0).reset = some { cause := 0, since := 0 } ∧ (getTile s 0).railLow = false ∧ seamHeld s 0 = false) ∧
    (lit.boot.readyAt = some 0 ∧ unitOpen lit (.mCore 0 63) = true ∧ testWanted lit (.mCore 0 63) = false) ∧
    (let s := running 2 1 1 lit
     unitOpen s (.mCore 0 0) = true ∧ testWanted s (.mCore 0 0) = true) ∧
    (let s : State := { lit with pendingTiles := 1 }
     noJobs s = true ∧ retirementPending s = true ∧ s.boot.readyAt.isSome = true) ∧
    (granted lit (atEntry (msg 3 (leBytes 4 (2 ^ 24 - 1))) 0x8200 1) = true ∧ opRunning lit 2 = false) ∧
    tileOpen lit 23 = true := by decide

/-! ### The Basusk layer -/

/-- A module with one circuit port, port 0 of tile 0. -/
def ported (p : Port) : State := { lit with bas := { ports := [(0, p)] } }

/-- A module whose mesh station 0 is as given. -/
def stationed (x : Station) : State := { lit with bas := { stations := [(0, x)] } }

theorem witness_CodewordsAreDeliveredAcknowledgedAndResent :
    (let s := ported { up := true, retry := [{ seq := 1023, data := [], nak := true }] }
     stationLive s 0 = true ∧ (getPort s (portKey 0 0)).up = true ∧ pendingAt s 5 0 16 = [] ∧
     (1 + 1024 - (getPort s (portKey 0 0)).rxNext) % 1024 < 512 ∧
     (getPort s (portKey 0 0)).retry.find? (·.nak) = some { seq := 1023, data := [], nak := true }) ∧
    stationLive lit 28 = true ∧ portCount 23 = 16 ∧ portCount 28 = 8 := by decide

/-- A control packet of this module's own, and one that comes in at station 0. -/
def syncPkt : Pkt := { kind := 0x50, destStation := 1 }

theorem witness_MeshSlotsAndPacketsMove :
    (let m : MeshSlot := { seq := 1023, pkt := 0, cls := 0, data := [], waitAck := [1], sends := 7 }
     let s := stationed { unacked := [m] }
     pendingAt s 8 0 0 = [] ∧ (getStation s 0).unacked.find? (fun u => u.seq = 1023 && u.waitAck.contains 1) = some m ∧ m.sends < 8) ∧
    (let m : MeshSlot := { seq := 0, pkt := 0, cls := 0, data := [], waitAck := [1], sends := 8 }
     (getStation (stationed { unacked := [m] }) 0).unacked.find? (fun u => u.seq = 0 && u.waitAck.contains 1) = some m) ∧
    (let s : State := { lit with bas := { inbox := [(28, [{ cls := 0, data := pktBytes syncPkt }])] } }
     let u := settleReplicator s 28
     stationLive s 28 = true ∧ Tab.get [] u.bas.inbox 28 = { cls := 0, data := pktBytes syncPkt } :: [] ∧
     parsePkt (pktBytes syncPkt) = some syncPkt ∧ (classOf syncPkt).isSome = true ∧ syncPkt.hops ≤ syncPkt.next ∧ causesReply syncPkt = false ∧
     (takeFirst u 28 true [] (Tab.get [] u.bas.inbox 28)).isSome = true) ∧
    (let s : State := { lit with bas := { copies := [(28, [(0, { mcast := true })])] } }
     let u := settleReplicator s 28
     takeFirst u 28 true [] (Tab.get [] u.bas.inbox 28) = none ∧ (copyFirst u 28 [] (Tab.get [] u.bas.copies 28)).isSome = true) ∧
    (let s : State := { lit with fab := { routers := [(0, [syncPkt])] } }
     let u := settleReplicator s 0
     stationLive s 0 = true ∧ takeFirst u 0 true [] (Tab.get [] u.bas.inbox 0) = none ∧ copyFirst u 0 [] (Tab.get [] u.bas.copies 0) = none ∧
     (releaseFirst u 0 0 true (byRank u (Tab.get [] u.fab.routers 0))).isSome = true) ∧
    (let x : Shaper := { tokens := 0, since := 0, queue := [syncPkt] }
     let s : State := { lit with adm := { flows := [(127, [])], shapers := [(127, some x)] } }
     s.adm.flows.find? (fun e => e.1 = 127) = some (127, []) ∧ Tab.get none s.adm.shapers 127 = some x) := by
  decide +kernel

/-- The dictionary holds this byte string. -/
def holding (index sub : Nat) (v : List Nat) (s : State) : State := wrB s index sub (v.map (BitVec.ofNat 8))

theorem witness_PlansLoadAndSwitchAtTheirFronts :
    granted lit (atEntry (msg 3 [1#8]) (instIndex 0x7400 256 255) 1) = false ∧
    granted lit (atEntry (msg 2 [1#8]) (instIndex 0x7400 256 255) 1) = true ∧
    (granted lit (atEntry (msg 3 [255#8]) 0x7300 3) = true ∧ opRunning lit 5 = false) ∧
    (let s := running 5 255 1 (holding 0x74FF 1 [1, 0, 1, 0, 0, 0, 0, 0, 0, 0, 16, 0]
         { lit with bas := { ports := [(0, { role := 0 }), (16, { role := 0 })] } })
     opRunning s 5 = true ∧ (planCheck s (planBody s 255)).1 = 0) ∧
    (let s := running 5 0 1 lit
     opRunning s 5 = true ∧ (planCheck s (planBody s 0)).1 ≠ 0) ∧
    granted lit (atEntry (msg 3 (leBytes 8 4096)) 0x7300 2) = true ∧
    (nextSwitch { lit with bas := { switches := [{ front := 4096, dark := false, plan := 0 }] } }).isSome = true ∧
    (let s := wrE (ported { role := 0, far := some 16, training := true }) 0x4100 1 0x1FFFF
     let i := fun failed => linesWithout (linesWithout (linesWithout (usableLines s) (getPort s 0).failed) (getPort s 16).failed) failed
     gapLines s = 0 ∧ farReady s (portKey 0 0) = true ∧ (getPort s (portKey 0 0)).training = true ∧
     dataLanes (i 0x1FFE0) = 4 ∧ dataLanes (i 0x1FFF0) = 3) ∧
    (granted lit (atEntry (msg 2 ((List.replicate 16 [0#8, 0#8, 255#8, 255#8]).flatten)) (instIndex 0x4600 28 23) 1) = true ∧
     rolesOk 23 ((List.replicate 16 [0#8, 0#8, 255#8, 255#8]).flatten) = true) := by decide

/-! ### Collectives -/

/-- A step record of tile 0 and node 5 over one block (R201). -/
def stepRec (kind fanIn addr destNode root : Nat) : List Byte :=
  leBytes 1 kind ++ leBytes 7 0 ++ leBytes 4 1 ++ leBytes 2 5 ++ leBytes 2 fanIn ++ leBytes 8 addr ++ leBytes 2 0xFFFF
    ++ leBytes 2 destNode ++ leBytes 2 0xFFFF ++ leBytes 2 root

/-- A schedule of one block (R199): tile 0 contributes to node 5, which reduces with fan-in `n`,
and tile 0 delivers. -/
def schedule (n : Nat) : List Byte :=
  [1, 0, 1, 0, 3, 0, 0, 3, 3, 0, 0, 0, 0, 0, 0, 0].map (BitVec.ofNat 8) ++ leBytes 4 1 ++ leBytes 4 512 ++ leBytes 4 1 ++ leBytes 4 2
    ++ leBytes 4 3 ++ leBytes 4 7 ++ leBytes 4 0x80018000 ++ leBytes 8 0 ++ leBytes 4 1000 ++ leBytes 8 0x1000100000
    ++ leBytes 16 0x8000 ++ stepRec 1 0 0x1000000000 5 0 ++ stepRec 2 n 0x1000010000 0xFFFF 1 ++ stepRec 4 0 0x1000020000 0xFFFF 0

/-- The same schedule with raw input and wire tensors, and the one that scans exponents (STATS). -/
def rawSchedule (n : Nat) : List Byte := patch (schedule n) 24 (leBytes 8 0)
def statsSchedule (n : Nat) : List Byte := patch (schedule n) 1 [2#8]

/-- The schedule stands loaded in slot 0, with a flow of an admitted job that declares it. -/
def armed (n : Nat) : State :=
  { wrE (wrB lit 0x7600 1 (schedule n)) 0x7600 2 2 with
    adm := { flows := [(0, [0#8, 1#8, 0#8, 1#8])], fstate := [(0, 2)], jobs := [(1, some { state := 2 })] } }

/-- Its first run. -/
def inRun (n : Nat) (r : CRun) : State := { armed n with col := { runs := [(0, some r)] } }

def firstRun : CRun := { run := 0, start := 0, startPs := 0, begun := true }

/-- A collective packet of the run for node 5, slot 0, block 0, with all its elements 0. -/
def collPkt : Pkt := { kind := 0x42, srcNode := 0xFFF, body := collBody 5 0 2 7 0 0 0 (some { data := [] }) (stitchOf (List.replicate 4096 0#8) 2 0) }

theorem witness_SchedulesLoadAndRunsStart :
    granted lit (atEntry (msg 2 [1#8]) (instIndex 0x7600 64 63) 1) = true ∧
    (granted lit (atEntry (msg 3 [63#8]) 0x7500 0xA) = true ∧ opRunning lit 6 = false) ∧
    (let s := running 6 0 3 (armed 1)
     opRunning s 6 = true ∧ (schCheck s (schBody s 0)).1 = 0) ∧
    (let s := running 6 63 3 lit
     opRunning s 6 = true ∧ (schCheck s (schBody s 63)).1 ≠ 0) ∧
    (let s := armed 1
     (scheduleFlow s 0).isSome = true ∧ getRun s 0 = none ∧ schState s 0 = 2 ∧ startReached s (schBody s 0) (rdE s 0x7600 4) = true) ∧
    (let s := wrE (armed 1) 0x7600 2 3
     (scheduleFlow s 0).isSome = true ∧ getRun s 0 = none ∧ schState s 0 = 3 ∧ startReached s (schBody s 0) (rdE s 0x7600 4) = true) ∧
    (let r : CRun := { run := 0, start := 0, startPs := 0 }
     let s := inRun 1 r
     getRun s 0 = some r ∧ r.begun = false ∧ r.phase < hPhases (schBody s 0) ∧ inForce s (phaseAt (schBody s 0) 0) = true ∧
     Tab.get 0 r.posted 0 - 1 ≤ epoch s) ∧
    (let r : CRun := { run := 0, start := 0, startPs := 0, posted := [(0, 4097)] }
     let s := inRun 1 r
     getRun s 0 = some r ∧ epoch s < Tab.get 0 r.posted 0 - 1) ∧
    (let r : CRun := { firstRun with sent := [(0, 1)] }
     getRun (inRun 1 r) 0 = some r ∧ r.begun = true ∧ phaseSent (schBody (inRun 1 r) 0) r = true) ∧
    (let r : CRun := { firstRun with phase := 1, deliv := [(delivKey 2 0, { state := 5 })] }
     let b := schBody (inRun 1 r) 0
     hPhases b ≤ r.phase ∧ allDelivered b r = true ∧ repeating r = false) := by decide

/-- The scan of tile 0's contributions in a run of schedule `b`. -/
def scanned (s : State) : State × Option (List Val) :=
  (((stepsOfKind (schBody s 0) 1).filter (fun e => physTile s e.2.tile = some 0)).map (·.2)).foldl (scanStep 0 0) (s, some [])

theorem witness_CollectiveBlocksAreSentCombinedAndDelivered :
    (let s := inRun 2 firstRun
     let b := schBody s 0
     let x := stepAt b 0
     let d := stepAt b 1
     getRun s 0 = some firstRun ∧ 0 < hSteps b ∧ x.kind = 1 ∧ (physTile s x.tile).any (engineIn s firstRun) = true ∧ phaseOpen firstRun x = true ∧
     0 < x.count ∧ mayRun s b firstRun 0 x 0 = true ∧ (stepAnchor b firstRun 0).isSome = true ∧
     runOf s (rTag collPkt) (rRun collPkt) = some (0, firstRun) ∧
     (feeders s firstRun b 0 collPkt).map (·.1) = [0] ∧
     ((feeders s firstRun b 0 collPkt).filter (fun e => inRange e.2 (rBlock collPkt))).map (·.1) = [0] ∧ rSlot collPkt ≠ 0xFF ∧
     closedStatus s 0 = 0 ∧ nodeAt s 0 collPkt = some (0, firstRun, d) ∧ rSlot collPkt = 0 ∧ d.fanIn = 2 ∧ inRange d 0 = true ∧ d.root = true ∧
     Tab.get none (getNode firstRun 5).parts 0 = none ∧ (getNode firstRun 5).again = [] ∧ (getNode firstRun 5).exps = [] ∧
     (blockDone (getNode firstRun 5) 0 && !(getNode firstRun 5).checked.contains 0) = false ∧
     (stepsOfKind b 4).filter (fun e => e.2.node = rNode collPkt && physTile s e.2.tile = some 0 && !firstRun.lost.contains 0
       && inRange e.2 0 && decide ((getDeliv firstRun e.1 0).state < 4)) = [(2, stepAt b 2)] ∧
     (getDeliv firstRun 2 0).bad = none ∧ hOp b = 0 ∧ (rBlk collPkt).poison = false) ∧
    (let r : CRun := { firstRun with exponents := true, scanning := [0] }
     getRun (inRun 2 r) 0 = some r ∧ engineIn (inRun 2 r) r 0 = true ∧ (scanned (inRun 2 r)).2 = none) ∧
    (let r : CRun := { firstRun with exponents := true, scanning := [0] }
     let s := wrB (inRun 2 r) 0x7600 1 (rawSchedule 2)
     getRun s 0 = some r ∧ (scanned s).2.isSome = true) ∧
    (let r : CRun := { firstRun with exponents := true }
     let s := wrB (inRun 2 r) 0x7600 1 (statsSchedule 2)
     hStats (schBody s 0) = true ∧ runOf s (rTag collPkt) (rRun collPkt) = some (0, r) ∧ feeders s r (schBody s 0) 0 collPkt ≠ []) ∧
    (let r : CRun := { firstRun with nodes := [(5, { exps := [(1, 0)] })] }
     let s := inRun 2 r
     nodeAt s 0 collPkt = some (0, r, stepAt (schBody s 0) 1) ∧ ((getNode r 5).exps ++ [(rSlot collPkt, 0)]).length = 2) ∧
    (let r : CRun := { firstRun with nodes := [(5, { low := 1 })] }
     let s := wrB (inRun 2 r) 0x7600 1 (rawSchedule 2)
     let x := stepAt (schBody s 0) 1
     nodeAt s 0 collPkt = some (0, r, x) ∧ blockDone (getNode r 5) 0 = true ∧ (nodeOut s 0 0 r x 0 [] []).2.isSome = true ∧
     rSlot { collPkt with body := collBody 5 0xFF 2 7 0 0 0 none 0#64 } = 0xFF ∧ ofRepeat { collPkt with body := collBody 5 0xFF 2 7 0 0 0 none 0#64 } = false) := by
  refine ⟨?_, ?_, ?_, ?_, ?_, ?_⟩ <;> decide +kernel

theorem leNat_zeros (n : Nat) : leNat (List.replicate n 0#8) = 0 := by
  induction n with
  | zero => rfl
  | succ n ih => simp [List.replicate_succ, leNat, ih]

theorem wordsOf_zeros (n : Nat) : wordsOf (List.replicate n 0#8) = List.replicate 512 0 := by
  simp only [wordsOf, field, List.drop_replicate, List.take_replicate, leNat_zeros, List.map_const', List.length_range]

/-- Words that are all 0 have the digest 0 (R218). -/
theorem digest_zeros (j tag n : Nat) (seed : DWord) : digest j seed tag (List.replicate n 0) = 0 := by
  have get : ∀ i, (List.replicate n 0).getD i 0 = 0 := by
    intro i; simp only [List.getD_eq_getElem?_getD, List.getElem?_replicate]; split <;> rfl
  have all : ∀ (l : List Nat) (g : Nat → Nat), l.foldl (fun d i => (d + g i * digestResidue 0 % digestP) % digestP) 0 = 0 := by
    intro l g
    induction l with
    | nil => rfl
    | cons i l ih => simpa [digestResidue, signed] using ih
  simp only [digest, get]
  exact all _ _

/-- The packet's block passes its checks: its stitch, and both digests. -/
theorem witness_CollectiveResultPasses :
    (let b := schBody (inRun 2 firstRun) 0
     stitchOf (rBlk collPkt).data (hTidWire b 0) (rBlock collPkt) = rStitch collPkt) ∧
    (wordsOf (rBlk collPkt).data).contains narCode = false ∧
    (∀ seed, digest 0 seed (blockTag 2 0) (wordsOf (rBlk collPkt).data) = (rBlk collPkt).d0 ∧
      digest 1 seed (blockTag 2 0) (wordsOf (rBlk collPkt).data) = (rBlk collPkt).d1) := by
  have data : (rBlk collPkt).data = List.replicate 4096 0#8 := by decide +kernel
  have d0 : (rBlk collPkt).d0 = 0 := by decide +kernel
  have d1 : (rBlk collPkt).d1 = 0 := by decide +kernel
  have tid : hTidWire (schBody (inRun 2 firstRun) 0) 0 = 2 := by decide +kernel
  have blk : rBlock collPkt = 0 := by decide +kernel
  have sent : ∀ c : DWord, BitVec.ofNat 64 (field (collBody 5 0 2 7 0 0 0 (some { data := [] }) c) 40 8) = c := by
    intro c
    simp [collBody, leBytes, field, leNat, b2n]
    bv_omega
  refine ⟨?_, ?_, fun seed => ?_⟩
  · simp only [tid, blk, data]
    exact (sent _).symm
  · rw [data, wordsOf_zeros]
    simp [narCode]
  · rw [data, wordsOf_zeros, digest_zeros, digest_zeros, d0, d1]
    exact ⟨rfl, rfl⟩

/-! ### Hem links -/

/-- Link 0 stands on port 0 of tile 0, and its lane group 0 is as given. -/
def linked (x : HemGroup) : State :=
  { wrE lit 0x4100 1 0x1FFFF with bas := { ports := [(0, { role := 3, far := some 512, up := true })] }, hem := { groups := [(0, x)] } }

/-- A frame over these bytes: its check is formed. -/
def frameOf (b : List Byte) : List Byte := b ++ leBytes 4 (crc32c b).toNat

theorem field_frameOf (b : List Byte) (off n : Nat) (h : off + n ≤ b.length) : field (frameOf b) off n = field b off n := by
  unfold field frameOf
  rw [List.drop_append_of_le_length (by omega), List.take_append_of_le_length (by simp only [List.length_drop]; omega)]

theorem frameGood_frameOf (b : List Byte) (h : b.length = 2566) : frameGood (frameOf b) 15 = true := by
  have l : ∀ v, (leBytes 4 v).length = 4 := fun v => leBytes_length 4 v
  have c : leNat (leBytes 4 (crc32c b).toNat) = (crc32c b).toNat := by
    rw [leNat_leBytes]; exact Nat.mod_eq_of_lt (crc32c b).isLt
  have t : (frameOf b).take 2566 = b := by unfold frameOf; rw [← h, List.take_left]
  have d : field (frameOf b) 2566 4 = (crc32c b).toNat := by
    unfold field frameOf
    rw [← h, List.drop_left, List.take_of_length_le (Nat.le_of_eq (l _)), c]
  have n : (frameOf b).length = 2570 := by unfold frameOf; rw [List.length_append, l, h]
  simp only [frameGood, t, d, n]
  decide

/-- A data frame, and a control frame of a neighbour that reports all its lines (R235, R237). -/
def dataFrame : List Byte := leBytes 2 0x4000 ++ List.replicate 2564 0#8
def controlFrame : List Byte := leBytes 2 0x8000 ++ List.replicate 52 0#8 ++ leBytes 4 0x1FFFF ++ List.replicate 2508 0#8

theorem witness_FramesAreTakenNakkedAndResent :
    (let s := linked { state := 2, known := true }
     lineOwner s 0 16 = 0 ∧ (getGroup s 0 0).state = 2 ∧ pendingAt s 6 0 16 = [] ∧ frameDecode 0 s.free = 0 ∧
     decodedFrame [] 0 s.free = [] ∧ frameGood [] 0 = false ∧
     (getGroup (frameWindow (noteSymbols (useInjections s 6 0 16) 0 0 16 0) 0 0 16 true) 0 0).state = 2) ∧
    (∀ f ∈ [dataFrame, controlFrame], ∀ n ≤ 1,
     let s := linked { state := 2, known := true, rxNext := n }
     frameDecode 15 s.free = 0 ∧ decodedFrame (frameOf f) 0 s.free = frameOf f ∧ frameGood (frameOf f) 0 = true ∧
     (getGroup (frameWindow (noteSymbols (useInjections s 6 0 16) 0 0 16 15) 0 0 16 (!frameGood (frameOf f) 0)) 0 0).state = 2) ∧
    (frameType (frameOf dataFrame) = 1 ∧ frameType (frameOf controlFrame) = 2 ∧
     ∀ n ≤ 1,
     let s := linked { state := 2, known := true, rxNext := n }
     let w := frameWindow (noteSymbols (useInjections s 6 0 16) 0 0 16 15) 0 0 16 false
     let d := (field (frameOf dataFrame) 0 2 % 4096 + 4096 - (getGroup (piggyback w 0 0 (field (frameOf dataFrame) 2562 4)) 0 0).rxNext) % 4096
     if n = 0 then d < 2048 else 2048 ≤ d) ∧
    (let s := linked { state := 2, known := true, dark := false }
     let n := noteSymbols (useInjections s 6 0 16) 0 0 16 15
     (getGroup s 0 0).state ≠ 0 ∧ (getGroup s 0 0).dark = false ∧ (getGroup (frameWindow n 0 0 16 false) 0 0).state ≠ 0) ∧
    (let s := linked { state := 2, retry := [{ seq := 0, data := [], sends := 8, nak := true }] }
     frameLines s 0 0 ≠ [] ∧ firstDue (getGroup s 0 0) (getGroup s 0 0).retry = some { seq := 0, data := [], sends := 8, nak := true }) ∧
    (let s := linked { state := 2, retry := [{ seq := 4095, data := [], sends := 7 }] }
     frameLines s 0 0 ≠ [] ∧ firstDue (getGroup s 0 0) (getGroup s 0 0).retry = some { seq := 4095, data := [], sends := 7 }) := by
  have l1 : dataFrame.length = 2566 := by decide
  have l2 : controlFrame.length = 2566 := by decide
  have fd : ∀ off n, off + n ≤ 2566 → field (frameOf dataFrame) off n = field dataFrame off n :=
    fun off n h => field_frameOf _ _ _ (by omega)
  have fc : ∀ off n, off + n ≤ 2566 → field (frameOf controlFrame) off n = field controlFrame off n :=
    fun off n h => field_frameOf _ _ _ (by omega)
  have g : ∀ f : List Byte, f.length = 2566 → frameGood (frameOf f) 0 = true := fun f h => frameGood_frameOf f h
  have d : ∀ f n, decodedFrame f 0 n = f := fun f n => by simp [decodedFrame]
  simp only [List.forall_mem_cons, g _ l1, g _ l2, d, frameType, fd 0 2 (by decide), fc 0 2 (by decide), fd 2562 4 (by decide)]
  decide

theorem witness_LaneGroupsTrainFailAndLoseLight :
    (attachedPort (linked {}) 0).isSome = true ∧ bit (Tab.get 0 (linked {}).hem.failed 0) 16 = false ∧
    0 < groupCount (linked {}) 0 ∧ (getGroup (linked {}) 0 0).state = 0 ∧
    ((getGroup (linked { state := 3 }) 0 0).state = 3 ∧ (getGroup (linked { state := 3 }) 0 0).dark = true) ∧
    (let s := linked { state := 3, known := true }
     (getGroup s 0 0).known = true ∧ (getGroup s 0 0).trained = false ∧ splitAgrees s 0 0 = true ∧ (getGroup s 0 0).state = 3) ∧
    (let s := linked { state := 1, known := true }
     let u := modGroup s 0 0 (upGroup (frameNow s (getGroup s 0 0)) 200)
     (getGroup s 0 0).known = true ∧ (getGroup s 0 0).trained = false ∧ splitAgrees s 0 0 = true ∧ (getGroup s 0 0).state = 1 ∧
     groupDataLines u 0 0 ≠ []) ∧
    (let s := linked { state := 1, known := true, farMap := 0 }
     let u := modGroup s 0 0 (upGroup (frameNow s (getGroup s 0 0)) 200)
     (getGroup s 0 0).known = true ∧ (getGroup s 0 0).trained = false ∧ splitAgrees s 0 0 = true ∧ groupDataLines u 0 0 = []) ∧
    (getGroup (linked { dark := false }) 0 0).dark = false := by decide

/-- A packet that ends at this module, a multicast copy and a sweep. -/
def homePkt : Pkt := { kind := 0x50, hops := 1, destNode := 7 }
def castPkt : Pkt := { kind := 5, mcast := true, route := 4096 + 3 }
def sweepPkt : Pkt := { kind := 0x52, hops := 1 }

/-- A multicast group of slice 0 that names tile 0 (R214). -/
def groupRec : List Byte := leBytes 4 1 ++ leBytes 9 0 ++ [1#8, 0#8, 0#8]

theorem witness_PacketsFromLaneGroupsAreCheckedInOrder :
    (let s := linked { state := 2 }
     attachedPort s 0 = some 0 ∧ (getGroup s 0 0).state = 2 ∧ parsePkt [] = none ∧ parsePkt (pktBytes homePkt) = some homePkt ∧
     (classOf homePkt).isSome = true ∧ sliceAllowed s 0 0 0 = false ∧
     parsePkt (pktBytes { homePkt with kind := 0xFF }) = some { homePkt with kind := 0xFF } ∧ classOf { homePkt with kind := 0xFF } = none) ∧
    (let s := wrE { linked { state := 2 } with hem := { groups := [(0, { state := 2 })], slices := [(0, [1#8])] } } 0x5000 1 7
     let q := rewrite homePkt 0 0
     (getGroup s 0 0).state = 2 ∧ sliceAllowed s 0 0 0 = true ∧ ownNode s ≠ 0xFFFF ∧ homePkt.mcast = false ∧ homePkt.kind ≠ 0x52 ∧
     q.hops ≤ 4 ∧ q.next ≤ q.hops ∧ isOwn s q.destNode = true ∧
     isOwn s (rewrite { homePkt with destNode := 8 } 0 0).destNode = false ∧ 4 < (rewrite { homePkt with hops := 5 } 0 0).hops) ∧
    ownNode (linked { state := 2 }) = 0xFFFF ∧
    (parsePkt (pktBytes castPkt) = some castPkt ∧ parsePkt (pktBytes sweepPkt) = some sweepPkt ∧ (classOf castPkt).isSome = true ∧
     (classOf sweepPkt).isSome = true ∧ castPkt.mcast = true ∧ sweepPkt.mcast = false ∧ sweepPkt.kind = 0x52) ∧
    groupValid (groupRecord (linked {}) castPkt.route) = false ∧
    (let s : State := wrE { linked {} with col := { groups := [(3, groupRec)] } } 0x5000 1 7
     let u := settleReplicator s (linkStation s 0)
     ownNode u ≠ 0xFFFF ∧ groupValid (groupRecord s castPkt.route) = true ∧ field (groupRecord s castPkt.route) 12 1 = castPkt.slice ∧
     replicatorRoom u (linkStation s 0) castPkt = true) ∧
    (let s : State := wrE { linked {} with col := { groups := [(3, groupRec)] }, bas := {
         (linked {}).bas with repl := [(0, [{ id := 1, size := 4 * 2 ^ 20 }])], inbox := [(5, [{ cls := 0, data := [], block := 1 }])] } } 0x5000 1 7
     let u := settleReplicator s (linkStation s 0)
     ownNode u ≠ 0xFFFF ∧ groupValid (groupRecord s castPkt.route) = true ∧ replicatorRoom u (linkStation s 0) castPkt = false) ∧
    granted lit (atEntry (msg 2 (List.replicate 16 0#8)) 0x5400 2) = true ∧
    (let x : Track := { queue := 0, index := 0, entry := [1#8], nonce := 0, deadline := 0, slice := 0 }
     let s : State := { lit with fab := { tracks := [(trackKey 0 0, some x)] } }
     let p : Pkt := { kind := 0x50, body := [1#8, 0#8, 0#8, 0#8, 1#8, 0#8, 0#8, 0#8] }
     getTrack s 0 (field p.body 6 2 % 16384) = some x ∧ eKind x.entry = field p.body 4 1) := by decide

theorem witness_RoutesSlicesAndSweepsAreSetAndAnswered :
    granted lit (atEntry (msg 3 [0#8, 0#8]) 0x5000 2) = true ∧
    granted lit (atEntry (msg 2 [0xFF#8, 0x0F#8]) 0x5000 1) = true ∧
    (granted lit (atEntry (msg 2 (List.replicate 64 0#8)) 0x5100 2) = true ∧
     ∀ i < 8, (routeEntry (List.replicate 64 0#8) i).1 = 0) ∧
    granted lit (atEntry (msg 2 (List.replicate 32 0xFF#8)) 0x5300 2) = true ∧
    (let s := wrE (wrE (linked { state := 2, known := true }) 0x5500 1 (2 ^ 40)) 0x5000 1 7
     let v := rdE s 0x5500 1
     let u := wrE (startOp s 7 1 1) 0x5500 4 1
     let w := { u with hem := { u.hem with sweepStart := epoch u, sweepPs := u.now } }
     granted s (atEntry (msg 3 [1#8]) 0x5500 2) = true ∧ opRunning s 7 = false ∧ bits v 40 3 = 1 ∧
     hopReason w (hopEntry (v % 2 ^ 40) 0) 0x52 = 0 ∧ hopReason w (hopEntry 16 0) 0x52 ≠ 0) ∧
    (opRunning lit 7 = false ∧ bits (rdE lit 0x5500 1) 40 3 = 0) ∧
    (let s := linked { state := 2 }
     let q := fun h => rewrite { sweepPkt with hops := h } 0 0
     (getGroup s 0 0).state = 2 ∧ sweepPkt.kind = 0x52 ∧ 4 < (q 5).hops ∧ (q 1).hops = (q 1).next ∧ (q 1).hops ≤ 4 ∧
     (q 4).next < (q 4).hops ∧ hopReason s (hopEntry (q 4).route (q 4).next) 0x52 = 0 ∧
     hopReason s (hopEntry (rewrite { sweepPkt with hops := 4, route := 16 * 1024 + 16 } 0 0).route 1) 0x52 ≠ 0) ∧
    (let s := running 7 1 1 lit
     let p : Pkt := { kind := 0x53, body := List.replicate 32 0#8 }
     opRunning s 7 = true ∧ p.body.length / 32 = (getOp s 7).arg ∧ field p.body 7 1 = 0) ∧
    (let s := running 7 4 4 lit
     let p : Pkt := { kind := 0x53, body := List.replicate 32 1#8 }
     opRunning s 7 = true ∧ p.body.length / 32 ≠ (getOp s 7).arg ∧ field p.body 7 1 ≠ 0) := by decide

/-! ### Global memory -/

/-- A region of tile 0's first 2 MiB with every right, owned by node 4095 (R280). -/
def regionRec : List Byte :=
  leBytes 8 0 ++ leBytes 4 1 ++ leBytes 5 0 ++ [0x1F#8] ++ leBytes 2 0xFFF ++ leBytes 12 0

/-- A module that holds that region, its DRAM dies active. -/
def homed : State :=
  { lit with tiles := [(0, { dies := [(0, { state := 1 }), (1, { state := 1 }), (2, { state := 1 })] })], fab := { regions := [(0, regionRec)] } }

/-- A request of a kind from node 4095 to tile 0 (R290). -/
def memPkt (kind addr tid detail operand : Nat) (data : List Byte) : Pkt :=
  { kind := kind, srcNode := 0xFFF, body := leBytes 8 addr ++ leBytes 4 0 ++ leBytes 4 tid ++ leBytes 6 0 ++ leBytes 2 detail
      ++ leBytes 8 operand ++ data }

/-- The checks pass at tile 0 and this address. -/
def reaches0 (s : State) (p : Pkt) (n addr : Nat) (aligned : Bool) : Bool :=
  match checkRequest s 0 p n aligned with
  | .ok x => x.tile = 0 && x.addr = addr
  | .error _ => false

/-- A block store of data under tensor 1, whose stitch is off by `n`. -/
def storePkt (l : List Byte) (n : Nat) : Pkt := memPkt 2 0 1 0 ((stitchOf l 1 0).toNat + n) l

/-- A whole block of zeros to store, with its stitch as the operand. -/
def blockPkt : Pkt := storePkt (List.replicate 4096 0#8) 0

/-- In POISON mode, a marked row is delivered. -/
def poisoned : State := { wrE homed 0x6500 1 1 with badRows := [(rowKey 0 0 0, true)] }

/-- Its first row is marked. -/
def markedHome : State := { homed with badRows := [(rowKey 0 0 0, true)] }

/-- A guest on site 24 and a region of its first 2 MiB. -/
def guested : State :=
  { lit with guestSites := 2 ^ 24, fab := { regions := [(0, leBytes 8 (24 * 2 ^ 35) ++ regionRec.drop 8)] } }

/-- A request for the guest's memory. -/
def guestPkt (kind operand : Nat) (data : List Byte) : Pkt := { memPkt kind (24 * 2 ^ 35) 0 0 operand data with destStation := 24 }

theorem witness_AdmittedRequestsReadAndWriteTheirTarget :
    tornDown homed (memPkt 1 0 0 0 4096 []) = false ∧ isGuest 0 = false ∧
    (let p := memPkt 1 4088 0 0 8 []
     reaches0 homed p 8 4088 (rangeAligned 4088 8) = true ∧ isBlockReq 4088 8 0 = false ∧ anyBadRow homed 0 4088 8 = false) ∧
    (let p := memPkt 1 0 0 0 8 []
     (∀ s ∈ [markedHome, poisoned], reaches0 s p (loadLength p) 0 (rangeAligned 0 8) = true ∧ anyBadRow s 0 0 8 = true) ∧
     isBlockReq 0 (loadLength p) (qTid p) = false ∧ poisonMode (readBadRows poisoned 0 0 8) = true ∧
     poisonMode (readBadRows markedHome 0 0 8) = false) ∧
    (let p := memPkt 1 0 1 0 4096 []
     reaches0 poisoned p (loadLength p) 0 (rangeAligned 0 4096) = true ∧ isBlockReq 0 (loadLength p) (qTid p) = true ∧
     (match (routerFetch poisoned 0 0 1 0 [] []).2 with | .ok _ => true | .error _ => false) = true ∧
     reaches0 homed p (loadLength p) 0 (rangeAligned 0 4096) = true ∧
     (match (routerFetch homed 0 0 1 0 [] []).2 with | .ok _ => false | .error _ => true) = true) ∧
    (∀ k ∈ [2, 5], let p := { memPkt k 0 0 0 0 (List.replicate 8 0#8) with tag := 0 }
     (qData p).length = 8 ∧ (k = 2 → reaches0 homed p 8 0 (rangeAligned 0 8) = true ∧ reaches0 markedHome p 8 0 (rangeAligned 0 8) = true) ∧
     (k = 5 → (match checkRequest homed 0 p 8 true with | .ok x => x.tile = 0 && x.addr = 0 | .error _ => false) = true) ∧
     isBlockReq 0 8 (qTid p) = false ∧ writeRefused homed 0 0 8 = false ∧ writeRefused markedHome 0 0 8 = true) ∧
    (isGuest 24 = true ∧
     (match checkRequest guested 24 (guestPkt 1 8 []) 8 (rangeAligned 0 8) with | .ok _ => true | .error _ => false) = true ∧
     (match checkRequest guested 24 (guestPkt 2 0 (List.replicate 8 0#8)) 8 (rangeAligned 0 8) with | .ok _ => true | .error _ => false) = true) ∧
    reaches0 homed (memPkt 9 0 0 0 5 []) 1 0 true = true ∧
    (∀ e ∈ [memPkt 1 4089 0 0 8 [], memPkt 2 4089 0 0 0 (List.replicate 8 0#8)],
     (match checkRequest homed 0 e 8 (rangeAligned 4089 8) with
       | .ok _ => false | .error e => decide (e.status ≠ fsAsleep)) = true) ∧
    (match checkRequest homed 0 (memPkt 9 (2 ^ 34) 0 0 5 []) 1 true with
      | .ok _ => false | .error e => decide (e.status ≠ fsAsleep)) = true := by decide

theorem qData_memPkt (v : Nat) (l : List Byte) : qData (memPkt 2 0 1 0 v l) = l := by
  simp [qData, memPkt, leBytes]

theorem qOperand_memPkt (v : Nat) (l : List Byte) : qOperand (memPkt 2 0 1 0 v l) = v % 2 ^ 64 := by
  have := leNat_leBytes 8 v
  simp [qOperand, memPkt, leBytes, field] at this ⊢
  exact this

theorem witness_BlockStores :
    reaches0 homed blockPkt 4096 0 (rangeAligned 0 4096) = true ∧ reaches0 homed { blockPkt with kind := 5 } 4096 0 (rangeAligned 0 4096) = true ∧
    isBlockReq 0 4096 (qTid blockPkt) = true ∧ qTid blockPkt = 1 ∧ qBlk blockPkt = 0 :=
  ⟨by decide +kernel, by decide +kernel, by decide +kernel, by decide +kernel, by decide +kernel⟩

theorem witness_BlockStores_length : (qData blockPkt).length = 4096 := by
  rw [blockPkt, storePkt, qData_memPkt, List.length_replicate]

/-- The stitch that it carries is that of its data. -/
theorem witness_BlockStores_stitch (l : List Byte) : (stitchOf (qData (storePkt l 0)) 1 0).toNat = qOperand (storePkt l 0) := by
  have lt := (stitchOf l 1 0).isLt
  rw [storePkt, qData_memPkt, qOperand_memPkt, Nat.add_zero, Nat.mod_eq_of_lt lt]

/-- One with a wrong stitch. -/
theorem witness_BlockStores_mismatch (l : List Byte) : (stitchOf (qData (storePkt l 1)) 1 0).toNat ≠ qOperand (storePkt l 1) := by
  have lt := (stitchOf l 1 0).isLt
  rw [storePkt, qData_memPkt, qOperand_memPkt]
  omega

theorem witness_AtomicsAndReductionsUpdateTheirTarget :
    isGuest 0 = false ∧
    (let p := memPkt 3 4 0 0x80 1 []
     tornDown homed p = false ∧ (if bit (qDetail p) 7 then 4 else 8) = 4 ∧ reaches0 homed p 4 4 (4 % 4 = 0) = true ∧
     anyBadRow homed 0 4 4 = false ∧ qDetail p % 16 ≠ 2 ∧ writeRefused homed 0 4 4 = false) ∧
    (let p := memPkt 3 0 0 2 1 (List.replicate 8 0#8)
     reaches0 homed p 8 0 true = true ∧ qDetail p % 16 = 2 ∧ leNat (bytesAt homed 0 0 8) ≠ qOperand p % 2 ^ 64) ∧
    (let p := memPkt 4 0 0 0 24 (leBytes 8 (2 ^ 39 - 1))
     (qData p).length = 8 ∧ reaches0 homed p 8 0 (rangeAligned 0 8) = true ∧ qDetail p % 8 = 0 ∧ qOperand p % 32 = 24 ∧
     operandOk 24 (field (qData p) 0 8) = true ∧ operandOk 24 (2 ^ 39) = false ∧ isBlockReq 0 8 (qTid p) = false ∧
     anyBadRow homed 0 0 8 = false ∧ writeRefused (engineInjected homed 0 0 (leBytes 8 (2 ^ 39 - 1))).1 0 0 8 = false) ∧
    (let p := memPkt 4 0 1 5 0 (List.replicate 4096 0#8)
     reaches0 poisoned p (qData p).length 0 (rangeAligned 0 4096) = true ∧ isBlockReq 0 (qData p).length (qTid p) = true ∧
     qDetail p % 8 ≠ 0 ∧
     (match (routerFetch poisoned 0 0 1 0 [] []).2 with | .ok _ => true | .error _ => false) = true) := by decide +kernel

/-- A job of slice 0 that holds every base sync object and the tile objects (R311). -/
def leased (l : Lease) : State :=
  { homed with fab := { leases := [(8191, l)] }, adm := { jobs := [(0, some { state := 2, tiles := 1, baseFirst := 0, baseCount := 8192, syncFirst := 0, syncCount := 1000 })] } }

/-- A lease request for base sync object 8191 with generation 7. -/
def leasePkt : Pkt := memPkt 7 0 0 0 (0x9FFF * 2 ^ 32 + 7) []

theorem witness_SyncObjectsAndLeasesAnswerTheFabric :
    (let s := leased {}
     tornDown s leasePkt = false ∧ qOperand leasePkt / 2 ^ 32 % 65536 = 0x9FFF ∧ syncRefusal s 0 leasePkt 0x9FFF = 0 ∧
     syncRefusal s 0 (memPkt 6 0 0 0 (999 * 2 ^ 32) []) 999 = 0 ∧
     bit 0x9FFF 15 = true ∧ (getLease (settleLease s 8191) 8191).holder = none) ∧
    (let s := leased { holder := some (holderOf leasePkt), gen := 7 }
     syncRefusal s 0 leasePkt 0x9FFF = 0 ∧ (getLease (settleLease s 8191) 8191).holder = some (holderOf leasePkt) ∧
     (getLease (settleLease s 8191) 8191).gen = qOperand leasePkt % 65536) ∧
    (let s := leased { holder := some (1, 2, 3), gen := 7 }
     (getLease (settleLease s 8191) 8191).holder = some (1, 2, 3) ∧ (1, 2, 3) ≠ holderOf leasePkt ∧
     granted s (atEntry (msg 3 (leBytes 2 8191)) 0x5600 8) = true) ∧
    (let s : State := { leased { holder := some (1, 2, 3) } with now := leaseTime * 6400 }
     (getLease s 8191).holder.isSome = true ∧ leaseTime ≤ (epoch s + 2 ^ 64 - (getLease s 8191).since) % 2 ^ 64) := by decide

/-- A fabric queue of tile 0 with these fields, one entry posted. -/
def fabQueue (x : FQueue) (e : List Nat) : State :=
  { wrE homed 0x5600 1 1 with tiles := [(0, { sync := [(1008, 1#32)] })], fab := { queues := [(0, x)] },
                              mem := (e.zipIdx.filter (fun b => b.1 ≠ 0)).map (fun b => ⟨2 ^ 50 + b.2, BitVec.ofNat 8 b.1⟩) }

/-- The entry of queue 0 leaves: its data reads well, it takes a tag, and its packet goes as `ok` says. -/
def issues (s : State) (ok : Bool) : Bool :=
  let u := syncAdd (modQueue s 0 0 (fun x => { x with read := x.read + 1 })) 0 1000 1#32
  let e := nextEntry s 0 0
  match sourceData u 0 e [] [] with
  | (v, .ok (d, m)) =>
    match takeTag v 0 0 0 e 0 with
    | some (w, tag, n) => ((sendNewPkt w 0 (entryPkt 0 0 tag n e d m)).2 = 0) = ok
    | none => false
  | (_, .error _) => false

theorem witness_RegionsAndFabricQueuesAreSetUp :
    (let r := atEntry (msg 2 regionRec) 0x5200 2
     granted lit r = true ∧ regionRecordOk regionRec = true ∧ rValid regionRec = true ∧ regionPlaceOk regionRec = true ∧
     regionOverlaps lit (selOf (selects lit r) 0x5200 1) regionRec = false ∧
     rValid (fit 32 (Tab.get [] lit.fab.regions (selOf (selects lit r) 0x5200 1))) = false) ∧
    granted lit (atEntry (msg 3 [0xFF#8, 0x0F#8]) 0x5200 3) = true ∧
    (tileOpen lit 0 = true ∧ (getQueue lit 0 7).enabled = false ∧ ctlOk lit 0 7 (ctlBlock lit 0 7) = false) ∧
    (let s : State := { lit with mem := [⟨2 ^ 50 + ctlOffset 0 + 5, 0x10#8⟩, ⟨2 ^ 50 + ctlOffset 0 + 8, 16#8⟩, ⟨2 ^ 50 + ctlOffset 0 + 10, 16#8⟩, ⟨2 ^ 50 + ctlOffset 0 + 13, 1#8⟩] }
     ctlOk s 0 0 (ctlBlock s 0 0) = true) ∧
    (let s := fabQueue { enabled := true } []
     (getQueue s 0 0).enabled = true ∧ bit (field (ctlBlock s 0 0) 13 1) 0 = false ∧ (getQueue s 0 0).out = [] ∧ (getQueue s 0 0).fences = []) ∧
    (let s := fabQueue { enabled := true, out := [0] } []
     (getQueue s 0 0).out ≠ []) ∧
    (let s := fabQueue { enabled := true } [0x0A]
     canIssue s 0 0 = true ∧ s.fab.torn.contains (getQueue s 0 0).slice = false ∧ issueRefusal s 0 (nextEntry s 0 0) ≠ 0 ∧
     (let s := { s with fab := { s.fab with torn := [0] } }
      canIssue s 0 0 = true ∧ s.fab.torn.contains (getQueue s 0 0).slice = true)) ∧
    (let s := fabQueue { enabled := true } [1, 0, 0, 0, 8]
     canIssue s 0 0 = true ∧ issueRefusal s 0 (nextEntry s 0 0) = 0 ∧ eKind (nextEntry s 0 0) ≠ 0x0F ∧ issues s false = true ∧
     issues (wrE s 0x5000 1 0) true = true) ∧
    (let s := fabQueue { enabled := true } ([2] ++ List.replicate 3 0 ++ [0, 16] ++ List.replicate 22 0 ++ [1])
     canIssue s 0 0 = true ∧ issueRefusal s 0 (nextEntry s 0 0) = 0 ∧
     (match (sourceData s 0 (nextEntry s 0 0) [] []).2 with | .ok _ => false | .error _ => true) = true) ∧
    (let s := fabQueue { enabled := true } [0x0F]
     canIssue s 0 0 = true ∧ issueRefusal s 0 (nextEntry s 0 0) = 0 ∧ eKind (nextEntry s 0 0) = 0x0F) ∧
    (let s := fabQueue { enabled := true, out := [1], fences := [{ index := 1, user := 0 }] } []
     (getQueue s 0 0).out.any (fun i => i < 1) = false) := by decide

/-- A tracker entry of tile 0 for a kind. -/
def trackOf (kind nonce : Nat) : Track :=
  { queue := 0, index := 0, entry := [BitVec.ofNat 8 kind], nonce := nonce, deadline := 0, slice := 0 }

/-- A block entry of tile 0 for a kind, under tensor 0 at its local address 0. -/
def blockEntry (kind : Nat) : List Byte := [BitVec.ofNat 8 kind, 0#8, 0#8, 0#8, 0#8, 16#8] ++ List.replicate 22 0#8 ++ leBytes 4 1

/-- An answer of this status, detail and value. -/
def answerPkt (status detail value : Nat) : Pkt :=
  { kind := 0x20, body := leBytes 1 status ++ leBytes 1 detail ++ leBytes 6 0 ++ leBytes 8 value }

/-- Tile 0's tag 0 is held by this entry. -/
def awaiting (x : Track) : State := { homed with fab := { tracks := [(trackKey 0 0, some x)] } }

theorem witness_AnswersTimeoutsAndTeardownEndEntries :
    (let s : State := { lit with fab := { tracks := [(trackKey 0 0, some (trackOf 6 0))], quar := [(trackKey 0 1, 5)] } }
     let p : Pkt := { kind := 0x20, body := leBytes 16 0 }
     getTrack s 0 p.tag = some (trackOf 6 0) ∧ p.fabric = false ∧ (trackOf 6 0).nonce = aNonce p ∧ s.fab.torn.contains p.slice = false ∧
     5 ≤ eKind (trackOf 6 0).entry ∧ aStatus p = fsOk ∧ (trackOf 6 1).nonce ≠ aNonce p ∧ eKind (trackOf 6 0).entry ≠ 0x60 ∧
     getTrack s 0 1 = none ∧ Tab.get 0 s.fab.quar (trackKey 0 1) ≠ 0) ∧
    (∀ k ∈ [1, 2, 3, 4, 6],
      getTrack (awaiting (trackOf k 0)) 0 (answerPkt 0 0 0).tag = some (trackOf k 0) ∧ eKind (trackOf k 0).entry = k ∧
      (trackOf k 0).nonce = aNonce (answerPkt 0 0 0) ∧ aStatus (answerPkt 0 0 0) = fsOk ∧ entryBlock (trackOf k 0).entry = false) ∧
    writeRefused (awaiting (trackOf 1 0)) 0 (eLocal (trackOf 1 0).entry) (aData (answerPkt 0 0 0)).length = false ∧
    (∀ k ∈ [1, 2], eKind (blockEntry k) = k ∧ entryBlock (blockEntry k) = true ∧ eTid (blockEntry k) = 1 ∧ eBlk (blockEntry k) = 0) ∧
    (∀ twice ∈ [false, true],
      let x := fun (c : DWord) => { trackOf 1 0 with entry := blockEntry 2, twice := twice, first := c }
      getTrack (awaiting (x 5#64)) 0 0 = some (x 5#64) ∧ (x 5#64).twice = twice ∧ (x 5#64).first = BitVec.ofNat 64 (aValue (answerPkt fsStitch 0 5)) ∧
      (x 4#64).first ≠ BitVec.ofNat 64 (aValue (answerPkt fsStitch 0 5)) ∧ aStatus (answerPkt fsStitch 0 5) = fsStitch ∧
      aDetail (answerPkt fsStitch 0 5) = 0 ∧ aDetail (answerPkt fsStitch 1 5) ≠ 0 ∧ (x 5#64).nonce = aNonce (answerPkt fsStitch 0 5)) ∧
    aStatus (answerPkt fsKey 0 0) ≠ fsOk ∧ aStatus (answerPkt fsKey 0 0) ≠ fsStitch ∧
    (let p : Pkt := { kind := 0x20, fabric := true, body := leBytes 8 0 ++ leBytes 4 0 ++ leBytes 4 7 }
     runOf (inRun 2 firstRun) (field p.body 12 4) (field p.body 8 4) = some (0, firstRun)) ∧
    (granted lit (atEntry (msg 3 [0#8]) 0x5600 9) = true ∧ rdE lit 0x5600 0xA % 4 ≠ 1) ∧
    rdE (wrE lit 0x5600 0xA 1) 0x5600 0xA % 4 = 1 := by decide

theorem answered_value (c : DWord) (l : List Byte) :
    aValue { answerPkt 0 0 c.toNat with body := (answerPkt 0 0 c.toNat).body ++ l } = c.toNat := by
  have := leNat_leBytes 8 c.toNat
  rw [Nat.mod_eq_of_lt (show c.toNat < 256 ^ 8 from c.isLt)] at this
  simp [aValue, answerPkt, leBytes, field] at this ⊢
  exact this

/-- A LOAD's block comes with its stitch, or with another. -/
theorem witness_LoadedBlocks (l : List Byte) :
    (let c := stitchOf l 1 0
     aValue { answerPkt 0 0 c.toNat with body := (answerPkt 0 0 c.toNat).body ++ l } = c.toNat) ∧
    (let c := stitchOf l 1 0 + 1
     aValue { answerPkt 0 0 c.toNat with body := (answerPkt 0 0 c.toNat).body ++ l } ≠ (stitchOf l 1 0).toNat) := by
  refine ⟨answered_value _ _, ?_⟩
  simp only [answered_value]
  bv_omega

/-! ### Admission and the dictionary -/

/-- The record of a staged job of slice 0: logical tile 0 (R312). -/
theorem witness_AdmissionsAreDecidedAndWithdrawn :
    (let r := atEntry (msg 2 (List.replicate 48 0#8)) 0x7200 2
     granted lit r = true ∧ flowState lit (selOf (selects lit r) 0x7200 1) < 2) ∧
    (granted lit (atEntry (msg 3 [1#8]) 0x7000 1) = true ∧ opRunning lit 8 = false) ∧
    (let s := wrE (wrE (running 8 1 0 lit) 0x7100 1 1) 0x7100 3 1
     opRunning s 8 = true ∧ s.mantle.groups.any (fun e => e.2.state = 1 && groupBetweenJobs e.2) = false ∧ (admission s 1).code = 0) ∧
    (let s := running 8 1 0 lit
     opRunning s 8 = true ∧ (admission s 1).code ≠ 0) ∧
    (let s : State := { lit with adm := { jobs := [(1, some { state := 2, tiles := 1 })] } }
     granted s (atEntry (msg 3 [1#8]) 0x7000 2) = true ∧ (Tab.get none s.adm.jobs 1).isSome = true ∧ sliceRunning s 1 = false ∧
     (jobs s).filter (fun e => 2 ≤ e.2.state) ≠ [] ∧ opRunning s 8 = false) ∧
    (jobs lit).filter (fun e => 2 ≤ e.2.state) = [] := by decide +kernel

/-- A commit group that the board's controller holds open. -/
def grouped (g : Group) : State := { lit with mantle := { lit.mantle with groups := [(255, g)] } }

theorem witness_ReadsWritesAndDescribesAreAnswered :
    (let r := atEntry (msg 1 []) 0x1200 1
     answersNow lit r = true ∧ duplicateOf lit r = none ∧ checkAccess lit r = 0 ∧ (findEntry r.index r.sub).isSome = true ∧
     contextFree lit r.src = true) ∧
    (let r := atEntry (msg 1 []) 0x7400 1
     let s := wrB lit 0x7400 1 (List.replicate 1025 0#8)
     checkAccess s r = 0 ∧ (match findEntry r.index r.sub with
       | some e => decide (1024 < (valueOf s (contextOf s r.src).sel e r.index r.sub).length) | none => false) = true ∧
     (readFree s r.index r.sub).mantle.snapshots.length < 16) ∧
    (let r := { atEntry (msg 1 []) 0x7400 1 with offset := 1024, detail := 1 }
     let x : Snapshot := { id := 1, party := r.src, index := 0x7400, sub := 1, value := List.replicate 1025 0#8, last := 0 }
     let s : State := { lit with mantle := { lit.mantle with snapshots := [x] } }
     checkAccess s r = 0 ∧ (findEntry r.index r.sub).any (fun e => e.ty = .blob) = true ∧
     s.mantle.snapshots.find? (fun x => x.id = r.detail && x.party = r.src && x.index = r.index && x.sub = r.sub) = some x ∧
     r.offset < x.value.length) ∧
    (let r := atEntry (msg 2 (leBytes 4 1)) 0x7100 3
     granted lit r = true ∧ (writerOf r r.index r.sub).ok lit (selects lit r) r.data = true ∧
     ((writerOf r r.index r.sub).effect lit (selects lit r) r.data).status = 0) ∧
    (let r := atEntry (msg 8 []) 0x1200 1
     answersNow lit r = true ∧ duplicateOf lit r = none ∧ checkEntry lit r = 0) ∧
    granted lit (atEntry (msg 3 [0x5A#8]) 0x1200 0xB) = true := by decide +kernel

/-- A region record that overlaps another is taken by its entry's checks and refused by its effect. -/
theorem witness_ARefusedEffect :
    let s : State := { lit with fab := { regions := [(1, regionRec)] } }
    let r := atEntry (msg 2 regionRec) 0x5200 2
    granted s r = true ∧ (writerOf r r.index r.sub).ok s (selects s r) r.data = true ∧
    ((writerOf r r.index r.sub).effect s (selects s r) r.data).status ≠ 0 := by decide +kernel

theorem witness_CommitGroupsOpenCommitDiscardAndReport :
    (answersNow lit (msg 4 []) = true ∧ duplicateOf lit (msg 4 []) = none ∧ (msg 4 []).copyFails = false ∧
     checkGroup lit (msg 4 []) 0 = 0 ∧ (groupsIn lit 0).length < 8 ∧ contextFree lit (.mctp 8) = true ∧
     nextGroup lit lit.mantle.groupLast = some 1) ∧
    (let s := grouped { state := 0, party := some (.mctp 8) }
     let r := { msg 5 (leBytes 8 8192) with group := 255 }
     let u := putGroup s 255 { getCommit s 255 with last := s.now }
     checkGroup s r 8 = 0 ∧ ownGroup s r = true ∧ commitFault u r (contextOf u r.src).sel (sortStaged (getCommit s 255).staged) = none ∧
     frontFault u (getCommit s 255) 8192 = 0 ∧ frontFault u (getCommit s 255) 0 = 0 ∧ frontFault u (getCommit s 255) 4096 ≠ 0 ∧
     (sortStaged (getCommit s 255).staged).find? (fun x => heldByGroup u x.index x.sub) = none ∧ (groupsIn u 1).length < 8) ∧
    (let s := grouped { state := 0, party := some (.mctp 8) }
     let r := { msg 6 [] with group := 255 }
     checkGroup s r 0 = 0 ∧ ownGroup s r = true) ∧
    (let s := grouped { state := 0, party := some (.mctp 8) }
     let r := { msg 7 [] with group := 255 }
     checkGroup s r 0 = 0 ∧ contextFree s r.src = true ∧ (getCommit s r.group).party = some r.src ∧ (getCommit s 1).party = none) := by
  decide +kernel

/-! ### The Mantles -/

/-- A module under no Mantle. -/
def unled (m : Mantle) : State := { lit with mantle := m }

theorem witness_MantleOwnershipPassesAsStated :
    mantleActive lit = true ∧ lit.mantle.owner = some 0 ∧
    (let s := unled { dieA := 4, dieB := 2, freeSince := some 0 }
     mantleActive s = false ∧ s.boot.standby = true ∧ s.mantle.freeSince = some 0 ∧ claimant s = some 1 ∧ s.mantle.handOver = none) ∧
    (let s := unled { dieA := 2, dieB := 2 }
     mantleActive s = false ∧ s.mantle.freeSince = none ∧ claimant s = some 0) ∧
    (let s := unled { dieA := 1, dieB := 2 }
     claimant s = some 1) ∧
    (let s := unled { dieA := 2, dieB := 2, freeSince := some 0, handOver := some 0 }
     s.mantle.freeSince = some 0 ∧ s.mantle.handOver = some 0) ∧
    (let s := unled { dieA := 3, dieB := 2, owner := some 0 }
     granted s (atEntry (msg 3 [1#8]) 0x1200 0xE) = true ∧ dieState s 1 = 2) ∧
    (granted lit (atEntry (msg 3 [1#8]) 0x1200 0xF) = true ∧
     [0, 1].find? (fun m => [0, 4, 5].contains (dieState lit m)) = some 1) ∧
    (let s := unled { dieA := 3, owner := some 0, i3cAddr := some 8 }
     mantleActive s = true ∧ s.mantle.i3cAddr.isSome = true) := by decide

theorem witness_WhatARequesterHoldsIsReleasedInTime :
    (let r := { msg 0xA [] with index := 0x8000 }
     answersNow lit r = true ∧ checkHead lit r r.index = 0) ∧
    (let n : Notify := { target := 4, seq := 9, record := [], sends := 4, first := 0 }
     let s := unled { owner := some 0, notifies := [n, { n with seq := 10, sends := 3 }] }
     mantleActive s = true ∧ s.mantle.notifies.find? (fun n => n.target = 4 && n.seq = 9) = some n ∧
     s.mantle.notifies.find? (fun n => n.target = 4 && n.seq = 10) = some { n with seq := 10, sends := 3 }) ∧
    (let x : Snapshot := { id := 0xFFFF, party := .mctp 8, index := 0, sub := 0, value := [], last := 0 }
     let s := unled { owner := some 0, snapshots := [x] }
     s.mantle.snapshots.find? (fun x => x.id = 0xFFFF) = some x) ∧
    (let w : PartialWrite := { party := .mctp 8, index := 0x1100, sub := 5, group := 0, total := 1, segs := [], last := 0 }
     let s := unled { owner := some 0, partials := [w] }
     s.mantle.partials.find? (fun w => w.party = .mctp 8 && w.index = 0x1100 && w.sub = 5 && w.group = 0) = some w) ∧
    (Tab.get {} (grouped { state := 0 }).mantle.groups 255).state = 0 ∧
    (let c : Context := { party := .mctp 8, last := 0 }
     findContext (unled { owner := some 0, contexts := [c] }) (.mctp 8) = some c) := by decide

theorem witness_SensorsAbortsAndImagesAreServed :
    (let s := unled { dieA := 3, owner := some 0, i3cAddr := some 8 }
     mantleActive s = true ∧ s.mantle.i3cAddr.isSome = true ∧ (sensorReading s 1).isSome = true ∧ sensorReading s 11 = none ∧
     sensorState s 13 = some 0 ∧ sensorState s 1 = none) ∧
    (∀ id ∈ [1, 2, 3, 4, 5, 6, 7, 8, 9],
     granted lit (atEntry (msg 3 [1#8]) (0xA000 + id) 8) = true ∧ opRunning lit id = false ∧ opRunning (running id 1 8 lit) id = true ∧
     granted (running id 1 8 lit) (atEntry (msg 3 [1#8]) (0xA000 + id) 8) = true) ∧
    (let r := msg 2 [0x43#8]
     granted lit (atEntry r 0x1100 5) = true ∧ 0 < r.total ∧ lit.boot.spiSel = false ∧ opRunning lit 9 = false) ∧
    (let r := { msg 2 [0x43#8] with total := 2 }
     let q := atEntry r 0x1100 5
     answersNow lit q = true ∧ duplicateOf lit q = none ∧ checkEntry lit q = 0 ∧ contextFree lit r.src = true ∧
     (takeSegment (beginUpload lit 2) q).2 = (none, 0)) := by decide

/-! ### The host interface -/

theorem witness_HostRegisterWritesReachTheirRegisters :
    (fnLive lit 63 = true ∧ fnLive lit 64 = false) ∧
    (let r := regAt 0 0x14
     isStatus r = false ∧ isWriteOnly r = false ∧ (∀ d ≤ 26, ∀ i ≤ 2, r ≠ .dom d i) ∧ rwMask 0 r ≠ 0) ∧
    isStatus (regAt 0 0x10) = true ∧ regAt 63 0x10 = .hbStat ∧ regAt 63 0x1000 = .mboxStat ∧ regAt 0 0x40 = .barStat ∧
    regAt 0 0x168 = .domStat 26 ∧ regAt 63 0x101DC = .queue 535 0x1C ∧ globalQueue 63 (0x7A000 / 65536) = some 535 ∧
    0x8000 ≤ 0x7A000 % 65536 ∧
    (regAt 0 0x40604 = .dom 25 1 ∧ isWriteOnly (.dom 25 1) = false) ∧
    (let s : State := { lit with host := { linkUp := true, domains := [(25, { write := some { off := 0x40604, value := 1, window := 0 } })] } }
     domainRuns s 25 = true ∧ (getDomain (releaseReads s 25) 25).write = some { off := 0x40604, value := 1, window := 0 } ∧
     domainRuns (releaseReads s 25) 25 = true) ∧
    fnLive lit 0 = true ∧ domainOf 0 (0x40000 + 64 * 23) = some 24 := by decide

theorem witness_HostReadsAndMailboxesComplete :
    (fnLive lit 0 = true ∧ (∀ d ≤ 26, ∀ i ≤ 2, regAt 0 0 ≠ .dom d i) ∧ regAt 0 0 ≠ .epochLo ∧ regAt 0 0 ≠ .barFence) ∧
    (regAt 0 0x40608 = .dom 25 2 ∧ domainRuns (releaseReads (useFn lit 0) 25) 25 = true) ∧
    (let s : State := { lit with fc := { sleep := 3 } }
     fnLive s 0 = true ∧ domainRuns (releaseReads (useFn s 0) 25) 25 = false) ∧
    (let s : State := { lit with fc := { sleep := 3 }, host := { linkUp := true, domains := [(25, { reads := [(0, 0x40608)] })] } }
     (getDomain (releaseReads s 25) 25).reads ≠ [] ∧ (releaseReads s 25).fc.restartAt = s.fc.restartAt) ∧
    ((getFunc (useFn lit 0) 0).outstanding = false ∧
     betweenMantles (modFunc (useFn lit 0) 0 (fun x => { x with outstanding := true })) = false) ∧
    (let s : State := { lit with host := { linkUp := true, funcs := [(0, { outstanding := true })] } }
     fnLive s 0 = true ∧ (getFunc (useFn s 0) 0).outstanding = true) ∧
    (let s : State := { lit with mantle := { freeSince := some 0 } }
     fnLive s 0 = true ∧ betweenMantles (modFunc (useFn s 0) 0 (fun x => { x with outstanding := true })) = true) ∧
    (let e : Nat × VdpResp := (0, { opcode := 1, status := 0, txid := 0 })
     let s : State := { lit with mantle := { owner := some 0, mbox := [e] } }
     fnLive s 0 = true ∧ (takeHeld (useFn s 0) 0).mantle.mbox.find? (fun e => e.1 = 0) = some e) := by decide

/-- Queue 0 of the physical function is as given. -/
def hostQ (x : HQueue) : State := { lit with host := { linkUp := true, queues := [(0, x)] } }

/-- A queue that runs, with 16 entries in each ring. -/
def liveQ : HQueue := { ctrl := 2 ^ 31 + 0x0105, size := 0x44000000, qslice := 256, running := true }

/-- An entry of a kind in queue 0, of 8 bytes; for a WAIT its limit is 1 ms. -/
def entryOf (kind : Nat) : List Byte :=
  leBytes 4 kind ++ leBytes 4 (if kind ≤ 2 then 8 else 0) ++ leBytes 28 0 ++ leBytes 4 0x8000 ++ leBytes 4 0
    ++ leBytes 4 (if kind = 4 then 1 else 0) ++ leBytes 16 0

def heldEnt (e : HEntry) : State := hostQ { liveQ with ents := [e] }

theorem witness_HostQueuesTakeEntriesAndWriteRecords :
    globalQueue 0 31 = some 31 ∧ globalQueue 63 7 = some 535 ∧
    (let on := setBit 0 31 true &&& 0x803FFFFF
     let s := hostQ { size := 0xC4000000, qslice := 256 }
     fnLive s 0 = true ∧ bit on 31 = true ∧ bit (getHQ s 0).ctrl 31 = false ∧ enableOk (getHQ s 0) = true ∧
     enableOk (getHQ lit 0) = false) ∧
    bit (setBit 0xFFFFFFFF 31 false &&& 0x803FFFFF) 31 = false ∧
    (badBell liveQ 15 (sqSize liveQ) = false ∧ badBell liveQ 16 (sqSize liveQ) = true) ∧
    (let s := hostQ { liveQ with ctrl := 0 }
     (getHQ s 0).running = true ∧ bit (getHQ s 0).ctrl 31 = false ∧ (getHQ s 0).ents = []) ∧
    canTake { liveQ with sqTail := 1, cqHead := 2 } = true ∧
    (let e : HEntry := { idx := 15, data := entryOf 3, ended := some (0, 0) }
     getEnt (heldEnt e) 0 15 = some e ∧ cqFull (getHQ (heldEnt e) 0) = false) ∧
    (cqFull { liveQ with cqTail := 15 } = true ∧ cqFull { liveQ with cqTail := 14 } = false) ∧
    (liveQ.ctrl % 256 ≠ 0 ∧ ({ liveQ with unsignalled := 1 } : HQueue).unsignalled ≠ 0) ∧
    qeKind (entryOf 5) = 5 := by decide

theorem witness_HostEntriesIssueAndEnd :
    (let e : HEntry := { idx := 0, data := entryOf 1 }
     openEnt (heldEnt e) 0 0 1 = some e ∧ (nextTag (heldEnt e) 28).isSome = true ∧ e.sent < entryPieces e.data ∧ e.again = []) ∧
    (let e : HEntry := { idx := 0, data := entryOf 1, sent := 1, again := [(0, 5#64)] }
     openEnt (heldEnt e) 0 0 1 = some e ∧ (nextTag (heldEnt e) 28).isSome = true ∧ e.again = (0, 5#64) :: []) ∧
    (let e : HEntry := { idx := 0, data := entryOf 1, sent := 1, answered := 1 }
     openEnt (heldEnt e) 0 0 1 = some e ∧ (nextTag (heldEnt e) 28).isSome = true ∧ e.again = [] ∧ e.signal = 0 ∧
     entryPieces e.data ≤ e.sent ∧ e.answered = entryPieces e.data) ∧
    (let e : HEntry := { idx := 0, data := entryOf 2 }
     openEnt (heldEnt e) 0 0 2 = some e ∧ e.sent < entryPieces e.data ∧ (nextTag (heldEnt e) 28).isSome = true) ∧
    (let e : HEntry := { idx := 0, data := entryOf 3 }
     openEnt (heldEnt e) 0 0 3 = some e ∧ e.signal = 0) ∧
    (let e : HEntry := { idx := 0, data := entryOf 4 }
     let s : State := { heldEnt e with fab := { tracks := [(trackKey 28 9, some { trackOf 0x60 0 with index := signalPiece })] } }
     openEnt s 0 0 4 = some e ∧ e.signal = 0 ∧ getEnt s 0 0 = some e ∧ signalTag s 0 0 = some 9 ∧ qeKind e.data = 4) ∧
    (getHQ (hostQ liveQ) 0).running = true ∧
    (let s := leased {}
     let p := memPkt 0x60 0 0 0 (0x9FFF * 2 ^ 32 + 1) (leBytes 8 9)
     let w : Watch := { value := 1#32, slice := 0, expiry := 9, station := 0, reply := {} }
     let full : State := { s with fab := { watches := [(watchKey 0 0x9FFF, [w, w, w, w])] } }
     tornDown { s with fab := { s.fab with torn := [0] } } p = true ∧ syncRefusal lit 0 p 0x9FFF ≠ 0 ∧ tornDown lit p = false ∧
     tornDown s p = false ∧ syncRefusal s 0 p 0x9FFF = 0 ∧ reaches (syncGet s 0 0x9FFF) 0#32 = true ∧ reaches (syncGet s 0 0x9FFF) 1#32 = false ∧
     (Tab.get [] s.fab.watches (watchKey 0 0x9FFF)).length < 4 ∧ 4 ≤ (Tab.get [] full.fab.watches (watchKey 0 0x9FFF)).length ∧
     Tab.get [] full.fab.watches (watchKey 0 0x9FFF) = w :: [w, w, w]) ∧
    (let s : State := { lit with fab := { tracks := [(trackKey 28 0, some (trackOf 0x60 0))] } }
     let p : Pkt := { kind := 0x61, body := leBytes 16 0 }
     p.fabric = false ∧ getTrack s 28 p.tag = some (trackOf 0x60 0) ∧ (trackOf 0x60 0).nonce = aNonce p ∧ s.fab.torn.contains p.slice = false) := by decide

theorem witness_Bar4LinkAndFunctionResetsAct :
    (let s : State := { lit with host := { linkUp := true, barCtrl := 0x80000100 } }
     fnLive s 0 = true ∧ barOpen (useFn s 0) = true) ∧
    (let s : State := { lit with host := { linkUp := true, barCtrl := 0x80000100 } }
     barAligned (useFn s 0) (barSize s - 8) 8 = true ∧ barAligned (useFn s 0) (barSize s) 8 = false ∧ barOpen (useFn lit 0) = false) ∧
    lit.host.perst = false ∧
    (let s : State := { lit with host := { perst := true } }
     s.boot.mainOn = true ∧ s.host.perst = true) ∧
    ((getFunc lit 63).reset = none ∧ lit.host.linkUp = true) ∧
    (queuesOf 0).any (fun q => bit (getHQ (hostQ liveQ) q).ctrl 31) = true ∧
    (let s : State := { lit with host := { linkUp := true, funcs := [(1, { reset := some 0 }), (2, { reset := some 5 })] },
                                 fab := { tracks := [(trackKey 28 3, some { trackOf 1 0 with queue := 40 })] } }
     (getFunc s 1).reset = some 0 ∧ trackedBy s 1 = [] ∧ (getFunc s 2).reset = some 5 ∧ trackedBy s 2 ≠ []) := by decide

/-! ### Clocks, power and temperature -/

/-- Reference clocks in these states. -/
def clocked (c : Clock) : State :=
  { lit with clk := { c with refMark := (0, 1) }, hem := { groups := [(0, { state := 2, farStatus := 2, offers := 1 })] } }

theorem witness_ReferencesFailReturnAndAlignTheEpoch :
    (let s := clocked { inForce := 0, refs := [(0, 2)] }
     s.boot.mainOn = true ∧ refState s 0 ≠ 0 ∧ refState s 0 ≠ 3 ∧ (setRef s 0 3).clk.inForce = 0) ∧
    (let s := wrE (clocked { inForce := 1 }) 0x3000 3 5
     refState s 1 = 0 ∧ s.clk.inForce = 1 ∧ refState s 1 ≠ 3) ∧
    (let s := wrE (clocked { inForce := 2, refs := [(0, 3)] }) 0x3000 3 0
     refState s 0 = 3 ∧ refState s 1 = 0 ∧ secondaryUp s = true) ∧
    (let s := wrE (clocked { inForce := 2, refs := [(0, 1)] }) 0x3000 5 1
     refState s 0 = 1 ∧ 0 < s.clk.inForce ∧ s.clk.revert = none ∧ rdE s 0x3000 5 = 1) ∧
    (let s := wrE (clocked { inForce := 1, refs := [(1, 1)] }) 0x3000 3 0
     refState s 1 = 1 ∧ ¬ 1 < s.clk.inForce) ∧
    (let s := clocked { inForce := 2 }
     s.clk.inForce = 2 ∧ s.clk.freeRun = false) ∧
    (let s := wrE (clocked { offSum := 64001, offN := 1, aligned := true }) 0x3000 3 0
     epochSource s ≠ 0xFFFF ∧ s.clk.offN ≠ 0 ∧ 64000 < s.clk.offSum / (s.clk.offN : Int) ∧ noJobs (wrE s 0x3100 4 0) = true) ∧
    (let s := wrE (clocked { offSum := -64000, offN := 1, aligned := true }) 0x3000 3 0
     ¬ (s.clk.offSum / (s.clk.offN : Int) < -64000 ∨ 64000 < s.clk.offSum / (s.clk.offN : Int))) ∧
    (clocked {}).clk.aligned = false := by decide

theorem witness_ClockFrontsFallBackModesAndLimits :
    (tileOpen lit 23 = true ∧ modeNow lit ≠ 3) ∧
    (let s : State := { lit with tiles := [(0, { fall := some (1000, 1) })] }
     tileOpen s 0 = true ∧ (getTile s 0).fall.isSome = true ∧ (getTile s 0).fallUp = false) ∧
    granted lit (atEntry (msg 2 [3#8]) 0x2000 1) = true ∧
    (granted lit (atEntry (msg 2 (leBytes 2 2000)) 0x3200 1) = true ∧ clockOk 2000 = true ∧ clockOk 2100 = false) := by decide

theorem witness_PowerIsEstimatedAndCapped :
    (clockedTiles lit).contains 23 = true ∧ lit.boot.mainOn = true ∧
    ({ lit with pow := { skipEnd := 1 } } : State).pow.skipEnd ≠ 0 ∧
    granted lit (atEntry (msg 2 (leBytes 4 8000)) 0x2100 1) = true ∧ lit.boot.standby = true := by decide

theorem witness_HeatThrottlesAndRailFaultsReset :
    (lit.boot.standby = true ∧ diePowered { lit with las := { dies := [(7, 1)] } } 131 = true ∧ sensorFailed lit 131 = false ∧
     diePowered { lit with boot := { standby := true } } 0 = false) ∧
    (let s : State := { lit with tiles := [(0, { thr := { on := true, ceiling := some 1000, temp := 850 } })] }
     (getTile s 0).thr.ceiling = some 1000 ∧ modeNow s ≠ 3 ∧ (getTile s 0).thr.on = true) ∧
    (let s : State := { lit with tiles := [(0, { thr := { ceiling := some 1000 } })] }
     (getTile s 0).thr.ceiling = some 1000 ∧ (getTile s 0).thr.on = false) ∧
    (let s : State := { lit with pow := { temps := (List.range 139).map (fun k => (k, some 300)) } }
     granted s (atEntry (msg 3 [1#8]) 0x2300 7) = true ∧ allCool s = true) ∧
    (let s : State := { lit with pow := { temps := [(0, some 2000)] } }
     granted s (atEntry (msg 3 [1#8]) 0x2300 7) = true ∧ allCool s = false) ∧
    (let s : State := { lit with tiles := [(0, { railLow := true })] }
     (clockedTiles s).contains 0 = true ∧ (getTile s 0).railLow = true) ∧
    bench.boot.mainOn = false ∧
    (let s : State := { lit with pow := { cool := some 0, thermalOff := true, inputGood := some 0 } }
     s.pow.cool = some 0 ∧ s.pow.thermalOff = true ∧ rdE s 0x2300 6 = 0 ∧ s.pow.inputOff = false) ∧
    (let s : State := { lit with pow := { inputOff := true, inputGood := some 0 } }
     s.pow.inputGood = some 0 ∧ s.pow.inputOff = true) := by decide

/-! ### Calibration, lasers, errors, sleep and start-up -/

theorem witness_CalibrationRunsItsStagesAndTracksChannels :
    (granted lit (atEntry (msg 3 [1#8]) 0x4000 2) = true ∧ opRunning lit 1 = false ∧ lit.boot.mainOn = true ∧ lit.boot.readyAt.isSome = true) ∧
    (let s : State := { lit with boot := { lit.boot with readyAt := none, stage := 5, result := 3 } }
     granted s (atEntry (msg 3 [1#8]) 0x4000 2) = true ∧ opRunning s 1 = false ∧ s.boot.result = 3 ∧ s.boot.readyAt = none) ∧
    (granted (running 1 1 9 lit) (atEntry (msg 3 [1#8]) 0x4000 2) = true ∧ opRunning (running 1 1 9 lit) 1 = true) ∧
    (∀ k ∈ [1, 6], let s : State := { running 1 1 9 lit with cal := { stage := k } }
     opRunning s 1 = true ∧ 1 ≤ s.cal.stage ∧ s.cal.stage ≤ 6) ∧
    (let s : State := { running 1 1 9 lit with cal := { stage := 7 } }
     opRunning s 1 = true ∧ s.cal.stage = 7 ∧ s.cal.fatal = false) ∧
    (let s : State := { running 1 1 9 lit with cal := { stage := 7, fatal := true } }
     opRunning s 1 = true ∧ s.cal.stage = 7 ∧ s.cal.fatal = true) ∧
    ({ lit with cal := { step := some { line := 16, start := 0 } } } : State).cal.step = some { line := 16, start := 0 } ∧
    (let s : Nat → Nat → State := fun last tap =>
       { dramBench with boot := lit.boot, cal := { sweeps := [(seamId 0 0 0 0, last)], taps := [(seamId 0 0 0 0, tap)] } }
     tracked (s 20 16) (seamId 0 0 0 0) = true ∧ tapCentre (2 ^ 19 - 1) = none ∧ tapCentre (2 ^ 32 - 1 + 2 ^ 32 * 255) = some 19 ∧
     Tab.get 0 (s 0 0).cal.sweeps (seamId 0 0 0 0) = 0 ∧ Tab.get 0 (s 20 16).cal.sweeps (seamId 0 0 0 0) = 20 ∧
     tapGap (20 - 1) 19 ≤ 1 ∧ tapGap (tapMean (20 - 1) 19) (Tab.get 0 (s 20 16).cal.taps (seamId 0 0 0 0)) ≤ 4 ∧
     ¬ tapGap (18 - 1) 19 ≤ 1 ∧ ¬ tapGap (tapMean (20 - 1) 19) (Tab.get 0 (s 20 14).cal.taps (seamId 0 0 0 0)) ≤ 4) ∧
    (getDie (died { state := 3 }) 0 0).state = 3 := by decide

/-- Laser group 0 switches over. -/
def gapped (x : Gap) : State := { lit with las := { dies := [(0, 1), (1, 2)], gaps := [(0, some x)] } }

theorem witness_LaserGroupsSwitchOverAndRestart :
    (let s : State := { lit with las := { dies := [(0, 1), (1, 2)] } }
     laserGap s 0 = none ∧ bit s.las.lost 0 = false ∧ laserDie s (laserOwner s 0) = 1 ∧ 0x10 &&& laserLines 0 ≠ 0 ∧ 0x20 &&& laserLines 0 = 0 ∧
     bit s.las.low 0 = false ∧ granted s (atEntry (msg 3 [0#8]) 0x4200 6) = true ∧ (standbyDie s 0).isSome = true ∧
     s.las.waiting.any (fun w => w % 4 = 0) = false ∧
     s.boot.mainOn = true ∧ laserGap s (1 / 2) = none ∧
     granted s (atEntry (msg 3 [1#8]) 0x4200 7) = true ∧ laserDie s 1 ≠ 1 ∧ Tab.get false s.las.checks 1 = false) ∧
    (granted lit (atEntry (msg 3 [3#8]) 0x4200 6) = true ∧ standbyDie lit 3 = none) ∧
    (let s : State := { lit with las := { dies := [(0, 1), (1, 2)], low := 1 } }
     laserDie s (laserOwner s 0) = 1 ∧ bit s.las.low 0 = true) ∧
    (laserGap (gapped { g0 := 0, die := 1, commanded := true, old := true }) 0
       = some { g0 := 0, die := 1, commanded := true, old := true }) ∧
    (let x : Gap := { g0 := 0, die := 1, commanded := true, old := true, drive := true }
     laserGap (gapped x) 0 = some x ∧ x.drive = true ∧ x.checked = false) ∧
    (let x : Gap := { g0 := 0, die := 1, commanded := true, old := true, drive := true, checked := true }
     laserGap (gapped x) 0 = some x ∧ x.checked = true) ∧
    Tab.get false ({ lit with las := { checks := [(7, true)] } } : State).las.checks 7 = true := by decide

/-- A module in diagnostic mode. -/
def diag : State := wrE lit 0xF000 1 1

theorem witness_ErrorsAreLoggedClearedScrubbedAndInjected :
    (let x : Report := { cls := 1 }
     Tab.get [] ({ lit with log := { queue := [(28, [x])] } } : State).log.queue 28 = x :: []) ∧
    (let q : Squall := { last := 0, first := 0, repeats := 65 }
     Tab.get none ({ lit with log := { squall := [(0x81, some q)] } } : State).log.squall 0x81 = some q) ∧
    (granted lit (atEntry (msg 3 (leBytes 4 0)) 0x8000 4) = true ∧ granted lit (atEntry (msg 3 (leBytes 4 0)) (0x8100 + 23) 4) = true ∧
     atOrBefore 0 (logOf lit 23).newest = true) ∧
    granted lit (atEntry (msg 2 [1#8]) 0xF000 1) = true ∧
    (let v := [4#8, 0#8, 0#8, 0#8, 2#8, 0#8, 0#8, 0#8] ++ leBytes 8 1
     granted diag (atEntry (msg 2 v) 0xF000 2) = true ∧ injectionOk diag v = true ∧ diagMode diag = true ∧ diag.injections.length < 16 ∧
     granted lit (atEntry (msg 2 v) 0xF000 2) = true ∧ injectionOk lit v = true ∧ diagMode lit = false ∧ lit.injections.length < 16) ∧
    (let v := leBytes 8 (63 * 2 ^ 32)
     (∀ s ∈ [diag, lit], granted s (atEntry (msg 2 v) 0xF000 4) = true ∧ tapOk s v = true) ∧ diagMode diag = true ∧ diagMode lit = false) ∧
    (mantleActive lit = true ∧ lit.fc.restartAt ≤ lit.now) := by decide

theorem witness_TheForecastUnitDecidesSleepsAndWakes :
    (lit.boot.standby = true ∧ lit.pow.thermalOff = false ∧ lit.pow.inputOff = false ∧ lit.fc.flags &&& actionMask lit 2 = 0) ∧
    ({ lit with pow := { thermalOff := true } } : State).pow.thermalOff = true ∧
    (let s : State := { lit with fc := { flags := 2 ^ 22 - 1 } }
     s.fc.flags &&& actionMask s 2 ≠ 0) ∧
    (granted lit (atEntry (msg 3 [3#8]) 0x9000 2) = true ∧ changing lit = false ∧ lit.fc.sleep < 3 ∧ lit.fc.stay = false ∧
     lit.fc.flags &&& actionMask lit 1 = 0) ∧
    granted lit (atEntry (msg 3 [0#8]) 0x9000 2) = true ∧
    (let s : State := { lit with fc := { entry := some 2 } }
     granted s (atEntry (msg 3 [1#8]) 0x9000 2) = true ∧ changing s = true) ∧
    (let s : State := { lit with fc := { sleep := 2 } }
     granted s (atEntry (msg 3 [2#8]) 0x9000 2) = true ∧ granted s (atEntry (msg 3 [1#8]) 0x9000 2) = true ∧ changing s = false ∧
     s.fc.sleep = 2 ∧ s.fc.flags &&& actionMask s 1 = 0) ∧
    (let s : State := { lit with fc := { stay := true } }
     granted s (atEntry (msg 3 [3#8]) 0x9000 2) = true ∧ changing s = false ∧ s.fc.sleep < 3 ∧ s.fc.stay = true) ∧
    (let s : State := { lit with fc := { entry := some 2, closed := true } }
     s.fc.entry.isSome = true ∧ s.fc.closed = true ∧ s.fc.sleep = 0) ∧
    (let s : State := { lit with fc := { entry := some 2, closed := true, sleep := 1 } }
     s.fc.entry = some 2 ∧ s.fc.sleep = 1) ∧
    (let s : State := { lit with fc := { entry := some 3, closed := true, sleep := 2 } }
     s.fc.entry = some 3 ∧ s.fc.sleep = 2) ∧
    (let s : State := { lit with fc := { waking := true, sleep := 3 } }
     s.fc.waking = true ∧ s.fc.entry = none ∧ s.boot.readyAt.isSome = true ∧ diesAsleep s = false) := by decide

/-- A module in a stage of its start. -/
def atStage (k part : Nat) : State := { lit with part := part, boot := { standby := true, mainOn := true, stage := k } }

theorem witness_TheModulePowersUpAndStarts :
    State.reset.boot.standby = false ∧
    (let s := unled { dieA := 3, dieB := 1, owner := some 0 }
     dieState s 1 = 1 ∧ s.boot.standby = true ∧ s.boot.spiSel = false ∧ mantleActive s = true) ∧
    (let s := unled { dieA := 1 }
     dieState s 0 = 1 ∧ mantleActive s = false ∧ bootImage { s with mantle := { dieA := 1 } } = some 0) ∧
    (let s : State := { lit with mantle := { dieA := 1 }, boot := { lit.boot with imageA := {} } }
     dieState s 0 = 1 ∧ mantleActive s = false ∧ bootImage s = none) ∧
    lit.boot.resetHigh = true ∧ ({ lit with boot := { spiSel := true } } : State).boot.spiSel = true ∧
    (let s : State := { lit with boot := { standby := true } }
     mayStart { s with boot := { s.boot with mainEnable := true } } = true) ∧
    mayStart { lit with boot := { lit.boot with mainEnable := true } } = false ∧
    (starting (atStage 2 0) = true ∧ starting (atStage 8 1) = true ∧ starting (atStage 9 1) = true ∧ (atStage 8 0).part ≠ 1) ∧
    (let s : State := { lit with guestSites := 2 ^ 27, tiles := [(27, { reset := some { cause := 0, since := 0 } })] }
     bit s.guestSites (24 + 3) = true ∧ (getTile s 27).reset.isSome = true) ∧
    (getTile { lit with guestSites := 2 ^ 27 } 27).reset = none := by decide

theorem witness_TheModuleShutsDownAndResets :
    lit.boot.mainOn = true ∧ lit.boot.shutdown = none ∧
    ({ lit with boot := { lit.boot with shutdown := some 5 } } : State).boot.shutdown = some 5 ∧
    granted lit (atEntry (msg 3 [1#8]) 0x1100 7) = true ∧
    granted lit (atEntry (msg 3 (leBytes 4 0x45524153)) 0xF000 9) = true ∧
    ({ lit with boot := { resetHigh := false } } : State).boot.resetHigh = false ∧ lit.boot.standby = true := by decide

/-- A tile with unit 5 of a kind fused off and unit 9 retired; tile 3 of the module is fused off and tile 20 retired. -/
def thinned : State :=
  { bench with fusedTiles := 2 ^ 3, retiredTiles := 2 ^ 20, tiles := [(4, { fusedM := 2 ^ 5, retiredM := 2 ^ 9 })] }

theorem witness_LogicalNumbersCountTheUsableUnits :
    (logicalTile thinned 23 = some 21 ∧ logicalTile thinned 3 = none ∧ logicalTile thinned 20 = none) ∧
    (67 < coreCount 0 ∧ 33 < coreCount 1 ∧ 9 < coreCount 2 ∧ logicalCore (getTile thinned 4) 0 67 = some 65
      ∧ logicalCore (getTile thinned 4) 0 9 = none) ∧
    21 < (List.range 24).countP (fun i => !bit thinned.fusedTiles i && !bit thinned.retiredTiles i) := by decide

theorem witness_IntegerCodesAreTheirIntegers :
    ((255 : Nat) < 256 ∧ (15 : Nat) < 16) ∧ ((-128 : Int) ≤ -128 ∧ (127 : Int) ≤ 127) ∧ ((-8 : Int) ≤ -8 ∧ (7 : Int) ≤ 7) := by decide

/-- A packet with every field of its header in use, and two bytes of data. -/
def fullPkt : Pkt := memPkt 0x21 0x1000 5 3 7 [1#8, 2#8]

theorem witness_PacketsReadBackFromTheirBytes :
    fullPkt.wf = true ∧ ([] : List Byte).length < 32 ∧
    field (List.replicate 32 1#8) 30 2 ≠ (crc16 ((List.replicate 32 1#8).take 30)).toNat := by decide

theorem witness_SpilledAccumulatorsFillExactly :
    let a : Cea := { anchor := -512, c := -(2 ^ 255), terms := 2 ^ 64 - 1 }
    a.c < 2 ^ 255 ∧ -(2 ^ 255 : Int) ≤ a.c ∧ -512 ≤ a.anchor ∧ a.anchor ≤ 511 ∧ a.terms < 2 ^ 64 := by decide

theorem witness_ExactSumsDoNotDependOnOrder :
    let l : List Val := [.fin false 1 0, .fin true 3 2, .fin false 5 (-4)]
    let l' : List Val := [.fin false 5 (-4), .fin false 1 0, .fin true 3 2]
    ((-20 : Int) ≤ -10) ∧ (l.all (fun x => match x with | .fin _ _ e => decide ((-20 : Int) ≤ e) | _ => false)) = true ∧
    l.Perm l' ∧ (ceaTotal (-10) l).high = false ∧ (ceaTotal (-10) l).low = false ∧
    (ceaTotal (-10) l').high = false ∧ (ceaTotal (-10) l').low = false := by decide

theorem witness_AnchoredSumsDoNotDependOnOrderOrGrouping :
    (∀ x ∈ [2 ^ 62 - 1, 2 ^ 64 - (2 ^ 62 - 1)], anchoredValid 1 x) ∧ [2 ^ 62 - 1, 2 ^ 64 - (2 ^ 62 - 1)].length ≤ 2 ^ 1 ∧
    narCode ∉ [2 ^ 62 - 1, 2 ^ 64 - (2 ^ 62 - 1)] ∧
    (∀ x ∈ [narCode, 2 ^ 39 - 1], anchoredValid 24 x) ∧ narCode ∈ [narCode, 2 ^ 39 - 1] ∧
    ([[2 ^ 64 - (2 ^ 62 - 1)], [2 ^ 62 - 1]].flatten).Perm [2 ^ 62 - 1, 2 ^ 64 - (2 ^ 62 - 1)] ∧
    narCode < 2 ^ 64 := by
  unfold anchoredValid; decide

theorem witness_ZeroResultsConvertToPlusZero :
    let a : Cea := ceaTotal 0 [.fin false 1 0, .fin true 1 0]
    a.c = 0 ∧ a.nan = false ∧ a.pinf = false ∧ a.ninf = false ∧ (0xFE ≠ 0xFF) := by decide

theorem witness_RawWritesReadBackAndTouchNothingElse :
    (27 < 28) ∧ (∀ i < 8, (locOf (getTile bench 27) (8 + i)).isSome = true) ∧
    (∀ i < 8, (locOf (getTile bench 27) (onDieBase + poolBytes - 8 + i)).isSome = true) ∧
    (locOf (getTile bench 26) 8).isSome = true ∧
    ∀ i < 8, (locOf (getTile bench 27) (8 + i)).map (byteKey 27) ≠ some 0 := by decide

theorem witness_ResetIsTheUnpoweredModule : State.reset.boot.standby = false ∧ rdE State.reset 0x1000 1 = dictDefault (dictKey 0x1000 1) :=
  ⟨rfl, rfl⟩

/-- A command that does not write memory, and one that does. -/
theorem witness_EveryCommandCompletes : writesMemory .meshSlot = false ∧ writesMemory (.fillDone) = true := by decide

/-- An injection record of a mesh lane that stays until it is ended. -/
def held : Injection := { target := 5, fault := 0, place := 0, unit := 0, left := none, bitOff := 0 }

/-- A state with a byte of memory and 16 injection records meets the invariant. -/
theorem witness_StepKeepsTheInvariant :
    let s : State := { diag with mem := [(5, 1#8)], injections := List.replicate 16 held }
    s.Inv := by unfold State.Inv; decide

theorem witness_SixteenInjectionsMayBePending :
    let v := [4#8, 0#8, 0#8, 0#8, 2#8, 0#8, 0#8, 0#8] ++ leBytes 8 1
    let full : State := { diag with injections := List.replicate 16 held }
    let near : State := { diag with injections := List.replicate 15 held }
    (granted full (atEntry (msg 2 v) 0xF000 2) = true ∧ injectionOk full v = true ∧ full.injections.length = 16) ∧
    (granted near (atEntry (msg 2 v) 0xF000 2) = true ∧ injectionOk near v = true ∧ diagMode near = true ∧ near.injections.length < 16) := by
  decide

theorem witness_QueueNumbersFollowTheFunctions :
    globalQueue 0 31 = some 31 ∧ globalQueue 0 32 = none ∧ globalQueue 1 0 = some 32 ∧ globalQueue 63 7 = some 535 ∧
    globalQueue 63 8 = none ∧ queueOwner 535 = 63 ∧ queueOwner 31 = 0 := by decide

theorem witness_FlowRecordsChangeOnlyInEmptyOrStagedSlots :
    let v := List.replicate 48 1#8
    let s : State := { lit with adm := { flows := [(0, v)], fstate := [(0, 2)] } }
    (granted s (atEntry (msg 2 v) 0x7200 2) = true ∧ v.length = 48 ∧ 2 ≤ flowState s (selOf (selects s (msg 2 v)) 0x7200 1)) ∧
    (granted lit (atEntry (msg 2 v) 0x7200 2) = true ∧ flowState lit (selOf (selects lit (msg 2 v)) 0x7200 1) ≤ 1) ∧
    (granted lit (atEntry (msg 2 (List.replicate 48 0#8)) 0x7200 2) = true) := by decide

theorem witness_RegisterAndRowWritesTouchNothingElse :
    (sCoreRuns bench 0 0 = true ∧ (0, 1) ≠ ((0, 0) : Nat × Nat) ∧ (1 : Nat) % 32 ≠ 2 % 32) ∧
    rowOpen dramBench 0 2 (2 ^ 23 - 1) = true ∧ ∀ cs n, rowDecode (matsOf dramBench 0 2 255) [] dramBench.free ≠ .miscorrected cs n := by
  refine ⟨by decide, by decide, fun cs n => ?_⟩
  simp [rowDecode, netErrs]

/-! ### Well-formedness -/

/-- A command with one operand out of its range is not well formed: one term for each check. -/
theorem smoke_wf_refuses :
    [Instr.tdFence 28 0, .tdFence 0 10, .tdPop 0 10 0#64, .tdPoll 0 0 32 0#64, .tdcqWrite 0 0 4 0#64, .descriptorStart 0 .m 68 [],
     .selfTest (.tile 24) true, .selfTest (.mCore 0 68) true, .selfTest (.vCore 0 34) true, .selfTest (.sCore 0 10) true,
     .patrolScrubRow 0 3 [], .refresh 0 0 256 true true, .rowRead 0 0 (2 ^ 23) ⟨0, []⟩ [] 0, .codewordResend 29 0, .codewordResend 0 17,
     .codewordReceive 0 0 17 0 [] 0 true, .meshSlotAck 29 0 0 true, .meshSlotAck 0 0 29 true, .shaperRelease 4096 0 true,
     .planBodyWrite 256 (msg 2 []), .runEnd 64, .hemFrameResend 64 0, .hemFrameResend 0 16, .hemLaneFailed 0 17,
     .fence 0 8, .requestTimeout 0 16384, .leaseExpiry 8192, .partialWriteDiscard (.mctp 8) 0 0 256, .laserGapEnd 4,
     .laserRestartCheckDone 8 true, .clearThrough 29 (msg 3 []), .regPlainWrite 64 0 0 [], .regPlainWrite 0 5 0 [],
     .domainWrite 0 4 0 0, .domainWrite 0 0 0 (2 ^ 32), .domainWriteApplied 27, .queueEnable 0 32 0, .queueDisabled 536,
     .referenceFailure 2, .temperatureSample 139 0, .seamTapSweep 0 0 (2 ^ 32), .squallEnd 256, .channelSample 32 0,
     .mantleRestartN 2, .guestLinkFailure 4, .partialBlock 0 {} 3 none,
     .vdpRead { msg 1 [] with version := 256 }, .vdpRead { msg 1 [] with opcode := 256 }, .vdpRead { msg 1 [] with flags := 256 },
     .vdpRead { msg 1 [] with txid := 2 ^ 32 }, .vdpRead { msg 1 [] with index := 65536 }, .vdpRead { msg 1 [] with sub := 256 },
     .vdpRead { msg 1 [] with group := 256 }, .vdpRead { msg 1 [] with offset := 2 ^ 32 }, .vdpRead { msg 1 [] with total := 2 ^ 32 },
     .vdpRead { msg 1 [] with dataLen := 65536 }, .vdpRead { msg 1 [] with detail := 65536 },
     .sweepReply { hops := 8 }, .sweepReply { next := 8 }, .sweepReply { route := 2 ^ 40 }, .sweepReply { slice := 256 },
     .sweepReply { kind := 256 }, .sweepReply { destNode := 4096 }, .sweepReply { destStation := 32 }, .sweepReply { srcStation := 32 },
     .sweepReply { srcNode := 4096 }, .sweepReply { tag := 16384 }, .sweepReply { stream := 65536 }, .sweepReply { seq := 2 ^ 32 },
     .sweepReply { sigSync := 65536 }, .sweepReply { sigCount := 65536 }].all (fun i => !i.wf) = true := by decide

theorem smoke_wf_accepts :
    [Instr.tdFence 27 9, .tdcqWrite 0 0 3 0#64, .leaseExpiry 8191, .queueDisabled 535, .vdpRead (msg 1 []), .sweepReply sweepPkt,
     .meshSlot].all (fun i => i.wf) = true := by decide

/-! ### Results that the spec works out -/

/-- The example under R28: a CX22-B0-N with tiles 7 and 16 fused, before and after tile 12 is
retired. -/
theorem test_logical_numbers_of_the_example :
    (let s : State := { part := 2, fusedTiles := 2 ^ 7 + 2 ^ 16 }
     [0, 6, 7, 8, 11, 12, 13, 15, 16, 17, 23].map (logicalTile s)
       = [some 0, some 6, none, some 7, some 10, some 11, some 12, some 14, none, some 15, some 21]) ∧
    (let s : State := { part := 2, fusedTiles := 2 ^ 7 + 2 ^ 16, retiredTiles := 2 ^ 12 }
     [11, 12, 13, 15, 17, 23].map (logicalTile s) = [some 10, none, some 11, some 13, some 14, some 20] ∧ physTile s 14 = some 17) := by
  decide

/-- R29: guests on sites 25 and 27 are logical tiles 24 and 25. -/
theorem test_logical_numbers_of_guests :
    let s : State := { part := 1, guestSites := 2 ^ 25 + 2 ^ 27 }
    [24, 25, 26, 27].map (logicalTile s) = [none, some 24, none, some 25] := by decide

/-- The elements of "Worked example: an E4M3 dot product". -/
theorem test_e4m3_elements :
    decodeElem .e4m3 0xAC = .fin true 12 (-5) ∧ (encodeElem .e4m3 .rne false (.fin true 3 (-3))).1 = 0xAC ∧
    decodeElem .e4m3 0x01 = .fin false 1 (-9) ∧ (encodeElem .e4m3 .rne false (.fin false 448 0)).1 = 0x7E := by decide

/-- Its sum 52,614,553,601 / 2^18, rounded to bfloat16 by RNE and by SR with two words. -/
theorem test_bfloat16_of_the_example :
    (encodeElem .bfloat16 .rne false (.fin false 52614553601 (-18))).1 = 0x4844 ∧
    (encodeElem .bfloat16 (.sr 0x80000000) false (.fin false 52614553601 (-18))).1 = 0x4844 ∧
    (encodeElem .bfloat16 (.sr 0xFF000000) false (.fin false 52614553601 (-18))).1 = 0x4845 := by decide

/-- "Worked example: a binary32 reduction across modules": contributions at anchor -35, their sums
in two orders, and the result in binary32. -/
theorem test_reduction_of_the_example :
    anchoredOfVal (-35) 2 (.fin false 1 24) = (0x0800000000000000, 0#8) ∧
    anchoredOfVal (-35) 2 (.fin true 1 24) = (0xF800000000000000, 0#8) ∧
    anchoredOfVal (-35) 2 (.fin false 1 (-40)) = (0, fWinLow) ∧
    (anchoredAdd (anchoredAdd 0x0800000000000000 0x0000000800000000).1 0xF800000000000000).1 = 0x0000000800000000 ∧
    (anchoredAdd (anchoredAdd 0x0800000000000000 0xF800000000000000).1 0x0000000800000000).1 = 0x0000000800000000 ∧
    (encodeElem .binary32 .rne false (valOfAnchored (-35) 0x0000000800000000)).1 = 0x3F800000 := by decide

/-- The distances of the example under R99. -/
theorem test_distances_of_the_example :
    [distance 0 20 1, distance 0 20 13, distance 0 20 7, distance 0 50 11, distance 0 50 1] = [3, 4, 5, 3, 8] := by decide

/-- A sync count wraps at 2^32 (R92). -/
theorem test_sync_count_wraps :
    (match exec (.sySignal 0 0 0x8000#64 2#64) { bench with baseSync := [(0, 0xFFFFFFFF#32)] } with
     | .next u => syncGet u 0 0x8000
     | _ => 0#32) = 1#32 := by decide

/-- The read of 0x4511:01 in "Worked example: a group refused under load" answers one byte, the
split code. -/
theorem test_read_of_a_split_code :
    (match exec (.vdpRead (atEntry (msg 1 []) 0x4511 1)) (wrE lit 0x4511 1 2) with
     | .next u => u.out.map (fun o => match o with | .vdp _ r => (r.status, r.total, r.data) | _ => (1, 0, []))
     | _ => []) = [(0, 1, [2#8])] := by decide

/-- The check values of the stitch, of the frame check (R233) and of the header check (R248) on the
ASCII bytes "123456789". -/
theorem test_check_values :
    let l : List Byte := (List.range 9).map (fun i => BitVec.ofNat 8 (0x31 + i))
    crc64 l = 0x995DC9BBDF1939FA#64 ∧ crc32c l = 0xE3069283#32 ∧ crc16 l = 0x29B1#16 := by decide

/-- The step takes the front command and leaves the rest. -/
theorem test_step_takes_the_front_command :
    (match step { lit with pending := [.perstDeassert, .meshSlot] } with
     | .next u => (u.pending, u.host.perst)
     | _ => ([], false)) = ([.meshSlot], true) := by decide

end Sys2Proof.Tests
end

namespace Sys2Proof.Machine

/-! ### The step -/

/-- With no command waiting a step is a tick. -/
theorem step_idle {s : State} (h : s.pending = []) : step s = .next (tick s) := by
  simp only [step, h]

/-- Between two fronts a tick moves the clock by one epoch count and nothing else (R9). -/
theorem tick_between_fronts {s : State} (h : epoch s % 4096 ≠ 4095) : tick s = { s with now := s.now + 6400 } := by
  rw [tick, if_neg h, advanceTo, Nat.max_eq_right (Nat.le_add_right ..), countPs]

/-! ### The places of a tile's bytes (R94, R103) -/

/-- On-die SRAM lies within 2^29 offsets by physical core (R94). -/
theorem onDieLoc_lt {tl : Tile} {x p : Nat} (h : onDieLoc tl x = some p) : p < 2 ^ 29 := by
  unfold onDieLoc poolBytes at h
  split at h
  · obtain rfl := Option.some.inj h
    omega
  · split at h
    · obtain ⟨c, hc, rfl⟩ := Option.map_eq_some_iff.1 h
      have : c < 68 := physCore_lt hc
      omega
    · split at h
      · obtain ⟨c, hc, rfl⟩ := Option.map_eq_some_iff.1 h
        have : c < 34 := physCore_lt hc
        omega
      · simp at h

/-- Die, row, byte of the row and on-die offset lie within the sizes of R94 and R103. -/
def Loc.bounded : Loc → Prop
  | .dram d r o => d < 3 ∧ r < 2 ^ 23 ∧ o < 1024
  | .sram x => x < 2 ^ 29

theorem locOf_bounded {tl : Tile} {a : Nat} {l : Loc} (h : locOf tl a = some l) : l.bounded := by
  unfold locOf gib onDieBase at h
  split at h
  · obtain rfl := Option.some.inj h
    simp only [Loc.bounded]
    omega
  · split at h
    · next inLinear =>
      simp only [Bool.and_eq_true, decide_eq_true_eq] at inLinear
      obtain rfl := Option.some.inj h
      simp only [Loc.bounded]
      omega
    · split at h
      · obtain ⟨x, hx, rfl⟩ := Option.map_eq_some_iff.1 h
        exact onDieLoc_lt hx
      · simp at h

/-- Every place of every tile has its own key in `mem`. -/
theorem byteKey_inj {t v : Nat} {x y : Loc} (ht : t < 28) (hv : v < 28) (hx : x.bounded) (hy : y.bounded)
    (h : byteKey t x = byteKey v y) : t = v ∧ x = y := by
  cases x with
  | dram d r o =>
    obtain ⟨hd, hr, ho⟩ := hx
    cases y with
    | dram d' r' o' =>
      obtain ⟨hd', hr', ho'⟩ := hy
      simp only [byteKey, rowKey, Loc.dram.injEq] at h ⊢
      omega
    | sram x' => simp only [byteKey, rowKey] at h; omega
  | sram x =>
    simp only [Loc.bounded] at hx
    cases y with
    | dram d' r' o' =>
      obtain ⟨hd', hr', ho'⟩ := hy
      simp only [byteKey, rowKey] at h
      omega
    | sram x' =>
      simp only [Loc.bounded, byteKey, Loc.sram.injEq] at hy h ⊢
      omega

/-- Every address below the end of the interleaved mapping exists. -/
theorem locOf_isSome_interleaved {tl : Tile} {a : Nat} (h : a < 24 * gib) : (locOf tl a).isSome = true := by
  rw [locOf, if_pos h]
  rfl

/-- A range whose addresses all exist does not leave the interleaved mapping: nothing exists where
it ends. -/
theorem interleaved_of_range_exists {tl : Tile} {a n : Nat} (h : ∀ i < n, (locOf tl (a + i)).isSome = true)
    (ha : a < 24 * gib) {i : Nat} (hi : i < n) : a + i < 24 * gib := by
  refine Nat.lt_of_not_le fun hend => ?_
  have gap : locOf tl (24 * gib) = none := by simp [locOf, gib, onDieBase]
  have := h (24 * gib - a) (by omega)
  rw [Nat.add_sub_cancel' (Nat.le_of_lt ha), gap] at this
  cases this

/-- Two addresses of a range that exists never share a key. -/
theorem byteKey_locOf_ne {tl : Tile} {t a n i : Nat} {x : Loc} (ht : t < 28)
    (h : ∀ i < n + 1, (locOf tl (a + i)).isSome = true) (hx : locOf tl a = some x) (hi : i < n) :
    (locOf tl (a + 1 + i)).map (byteKey t) ≠ some (byteKey t x) := by
  intro hk
  obtain ⟨y, hy, e⟩ := Option.map_eq_some_iff.1 hk
  obtain ⟨-, rfl⟩ := byteKey_inj ht ht (locOf_bounded hy) (locOf_bounded hx) e
  have samePart : a + 1 + i < 24 * gib ↔ a < 24 * gib :=
    ⟨fun hb => by omega, fun ha => by
      have := interleaved_of_range_exists h ha (i := i + 1) (by omega)
      omega⟩
  have := locOf_inj hy hx samePart
  omega

/-! ### What a raw write does (R140, R118) -/

theorem getTile_putBytes (s : State) (t a v : Nat) (l : List Byte) : getTile (putBytes s t a l) v = getTile s v := by
  rw [putBytes_eq]
  rfl

theorem getTile_rawWrite (s : State) (t a v : Nat) (l : List Byte) : getTile (rawWrite s t a l) v = getTile s v := by
  rw [rawWrite_eq]
  rfl

/-- A byte read depends on the state's tiles and memory alone. -/
theorem byteAt_congr {s u : State} {t : Nat} (a : Nat) (ht : getTile u t = getTile s t) (hm : u.mem = s.mem) :
    byteAt u t a = byteAt s t a := by
  simp only [byteAt, ht, hm]

theorem bytesAt_congr {s u : State} {t : Nat} (ht : getTile u t = getTile s t) (hm : u.mem = s.mem) (n : Nat) :
    ∀ a, bytesAt u t a n = bytesAt s t a n := by
  induction n with
  | zero => intro a; rfl
  | succ n ih => intro a; simp only [bytesAt, byteAt_congr a ht hm, ih]

/-- Bytes put at addresses that exist read back. -/
theorem bytesAt_putBytes {t : Nat} (ht : t < 28) (l : List Byte) : ∀ (s : State) (a : Nat),
    (∀ i < l.length, (locOf (getTile s t) (a + i)).isSome = true) → bytesAt (putBytes s t a l) t a l.length = l := by
  induction l with
  | nil => intro s a _; rfl
  | cons b l ih =>
    intro s a h
    obtain ⟨x, hx⟩ := Option.isSome_iff_exists.1 (h 0 (Nat.succ_pos _))
    have front : byteAt (putBytes s t a (b :: l)) t a = b := by
      simp only [byteAt, getTile_putBytes, Nat.add_zero] at hx ⊢
      simp only [hx, putBytes]
      rw [rd8_putBytes_other, rd8_wr8_same]
      exact fun i hi => byteKey_locOf_ne ht h hx hi
    have rest : bytesAt (putBytes s t a (b :: l)) t (a + 1) l.length = l := by
      simp only [Nat.add_zero] at hx
      simp only [putBytes, hx]
      refine ih { s with mem := wr8 s.mem (byteKey t x) b } (a + 1) fun i hi => ?_
      rw [getTile_mem, Nat.add_right_comm]
      exact h (i + 1) (Nat.succ_lt_succ hi)
    rw [List.length_cons, bytesAt, front, rest]

/-- A raw write reads back. -/
theorem bytesAt_rawWrite {s : State} {t a : Nat} {l : List Byte} (ht : t < 28)
    (h : ∀ i < l.length, (locOf (getTile s t) (a + i)).isSome = true) : bytesAt (rawWrite s t a l) t a l.length = l := by
  rw [bytesAt_congr ((getTile_rawWrite ..).trans (getTile_putBytes ..).symm) (rawWrite_mem ..)]
  exact bytesAt_putBytes ht l s a h

/-- A byte that no address of a raw write names reads as before. -/
theorem rd8_rawWrite_other {s : State} {t a k : Nat} {l : List Byte}
    (h : ∀ i < l.length, (locOf (getTile s t) (a + i)).map (byteKey t) ≠ some k) :
    rd8 (rawWrite s t a l).mem k = rd8 s.mem k := by
  rw [rawWrite_mem, rd8_putBytes_other t k l s a h]

/-- A raw write leaves the bytes of every other tile. -/
theorem byteAt_rawWrite_other_tile {s : State} {t a v b : Nat} {x : Loc} {l : List Byte} (ht : t < 28) (hv : v < 28)
    (hne : v ≠ t) (hx : locOf (getTile s v) b = some x) : byteAt (rawWrite s t a l) v b = byteAt s v b := by
  simp only [byteAt, getTile_rawWrite, hx]
  refine rd8_rawWrite_other fun i _ hk => ?_
  obtain ⟨y, hy, e⟩ := Option.map_eq_some_iff.1 hk
  exact hne (byteKey_inj ht hv (locOf_bounded hy) (locOf_bounded hx) e).1.symm

/-- The bad-data marks after a raw write of some bytes: those of the rows it covers whole are
cleared (R118). -/
theorem rawWrite_badRows {s : State} {t a : Nat} {l : List Byte} (h : l ≠ []) :
    (rawWrite s t a l).badRows = (clearBadRows s (splitRows (getTile s t) t a l.length true)).badRows := by
  rw [rawWrite, if_neg (by simpa using h), rawCells_eq, putBytes_eq]

/-- A module whose row 0 of DRAM die 0 of tile 0 carries its bad-data mark (R118). -/
def markedRowState : State := { badRows := [(rowKey 0 0 0, true)] }

/-- The 1,024 bytes of a row (R103). -/
def rowOfZeros : List Byte := List.replicate 1024 0#8

theorem rowOfZeros_length : rowOfZeros.length = 1024 := List.length_replicate

/-- The raw write of the marked row clears its mark. -/
theorem rawWrite_clears_mark : (rawWrite markedRowState 0 0 rowOfZeros).badRows = [] := by
  have someBytes : rowOfZeros ≠ [] := List.ne_nil_of_length_eq_add_one rowOfZeros_length
  rw [rawWrite_badRows someBytes, rowOfZeros_length]
  decide

end Sys2Proof.Machine

section
open Sys2Proof Sys2Proof.Machine

/-- Settles O1: by the two branches of `step`, and of `tick` between two fronts. -/
theorem stepRunsTheFrontCommand : Obligations.StepRunsTheFrontCommand := by
  unfold Obligations.StepRunsTheFrontCommand
  refine ⟨fun c rest s h => ?_, fun s => step_idle, fun s h between => ?_⟩
  · simp only [step, h]
  · rw [step_idle h, tick_between_fronts between]

/-- Refutes O53: its last clause leaves out the bad-data marks. A raw write of a whole row of DRAM
clears the row's mark (R118), so more than memory and the stitch cells changes: here the 1,024
bytes of the marked row at address 0 of tile 0. The other three clauses hold (`bytesAt_rawWrite`,
`rd8_rawWrite_other`, `byteAt_rawWrite_other_tile`), and `rawWrite_eq` is the frame with the marks. -/
theorem not_rawWritesReadBackAndTouchNothingElse : ¬ Obligations.RawWritesReadBackAndTouchNothingElse := by
  unfold Obligations.RawWritesReadBackAndTouchNothingElse
  intro h
  have rowExists : ∀ i < rowOfZeros.length, (locOf (getTile markedRowState 0) (0 + i)).isSome = true := by
    intro i hi
    rw [rowOfZeros_length] at hi
    exact locOf_isSome_interleaved (by unfold gib; omega)
  obtain ⟨-, -, -, frame⟩ := h markedRowState 0 0 rowOfZeros (by decide) rowExists
  have markKept : (rawWrite markedRowState 0 0 rowOfZeros).badRows = markedRowState.badRows := by rw [frame]
  rw [rawWrite_clears_mark] at markKept
  cases markKept
end

namespace Sys2Proof.Machine

/-! ### Logical numbers (R26) -/

/-- The set bits of a mask below a position are the positions there that satisfy its predicate. -/
theorem popBelow_maskOf (p : Nat → Bool) {i n : Nat} (h : i ≤ n) : popBelow (maskOf p n) i = (List.range i).countP p := by
  rw [popBelow_eq]
  refine List.countP_congr fun j hj => ?_
  have inMask : j < n := Nat.lt_of_lt_of_le (List.mem_range.1 hj) h
  simp [bit_maskOf, inMask]

/-- A position below the width of a mask is numbered by the positions below it that satisfy the
mask's predicate. -/
theorem number_maskOf (p : Nat → Bool) {i n : Nat} (h : i < n) :
    (if bit (maskOf p n) i then some (popBelow (maskOf p n) i) else none) = if p i then some ((List.range i).countP p) else none := by
  rw [popBelow_maskOf p (Nat.le_of_lt h), bit_maskOf, decide_eq_true h, Bool.true_and]

theorem logicalTile_compute {s : State} {t : Nat} (h : t < 24) :
    logicalTile s t = if bit (usableTiles s) t then some (popBelow (usableTiles s) t) else none := if_pos h

/-- A compute tile holds a number iff it is usable and has that many usable tiles below it. -/
theorem logicalTile_eq_some {s : State} {t n : Nat} (h : t < 24) :
    logicalTile s t = some n ↔ bit (usableTiles s) t = true ∧ popBelow (usableTiles s) t = n := by
  simp [logicalTile_compute h]

theorem popBelow_usableTiles (s : State) :
    popBelow (usableTiles s) 24 = (List.range 24).countP (fun i => !bit s.fusedTiles i && !bit s.retiredTiles i) :=
  popBelow_maskOf _ (Nat.le_refl 24)

theorem popBelow_usableTiles_le (s : State) : popBelow (usableTiles s) 24 ≤ 24 := by
  rw [popBelow_usableTiles]
  exact Nat.le_trans List.countP_le_length (Nat.le_of_eq List.length_range)

/-- `physTile` inverts `logicalTile` on the compute tiles. -/
theorem physTile_eq_some {s : State} {t n : Nat} (hn : n < 24) :
    physTile s n = some t ↔ t < 24 ∧ logicalTile s t = some n := by
  rw [physTile, if_pos hn, nthSet_eq_some]
  exact and_congr_right fun ht => (logicalTile_eq_some ht).symm

/-- Every number below the count of usable tiles is held by a compute tile. -/
theorem exists_logicalTile {s : State} {n : Nat} (h : n < popBelow (usableTiles s) 24) : ∃ t < 24, logicalTile s t = some n := by
  obtain ⟨t, ht, hbit, hpop⟩ := exists_popBelow (usableTiles s) h
  exact ⟨t, ht, (logicalTile_eq_some ht).2 ⟨hbit, hpop⟩⟩

/-- The number of a compute tile is below the count of usable tiles. -/
theorem logicalTile_lt {s : State} {t n : Nat} (ht : t < 24) (h : logicalTile s t = some n) : n < popBelow (usableTiles s) 24 := by
  obtain ⟨hbit, rfl⟩ := (logicalTile_eq_some ht).1 h
  exact popBelow_lt _ hbit ht

end Sys2Proof.Machine

section
open Sys2Proof Sys2Proof.Machine

/-- Settles O46: a mask counts the positions that satisfy its predicate (`number_maskOf`), and
`physTile` inverts `logicalTile`. -/
theorem logicalNumbersCountTheUsableUnits : Obligations.LogicalNumbersCountTheUsableUnits := by
  unfold Obligations.LogicalNumbersCountTheUsableUnits
  intro s usable count
  have usableCount : popBelow (usableTiles s) 24 = count := popBelow_usableTiles s
  refine ⟨fun t ht => ?_, fun t kind p hp => ?_, fun n hn => ?_, fun t ht n h => ?_⟩
  · exact (logicalTile_compute ht).trans (number_maskOf usable ht)
  · exact number_maskOf _ hp
  · rw [← usableCount] at hn
    obtain ⟨t, ht, held⟩ := exists_logicalTile hn
    have inTiles : n < 24 := Nat.lt_of_lt_of_le hn (popBelow_usableTiles_le s)
    exact ⟨t, ht, held, (physTile_eq_some inTiles).2 ⟨ht, held⟩⟩
  · exact usableCount ▸ logicalTile_lt ht h
end

namespace Sys2Proof.Machine

/-! ### Lists and powers -/

theorem two_pow_pos (w : Nat) : (0 : Int) < 2 ^ w := Int.pow_pos (by decide)

/-- Induction on a list from its front, as a left fold runs through it. -/
theorem concatInduction {α : Type} {motive : List α → Prop} (nil : motive [])
    (concat : ∀ l x, motive l → motive (l ++ [x])) (l : List α) : motive l := by
  rw [← List.reverse_reverse l]
  induction l.reverse with
  | nil => exact nil
  | cons x m ih =>
    rw [List.reverse_cons]
    exact concat m.reverse x ih

theorem sum_int_perm {l l' : List Int} (h : l.Perm l') : l.sum = l'.sum := by
  induction h with
  | nil => rfl
  | cons x _ ih => rw [List.sum_cons, List.sum_cons, ih]
  | swap x y l =>
    simp only [List.sum_cons]
    omega
  | trans _ _ ih ih' => exact ih.trans ih'

/-! ### Two's complement -/

theorem signed_eq_bmod (w v : Nat) : signed (w + 1) v = (v : Int).bmod (2 ^ (w + 1)) := by
  have half : ((2 : Int) ^ (w + 1) + 1) / 2 = 2 ^ w := by rw [Int.pow_succ']; omega
  have cast : ((v % 2 ^ (w + 1) : Nat) : Int) = (v : Int) % 2 ^ (w + 1) := by push_cast; rfl
  have low : ((v % 2 ^ (w + 1) : Nat) : Int) < 2 ^ w ↔ v % 2 ^ (w + 1) < 2 ^ w := by exact_mod_cast Iff.rfl
  simp only [signed, Int.bmod, Nat.add_sub_cancel, Int.ofNat_eq_natCast, Int.natCast_pow, Int.cast_ofNat_Int]
  simp only [half, ← cast, low]

theorem signed_unsigned_eq_bmod (w : Nat) (x : Int) : signed (w + 1) (unsigned (w + 1) x) = x.bmod (2 ^ (w + 1)) := by
  have nonneg : 0 ≤ x % 2 ^ (w + 1) := Int.emod_nonneg _ (Int.ne_of_gt (two_pow_pos _))
  rw [signed_eq_bmod, unsigned, Int.toNat_of_nonneg nonneg]
  simpa using Int.emod_bmod x (2 ^ (w + 1))

theorem signed_ge (w v : Nat) : -(2 ^ w : Int) ≤ signed (w + 1) v := by
  have := Int.le_bmod (x := v) (m := 2 ^ (w + 1)) (Nat.two_pow_pos _)
  rw [signed_eq_bmod]
  push_cast [Int.pow_succ'] at this ⊢
  omega

theorem signed_lt (w v : Nat) : signed (w + 1) v < (2 ^ w : Int) := by
  have := Int.bmod_lt (x := v) (m := 2 ^ (w + 1)) (Nat.two_pow_pos _)
  rw [signed_eq_bmod]
  push_cast [Int.pow_succ'] at this ⊢
  omega

/-- An integer within the range of two's complement reads back. -/
theorem signed_unsigned {w : Nat} {x : Int} (lo : -(2 ^ w : Int) ≤ x) (hi : x < 2 ^ w) :
    signed (w + 1) (unsigned (w + 1) x) = x := by
  rw [signed_unsigned_eq_bmod]
  apply Int.bmod_eq_of_le <;> push_cast [Int.pow_succ'] <;> omega

/-- A code of its width is the two's complement of its integer. -/
theorem unsigned_signed {w v : Nat} (hv : v < 2 ^ (w + 1)) : unsigned (w + 1) (signed (w + 1) v) = v := by
  have residue : signed (w + 1) v % 2 ^ (w + 1) = ((v % 2 ^ (w + 1) : Nat) : Int) := by
    rw [signed_eq_bmod]
    exact_mod_cast Int.bmod_emod (x := v) (m := 2 ^ (w + 1))
  rw [unsigned, residue, Int.toNat_natCast, Nat.mod_eq_of_lt hv]

theorem unsigned_lt (w : Nat) (x : Int) : unsigned w x < 2 ^ w := by
  have pos := two_pow_pos w
  rw [unsigned, Int.toNat_lt (Int.emod_nonneg x (Int.ne_of_gt pos))]
  exact_mod_cast Int.emod_lt_of_pos x pos

/-! ### Exact accumulators (R44 to R46) -/

/-- The integer fits 256-bit two's complement. -/
def fits256 (x : Int) : Prop := -(2 ^ 255) ≤ x ∧ x < 2 ^ 255

theorem wrap256_fits (x : Int) : fits256 (wrap256 x).1 :=
  ⟨signed_ge 255 _, signed_lt 255 _⟩

/-- Nothing is past the range where the sum stays as it is. -/
theorem wrap256_fst_of_not_past {x : Int} (h : (wrap256 x).2 = false) : (wrap256 x).1 = x := by
  simpa [wrap256] using h

theorem wrap256_of_fits {x : Int} (h : fits256 x) : wrap256 x = (x, false) := by
  have stays : signed 256 (unsigned 256 x) = x := signed_unsigned h.1 h.2
  simp [wrap256, stays]

/-- What a value adds to C: its magnitude in units of the anchor, truncated (R45). -/
def gridVal (anchor : Int) : Val → Int
  | .fin neg m e => if neg then -((splitAt m e anchor).1 : Int) else (splitAt m e anchor).1
  | _ => 0

/-- The value has bits below the anchor (R45). -/
def losesBits (anchor : Int) : Val → Bool
  | .fin _ m e => decide ((splitAt m e anchor).2.1 ≠ 0)
  | _ => false

def valIsNan : Val → Bool
  | .nan _ => true
  | _ => false

theorem splitAt_zero (e q : Int) : (splitAt 0 e q).1 = 0 ∧ (splitAt 0 e q).2.1 = 0 := by
  unfold splitAt
  split <;> simp

/-- A value of any kind enters by its grid value and its marks. -/
theorem ceaEnter_eq {a : Cea} (h : fits256 a.c) (v : Val) :
    ceaEnter a v =
      { a with
        c := (wrap256 (a.c + gridVal a.anchor v)).1
        nan := a.nan || valIsNan v
        pinf := a.pinf || decide (v = .inf false)
        ninf := a.ninf || decide (v = .inf true)
        high := a.high || (wrap256 (a.c + gridVal a.anchor v)).2
        low := a.low || losesBits a.anchor v } := by
  have keep : wrap256 a.c = (a.c, false) := wrap256_of_fits h
  cases v with
  | nan s => simp [ceaEnter, gridVal, losesBits, valIsNan, keep]
  | inf neg => cases neg <;> simp [ceaEnter, gridVal, losesBits, valIsNan, keep]
  | fin neg m e =>
    by_cases zero : m = 0
    · subst zero
      obtain ⟨quotient, remainder⟩ := splitAt_zero e a.anchor
      simp [ceaEnter, ceaAdd, gridVal, losesBits, valIsNan, quotient, remainder, keep]
    · simp [ceaEnter, ceaAdd, gridVal, losesBits, valIsNan, zero]

theorem ceaTotal_concat (anchor : Int) (l : List Val) (v : Val) :
    ceaTotal anchor (l ++ [v]) = ceaEnter (ceaTotal anchor l) v := by
  simp [ceaTotal]

theorem ceaTotal_fits (anchor : Int) (l : List Val) : fits256 (ceaTotal anchor l).c := by
  induction l using concatInduction with
  | nil => simp [ceaTotal, fits256]
  | concat l v ih =>
    rw [ceaTotal_concat, ceaEnter_eq ih]
    exact wrap256_fits _

/-- The accumulator of values that never leave the range: each part is a sum or a disjunction over
them, so their order does not matter. -/
def exactTotal (anchor : Int) (l : List Val) : Cea :=
  { anchor := anchor
    c := (l.map (gridVal anchor)).sum
    nan := l.any valIsNan
    pinf := l.any (fun v => decide (v = .inf false))
    ninf := l.any (fun v => decide (v = .inf true))
    low := l.any (losesBits anchor) }

/-- WIN_HIGH is sticky: where it is clear at the end, no sum was past the range. -/
theorem ceaTotal_of_high_clear {anchor : Int} {l : List Val} (h : (ceaTotal anchor l).high = false) :
    ceaTotal anchor l = exactTotal anchor l := by
  induction l using concatInduction with
  | nil => rfl
  | concat l v ih =>
    rw [ceaTotal_concat, ceaEnter_eq (ceaTotal_fits anchor l)] at h ⊢
    obtain ⟨before, now⟩ := Bool.or_eq_false_iff.1 h
    rw [ih before] at now ⊢
    rw [wrap256_fst_of_not_past now, now]
    simp [exactTotal, List.any_append]

theorem exactTotal_perm {anchor : Int} {l l' : List Val} (h : l.Perm l') : exactTotal anchor l = exactTotal anchor l' := by
  simp only [exactTotal, sum_int_perm (h.map (gridVal anchor)), h.any_eq]

/-- A value without bits below the anchor counts in full, in any finer unit. -/
theorem gridVal_mul {anchor base : Int} {v : Val} (hb : base ≤ anchor) (he : ∀ n m e, v = .fin n m e → base ≤ e)
    (lossless : losesBits anchor v = false) : gridVal anchor v * 2 ^ (anchor - base).toNat = scaledVal base v := by
  cases v with
  | nan s => simp [gridVal, scaledVal]
  | inf neg => simp [gridVal, scaledVal]
  | fin neg m e =>
    have hbe : base ≤ e := he neg m e rfl
    have magnitude : (splitAt m e anchor).1 * 2 ^ (anchor - base).toNat = m * 2 ^ (e - base).toNat := by
      simp only [losesBits, splitAt, ne_eq, decide_not, Bool.not_eq_eq_eq_not, Bool.not_false, decide_eq_true_eq] at lossless
      unfold splitAt
      by_cases above : e ≥ anchor
      · rw [if_pos above, Nat.mul_assoc, ← Nat.pow_add]
        congr 2
        omega
      · rw [if_neg above] at lossless ⊢
        have unit : (anchor - base).toNat = (anchor - e).toNat + (e - base).toNat := by omega
        rw [unit, Nat.pow_add, ← Nat.mul_assoc, Nat.div_mul_cancel (Nat.dvd_of_mod_eq_zero lossless)]
    have magnitude' : ((splitAt m e anchor).1 : Int) * 2 ^ (anchor - base).toNat = m * 2 ^ (e - base).toNat := by
      exact_mod_cast magnitude
    cases neg with
    | false => exact magnitude'
    | true =>
      show -((splitAt m e anchor).1 : Int) * _ = -(m : Int) * _
      rw [Int.neg_mul, Int.neg_mul, magnitude']

/-- Without bits below the anchor the grid values sum to the true sum. -/
theorem sum_gridVal {anchor base : Int} {l : List Val} (hb : base ≤ anchor) (he : ∀ n m e, Val.fin n m e ∈ l → base ≤ e)
    (h : l.any (losesBits anchor) = false) :
    (l.map (gridVal anchor)).sum * 2 ^ (anchor - base).toNat = (l.map (scaledVal base)).sum := by
  induction l with
  | nil => simp only [List.map_nil, List.sum_nil, Int.zero_mul]
  | cons v l ih =>
    rw [List.any_cons, Bool.or_eq_false_iff] at h
    obtain ⟨head, tail⟩ := h
    have first := gridVal_mul hb (fun n m e hv => he n m e (hv ▸ List.mem_cons_self)) head
    have rest := ih (fun n m e hv => he n m e (List.mem_cons_of_mem _ hv)) tail
    simp only [List.map_cons, List.sum_cons, Int.add_mul, first, rest]

end Sys2Proof.Machine

section
open Sys2Proof Sys2Proof.Machine

/-- Settles O50: without WIN_HIGH the accumulator is `exactTotal`, whose parts are sums and
disjunctions over the values; without WIN_LOW its grid values are the values themselves. -/
theorem exactSumsDoNotDependOnOrder : Obligations.ExactSumsDoNotDependOnOrder := by
  unfold Obligations.ExactSumsDoNotDependOnOrder
  intro anchor l a
  refine ⟨ceaTotal_fits anchor l, fun base hb he high low => ?_, fun l' perm => ?_⟩
  · have total : a = exactTotal anchor l := ceaTotal_of_high_clear high
    rw [total] at low ⊢
    exact sum_gridVal hb he low
  · intro b high _ high' _
    have same : b = a := by
      rw [show a = exactTotal anchor l from ceaTotal_of_high_clear high,
        show b = exactTotal anchor l' from ceaTotal_of_high_clear high', exactTotal_perm perm]
    exact ⟨same, fun f rnd sat => by rw [same]⟩
end

namespace Sys2Proof.Machine

/-! ### Spill records (R48) -/

/-- The flag byte of a record. -/
def recordFlags (a : Cea) : Nat := b2n a.high + 2 * b2n a.low + 4 * b2n a.nan + 8 * b2n a.pinf + 16 * b2n a.ninf

theorem bit_recordFlags (a : Cea) :
    bit (recordFlags a % 256) 0 = a.high ∧ bit (recordFlags a % 256) 1 = a.low ∧ bit (recordFlags a % 256) 2 = a.nan ∧
      bit (recordFlags a % 256) 3 = a.pinf ∧ bit (recordFlags a % 256) 4 = a.ninf := by
  unfold recordFlags
  generalize a.high = high, a.low = low, a.nan = nan, a.pinf = pinf, a.ninf = ninf
  revert high low nan pinf ninf
  decide

theorem spillRecord_length (a : Cea) (pair : Nat) : (spillRecord a pair).length = 48 := by
  simp [spillRecord, leBytes_length]

/-- The fields that a fill reads: the Pair byte is none of them. -/
theorem field_spillRecord (a : Cea) (pair : Nat) :
    field (spillRecord a pair) 0 32 = unsigned 256 a.c % 256 ^ 32 ∧
    field (spillRecord a pair) 32 2 = unsigned 16 a.anchor % 256 ^ 2 ∧
    field (spillRecord a pair) 34 1 = recordFlags a % 256 ^ 1 ∧
    field (spillRecord a pair) 40 8 = a.terms % 256 ^ 8 := by
  unfold spillRecord
  refine ⟨?_, ?_, ?_, ?_⟩ <;>
    simp only [field_append_left, field_append_right, field_leBytes, leBytes_length, List.length_append, recordFlags,
      Nat.reduceAdd, Nat.reduceSub, Nat.reduceLeDiff]

/-- A record reads back as its accumulator. -/
theorem readRecord_spillRecord {a : Cea} (pair : Nat) (hc : fits256 a.c) (lo : -512 ≤ a.anchor) (hi : a.anchor ≤ 511)
    (ht : a.terms < 2 ^ 64) : readRecord (spillRecord a pair) = a := by
  have value : signed 256 (unsigned 256 a.c) = a.c := signed_unsigned hc.1 hc.2
  have anchor : signed 16 (unsigned 16 a.anchor) = a.anchor := signed_unsigned (by omega) (by omega)
  have valueField : unsigned 256 a.c % 256 ^ 32 = unsigned 256 a.c := Nat.mod_eq_of_lt (unsigned_lt 256 _)
  have anchorField : unsigned 16 a.anchor % 256 ^ 2 = unsigned 16 a.anchor := Nat.mod_eq_of_lt (unsigned_lt 16 _)
  have termsField : a.terms % 256 ^ 8 = a.terms := Nat.mod_eq_of_lt ht
  obtain ⟨field0, field32, field34, field40⟩ := field_spillRecord a pair
  obtain ⟨high, low, nan, pinf, ninf⟩ := bit_recordFlags a
  simp only [readRecord, field0, field32, field34, field40, valueField, anchorField, termsField, value, anchor, Nat.pow_one,
    high, low, nan, pinf, ninf]

theorem fillFrom_same (a : Cea) : fillFrom a.anchor a = a := if_pos rfl

/-! ### Integer codes (R36) -/

theorem decodeElem_int {f : Fmt} (hf : isInt f = true) (c : Nat) :
    decodeElem f c = .fin (decide (signed (fmtWidth f) c < 0)) (signed (fmtWidth f) c).natAbs 0 := by
  simp only [decodeElem, hf, if_true]

/-- A sign and a magnitude spell the integer that they come from. -/
theorem sign_natAbs (x : Int) : (if decide (x < 0) = true then -(x.natAbs : Int) else (x.natAbs : Int)) = x := by
  by_cases negative : x < 0
  · rw [if_pos (decide_eq_true negative)]
    omega
  · rw [if_neg (by simpa using negative)]
    omega

/-! ### A result of zero (R47) -/

theorem roundMag_zero (rnd : Rnd) (neg : Bool) (exp q : Int) : roundMag rnd neg 0 exp q = 0 := by
  obtain ⟨quotient, remainder⟩ := splitAt_zero exp q
  simp [roundMag, quotient, remainder]

theorem ceaVal_zero {a : Cea} (hc : a.c = 0) (hn : a.nan = false) (hp : a.pinf = false) (hi : a.ninf = false) :
    ceaVal a = .fin false 0 a.anchor := by
  simp [ceaVal, hc, hn, hp, hi]

theorem roundInt_zero (rnd : Rnd) (exp : Int) : roundInt rnd false 0 exp = 0 := by
  cases rnd <;> simp [roundInt, roundMag_zero]

theorem unsigned_zero (w : Nat) : unsigned w 0 = 0 := by
  rw [unsigned, Int.zero_emod, Int.toNat_zero]

theorem encodeElem_zero (f : Fmt) (rnd : Rnd) (sat : Bool) (exp : Int) : encodeElem f rnd sat (.fin false 0 exp) = (0, 0#8) := by
  by_cases integer : isInt f = true
  · have notAbove : ¬ (0 : Int) > fmtMaxCode f := by omega
    have notBelow : ¬ (0 : Int) < -(fmtMaxCode f : Int) - 1 := by omega
    simp only [encodeElem, integer, if_true, roundInt_zero, if_neg notAbove, if_neg notBelow, unsigned_zero]
  · simp [encodeElem, integer, withSign]

theorem anchoredOfFin_zero (anchor exp : Int) (h : Nat) : (anchoredOfFin anchor h false 0 exp).1 = 0 := by
  simp [anchoredOfFin, roundMag_zero, unsigned]

end Sys2Proof.Machine

section
open Sys2Proof Sys2Proof.Machine

/-- Settles O49: the fields of a record are those that a fill reads (`field_spillRecord`), and each
holds its number whole. -/
theorem spilledAccumulatorsFillExactly : Obligations.SpilledAccumulatorsFillExactly := by
  unfold Obligations.SpilledAccumulatorsFillExactly
  intro a pair cLow cHigh anchorLow anchorHigh terms
  have back := readRecord_spillRecord pair ⟨cLow, cHigh⟩ anchorLow anchorHigh terms
  exact ⟨spillRecord_length a pair, back, by rw [back, fillFrom_same]⟩

/-- Settles O47: an integer code is decoded as its two's complement value, which is in range
(`signed_ge`, `signed_lt`) and reaches every integer of the range (`signed_unsigned`). -/
theorem integerCodesAreTheirIntegers : Obligations.IntegerCodesAreTheirIntegers := by
  unfold Obligations.IntegerCodesAreTheirIntegers
  intro value
  have spelled : ∀ f, isInt f = true → ∀ c, value (decodeElem f c) = some (signed (fmtWidth f) c) := by
    intro f hf c
    simp only [decodeElem_int hf, value, sign_natAbs]
  refine ⟨fun c _ => ⟨spelled .int8 rfl c, signed_ge 7 c, Int.le_sub_one_of_lt (signed_lt 7 c)⟩,
    fun c _ => ⟨spelled .int4 rfl c, signed_ge 3 c, Int.le_sub_one_of_lt (signed_lt 3 c)⟩,
    fun x lo hi => ⟨unsigned 8 x, unsigned_lt 8 x, ?_⟩, fun x lo hi => ⟨unsigned 4 x, unsigned_lt 4 x, ?_⟩⟩
  · exact (spelled .int8 rfl _).trans (congrArg some (signed_unsigned (w := 7) lo (by omega)))
  · exact (spelled .int4 rfl _).trans (congrArg some (signed_unsigned (w := 3) lo (by omega)))

/-- Settles O52: such an accumulator reads out as +0 (`ceaVal_zero`), which every conversion rounds
to itself. -/
theorem zeroResultsConvertToPlusZero : Obligations.ZeroResultsConvertToPlusZero := by
  unfold Obligations.ZeroResultsConvertToPlusZero
  intro a hc hn hp hi
  rw [ceaVal_zero hc hn hp hi]
  refine ⟨fun f rnd sat => encodeElem_zero .., fun anchor h => ?_, fun f x rnd sat hx => ?_⟩
  · simp only [anchoredOfCea, ceaVal_zero hc hn hp hi, anchoredOfVal, anchoredOfFin_zero]
  · simp only [mxElem, if_neg hx, encodeElem_zero]
end

namespace Sys2Proof.Machine

/-! ### Anchored-64 sums (R61, R62, R66) -/

theorem anchoredAdd_nar_left (x : Nat) : anchoredAdd narCode x = (narCode, false) := by
  simp [anchoredAdd]

theorem anchoredAdd_nar_right (x : Nat) : anchoredAdd x narCode = (narCode, false) := by
  simp [anchoredAdd]

/-- Two numbers whose sum is within the range of R62 add exactly. -/
theorem anchoredAdd_of_fits {x y : Nat} (hx : x ≠ narCode) (hy : y ≠ narCode)
    (h : (signed 64 x + signed 64 y).natAbs ≤ 2 ^ 63 - 1) :
    anchoredAdd x y = (unsigned 64 (signed 64 x + signed 64 y), false) := by
  have inRange : ¬ (signed 64 x + signed 64 y < -(2 ^ 63 - 1) ∨ signed 64 x + signed 64 y > 2 ^ 63 - 1) := by omega
  simp only [anchoredAdd, hx, hy, decide_false, Bool.or_self, Bool.false_eq_true, if_false, Bool.or_eq_true, decide_eq_true_eq,
    if_neg inRange]

theorem anchoredTotal_concat (l : List Nat) (x : Nat) :
    anchoredTotal (l ++ [x]) =
      ((anchoredAdd (anchoredTotal l).1 x).1, (anchoredTotal l).2 || (anchoredAdd (anchoredTotal l).1 x).2) := by
  simp only [anchoredTotal, List.foldl_append, List.foldl_cons, List.foldl_nil]

/-- The magnitudes of a list of codes together; NaR counts 0. -/
def codeSizes (l : List Nat) : Nat := (l.map (fun x => if x = narCode then 0 else (signed 64 x).natAbs)).sum

theorem codeSizes_cons (x : Nat) (l : List Nat) :
    codeSizes (x :: l) = (if x = narCode then 0 else (signed 64 x).natAbs) + codeSizes l := by
  simp only [codeSizes, List.map_cons, List.sum_cons]

theorem codeSizes_append (l m : List Nat) : codeSizes (l ++ m) = codeSizes l + codeSizes m := by
  simp only [codeSizes, List.map_append, List.sum_append]

theorem codeSizes_perm {l l' : List Nat} (h : l.Perm l') : codeSizes l = codeSizes l' := (h.map _).sum_nat

/-- The code of a sum: of the integers, or NaR where NaR is among the codes. -/
def codeSum (l : List Nat) : Nat := if narCode ∈ l then narCode else unsigned 64 (l.map (signed 64)).sum

theorem codeSum_perm {l l' : List Nat} (h : l.Perm l') : codeSum l = codeSum l' := by
  simp only [codeSum, h.mem_iff, sum_int_perm (h.map (signed 64))]

theorem natAbs_sum_le {l : List Nat} (nar : narCode ∉ l) : (l.map (signed 64)).sum.natAbs ≤ codeSizes l := by
  induction l with
  | nil => simp [codeSizes]
  | cons x l ih =>
    rw [List.mem_cons, not_or] at nar
    obtain ⟨notHead, notTail⟩ := nar
    have tail := ih notTail
    rw [codeSizes_cons, if_neg (Ne.symm notHead), List.map_cons, List.sum_cons]
    omega

theorem signed_narCode : signed 64 narCode = -2 ^ 63 := by decide

/-- Where the magnitudes fit the range, the code of the sum holds the integer sum. -/
theorem signed_codeSum {l : List Nat} (nar : narCode ∉ l) (fit : codeSizes l ≤ 2 ^ 63 - 1) :
    signed 64 (codeSum l) = (l.map (signed 64)).sum := by
  have := natAbs_sum_le nar
  rw [codeSum, if_neg nar]
  exact signed_unsigned (w := 63) (by omega) (by omega)

/-- Only NaR sums to NaR. -/
theorem codeSum_eq_nar {l : List Nat} (fit : codeSizes l ≤ 2 ^ 63 - 1) : codeSum l = narCode ↔ narCode ∈ l := by
  refine ⟨fun h => ?_, fun h => if_pos h⟩
  refine Classical.byContradiction fun nar => ?_
  have value := signed_codeSum nar fit
  have := natAbs_sum_le nar
  rw [h, signed_narCode] at value
  omega

/-- Codes whose magnitudes fit the range together sum without leaving it. -/
theorem anchoredTotal_of_fits {l : List Nat} (fit : codeSizes l ≤ 2 ^ 63 - 1) : anchoredTotal l = (codeSum l, false) := by
  induction l using concatInduction with
  | nil => rfl
  | concat l x ih =>
    rw [codeSizes_append] at fit
    have before : codeSizes l ≤ 2 ^ 63 - 1 := by omega
    rw [anchoredTotal_concat, ih before, Bool.false_or]
    by_cases inFront : narCode ∈ l
    · simp [codeSum, inFront, anchoredAdd_nar_left]
    by_cases last : x = narCode
    · simp [codeSum, last, anchoredAdd_nar_right]
    have value := signed_codeSum inFront before
    have number : codeSum l ≠ narCode := fun h => inFront ((codeSum_eq_nar before).1 h)
    have inRange : (signed 64 (codeSum l) + signed 64 x).natAbs ≤ 2 ^ 63 - 1 := by
      have := natAbs_sum_le inFront
      rw [codeSizes_cons, if_neg last] at fit
      omega
    rw [anchoredAdd_of_fits number last inRange, value]
    simp [codeSum, inFront, Ne.symm last]

/-- A sum is no larger than what it sums. -/
theorem codeSizes_codeSum_cons {l : List Nat} (fit : codeSizes l ≤ 2 ^ 63 - 1) (m : List Nat) :
    codeSizes (codeSum l :: m) ≤ codeSizes l + codeSizes m := by
  rw [codeSizes_cons]
  by_cases nar : narCode ∈ l
  · rw [if_pos ((codeSum_eq_nar fit).2 nar)]
    omega
  · have := natAbs_sum_le nar
    rw [if_neg (fun h => nar ((codeSum_eq_nar fit).1 h)), signed_codeSum nar fit]
    omega

theorem codeSizes_map_codeSum {parts : List (List Nat)} (fit : codeSizes parts.flatten ≤ 2 ^ 63 - 1) :
    codeSizes (parts.map codeSum) ≤ codeSizes parts.flatten := by
  induction parts with
  | nil => exact Nat.le_refl _
  | cons p parts ih =>
    rw [List.flatten_cons, codeSizes_append] at fit ⊢
    have rest := ih (by omega)
    have := codeSizes_codeSum_cons (l := p) (by omega) (parts.map codeSum)
    rw [List.map_cons]
    omega

theorem codeSizes_le_flatten {parts : List (List Nat)} {p : List Nat} (h : p ∈ parts) :
    codeSizes p ≤ codeSizes parts.flatten := by
  induction parts with
  | nil => cases h
  | cons q parts ih =>
    rw [List.flatten_cons, codeSizes_append]
    obtain rfl | later := List.mem_cons.1 h
    · exact Nat.le_add_right ..
    · exact Nat.le_trans (ih later) (Nat.le_add_left ..)

theorem sum_map_flatten (f : Nat → Int) (parts : List (List Nat)) :
    (parts.flatten.map f).sum = (parts.map (fun p => (p.map f).sum)).sum := by
  induction parts with
  | nil => rfl
  | cons p parts ih => rw [List.flatten_cons, List.map_append, List.sum_append_int, ih, List.map_cons, List.sum_cons]

/-- The sums of the parts sum to the sum of the whole. -/
theorem codeSum_map_codeSum {parts : List (List Nat)} (fit : codeSizes parts.flatten ≤ 2 ^ 63 - 1) :
    codeSum (parts.map codeSum) = codeSum parts.flatten := by
  have partFits : ∀ p ∈ parts, codeSizes p ≤ 2 ^ 63 - 1 := fun p hp => Nat.le_trans (codeSizes_le_flatten hp) fit
  have sameNar : narCode ∈ parts.map codeSum ↔ narCode ∈ parts.flatten := by
    rw [List.mem_map, List.mem_flatten]
    exact exists_congr fun p => and_congr_right fun hp => codeSum_eq_nar (partFits p hp)
  by_cases nar : narCode ∈ parts.flatten
  · rw [codeSum, codeSum, if_pos nar, if_pos (sameNar.2 nar)]
  · have values : (parts.map codeSum).map (signed 64) = parts.map (fun p => (p.map (signed 64)).sum) := by
      rw [List.map_map]
      exact List.map_congr_left fun p hp =>
        signed_codeSum (fun h => nar (List.mem_flatten.2 ⟨p, hp, h⟩)) (partFits p hp)
    rw [codeSum, codeSum, if_neg nar, if_neg (fun h => nar (sameNar.1 h)), values, sum_map_flatten]

theorem codeSizes_le_length_mul {b : Nat} {l : List Nat} (h : ∀ x ∈ l, x = narCode ∨ (signed 64 x).natAbs ≤ b) :
    codeSizes l ≤ l.length * b := by
  induction l with
  | nil => exact Nat.zero_le _
  | cons x l ih =>
    have rest := ih fun y hy => h y (List.mem_cons_of_mem _ hy)
    have first : (if x = narCode then 0 else (signed 64 x).natAbs) ≤ b := by
      by_cases nar : x = narCode
      · rw [if_pos nar]
        exact Nat.zero_le _
      · rw [if_neg nar]
        exact (h x List.mem_cons_self).resolve_left nar
    rw [codeSizes_cons, List.length_cons, Nat.succ_mul]
    omega

/-- At most `2^h` codes of headroom `h` fit the range together (R61). -/
theorem codeSizes_le_of_valid {h : Nat} {l : List Nat} (hh : h ≤ 24) (valid : ∀ x ∈ l, anchoredValid h x)
    (len : l.length ≤ 2 ^ h) : codeSizes l ≤ 2 ^ 63 - 2 ^ h := by
  calc codeSizes l ≤ l.length * (2 ^ (63 - h) - 1) := codeSizes_le_length_mul fun x hx => (valid x hx).2
    _ ≤ 2 ^ h * (2 ^ (63 - h) - 1) := Nat.mul_le_mul_right _ len
    _ = 2 ^ 63 - 2 ^ h := by rw [Nat.mul_sub, Nat.mul_one, ← Nat.pow_add, Nat.add_sub_cancel' (by omega)]

/-! ### Minimum and maximum (R62) -/

theorem signed64_inj {x y : Nat} (hx : x < 2 ^ 64) (hy : y < 2 ^ 64) (h : signed 64 x = signed 64 y) : x = y := by
  rw [← unsigned_signed (w := 63) hx, ← unsigned_signed (w := 63) hy]
  exact congrArg (unsigned 64) h

theorem anchoredMin_comm {x y : Nat} (hx : x < 2 ^ 64) (hy : y < 2 ^ 64) : anchoredMin x y = anchoredMin y x := by
  have inj := signed64_inj hx hy
  unfold anchoredMin
  grind

theorem anchoredMax_comm {x y : Nat} (hx : x < 2 ^ 64) (hy : y < 2 ^ 64) : anchoredMax x y = anchoredMax y x := by
  have inj := signed64_inj hx hy
  unfold anchoredMax
  grind

theorem anchoredMin_assoc (x y z : Nat) : anchoredMin (anchoredMin x y) z = anchoredMin x (anchoredMin y z) := by
  unfold anchoredMin
  grind

theorem anchoredMax_assoc (x y z : Nat) : anchoredMax (anchoredMax x y) z = anchoredMax x (anchoredMax y z) := by
  unfold anchoredMax
  grind

end Sys2Proof.Machine

section
open Sys2Proof Sys2Proof.Machine

/-- Settles O51: the magnitudes of the codes fit the range together (`codeSizes_le_of_valid`), so
every sum of any of them is `codeSum`, which neither order nor grouping changes. -/
theorem anchoredSumsDoNotDependOnOrderOrGrouping : Obligations.AnchoredSumsDoNotDependOnOrderOrGrouping := by
  unfold Obligations.AnchoredSumsDoNotDependOnOrderOrGrouping
  refine ⟨fun h _ h24 l valid len => ?_, fun x y z hx hy hz => ?_, fun x => ?_⟩
  · have bound := codeSizes_le_of_valid h24 valid len
    have fit : codeSizes l ≤ 2 ^ 63 - 1 := Nat.le_trans bound (Nat.sub_le_sub_left Nat.one_le_two_pow _)
    rw [anchoredTotal_of_fits fit]
    refine ⟨fun nar => by rw [codeSum, if_pos nar], fun nar => ⟨by rw [codeSum, if_neg nar], Nat.le_trans (natAbs_sum_le nar) bound⟩,
      fun parts perm => ?_⟩
    have fitParts : codeSizes parts.flatten ≤ 2 ^ 63 - 1 := codeSizes_perm perm ▸ fit
    have partSums : parts.map (fun p => (anchoredTotal p).1) = parts.map codeSum :=
      List.map_congr_left fun p hp => by rw [anchoredTotal_of_fits (Nat.le_trans (codeSizes_le_flatten hp) fitParts)]
    rw [partSums, anchoredTotal_of_fits (Nat.le_trans (codeSizes_map_codeSum fitParts) fitParts), codeSum_map_codeSum fitParts,
      codeSum_perm perm]
  · exact ⟨anchoredMin_comm hx hy, anchoredMin_assoc x y z, anchoredMax_comm hx hy, anchoredMax_assoc x y z⟩
  · simp [anchoredMin, anchoredMax]
end

namespace Sys2Proof.Machine

/-! ### Requests at their home (R278, R282) -/

/-- A request whose checks pass on a tile of this module runs its operation. -/
theorem serve_of_ok {s : State} {st n : Nat} {p : Pkt} {aligned : Bool} {x : Target} {f : State → Target → State}
    (torn : tornDown s p = false) (guest : isGuest st = false) (h : checkRequest s st p n aligned = .ok x) :
    serve s st p n aligned f = f s x := by
  simp only [serve, checked, torn, h, guest, Bool.false_eq_true, if_false]

/-- A raw read of unmarked rows without disturbances gives the bytes, and the mark of the first
cell in POISON mode (R152, R292). -/
theorem rawFetch_clean {s : State} {t a n : Nat} (h : anyBadRow s t a n = false) :
    rawFetch s t a n [] = (s, .ok (bytesAt s t a n, poisonMode s && decide ((cellAt s t a).state = 2#2))) := by
  simp [rawFetch, h, applyFlips]

/-! ### ATOMIC (R294) -/

/-- What an ATOMIC does at its target, by what its code gives and how the write ends. -/
theorem exec_atomicReq {s : State} {st : Nat} {p : Pkt} {x : Target} (fails : Bool) (torn : tornDown s p = false)
    (guest : isGuest st = false) :
    let n := if bit (qDetail p) 7 then 4 else 8
    let code := qDetail p % 16
    let old := leNat (bytesAt s x.tile x.addr n)
    checkRequest s st p n (gaOffset (qAddr p) % n = 0) = .ok x → anyBadRow s x.tile x.addr n = false →
    exec (.atomicReq st p [] fails) s = .next (
      if code = 2 ∧ old ≠ qOperand p % 2 ^ (8 * n) then performed s st p 0 old [] false
      else if fails then refuseReq s st p fsMemory 0
      else if writeRefused s x.tile x.addr n then refuseReq (countRefused s x.tile x.addr n) st p fsMemory 0
      else performed (rawWrite s x.tile x.addr
        (leBytes n (atomicOp code (8 * n) old (qOperand p) (field (qData p) 0 8)))) st p 0 old [] false) := by
  intro n code old ok clean
  refine congrArg Host.Outcome.next ((serve_of_ok torn guest ok).trans ?_)
  simp only [n, code, old] at clean ⊢
  simp only [rawFetch_clean clean, Bool.and_eq_true, decide_eq_true_eq]

/-! ### REDUCE (R152, R217, R295) -/

section
variable {s : State} {x : Target} {p : Pkt} {poison : Bool} {out : List Byte} {block : Bool}

theorem writeReduced_fails : writeReduced s x p block true poison out = (s, false) := rfl

theorem writeReduced_block (h : block = true) :
    writeReduced s x p block false poison out = (writeBlock s x.tile x.addr (qTid p) (qBlk p) out poison, true) := by
  subst h
  rfl

theorem writeReduced_bytes (h : block = false) (hw : writeRefused s x.tile x.addr out.length = false) :
    writeReduced s x p block false poison out = (rawWriteMarked s x.tile x.addr (qTid p) (qBlk p) out poison, true) := by
  simp only [writeReduced, h, hw, Bool.false_eq_true, if_false]

end

/-- The elements of a request or of its target, 8 bytes each. -/
def reduceElems (l : List Byte) (n : Nat) : List Nat := (List.range (n / 8)).map (fun i => field l (8 * i) 8)

/-- The operands of a SUM are within the bound of its headroom (R61); the other operations take any. -/
def operandsGood (p : Pkt) : Prop :=
  qDetail p % 8 = 0 → 1 ≤ qOperand p % 32 ∧ qOperand p % 32 ≤ 24 ∧
    (reduceElems (qData p) (qData p).length).all (operandOk (qOperand p % 32)) = true

/-- The check that `execReduceReq` makes. -/
theorem operandsGood_iff {p : Pkt} :
    operandsGood p ↔ ¬ (decide (qDetail p % 8 = 0) && (decide (qOperand p % 32 = 0) || decide (24 < qOperand p % 32) ||
      !(reduceElems (qData p) (qData p).length).all (operandOk (qOperand p % 32)))) = true := by
  rw [operandsGood]
  generalize (reduceElems (qData p) (qData p).length).all (operandOk (qOperand p % 32)) = inBound
  cases inBound with
  | false => simp
  | true =>
    simp only [and_true, Bool.not_true, Bool.or_false, Bool.and_eq_true, Bool.or_eq_true, decide_eq_true_eq]
    omega

/-- The stored elements read well: as raw bytes, or as a tagged block. -/
def ReduceReads (s : State) (p : Pkt) (x : Target) (first again : List Flip) (u : State) (d : List Byte) (mark : Bool) : Prop :=
  let n := (qData p).length
  let block := isBlockReq (gaOffset (qAddr p)) n (qTid p)
  block = false ∧ anyBadRow s x.tile x.addr n = false ∧ first = [] ∧ u = s ∧ d = bytesAt s x.tile x.addr n
      ∧ mark = (poisonMode s && (cellAt s x.tile x.addr).state = 2#2)
    ∨ block = true ∧ routerFetch s x.tile x.addr (qTid p) (qBlk p) first again = (u, .ok (d, mark))

/-- The elements combined, each with whether its sum left the range. -/
def reduceResults (p : Pkt) (d : List Byte) : List (Nat × Bool) :=
  (List.range ((qData p).length / 8)).map
    (fun i => combineElem (qDetail p % 8) (field d (8 * i) 8) ((reduceElems (qData p) (qData p).length).getD i 0))

/-- The state and the bytes that a REDUCE comes to write: poison is consumed in POISON mode. -/
def reduceToWrite (u : State) (p : Pkt) (x : Target) (d : List Byte) (poison : Bool) : State × List Byte :=
  engineInjected (if (poison && poisonMode u) = true then engineConsumes u x.tile p.slice x.addr else u) x.tile
    (qDetail p % 8) (((reduceResults p d).map (·.1)).flatMap (leBytes 8))

section
variable {s : State} {st : Nat} {p : Pkt} {x : Target} {first again : List Flip} (fails : Bool)
variable (torn : tornDown s p = false) (guest : isGuest st = false)
variable (ok : checkRequest s st p (qData p).length (rangeAligned (gaOffset (qAddr p)) (qData p).length) = .ok x)
include torn guest ok

/-- A SUM with operands out of bound is refused. -/
theorem exec_reduceReq_operand (h : ¬ operandsGood p) :
    exec (.reduceReq st p first again fails) s = .next (refuseReq s st p fsOperand 0) := by
  refine congrArg Host.Outcome.next ((serve_of_ok torn guest ok).trans (if_pos ?_))
  exact Decidable.not_not.1 (mt operandsGood_iff.2 h)

/-- A REDUCE whose operands are in bound and whose elements read well ends as the write of its result
does. -/
theorem exec_reduceReq_of_reads {u v : State} {d : List Byte} {mark stored : Bool} (good : operandsGood p)
    (reads : ReduceReads s p x first again u d mark) :
    let poison := mark || p.poison
    let w := reduceToWrite u p x d poison
    writeReduced w.1 x p (isBlockReq (gaOffset (qAddr p)) (qData p).length (qTid p)) fails poison w.2 = (v, stored) →
    exec (.reduceReq st p first again fails) s = .next (
      if stored then performed v st p (b2n ((reduceResults p d).any (·.2)) + 2 * b2n poison) 0 [] false
      else refuseReq v st p fsMemory 0) := by
  intro poison w written
  refine congrArg Host.Outcome.next ((serve_of_ok torn guest ok).trans ((if_neg ?_).trans ?_))
  · exact operandsGood_iff.1 good
  · simp only [w, poison, reduceToWrite, reduceResults, reduceElems] at written ⊢
    obtain ⟨raw, clean, rfl, rfl, rfl, rfl⟩ | ⟨block, read⟩ := reads
    · simp only [raw, Bool.false_eq_true, if_false, rawFetch_clean clean] at written ⊢
      simp only [written]
      cases stored <;> rfl
    · simp only [block, if_true, read] at written ⊢
      simp only [written]
      cases stored <;> rfl

end

end Sys2Proof.Machine

section
open Sys2Proof Sys2Proof.Machine

/-- Settles O21: by what an ATOMIC and a REDUCE do on a good target (`exec_atomicReq`,
`exec_reduceReq_of_reads`, `exec_reduceReq_operand`), at each way that the write can end. -/
theorem atomicsAndReductionsUpdateTheirTarget : Obligations.AtomicsAndReductionsUpdateTheirTarget := by
  unfold Obligations.AtomicsAndReductionsUpdateTheirTarget
  intro st p x s torn guest off
  refine ⟨?_, ?_⟩
  · intro n code d miss ok clean
    refine ⟨fun hit writes => ?_, fun fails missed => ?_, fun hit => ?_⟩
    · refine (exec_atomicReq false torn guest ok clean).trans ?_
      rw [if_neg hit, if_neg Bool.false_ne_true, if_neg (ne_true_of_eq_false writes)]
    · exact (exec_atomicReq fails torn guest ok clean).trans (by rw [if_pos missed])
    · exact (exec_atomicReq true torn guest ok clean).trans (by rw [if_neg hit, if_pos rfl])
  · intro n op h ops good block ok
    refine ⟨?_, fun first again fails sum outside => ?_⟩
    · intro first again fails u d mark inBound reads poison zs v w
      refine ⟨fun stored isBlock => ?_, fun stored bytes writes => ?_, fun failed => ?_⟩
      · subst stored
        exact exec_reduceReq_of_reads false torn guest ok inBound reads (writeReduced_block isBlock)
      · subst stored
        exact exec_reduceReq_of_reads false torn guest ok inBound reads (writeReduced_bytes bytes writes)
      · subst failed
        exact exec_reduceReq_of_reads true torn guest ok inBound reads writeReduced_fails
    · refine exec_reduceReq_operand fails torn guest ok fun inBound => ?_
      obtain ⟨atLeast, atMost, fit⟩ := inBound sum
      obtain none | above | misfit := outside
      · exact absurd none (Nat.ne_of_gt atLeast)
      · exact absurd atMost (Nat.not_le_of_gt above)
      · exact Bool.false_ne_true (misfit.symm.trans fit)
end

namespace Sys2Proof.Machine

/-! ### The meaning that each command calls -/

section
variable (s : State)

theorem exec_tdIssue_eq (t p rd : Nat) (rs1 rs2 : DWord) (pmpDenied : Bool) :
    exec (.tdIssue t p rd rs1 rs2 pmpDenied) s = execTdIssue t p rd rs1 rs2 pmpDenied s := rfl

theorem exec_tdAbort_eq (t p rd : Nat) (rs1 rs2 : DWord) : exec (.tdAbort t p rd rs1 rs2) s = execTdAbort t p rd rs1 rs2 s := rfl

theorem exec_tdPoll_eq (t p rd : Nat) (rs1 : DWord) : exec (.tdPoll t p rd rs1) s = execTdPoll t p rd rs1 s := rfl

theorem exec_tdPop_eq (t p : Nat) (rs1 : DWord) : exec (.tdPop t p rs1) s = execTdPop t p rs1 s := rfl

theorem exec_sySignal_eq (t p : Nat) (rs1 rs2 : DWord) : exec (.sySignal t p rs1 rs2) s = execSySignal t p rs1 rs2 s := rfl

theorem exec_syWait_eq (t p rd : Nat) (rs1 rs2 tdwait : DWord) :
    exec (.syWait t p rd rs1 rs2 tdwait) s = execSyWait t p rd rs1 rs2 tdwait s := rfl

theorem exec_syWaitRelease_eq (t p : Nat) : exec (.syWaitRelease t p) s = execSyWaitRelease t p s := rfl

theorem exec_syWaitTimeout_eq (t p : Nat) : exec (.syWaitTimeout t p) s = execSyWaitTimeout t p s := rfl

theorem exec_tdFence_eq (t p : Nat) : exec (.tdFence t p) s = execTdFence t p s := rfl

theorem exec_tdFenceRelease_eq (t p : Nat) : exec (.tdFenceRelease t p) s = execTdFenceRelease t p s := rfl

theorem exec_tdcqWrite_eq (t p q : Nat) (v : DWord) : exec (.tdcqWrite t p q v) s = execTdcqWrite t p q v s := rfl

theorem exec_sCoreCheckReplay_eq (t p : Nat) (passes : Bool) :
    exec (.sCoreCheckReplay t p passes) s = execSCoreCheckReplay t p passes s := rfl

theorem exec_descriptorStart_eq (t : Nat) (kind : CoreKind) (p : Nat) (flips : List Flip) :
    exec (.descriptorStart t kind p flips) s = execDescriptorStart t kind p flips s := rfl

theorem exec_descriptorComplete_eq (t : Nat) (kind : CoreKind) (p : Nat) (flips : List Flip) (res : List ResidueEvent)
    (wfail : List Nat) (upTo : Nat) :
    exec (.descriptorComplete t kind p flips res wfail upTo) s = execDescriptorComplete t kind p flips res wfail upTo s := rfl

theorem exec_completionRecordDeferred_eq (t p q : Nat) :
    exec (.completionRecordDeferred t p q) s = execCompletionRecordDeferred t p q s := rfl

theorem exec_stitchRepeatFetch_eq (t : Nat) (kind : CoreKind) (p : Nat) (flips : List Flip) :
    exec (.stitchRepeatFetch t kind p flips) s = execStitchRepeatFetch t kind p flips s := rfl

theorem exec_rowWrite_eq (t die row : Nat) (ask : PortAsk) (data : List Byte) (cell : Option CellWord) (fails : Nat) :
    exec (.rowWrite t die row ask data cell fails) s = execRowWrite t die row ask data cell fails s := rfl

theorem exec_maskedRowWrite_eq (t die row : Nat) (ask : PortAsk) (mask : Nat) (data : List Byte) (cell : Option CellWord)
    (errs : List Flip) (fails : Nat) :
    exec (.maskedRowWrite t die row ask mask data cell errs fails) s = execMaskedRowWrite t die row ask mask data cell errs fails s := rfl

theorem exec_sCoreLoadStore_eq (t p : Nat) (store : Bool) (addr size : Nat) (data : DWord) (rd : Nat) (signExt : Bool)
    (pmpDenied : Bool) (flips : List Flip) (fails : Nat) :
    exec (.sCoreLoadStore t p store addr size data rd signExt pmpDenied flips fails) s =
      execSCoreLoadStore t p store addr size data rd signExt pmpDenied flips fails s := rfl

end

end Sys2Proof.Machine

namespace Sys2Proof.Machine

/-! ### What S-core instructions leave unchanged -/

/-- Every integer register of every S-core reads as before. -/
structure sameRegs (s u : State) : Prop where
  reg : ∀ v q r, xReg u v q r = xReg s v q r

/-- Nothing outside the tiles has changed. -/
def onlyTiles (s u : State) : Prop := u = { s with tiles := u.tiles }

theorem sameRegs.refl (s : State) : sameRegs s s := ⟨fun _ _ _ => rfl⟩

theorem sameRegs.trans {s u w : State} (h : sameRegs s u) (h' : sameRegs u w) : sameRegs s w :=
  ⟨fun v q r => (h'.reg v q r).trans (h.reg v q r)⟩

theorem onlyTiles.trans {s u w : State} (h : onlyTiles s u) (h' : onlyTiles u w) : onlyTiles s w := by
  rw [onlyTiles] at h h'
  rw [h] at h'
  exact h'

theorem onlyTiles_modTile (s : State) (t : Nat) (f : Tile → Tile) : onlyTiles s (modTile s t f) := rfl

theorem onlyTiles.sameBytes {s u : State} (h : onlyTiles s u) : sameBytes s u := by
  rw [h]
  exact fun _ => rfl

theorem onlyTiles.sameOutsideTiles {s u : State} (h : onlyTiles s u) : sameOutsideTiles s u := by
  rw [h]
  exact ⟨⟨rfl, rfl, rfl⟩, rfl, rfl, rfl, rfl, rfl, rfl, rfl, rfl, rfl⟩

theorem sameRegs_of_tiles {s u : State} (h : u.tiles = s.tiles) : sameRegs s u := by
  refine ⟨fun v q r => ?_⟩
  simp only [xReg, getSCore, getTile, h]

/-- A change of a tile beside its S-cores changes no register. -/
theorem sameRegs_modTile (s : State) (t : Nat) {f : Tile → Tile} (h : ∀ tl, (f tl).sCores = tl.sCores) :
    sameRegs s (modTile s t f) := by
  refine ⟨fun v q r => ?_⟩
  by_cases same : v = t
  · subst same
    simp only [xReg, getSCore, getTile_modTile, h]
  · simp only [xReg, getSCore, getTile_modTile_other _ _ same]

/-- A change of an S-core beside its registers changes no register. -/
theorem sameRegs_modSCore (s : State) (t p : Nat) {f : SCore → SCore} (h : ∀ c, (f c).x = c.x) :
    sameRegs s (modSCore s t p f) := by
  refine ⟨fun v q r => ?_⟩
  by_cases same : (v, q) = (t, p)
  · obtain ⟨rfl, rfl⟩ := Prod.mk.inj same
    simp only [xReg, getSCore_modSCore, h]
  · simp only [xReg, getSCore_modSCore_other s f same]

theorem sameRegs_raiseExc (s : State) (t p : Nat) (e : Exc) : sameRegs s (raiseExc s t p e) :=
  sameRegs_modSCore s t p fun _ => rfl

theorem sameRegs_clearExc (s : State) (t p : Nat) : sameRegs s (clearExc s t p) :=
  sameRegs_modSCore s t p fun _ => rfl

/-- A register write leaves every other register. -/
theorem xReg_setRd_other (s : State) {t p rd v q r : Nat} (w : DWord) (h : (v, q) ≠ (t, p) ∨ r % 32 ≠ rd % 32) :
    xReg (setRd s t p rd w) v q r = xReg s v q r := by
  by_cases same : (v, q) = (t, p)
  · obtain ⟨rfl, rfl⟩ := Prod.mk.inj same
    rw [xReg_setRd_at, if_neg (h.resolve_left (fun ne => ne rfl))]
  · simp only [xReg, setRd, getSCore_modSCore_other s _ same]

/-- Nothing outside the tiles has changed, and no register. -/
def quiet (s u : State) : Prop := onlyTiles s u ∧ sameRegs s u

theorem quiet.refl (s : State) : quiet s s := ⟨rfl, .refl s⟩

theorem quiet.trans {s u w : State} (h : quiet s u) (h' : quiet u w) : quiet s w := ⟨h.1.trans h'.1, h.2.trans h'.2⟩

theorem quiet_modSCore (s : State) (t p : Nat) {f : SCore → SCore} (h : ∀ c, (f c).x = c.x) : quiet s (modSCore s t p f) :=
  ⟨rfl, sameRegs_modSCore s t p h⟩

theorem quiet_raiseExc (s : State) (t p : Nat) (e : Exc) : quiet s (raiseExc s t p e) := quiet_modSCore s t p fun _ => rfl

theorem quiet_clearExc (s : State) (t p : Nat) : quiet s (clearExc s t p) := quiet_modSCore s t p fun _ => rfl

/-- At most the register that `rd` names is written besides. -/
def writesAtMost (t p rd : Nat) (s u : State) : Prop := quiet s u ∨ ∃ m w, quiet s m ∧ u = setRd m t p rd w

theorem writesAtMost.onlyTiles {t p rd : Nat} {s u : State} (h : writesAtMost t p rd s u) : onlyTiles s u := by
  obtain ⟨tiles, -⟩ | ⟨m, w, ⟨tiles, -⟩, rfl⟩ := h
  · exact tiles
  · exact tiles.trans (onlyTiles_modTile m t _)

theorem writesAtMost.regs {t p rd : Nat} {s u : State} (h : writesAtMost t p rd s u) {v q r : Nat}
    (other : (v, q) ≠ (t, p) ∨ r % 32 ≠ rd % 32) : xReg u v q r = xReg s v q r := by
  obtain ⟨-, regs⟩ | ⟨m, w, ⟨-, regs⟩, rfl⟩ := h
  · exact regs.reg v q r
  · rw [xReg_setRd_other m w other, regs.reg]

/-! ### What each instruction of R91 can do -/

section
variable {t p rd : Nat} {rs1 rs2 w : DWord} {s u : State}

theorem tdPoll_writesAtMost (h : exec (.tdPoll t p rd rs1) s = .next u) : writesAtMost t p rd s u := by
  simp only [exec_tdPoll_eq, execTdPoll] at h
  split at h
  · cases h
    exact .inl (.refl s)
  · split at h
    · cases h
      exact .inl (quiet_raiseExc ..)
    · cases h
      exact .inr ⟨s, _, .refl s, rfl⟩

theorem syWait_writesAtMost (h : exec (.syWait t p rd rs1 rs2 w) s = .next u) : writesAtMost t p rd s u := by
  have waits : quiet s (modSCore s t p (fun c => { c with tdwait := w, exc := none })) := quiet_modSCore s t p fun _ => rfl
  simp only [exec_syWait_eq, execSyWait] at h
  split at h
  · cases h
    exact .inl (.refl s)
  · split at h
    · cases h
      exact .inl (quiet_raiseExc ..)
    · split at h
      · cases h
        exact .inr ⟨_, _, waits, rfl⟩
      · cases h
        exact .inl (waits.trans (quiet_modSCore _ t p fun _ => rfl))

theorem tdPop_quiet (h : exec (.tdPop t p rs1) s = .next u) : quiet s u := by
  simp only [exec_tdPop_eq, execTdPop] at h
  split at h
  · cases h
    exact .refl s
  · split at h
    · cases h
      exact quiet_raiseExc ..
    · split at h
      · cases h
        exact (quiet_clearExc ..).trans (quiet_modSCore _ t p fun _ => rfl)
      · cases h
        exact quiet_clearExc ..

theorem tdFence_quiet (h : exec (.tdFence t p) s = .next u) : quiet s u := by
  simp only [exec_tdFence_eq, execTdFence] at h
  split at h
  · cases h
    exact .refl s
  · split at h
    · cases h
      exact quiet_clearExc ..
    · cases h
      exact (quiet_clearExc ..).trans (quiet_modSCore _ t p fun _ => rfl)

theorem tdFenceRelease_quiet (h : exec (.tdFenceRelease t p) s = .next u) : quiet s u := by
  simp only [exec_tdFenceRelease_eq, execTdFenceRelease] at h
  split at h
  · cases h
    exact .refl s
  · split at h
    · split at h
      · cases h
        exact quiet_modSCore s t p fun _ => rfl
      · cases h
        exact .refl s
    · cases h
      exact .refl s

end

/-! ### What the parts of a row write leave unchanged (R107, R110 to R112) -/

section
variable (s : State) (t die row ini : Nat)

theorem report_tiles (r : Report) : (report s r).tiles = s.tiles := by
  unfold report
  split
  · rfl
  · dsimp only
    generalize (if queueOf r.kind r.place = 28 then 256 else 32) = capacity
    split
    · split <;> rfl
    · rfl

theorem report_free (r : Report) : (report s r).free = s.free := by
  unfold report
  split
  · rfl
  · dsimp only
    generalize (if queueOf r.kind r.place = 28 then 256 else 32) = capacity
    split
    · split <;> rfl
    · rfl

theorem crossing_tiles (fails : Nat) : (crossing s t die row fails).tiles = s.tiles := by
  unfold crossing
  split
  · rw [report_tiles, bumpN_tiles]
  · exact bumpN_tiles ..

theorem crossing_free (fails : Nat) : (crossing s t die row fails).free = s.free := by
  unfold crossing
  split
  · rw [report_free, bumpN_free]
  · exact bumpN_free ..

theorem rowInjections_tiles (data : List Byte) : (rowInjections s t die data).tiles = s.tiles := by
  unfold rowInjections
  dsimp only
  split <;> rfl

theorem rowInjections_free (data : List Byte) : (rowInjections s t die data).free = s.free := by
  unfold rowInjections
  dsimp only
  split <;> rfl

theorem portWindow_tiles (port : Nat) : (portWindow s t port).1.tiles = s.tiles := by
  unfold portWindow
  extract_lets x w y
  split <;> rfl

theorem portWindow_free (port : Nat) : (portWindow s t port).1.free = s.free := by
  unfold portWindow
  extract_lets x w y
  split <;> rfl

theorem portAccept_free (port : Nat) : (portAccept s t port ini).free = s.free := portWindow_free s t port

theorem portAccept_regs (port : Nat) : sameRegs s (portAccept s t port ini) :=
  (sameRegs_of_tiles (portWindow_tiles s t port)).trans (sameRegs_modTile _ t fun _ => rfl)

theorem portAccept_matsOf (port bank : Nat) : matsOf (portAccept s t port ini) t die bank = matsOf s t die bank := by
  unfold matsOf portAccept
  rw [getTile_modTile]
  simp only [getTile, portWindow_tiles]

theorem matsOf_congr {u : State} (h : u.tiles = s.tiles) (bank : Nat) : matsOf u t die bank = matsOf s t die bank := by
  simp only [matsOf, getTile, h]

theorem putCell_tiles (c : Option CellWord) : (putCell s t die row c).tiles = s.tiles := by
  cases c <;> rfl

theorem putCell_mem (c : Option CellWord) : (putCell s t die row c).mem = s.mem :=
  (putCell_keeps t die row c (.refl true s)).mem rfl

theorem portAnswer_regs (r : RowResp) : sameRegs s (portAnswer s t die row r) := sameRegs_modTile s t fun _ => rfl

theorem portAnswer_mem (r : RowResp) : (portAnswer s t die row r).mem = s.mem := rfl

theorem writeFailure_regs : sameRegs s (writeFailure s t die row ini) := by
  unfold writeFailure
  dsimp only
  split
  · split
    · exact portAnswer_regs ..
    · exact (portAnswer_regs ..).trans (sameRegs_raiseExc ..)
  · exact portAnswer_regs ..

theorem writeFailure_mem : (writeFailure s t die row ini).mem = s.mem :=
  (writeFailure_keeps t die row ini (.refl true s)).mem rfl

theorem foundBad_mem : (foundBad s t die row).mem = s.mem :=
  (foundBad_keeps t die row (.refl true s)).mem rfl

theorem countCorrected_mem (n : Nat) : (countCorrected s t n).mem = s.mem :=
  (countCorrected_keeps t n (.refl true s)).mem rfl

theorem countMiscorrected_mem (n : Nat) (codewords : List Nat) : (countMiscorrected s t n codewords).mem = s.mem :=
  (countMiscorrected_keeps t n codewords (.refl true s)).mem rfl

theorem rowInjections_mem (data : List Byte) : (rowInjections s t die data).mem = s.mem :=
  (rowInjections_keeps t die data (.refl true s)).mem rfl

end

section
variable (s : State) (t die row ini fails : Nat)

theorem crossing_portAccept_mem : (crossing (portAccept s t (portOf die row) ini) t die row fails).mem = s.mem :=
  (crossing_keeps t die row fails (portAccept_keeps t (portOf die row) ini (.refl true s))).mem rfl

theorem crossing_portAccept_regs : sameRegs s (crossing (portAccept s t (portOf die row) ini) t die row fails) :=
  (portAccept_regs s t ini _).trans (sameRegs_of_tiles (crossing_tiles ..))

/-- The row code sees the marks and the free value that stood before the request. -/
theorem rowDecode_crossing_portAccept (errs : List Flip) (data : List Byte) :
    let v := rowInjections (crossing (portAccept s t (portOf die row) ini) t die row fails) t die data
    rowDecode (matsOf v t die (row % 256)) errs v.free = rowDecode (matsOf s t die (row % 256)) errs s.free := by
  intro v
  have marks : matsOf v t die (row % 256) = matsOf s t die (row % 256) := by
    rw [matsOf_congr _ t die (rowInjections_tiles ..), matsOf_congr _ t die (crossing_tiles ..), portAccept_matsOf]
  have free : v.free = s.free := by
    rw [rowInjections_free, crossing_free, portAccept_free]
  rw [marks, free]

end

/-! ### The bytes of a row -/

theorem fit_length (n : Nat) (l : List Byte) : (fit n l).length = n := by
  simp only [fit, slice, List.drop_zero, List.length_append, List.length_take, List.length_replicate]
  omega

/-- Cutting or zero-filling a string keeps its bytes below the cut. -/
theorem getD_fit {n k : Nat} (l : List Byte) (h : k < n) : (fit n l).getD k 0#8 = l.getD k 0#8 := by
  by_cases inside : k < l.length
  · have inPart : k < (l.take n).length := by rw [List.length_take]; omega
    simp only [fit, slice, List.drop_zero, List.getD_eq_getElem?_getD, List.getElem?_append_left inPart, List.getElem?_take_of_lt h]
  · have beyond : (l.take n).length ≤ k := Nat.le_trans (List.length_take_le' ..) (Nat.le_of_not_lt inside)
    simp only [fit, slice, List.drop_zero, List.getD_eq_getElem?_getD, List.getElem?_append_right beyond,
      List.getElem?_replicate, List.getElem?_eq_none (Nat.le_of_not_lt inside)]
    split <;> rfl

theorem rdBytes_length (m : List Host.Cell) (n : Nat) : ∀ a, (rdBytes m a n).length = n := by
  induction n with
  | zero => intro a; rfl
  | succ n ih => intro a; rw [rdBytes, List.length_cons, ih]

theorem getD_rdBytes (m : List Host.Cell) (n : Nat) : ∀ {a k}, k < n → (rdBytes m a n).getD k 0#8 = rd8 m (a + k) := by
  induction n with
  | zero => intro a k h; cases h
  | succ n ih =>
    intro a k h
    cases k with
    | zero => rfl
    | succ k =>
      rw [rdBytes, List.getD_cons_succ, ih (Nat.lt_of_succ_lt_succ h), Nat.add_right_comm]
      rfl

/-- The named 8-byte words of `data` over the old bytes of a row (R111). -/
def maskedMerge (mask : Nat) (data old : List Byte) : List Byte :=
  (List.range 1024).map (fun i => if bit mask (i / 8) then (fit 1024 data).getD i 0#8 else old.getD i 0#8)

theorem maskedMerge_length (mask : Nat) (data old : List Byte) : (maskedMerge mask data old).length = 1024 := by
  rw [maskedMerge, List.length_map, List.length_range]

theorem getD_maskedMerge {k : Nat} (mask : Nat) (data old : List Byte) (h : k < 1024) :
    (maskedMerge mask data old).getD k 0#8 = if bit mask (k / 8) then data.getD k 0#8 else old.getD k 0#8 := by
  rw [← getD_fit data h]
  simp [maskedMerge, h]

/-- A write of a row's 1,024 bytes leaves the other bytes. -/
theorem rd8_row_other {m : List Host.Cell} {a j : Nat} {l : List Byte} (len : l.length = 1024) (h : j < a ∨ a + 1024 ≤ j) :
    rd8 (wrBytes m a l) j = rd8 m j := rd8_wrBytes_other l m a j (len.symm ▸ h)

/-- The merged row reads as before, or as the data says where the mask selects. -/
theorem rd8_maskedMerge {m : List Host.Cell} {a k mask : Nat} {data : List Byte} (h : k < 1024) :
    let b := rd8 (wrBytes m a (maskedMerge mask data (rdBytes m a 1024))) (a + k)
    b = rd8 m (a + k) ∨ (bit mask (k / 8) = true ∧ b = data.getD k 0#8) := by
  intro b
  have read : b = (maskedMerge mask data (rdBytes m a 1024)).getD k 0#8 :=
    rd8_wrBytes_at _ m a k ((maskedMerge_length ..).symm ▸ h)
  rw [getD_maskedMerge mask data _ h, getD_rdBytes m 1024 h] at read
  split at read
  · next selected => exact .inr ⟨selected, read⟩
  · exact .inl read

/-! ### What a row write can do -/

section
variable {t die row ini mask fails : Nat} {data : List Byte} {cell : Option CellWord} {errs : List Flip} {rivals : List Nat}
variable {s u : State}

theorem rowWrite_cases (h : exec (.rowWrite t die row ⟨ini, rivals⟩ data cell fails) s = .next u) :
    let a := crossing (portAccept s t (portOf die row) ini) t die row fails
    u = s ∨ u = writeFailure a t die row ini ∨
    u = portAnswer (putCell (setBadRow { a with mem := wrBytes a.mem (rowKey t die row * 1024) (fit 1024 data) } (rowKey t die row) false)
      t die row cell) t die row { initiator := ini, data := [], bad := false, ok := true } := by
  intro a
  simp only [exec_rowWrite_eq, execRowWrite] at h
  split at h
  · cases h
    exact .inl rfl
  · split at h
    · cases h
      exact .inr (.inl rfl)
    · cases h
      exact .inr (.inr rfl)

theorem rowWrite_mem (h : exec (.rowWrite t die row ⟨ini, rivals⟩ data cell fails) s = .next u) :
    u.mem = s.mem ∨ u.mem = wrBytes s.mem (rowKey t die row * 1024) (fit 1024 data) := by
  obtain rfl | rfl | rfl := rowWrite_cases h
  · exact .inl rfl
  · exact .inl ((writeFailure_mem ..).trans (crossing_portAccept_mem ..))
  · refine .inr ?_
    rw [portAnswer_mem, putCell_mem, setBadRow_mem, crossing_portAccept_mem]

theorem rowWrite_regs (h : exec (.rowWrite t die row ⟨ini, rivals⟩ data cell fails) s = .next u) : sameRegs s u := by
  obtain rfl | rfl | rfl := rowWrite_cases h
  · exact .refl u
  · exact (crossing_portAccept_regs ..).trans (writeFailure_regs ..)
  · refine ((crossing_portAccept_regs s t die row ini fails).trans (sameRegs_of_tiles ?_)).trans (portAnswer_regs ..)
    rw [putCell_tiles, setBadRow_tiles]

/-- A masked write stores nothing, or the merged row; where the row decodes wrongly, over what the
decoder delivered (R111, R116). -/
theorem maskedRowWrite_mem (h : exec (.maskedRowWrite t die row ⟨ini, rivals⟩ mask data cell errs fails) s = .next u) :
    let k := rowKey t die row * 1024
    u.mem = s.mem ∨ u.mem = wrBytes s.mem k (maskedMerge mask data (rdBytes s.mem k 1024)) ∨
    ∃ cs n, rowDecode (matsOf s t die (row % 256)) errs s.free = .miscorrected cs n ∧
      ∃ wrong, wrong.length = 1024 ∧
        u.mem = wrBytes (wrBytes s.mem k wrong) k (maskedMerge mask data (rdBytes (wrBytes s.mem k wrong) k 1024)) := by
  intro k
  have decode := rowDecode_crossing_portAccept s t die row ini fails errs
    (rowBytes (crossing (portAccept s t (portOf die row) ini) t die row fails) t die row)
  have unwritten := crossing_portAccept_mem s t die row ini fails
  simp only [exec_maskedRowWrite_eq, execMaskedRowWrite] at h
  generalize crossing (portAccept s t (portOf die row) ini) t die row fails = a at h decode unwritten
  have read := (rowInjections_mem a t die (rowBytes a t die row)).trans unwritten
  generalize rowInjections a t die (rowBytes a t die row) = v at h decode read
  split at h
  · cases h
    exact .inl rfl
  · split at h
    · cases h
      exact .inl ((writeFailure_mem ..).trans unwritten)
    · split at h
      · cases h
        refine .inl ?_
        rw [writeFailure_mem, foundBad_mem, unwritten]
      · rw [decode] at h
        split at h
        case h_1 =>
          cases h
          refine .inr (.inl ?_)
          rw [portAnswer_mem, putCell_mem]
          simp only [rowBytes, read]
          rfl
        case h_2 =>
          cases h
          refine .inr (.inl ?_)
          rw [portAnswer_mem, putCell_mem]
          simp only [rowBytes, countCorrected_mem, read]
          rfl
        case h_3 =>
          cases h
          refine .inl ?_
          rw [writeFailure_mem, nextFree_mem, foundBad_mem, read]
        case h_4 cs n miscorrected =>
          cases h
          refine .inr (.inr ⟨cs, n, miscorrected, wrongRow v.free cs (rowBytes v t die row), ?_, ?_⟩)
          · rw [wrongRow, List.length_mapIdx, rowBytes, rdBytes_length]
          · rw [portAnswer_mem, putCell_mem]
            simp only [rowBytes, nextFree_mem, countMiscorrected_mem, read]
            rfl

theorem rowWrite_bytes (h : exec (.rowWrite t die row ⟨ini, rivals⟩ data cell fails) s = .next u) :
    sameBytesBut (rowKey t die row * 1024) 1024 s u := by
  intro j outside
  obtain same | written := rowWrite_mem h
  · rw [same]
  · rw [written, rd8_row_other (fit_length ..) outside]

theorem maskedRowWrite_bytes (h : exec (.maskedRowWrite t die row ⟨ini, rivals⟩ mask data cell errs fails) s = .next u) :
    sameBytesBut (rowKey t die row * 1024) 1024 s u := by
  intro j outside
  obtain same | written | ⟨cs, n, -, wrong, len, written⟩ := maskedRowWrite_mem h
  · rw [same]
  · rw [written, rd8_row_other (maskedMerge_length ..) outside]
  · rw [written, rd8_row_other (maskedMerge_length ..) outside, rd8_row_other len outside]

end

end Sys2Proof.Machine

section
open Sys2Proof Sys2Proof.Machine

/-- Settles O60: by what each instruction and each row write can do (`tdPoll_writesAtMost` to
`tdFenceRelease_quiet`, `rowWrite_cases`, `maskedRowWrite_mem`). -/
theorem registerAndRowWritesTouchNothingElse : Obligations.RegisterAndRowWritesTouchNothingElse := by
  unfold Obligations.RegisterAndRowWritesTouchNothingElse
  refine ⟨fun t p rd rs1 rs2 w i s u which h => ?_, fun t p rs1 i s u which h => ?_,
    fun t die row ini fails data cell rivals s u h => ⟨rowWrite_bytes h, (rowWrite_regs h).reg⟩,
    fun t die row ini mask fails data cell errs rivals s u h => ⟨maskedRowWrite_bytes h, fun decodes k inRow => ?_⟩⟩
  · have once : writesAtMost t p rd s u := by
      obtain rfl | rfl := which
      · exact tdPoll_writesAtMost h
      · exact syWait_writesAtMost h
    exact ⟨once.onlyTiles.sameBytes, once.onlyTiles.sameOutsideTiles, fun v q r => once.regs⟩
  · have still : quiet s u := by
      obtain rfl | rfl | rfl := which
      · exact tdPop_quiet h
      · exact tdFence_quiet h
      · exact tdFenceRelease_quiet h
    exact ⟨still.1.sameBytes, still.1.sameOutsideTiles, still.2.reg⟩
  · obtain same | merged | ⟨cs, n, wrongly, -⟩ := maskedRowWrite_mem h
    · rw [same]
      exact .inl rfl
    · rw [merged]
      exact rd8_maskedMerge inRow
    · exact absurd wrongly (decodes cs n)
end

namespace Sys2Proof.Machine

/-! ### td.issue (R77, R91) -/

/-- The range check of td.issue: aligned, and within the pool. -/
theorem issueRange_iff {a : Nat} :
    (decide (a % 128 ≠ 0) || decide (a < onDieBase) || decide (onDieBase + poolBytes < a + 128)) = true ↔
    ¬ (a % 128 = 0 ∧ onDieBase ≤ a ∧ a + 128 ≤ onDieBase + poolBytes) := by
  simp only [Bool.or_eq_true, decide_eq_true_eq]
  omega

/-- Without a core the first rule that fails is the second (R77). -/
theorem issueCode_none (tl : Tile) (d kind queued : Nat) : issueCode tl d kind none queued = 2 := rfl

section
variable {t p rd : Nat} {rs1 rs2 : DWord} {denied : Bool} {s : State} (runs : sCoreRuns s t p = true)
include runs

theorem exec_tdIssue_outside
    (h : ¬ (rs1.toNat % 128 = 0 ∧ onDieBase ≤ rs1.toNat ∧ rs1.toNat + 128 ≤ onDieBase + poolBytes)) :
    exec (.tdIssue t p rd rs1 rs2 denied) s = .next (setRd s t p rd (negCode 11)) := by
  simp only [exec_tdIssue_eq, execTdIssue, runs, issueRange_iff.2 h, Bool.not_true, Bool.false_eq_true, if_false, if_true]

variable (inPool : rs1.toNat % 128 = 0 ∧ onDieBase ≤ rs1.toNat ∧ rs1.toNat + 128 ≤ onDieBase + poolBytes)
include inPool

theorem exec_tdIssue_denied (h : (denied || pmpDenies (getSCore s t p) rs1.toNat 128 false) = true) :
    exec (.tdIssue t p rd rs1 rs2 denied) s = .next (raiseExc s t p .loadAccess) := by
  have inRange := mt issueRange_iff.1 (not_not_intro inPool)
  simp only [exec_tdIssue_eq, execTdIssue, runs, inRange, h, Bool.not_true, Bool.false_eq_true, if_false, if_true]

variable (readable : (denied || pmpDenies (getSCore s t p) rs1.toNat 128 false) = false)
include readable

theorem exec_tdIssue_noCore
    (h : (if bits rs2.toNat 8 2 ≤ 1 then physCore (getTile s t) (bits rs2.toNat 8 2) (bits rs2.toNat 0 8) else none) = none) :
    exec (.tdIssue t p rd rs1 rs2 denied) s = .next (setRd s t p rd (negCode 2)) := by
  have inRange := mt issueRange_iff.1 (not_not_intro inPool)
  simp only [exec_tdIssue_eq, execTdIssue, runs, inRange, readable, h, issueCode_none, Bool.not_true, Bool.false_eq_true, if_false]

variable {c : Nat}
variable (core : (if bits rs2.toNat 8 2 ≤ 1 then physCore (getTile s t) (bits rs2.toNat 8 2) (bits rs2.toNat 0 8) else none) = some c)
include core

theorem exec_tdIssue_accepted (h : issueCode (getTile s t) (leNat (bytesAt s t rs1.toNat 128)) (bits rs2.toNat 8 2) (some c)
      (countP (fun e => e.record.isNone) (coreQueue s t (bits rs2.toNat 8 2) c)) = 0) :
    let kind := bits rs2.toNat 8 2
    let ticket := (getSCore s t p).ticket
    let e : QDesc := { d := leNat (bytesAt s t rs1.toNat 128), ticket := ticket, score := p }
    let u := setRd (modSCore (setCoreQueue s t kind c (coreQueue s t kind c ++ [e])) t p
      (fun x => { x with ticket := (ticket + 1) % 2 ^ 31 })) t p rd (BitVec.ofNat 64 ticket)
    exec (.tdIssue t p rd rs1 rs2 denied) s =
      .next (if bit (pendingCores (getTile s t) kind) c then abortDescriptor u t kind c e else u) := by
  have inRange := mt issueRange_iff.1 (not_not_intro inPool)
  simp only [exec_tdIssue_eq, execTdIssue, runs, inRange, readable, core, h, Bool.not_true, Bool.false_eq_true, if_false]

theorem exec_tdIssue_rejected {code : Nat} (h : issueCode (getTile s t) (leNat (bytesAt s t rs1.toNat 128)) (bits rs2.toNat 8 2)
      (some c) (countP (fun e => e.record.isNone) (coreQueue s t (bits rs2.toNat 8 2) c)) = code) (failed : code ≠ 0) :
    exec (.tdIssue t p rd rs1 rs2 denied) s = .next (setRd s t p rd (negCode code)) := by
  have inRange := mt issueRange_iff.1 (not_not_intro inPool)
  simp only [exec_tdIssue_eq, execTdIssue, runs, inRange, readable, core, h, Bool.not_true, Bool.false_eq_true, if_false]
  split
  · exact absurd rfl failed
  · rfl

end

end Sys2Proof.Machine

section
open Sys2Proof Sys2Proof.Machine

/-- Settles O2: by one equation of td.issue for each check that can stop it, and one for its
acceptance. -/
theorem tdIssueQueuesTheDescriptor : Obligations.TdIssueQueuesTheDescriptor := by
  unfold Obligations.TdIssueQueuesTheDescriptor
  intro t p rd rs1 rs2 denied s runs a inPool deny kind core d ticket
  refine ⟨fun outside => exec_tdIssue_outside runs outside, fun inside => exec_tdIssue_denied runs inside,
    fun inside readable unnamed => exec_tdIssue_noCore runs inside readable unnamed, fun c inside readable named => ?_⟩
  intro q code e u
  refine ⟨fun accepted stays => ?_, fun accepted pending => ?_, fun rejected => ?_⟩
  · exact (exec_tdIssue_accepted runs inside readable named accepted).trans (by rw [if_neg (ne_true_of_eq_false stays)])
  · exact (exec_tdIssue_accepted runs inside readable named accepted).trans (by rw [if_pos pending])
  · exact exec_tdIssue_rejected runs inside readable named rfl rejected
end

namespace Sys2Proof.Machine

/-! ### Completion queues: td.poll and td.pop (R91, R93) -/

section
variable {t p rd : Nat} {rs1 : DWord} {s : State} (runs : sCoreRuns s t p = true)
include runs

theorem exec_tdPoll_noQueue (h : 3 < rs1.toNat) :
    exec (.tdPoll t p rd rs1) s = .next (raiseExc s t p .illegalInstruction) := by
  simp only [exec_tdPoll_eq, execTdPoll, runs, h, Bool.not_true, Bool.false_eq_true, if_false, if_true]

theorem exec_tdPop_noQueue (h : 3 < rs1.toNat) :
    exec (.tdPop t p rs1) s = .next (raiseExc s t p .illegalInstruction) := by
  simp only [exec_tdPop_eq, execTdPop, runs, h, Bool.not_true, Bool.false_eq_true, if_false, if_true]

variable (queue : rs1.toNat ≤ 3)
include queue

theorem exec_tdPoll :
    let q := Tab.get {} (getSCore s t p).cq rs1.toNat
    exec (.tdPoll t p rd rs1) s = .next (setRd s t p rd
      (if cqEnabled q && decide (0 < q.count) then BitVec.ofNat 64 (onDieBase + cqBase q + 32 * q.oldest) else 0#64)) := by
  simp only [exec_tdPoll_eq, execTdPoll, runs, Nat.not_lt.2 queue, Bool.not_true, Bool.false_eq_true, if_false]

theorem exec_tdPop :
    let q := Tab.get {} (getSCore s t p).cq rs1.toNat
    exec (.tdPop t p rs1) s = .next (if cqEnabled q && decide (0 < q.count) then
      modSCore (clearExc s t p) t p (fun c =>
        { c with cq := Tab.put {} c.cq rs1.toNat { q with oldest := (q.oldest + 1) % 256, count := q.count - 1 } })
      else clearExc s t p) := by
  simp only [exec_tdPop_eq, execTdPop, runs, getSCore_clearExc, Nat.not_lt.2 queue, Bool.not_true, Bool.false_eq_true, if_false]
  split <;> rfl

end

/-! ### td.abort (R91) -/

section
variable {t p rd : Nat} {rs1 rs2 : DWord} {s : State} (runs : sCoreRuns s t p = true)
include runs

theorem exec_tdAbort_noCore
    (h : (if bits rs2.toNat 8 2 ≤ 1 then physCore (getTile s t) (bits rs2.toNat 8 2) (bits rs2.toNat 0 8) else none) = none) :
    exec (.tdAbort t p rd rs1 rs2) s = .next (setRd s t p rd 1#64) := by
  simp only [exec_tdAbort_eq, execTdAbort, runs, h, Bool.not_true, Bool.false_eq_true, if_false]

variable {c : Nat}
variable (core : (if bits rs2.toNat 8 2 ≤ 1 then physCore (getTile s t) (bits rs2.toNat 8 2) (bits rs2.toNat 0 8) else none) = some c)
include core

theorem exec_tdAbort_unknown (h : (coreQueue s t (bits rs2.toNat 8 2) c).find?
      (fun e => decide (e.ticket = rs1.toNat) && decide (e.score = p) && e.record.isNone) = none) :
    exec (.tdAbort t p rd rs1 rs2) s = .next (setRd s t p rd 1#64) := by
  simp only [exec_tdAbort_eq, execTdAbort, runs, core, h, Bool.not_true, Bool.false_eq_true, if_false]

/-- A descriptor found is stopped at its next block if it runs, and ended if it waits. -/
theorem exec_tdAbort_found {e : QDesc} (h : (coreQueue s t (bits rs2.toNat 8 2) c).find?
      (fun e => decide (e.ticket = rs1.toNat) && decide (e.score = p) && e.record.isNone) = some e) :
    let kind := bits rs2.toNat 8 2
    let u := setRd s t p rd 0#64
    exec (.tdAbort t p rd rs1 rs2) s = .next (if e.started then
      setCoreQueue u t kind c (updFirst (fun e => decide (e.ticket = rs1.toNat) && decide (e.score = p) && e.record.isNone)
        (fun x => { x with abort := true }) (coreQueue u t kind c))
      else abortDescriptor u t kind c e) := by
  simp only [exec_tdAbort_eq, execTdAbort, runs, core, h, Bool.not_true, Bool.false_eq_true, if_false]
  split <;> rfl

end

/-! ### td.fence (R91) -/

section
variable {t p : Nat} {s : State} (runs : sCoreRuns s t p = true)
include runs

theorem exec_tdFence :
    exec (.tdFence t p) s = .next (if outstanding (clearExc s t p) t p = 0 then clearExc s t p
      else modSCore (clearExc s t p) t p (fun c => { c with stalls := .fence :: c.stalls })) := by
  simp only [exec_tdFence_eq, execTdFence, runs, Bool.not_true, Bool.false_eq_true, if_false]
  split <;> rfl

theorem exec_tdFenceRelease {rest : List Stall} (stalled : (getSCore s t p).stalls = .fence :: rest) (h : outstanding s t p = 0) :
    exec (.tdFenceRelease t p) s = .next (modSCore s t p (fun c => { c with stalls := rest })) := by
  simp only [exec_tdFenceRelease_eq, execTdFenceRelease, runs, stalled, h, Bool.not_true, Bool.false_eq_true, if_false, if_true]

/-! ### Writes of tdcq and of other CSRs (R93, R90) -/

variable {k : Nat} {v : DWord}

theorem exec_tdcqWrite_machine (queue : k ≤ 3) (machine : (getSCore s t p).user = false) :
    let base := v.toNat / 8192 * 8192
    let en := decide (v.toNat % 2 = 1) && decide (base + 8192 ≤ poolBytes)
    let u := modSCore (clearExc s t p) t p (fun c => { c with cq := Tab.put {} c.cq k { csr := BitVec.ofNat 64 (base + b2n en) } })
    exec (.tdcqWrite t p k v) s = .next (if en then writeHeldAll t p k (heldFor u t p k).length u else u) := by
  simp only [exec_tdcqWrite_eq, execTdcqWrite, runs, Nat.not_lt.2 queue, machine, Bool.not_true, Bool.false_eq_true, if_false]

theorem exec_tdcqWrite_user (queue : k ≤ 3) (user : (getSCore s t p).user = true) :
    exec (.tdcqWrite t p k v) s = .next (raiseExc s t p .illegalInstruction) := by
  simp only [exec_tdcqWrite_eq, execTdcqWrite, runs, Nat.not_lt.2 queue, user, Bool.not_true, Bool.false_eq_true, if_false, if_true]

theorem exec_csrWrite {c : SCore} (other : 3 < k) (h : csrWrite (getSCore s t p) k v = some c) :
    exec (.tdcqWrite t p k v) s = .next (clearExc (modSCore s t p (fun _ => c)) t p) := by
  simp only [exec_tdcqWrite_eq, execTdcqWrite, runs, other, h, Bool.not_true, Bool.false_eq_true, if_false, if_true]

theorem exec_csrWrite_none (other : 3 < k) (h : csrWrite (getSCore s t p) k v = none) :
    exec (.tdcqWrite t p k v) s = .next (raiseExc s t p .illegalInstruction) := by
  simp only [exec_tdcqWrite_eq, execTdcqWrite, runs, other, h, Bool.not_true, Bool.false_eq_true, if_false, if_true]

end

end Sys2Proof.Machine

section
open Sys2Proof Sys2Proof.Machine

/-- Settles O3: by the equations of td.poll, td.pop, td.abort, td.fence, its release and the write of
a CSR, one for each case of R91 and R93. -/
theorem xmtdReadsAndWritesItsQueues : Obligations.XmtdReadsAndWritesItsQueues := by
  unfold Obligations.XmtdReadsAndWritesItsQueues
  intro t p rd rs1 rs2 s runs q unread mine kind core
  refine ⟨fun above => ⟨exec_tdPoll_noQueue runs above, exec_tdPop_noQueue runs above⟩, fun queue => exec_tdPoll runs queue,
    fun queue empty => ?_, fun queue holds => ?_, fun unnamed => exec_tdAbort_noCore runs unnamed, fun c named => ?_,
    fun ended => ?_, fun runsOn => ?_, fun rest stalled ended => exec_tdFenceRelease runs stalled ended,
    fun k v queue machine => exec_tdcqWrite_machine runs queue machine, fun k v queue user => exec_tdcqWrite_user runs queue user,
    fun k v other => ⟨fun c => exec_csrWrite runs other, exec_csrWrite_none runs other⟩⟩
  · exact (exec_tdPop runs queue).trans (by rw [if_neg (ne_true_of_eq_false empty)])
  · exact (exec_tdPop runs queue).trans (by rw [if_pos holds])
  · refine ⟨fun unknown => exec_tdAbort_unknown runs named unknown, fun e found waits => ?_, fun e found started => ?_⟩
    · exact (exec_tdAbort_found runs named found).trans (by rw [if_neg (ne_true_of_eq_false waits)])
    · exact (exec_tdAbort_found runs named found).trans (by rw [if_pos started])
  · rw [exec_tdFence runs, if_pos ended]
  · rw [exec_tdFence runs, if_neg runsOn]
end

namespace Sys2Proof.Machine

/-! ### sy.signal and sy.wait (R91, R92) -/

/-- A count reaches a value where their difference is below 2^31 (R92). -/
theorem reaches_iff {c v : Word} : reaches c v = true ↔ (c - v).toNat < 2 ^ 31 := decide_eq_true_iff

theorem reaches_eq_false {c v : Word} (h : 2 ^ 31 ≤ (c - v).toNat) : reaches c v = false :=
  decide_eq_false (Nat.not_lt.2 h)

section
variable {t p rd : Nat} {rs1 rs2 tdwait : DWord} {s : State} (runs : sCoreRuns s t p = true)
include runs

theorem exec_sySignal_invalid (h : syncNameOk rs1.toNat = false) :
    exec (.sySignal t p rs1 rs2) s = .next (raiseExc s t p .illegalInstruction) := by
  simp only [exec_sySignal_eq, execSySignal, runs, h, Bool.not_true, Bool.not_false, Bool.false_eq_true, if_false, if_true]

theorem exec_sySignal (h : syncNameOk rs1.toNat = true) :
    exec (.sySignal t p rs1 rs2) s = .next
      (syncPut (clearExc s t p) t rs1.toNat (syncGet (clearExc s t p) t rs1.toNat + rs2.setWidth 32)) := by
  simp only [exec_sySignal_eq, execSySignal, syncAdd, runs, h, Bool.not_true, Bool.false_eq_true, if_false]

theorem exec_syWait_invalid (h : syncNameOk rs1.toNat = false) :
    exec (.syWait t p rd rs1 rs2 tdwait) s = .next (raiseExc s t p .illegalInstruction) := by
  simp only [exec_syWait_eq, execSyWait, runs, h, Bool.not_true, Bool.not_false, Bool.false_eq_true, if_false, if_true]

/-- A wait for a named object: the count at once where it is reached, else a stall. -/
theorem exec_syWait (h : syncNameOk rs1.toNat = true) :
    let w := modSCore s t p (fun c => { c with tdwait := tdwait, exc := none })
    let c := syncGet w t rs1.toNat
    let limit := if tdwait = 0#64 then none else some (w.now + ceilDiv (tdwait.toNat * 1000000) (max 1 (getTile w t).mhz))
    exec (.syWait t p rd rs1 rs2 tdwait) s = .next (if reaches c (rs2.setWidth 32) then setRd w t p rd (c.setWidth 64)
      else modSCore w t p (fun x => { x with stalls := .sync rs1.toNat (rs2.setWidth 32) rd limit :: x.stalls })) := by
  simp only [exec_syWait_eq, execSyWait, runs, h, Bool.not_true, Bool.false_eq_true, if_false]
  split <;> rfl

/-! ### The end of a wait (R91, R92) -/

variable {name r : Nat} {value : Word} {limit : Option Nat} {rest : List Stall}

theorem exec_syWaitRelease (stalled : (getSCore s t p).stalls = .sync name value r limit :: rest)
    (h : reaches (syncGet s t name) value = true) :
    exec (.syWaitRelease t p) s = .next
      (setRd (modSCore s t p (fun x => { x with stalls := rest })) t p r ((syncGet s t name).setWidth 64)) := by
  simp only [exec_syWaitRelease_eq, execSyWaitRelease, runs, stalled, h, Bool.not_true, Bool.false_eq_true, if_false, if_true]

theorem exec_syWaitTimeout {l : Nat} (stalled : (getSCore s t p).stalls = .sync name value r (some l) :: rest)
    (h : reaches (syncGet s t name) value = false) :
    exec (.syWaitTimeout t p) s = .next
      (setRd (modSCore (advanceTo s l) t p (fun x => { x with stalls := rest })) t p r (negCode 1)) := by
  simp only [exec_syWaitTimeout_eq, execSyWaitTimeout, runs, stalled, h, Bool.not_true, Bool.false_eq_true, if_false]

end

end Sys2Proof.Machine

section
open Sys2Proof Sys2Proof.Machine

/-- Settles O4: by the equations of sy.signal, sy.wait and the two ends of a wait, at a count that is
reached (`reaches_iff`) or not (`reaches_eq_false`). -/
theorem syncInstructionsCountAndWait : Obligations.SyncInstructionsCountAndWait := by
  unfold Obligations.SyncInstructionsCountAndWait
  intro t p rd rs1 rs2 tdwait s runs w v
  refine ⟨fun invalid => ⟨exec_sySignal_invalid runs invalid, exec_syWait_invalid runs invalid⟩, fun named => exec_sySignal runs named,
    fun named => ?_, fun name value r limit rest stalled => ⟨fun reached => ?_, fun l limited unreached => ?_⟩⟩
  · intro c
    refine ⟨fun reached => ?_, fun unreached unlimited => ?_, fun unreached limited => ?_⟩
    · exact (exec_syWait runs named).trans (by rw [if_pos (reaches_iff.2 reached)])
    · exact (exec_syWait runs named).trans (by rw [if_neg (ne_true_of_eq_false (reaches_eq_false unreached)), if_pos unlimited])
    · exact (exec_syWait runs named).trans (by rw [if_neg (ne_true_of_eq_false (reaches_eq_false unreached)), if_neg limited])
  · exact exec_syWaitRelease runs stalled (reaches_iff.2 reached)
  · subst limited
    exact exec_syWaitTimeout runs stalled (reaches_eq_false unreached)
end

namespace Sys2Proof.Machine

/-! ### Loads and stores of an S-core (R90, R94, R107, R111) -/

/-- The access touches a DRAM die. -/
def touchesDram (s : State) (t addr size : Nat) : Bool := !(diesOf (getTile s t) addr size).isEmpty

/-- The state once an access has crossed to DRAM, fewer than three of its crossings failing: the
repeats are counted (R107). -/
def accessCrossed (s : State) (t addr size fails : Nat) : State :=
  if touchesDram s t addr size then bumpN s (0x6300 + t) 5 (min fails 2) else s

section
variable {t p addr size rd fails : Nat} {data : DWord} {sx denied : Bool} {flips : List Flip} {s : State}
variable (runs : sCoreRuns s t p = true) (sizes : size = 1 ∨ size = 2 ∨ size = 4 ∨ size = 8)
include runs sizes

theorem accessMade : (!sCoreRuns s t p || !(decide (size = 1) || decide (size = 2) || decide (size = 4) || decide
    (size = 8))) = false := by
  simp only [runs, Bool.not_true, Bool.false_or, Bool.not_eq_false', Bool.or_eq_true, decide_eq_true_eq]
  omega

/-- PMP, the S-core's ranges and the sleep of a die are looked at first. -/
theorem exec_sCoreLoadStore_stopped {store : Bool}
    (h : (denied || pmpDenies (getSCore s t p) addr size store) = true ∨
      (sCoreRange s t addr size && rangeAwake (getTile s t) addr size) = false) :
    exec (.sCoreLoadStore t p store addr size data rd sx denied flips fails) s =
      .next (raiseExc s t p (if store then .storeAccess else .loadAccess)) := by
  have stopped : (denied || pmpDenies (getSCore s t p) addr size store || !sCoreRange s t addr size ||
      !rangeAwake (getTile s t) addr size) = true := by
    rw [Bool.or_assoc, ← Bool.not_and, Bool.or_eq_true, Bool.not_eq_true']
    exact h
  simp only [exec_sCoreLoadStore_eq, execSCoreLoadStore, accessMade runs sizes, stopped, Bool.false_eq_true, if_false, if_true]

variable (there : (sCoreRange s t addr size && rangeAwake (getTile s t) addr size) = true)
variable (few : touchesDram s t addr size = false ∨ fails < 3)
include there few

/-- A store is refused where it meets a marked row, and is a raw write otherwise. -/
theorem exec_sCoreStore (allowed : (denied || pmpDenies (getSCore s t p) addr size true) = false) :
    let u := accessCrossed s t addr size fails
    exec (.sCoreLoadStore t p true addr size data rd sx denied flips fails) s = .next (
      if touchesDram s t addr size && anyBadRow u t addr size then raiseExc (countRefused u t addr size) t p .storeAccess
      else clearExc (rawWrite u t addr (leBytes size data.toNat)) t p) := by
  intro u
  obtain ⟨inRange, awake⟩ := Bool.and_eq_true_iff.1 there
  simp only [exec_sCoreLoadStore_eq, execSCoreLoadStore, accessMade runs sizes, allowed, inRange, awake, Bool.not_true, Bool.or_false,
    Bool.false_eq_true, if_false, if_true]
  cases dram : touchesDram s t addr size with
  | false =>
    simp only [u, accessCrossed, dram, Bool.false_and, Bool.false_eq_true, if_false]
    rw [touchesDram] at dram
    simp only [dram, Bool.false_and, Bool.false_eq_true, if_false]
  | true =>
    have fewFail : ¬ 3 ≤ fails := Nat.not_le.2 (few.resolve_left (ne_false_of_eq_true dram))
    simp only [u, accessCrossed, dram, Bool.true_and, if_true]
    rw [touchesDram] at dram
    simp only [dram, fewFail, decide_false, Bool.true_and, Bool.false_or, if_true, if_false]
    split <;> rfl

/-- A load of unmarked rows, without a disturbance and outside poison mode, writes its register. -/
theorem exec_sCoreLoad (allowed : (denied || pmpDenies (getSCore s t p) addr size false) = false) :
    let u := accessCrossed s t addr size fails
    let v := leNat (bytesAt u t addr size)
    (touchesDram s t addr size && anyBadRow u t addr size) = false → poisonMode u = false →
    exec (.sCoreLoadStore t p false addr size data rd sx denied [] fails) s = .next
      (setLoaded u t p rd size (BitVec.ofNat 64 (if sx then unsigned 64 (signed (8 * size) v) else v))) := by
  intro u v unmarked pure
  obtain ⟨inRange, awake⟩ := Bool.and_eq_true_iff.1 there
  simp only [exec_sCoreLoadStore_eq, execSCoreLoadStore, accessMade runs sizes, allowed, inRange, awake, Bool.not_true, Bool.or_false,
    Bool.false_eq_true, if_false]
  cases dram : touchesDram s t addr size with
  | false =>
    simp only [u, v, accessCrossed, dram, Bool.false_eq_true, if_false] at unmarked pure ⊢
    rw [touchesDram] at dram
    simp only [dram, pure, applyFlips, List.foldl_nil, ne_eq, not_true_eq_false, decide_false, Bool.not_false, Bool.and_false,
      Bool.false_and, Bool.false_eq_true, if_false]
  | true =>
    have fewFail : ¬ 3 ≤ fails := Nat.not_le.2 (few.resolve_left (ne_false_of_eq_true dram))
    simp only [u, v, accessCrossed, dram, Bool.true_and, if_true] at unmarked pure ⊢
    rw [touchesDram] at dram
    simp only [dram, fewFail, unmarked, pure, applyFlips, List.foldl_nil, decide_false, Bool.not_true, Bool.false_and, Bool.true_and,
      Bool.or_false, Bool.false_eq_true, if_false, if_true]

end

/-! ### The replay of a failed check (R513) -/

section
variable {t p : Nat} {s : State} (runs : sCoreRuns s t p = true)
include runs

theorem exec_sCoreCheckReplay_passes : exec (.sCoreCheckReplay t p true) s = .next (coreReport s 0x22 t 2 p 0 0) := by
  simp only [exec_sCoreCheckReplay_eq, execSCoreCheckReplay, runs, Bool.not_true, Bool.false_eq_true, if_false, if_true]

theorem exec_sCoreCheckReplay_fails :
    exec (.sCoreCheckReplay t p false) s = .next (confirmedFault (modSCore (coreReport s 0x23 t 2 p 0 0) t p
      (fun c => { c with exc := some .machineCheck, user := false, userEnded := true })) (.sCore t p)) := by
  simp only [exec_sCoreCheckReplay_eq, execSCoreCheckReplay, runs, Bool.not_true, Bool.false_eq_true, if_false]

end

end Sys2Proof.Machine

section
open Sys2Proof Sys2Proof.Machine

/-- Settles O5: by what stops an access (`exec_sCoreLoadStore_stopped`), what a store and a load do
that nothing stops, and the two ends of a replay. -/
theorem sCoreLoadsStoresAndCheckReplays : Obligations.SCoreLoadsStoresAndCheckReplays := by
  unfold Obligations.SCoreLoadsStoresAndCheckReplays
  intro t p addr size rd fails data sx denied flips s runs sizes there deny dram good u v
  have fewOfGood : good → dram = false ∨ fails < 3 := Or.imp_right And.left
  have unmarkedOfGood : good → (dram && anyBadRow u t addr size) = false := by
    rintro (onDie | ⟨-, unmarked⟩)
    · rw [onDie, Bool.false_and]
    · cases crosses : dram with
      | false => rfl
      | true => simpa only [u, crosses, Bool.true_and, if_true] using unmarked
  refine ⟨exec_sCoreLoadStore_stopped runs sizes, exec_sCoreLoadStore_stopped runs sizes, fun allowed is isGood => ?_,
    fun allowed is crosses few marked => ?_, fun allowed is isGood pure => ?_,
    exec_sCoreCheckReplay_passes runs, exec_sCoreCheckReplay_fails runs⟩
  · refine (exec_sCoreStore runs sizes is (fewOfGood isGood) allowed).trans ?_
    exact congrArg Host.Outcome.next (if_neg (ne_true_of_eq_false (unmarkedOfGood isGood)))
  · refine (exec_sCoreStore runs sizes is (.inr few) allowed).trans ?_
    exact congrArg Host.Outcome.next (if_pos (Bool.and_eq_true_iff.2 ⟨crosses, marked⟩))
  · exact exec_sCoreLoad runs sizes is (fewOfGood isGood) allowed (unmarkedOfGood isGood) pure
end

namespace Sys2Proof.Machine

/-! ### The start of a descriptor (R78, R123, R53) -/

/-- The count that a descriptor awaits is reached (R78). -/
def waitOver (s : State) (t d : Nat) : Prop :=
  dWaitSync d = 0xFFFF ∨ reaches (syncGet s t (dWaitSync d)) (BitVec.ofNat 32 (dWaitValue d)) = true

/-- The condition of a start as `execDescriptorStart` computes it. -/
theorem waitOver_iff {s : State} {t d : Nat} :
    (decide (dWaitSync d = 0xFFFF) || reaches (syncGet s t (dWaitSync d)) (BitVec.ofNat 32 (dWaitValue d))) = true ↔ waitOver s t d := by
  rw [waitOver, Bool.or_eq_true, decide_eq_true_eq]

section
variable {t p : Nat} {kind : CoreKind} {flips : List Flip} {s : State} {e : QDesc}
variable (runs : tileRuns s t = true) (free : holdsRecord s t (kindNat kind) p = false)
variable (head : headOf s t (kindNat kind) p = some e) (waits : e.started = false)
include runs free head waits

theorem exec_descriptorStart_early (h : ¬ waitOver s t e.d) : exec (.descriptorStart t kind p flips) s = .next s := by
  have notReady := eq_false_of_ne_true (mt waitOver_iff.1 h)
  simp only [exec_descriptorStart_eq, execDescriptorStart, runs, free, head, waits, notReady, Bool.not_true, Bool.not_false,
    Bool.or_false, Bool.or_true, Bool.false_eq_true, if_false, if_true]

variable (ready : waitOver s t e.d)
include ready

theorem exec_descriptorStart_asleep {bad : Nat} (h : asleepOperand s t false e.d = some bad) :
    exec (.descriptorStart t kind p flips) s = .next (endDescriptor s t (kindNat kind) p e 4 0 0 bad) := by
  simp only [exec_descriptorStart_eq, execDescriptorStart, abortOrSleep, runs, free, head, waits, waitOver_iff.2 ready, h,
    Bool.not_true, Bool.or_false, Bool.false_eq_true, if_false]

variable (awake : asleepOperand s t false e.d = none) (isOpen : s.fc.closed = false)
include awake isOpen

theorem exec_descriptorStart_noScan (h : scans e.d = false) :
    exec (.descriptorStart t kind p flips) s =
      .next (keepDesc s t (kindNat kind) p { e with started := true, anchor := anchorOf s t e.d }) := by
  simp only [exec_descriptorStart_eq, execDescriptorStart, runs, free, head, waits, waitOver_iff.2 ready, awake, isOpen, h,
    Option.isSome_none, Bool.not_true, Bool.or_false, Bool.false_eq_true, if_false]

theorem exec_descriptorStart_scan {r : Run} (h : scans e.d = true)
    (scan : r = takeBlocks t (kindNat kind) p false flips (scanBlocks e.d) { s := s, e := e }) (through : r.stop = none) :
    exec (.descriptorStart t kind p flips) s =
      .next (keepDesc r.s t (kindNat kind) p { e with started := true, anchor := anchorOf r.s t e.d }) := by
  simp only [exec_descriptorStart_eq, execDescriptorStart, runs, free, head, waits, waitOver_iff.2 ready, awake, isOpen, h, ← scan,
    through, Option.isSome_none, Bool.not_true, Bool.or_false, Bool.false_eq_true, if_false, if_true]

end

/-! ### The run of a descriptor (R78, R79) -/

section
variable {t p upTo : Nat} {kind : CoreKind} {flips : List Flip} {res : List ResidueEvent} {wfail : List Nat} {s : State} {e : QDesc}
variable (works : tileWorks s t = true) (head : headOf s t (kindNat kind) p = some e) (started : e.started = true)
include works head started

theorem exec_descriptorComplete_asleep {bad : Nat} (h : asleepOperand s t true e.d = some bad) :
    exec (.descriptorComplete t kind p flips res wfail upTo) s = .next (endEarly s t (kindNat kind) p e 4 bad) := by
  simp only [exec_descriptorComplete_eq, execDescriptorComplete, settle, works, head, started, h, Bool.not_true, Bool.false_eq_true,
    if_false]

theorem exec_descriptorComplete_done {r : Run} (awake : asleepOperand s t true e.d = none) (kept : e.abort = false)
    (run : r = runBlocks t (kindNat kind) p flips res wfail upTo (outBlocks e.d - e.blocksDone) { s := s, e := e })
    (through : r.stop = none) :
    exec (.descriptorComplete t kind p flips res wfail upTo) s = .next (endDescriptor r.s t (kindNat kind) p r.e 0
      (anchorUsed r.e.d r.e.anchor) (cyclesOf r.s t (kindNat kind) p r.e.d r.e.extra) 0xFFFFFFFF) := by
  simp only [exec_descriptorComplete_eq, execDescriptorComplete, settle, works, head, started, awake, kept, ← run, through,
    Bool.not_true, Bool.and_false, Bool.false_eq_true, if_false]

end

/-! ### Held-back records and repeat fetches (R93, R142 to R144) -/

section
variable {t p : Nat} {s : State}

theorem exec_completionRecordDeferred {q j c : Nat} {e : QDesc} {r : List Byte} (openTile : tileOpen s t = true)
    (openQueue : cqOpen s t p q = true) (oldest : oldestHeld (heldFor s t p q) = some (j, c, e)) (record : e.record = some r) :
    exec (.completionRecordDeferred t p q) s = .next (signalDone (cqPush
      (setCoreQueue s t j c (dropFirst (fun x => decide (x.ticket = e.ticket) && decide (x.score = p)) (coreQueue s t j c))) t p q r)
      t e.d (field r 8 1)) := by
  simp only [exec_completionRecordDeferred_eq, execCompletionRecordDeferred, writeHeld, openTile, openQueue, oldest, record,
    Bool.not_true, Bool.false_eq_true, if_false]

theorem exec_stitchRepeatFetch_passes {kind : CoreKind} {flips : List Flip} {e : QDesc} {rest : List QDesc} {m : Mismatch} {u : State}
    {data : List Byte} {poison : Bool} (works : tileWorks s t = true) (head : coreQueue s t (kindNat kind) p = e :: rest)
    (waits : e.mismatch = some m) (passes : fetch s t m.addr m.tid m.blk flips [] = (u, .ok data poison)) :
    let k := kindNat kind
    let v := coreReport (bump (keepDesc u t k p { e with mismatch := none, verified := m.addr :: e.verified }) 0x6500 2)
      0x08 t k p m.blk (blockTag m.tid m.blk)
    exec (.stitchRepeatFetch t kind p flips) s = .next (confirmedFault v (chargedUnit v t k p m.addr)) := by
  simp only [exec_stitchRepeatFetch_eq, execStitchRepeatFetch, works, head, waits, passes, Bool.not_true, Bool.false_eq_true, if_false]

end

end Sys2Proof.Machine

section
open Sys2Proof Sys2Proof.Machine

/-- Settles O6: by one equation for each way that a start goes, for an operand asleep and for a whole
run, for a held-back record and for a repeat fetch that passes. -/
theorem descriptorsStartRunAndEnd : Obligations.DescriptorsStartRunAndEnd := by
  unfold Obligations.DescriptorsStartRunAndEnd
  intro t p kind flips s k
  refine ⟨fun e runs free head waits => ?_, fun e res wfail upTo works head started => ?_,
    fun q c j e r openTile openQueue oldest record => exec_completionRecordDeferred openTile openQueue oldest record,
    fun e rest m u data poison works head waits passes => exec_stitchRepeatFetch_passes works head waits passes⟩
  · exact ⟨exec_descriptorStart_early runs free head waits,
      fun bad ready => exec_descriptorStart_asleep runs free head waits ready,
      fun ready awake isOpen => exec_descriptorStart_noScan runs free head waits ready awake isOpen,
      fun r ready awake isOpen scanned => exec_descriptorStart_scan runs free head waits ready awake isOpen scanned⟩
  · exact ⟨fun bad => exec_descriptorComplete_asleep works head started,
      fun r awake kept => exec_descriptorComplete_done works head started awake kept⟩
end

namespace Sys2Proof.Machine

/-- Every command answers a next state that keeps what every command keeps (`Follows`), and every
byte of memory where `writesMemory` does not name it: one arm of `exec` a command. -/
theorem exec_keeps (i : Instr) (s : State) : OutKeeps (!writesMemory i) s (exec i s) := by
  cases i with
  | tdIssue => exact execTdIssue_keeps (h := .refl ..) ..
  | tdAbort => exact execTdAbort_keeps (h := .refl ..) ..
  | tdPoll => exact execTdPoll_keeps (h := .refl ..) ..
  | tdPop => exact execTdPop_keeps (h := .refl ..) ..
  | sySignal => exact execSySignal_keeps (h := .refl ..) ..
  | syWait => exact execSyWait_keeps (h := .refl ..) ..
  | syWaitRelease => exact execSyWaitRelease_keeps (h := .refl ..) ..
  | syWaitTimeout => exact execSyWaitTimeout_keeps (h := .refl ..) ..
  | tdFence => exact execTdFence_keeps (h := .refl ..) ..
  | tdFenceRelease => exact execTdFenceRelease_keeps (h := .refl ..) ..
  | tdcqWrite => exact execTdcqWrite_keeps (h := .refl ..) ..
  | sCoreCheckReplay => exact execSCoreCheckReplay_keeps (h := .refl ..) ..
  | descriptorStart => exact execDescriptorStart_keeps (h := .refl ..) ..
  | descriptorComplete => exact execDescriptorComplete_keeps (h := .refl ..) ..
  | completionRecordDeferred => exact execCompletionRecordDeferred_keeps (h := .refl ..) ..
  | stitchRepeatFetch => exact execStitchRepeatFetch_keeps (h := .refl ..) ..
  | selfTest => exact execSelfTest_keeps (h := .refl ..) ..
  | rowRead => exact execRowRead_keeps (h := .refl ..) ..
  | tileResetComplete => exact execTileResetComplete_keeps (h := .refl ..) ..
  | rowWrite => exact execRowWrite_keeps (h := .refl ..) ..
  | maskedRowWrite => exact execMaskedRowWrite_keeps (h := .refl ..) ..
  | refresh => exact execRefresh_keeps (h := .refl ..) ..
  | patrolScrubRow => exact execPatrolScrubRow_keeps (h := .refl ..) ..
  | selfRefreshDrainDone => exact execSelfRefreshDrainDone_keeps (h := .refl ..) ..
  | selfRefreshExit => exact execSelfRefreshExit_keeps (h := .refl ..) ..
  | demandScrub => exact execDemandScrub_keeps (h := .refl ..) ..
  | demandScrubDone => exact execDemandScrubDone_keeps (h := .refl ..) ..
  | fill => exact execFill_keeps (h := .refl ..) ..
  | rowRateStepEscalate => exact execRowRateStepEscalate_keeps (h := .refl ..) ..
  | rowRateStepUp => exact execRowRateStepUp_keeps (h := .refl ..) ..
  | clearConfirmedFaults => exact execClearConfirmedFaults_keeps (h := .refl ..) ..
  | codewordReceive => exact execCodewordReceive_keeps (h := .refl ..) ..
  | laneControlCodeword => exact execLaneControlCodeword_keeps (h := .refl ..) ..
  | codewordResend => exact execCodewordResend_keeps (h := .refl ..) ..
  | meshSlotAck => exact execMeshSlotAck_keeps (h := .refl ..) ..
  | packetSend => exact execPacketSend_keeps (h := .refl ..) ..
  | shaperRelease => exact execShaperRelease_keeps (h := .refl ..) ..
  | loadPlan => exact execLoadPlan_keeps (h := .refl ..) ..
  | planBodyWrite => exact execPlanBodyWrite_keeps (h := .refl ..) ..
  | switchRequest => exact execSwitchRequest_keeps (h := .refl ..) ..
  | planSwitchFirstData => exact execPlanSwitchFirstData_keeps (h := .refl ..) ..
  | loadSchedule => exact execLoadSchedule_keeps (h := .refl ..) ..
  | scheduleBodyWrite => exact execScheduleBodyWrite_keeps (h := .refl ..) ..
  | runStart => exact execRunStart_keeps (h := .refl ..) ..
  | exponentScanDone => exact execExponentScanDone_keeps (h := .refl ..) ..
  | exponent => exact execExponent_keeps (h := .refl ..) ..
  | anchor => exact execAnchor_keeps (h := .refl ..) ..
  | phaseBegin => exact execPhaseBegin_keeps (h := .refl ..) ..
  | contributeSend => exact execContributeSend_keeps (h := .refl ..) ..
  | partialBlock => exact execPartialBlock_keeps (h := .refl ..) ..
  | grant => exact execGrant_keeps (h := .refl ..) ..
  | result => exact execResult_keeps (h := .refl ..) ..
  | refetch => exact execRefetch_keeps (h := .refl ..) ..
  | resend => exact execResend_keeps (h := .refl ..) ..
  | phaseComplete => exact execPhaseComplete_keeps (h := .refl ..) ..
  | runEnd => exact execRunEnd_keeps (h := .refl ..) ..
  | runTimeout => exact execRunTimeout_keeps (h := .refl ..) ..
  | multicastCopyReceive => exact execMulticastCopyReceive_keeps (h := .refl ..) ..
  | multicastGroupWrite => exact execMulticastGroupWrite_keeps (h := .refl ..) ..
  | hemFrameReceive => exact execHemFrameReceive_keeps (h := .refl ..) ..
  | hemControlFrame => exact execHemControlFrame_keeps (h := .refl ..) ..
  | hemFrameResend => exact execHemFrameResend_keeps (h := .refl ..) ..
  | hemLaneFailed => exact execHemLaneFailed_keeps (h := .refl ..) ..
  | hemTrainingStart => exact execHemTrainingStart_keeps (h := .refl ..) ..
  | hemGroupUp => exact execHemGroupUp_keeps (h := .refl ..) ..
  | lossOfLight => exact execLossOfLight_keeps (h := .refl ..) ..
  | hemPacketReceive => exact execHemPacketReceive_keeps (h := .refl ..) ..
  | routeFail => exact execRouteFail_keeps (h := .refl ..) ..
  | sliceFail => exact execSliceFail_keeps (h := .refl ..) ..
  | clearQuarantine => exact execClearQuarantine_keeps (h := .refl ..) ..
  | nodeNumberWrite => exact execNodeNumberWrite_keeps (h := .refl ..) ..
  | routeSetWrite => exact execRouteSetWrite_keeps (h := .refl ..) ..
  | allowedSlicesWrite => exact execAllowedSlicesWrite_keeps (h := .refl ..) ..
  | startSweep => exact execStartSweep_keeps (h := .refl ..) ..
  | sweep => exact execSweep_keeps (h := .refl ..) ..
  | sweepReply => exact execSweepReply_keeps (h := .refl ..) ..
  | fabricQueueEnable => exact execFabricQueueEnable_keeps (h := .refl ..) ..
  | fabricQueueDisabled => exact execFabricQueueDisabled_keeps (h := .refl ..) ..
  | fabricEntryIssue => exact execFabricEntryIssue_keeps (h := .refl ..) ..
  | loadReq => exact execLoadReq_keeps (h := .refl ..) ..
  | storeReq => exact execStoreReq_keeps (h := .refl ..) ..
  | atomicReq => exact execAtomicReq_keeps (h := .refl ..) ..
  | reduceReq => exact execReduceReq_keeps (h := .refl ..) ..
  | mstoreReq => exact execMstoreReq_keeps (h := .refl ..) ..
  | syncAdd => exact execSyncAdd_keeps (h := .refl ..) ..
  | syncRead => exact execSyncRead_keeps (h := .refl ..) ..
  | acquire => exact execAcquire_keeps (h := .refl ..) ..
  | renew => exact execRenew_keeps (h := .refl ..) ..
  | release => exact execRelease_keeps (h := .refl ..) ..
  | ownGive => exact execOwnGive_keeps (h := .refl ..) ..
  | fence => exact execFence_keeps (h := .refl ..) ..
  | fenceComplete => exact execFenceComplete_keeps (h := .refl ..) ..
  | completion => exact execCompletion_keeps (h := .refl ..) ..
  | requestTimeout => exact execRequestTimeout_keeps (h := .refl ..) ..
  | tagQuarantineExpiry => exact execTagQuarantineExpiry_keeps (h := .refl ..) ..
  | leaseExpiry => exact execLeaseExpiry_keeps (h := .refl ..) ..
  | revokeLease => exact execRevokeLease_keeps (h := .refl ..) ..
  | tearDownSlice => exact execTearDownSlice_keeps (h := .refl ..) ..
  | setOwner => exact execSetOwner_keeps (h := .refl ..) ..
  | regionRecordWrite => exact execRegionRecordWrite_keeps (h := .refl ..) ..
  | vfReset => exact execVfReset_keeps (h := .refl ..) ..
  | vfResetComplete => exact execVfResetComplete_keeps (h := .refl ..) ..
  | admitSlice => exact execAdmitSlice_keeps (h := .refl ..) ..
  | withdrawSlice => exact execWithdrawSlice_keeps (h := .refl ..) ..
  | flowRecordWrite => exact execFlowRecordWrite_keeps (h := .refl ..) ..
  | vdpRead => exact execVdpRead_keeps (h := .refl ..) ..
  | vdpWrite => exact execVdpWrite_keeps (h := .refl ..) ..
  | groupOpen => exact execGroupOpen_keeps (h := .refl ..) ..
  | groupCommit => exact execGroupCommit_keeps (h := .refl ..) ..
  | groupDiscard => exact execGroupDiscard_keeps (h := .refl ..) ..
  | groupStatus => exact execGroupStatus_keeps (h := .refl ..) ..
  | describe => exact execDescribe_keeps (h := .refl ..) ..
  | notifyAck => exact execNotifyAck_keeps (h := .refl ..) ..
  | notifyResend => exact execNotifyResend_keeps (h := .refl ..) ..
  | snapshotRelease => exact execSnapshotRelease_keeps (h := .refl ..) ..
  | partialWriteDiscard => exact execPartialWriteDiscard_keeps (h := .refl ..) ..
  | groupExpiry => exact execGroupExpiry_keeps (h := .refl ..) ..
  | contextRelease => exact execContextRelease_keeps (h := .refl ..) ..
  | handOver => exact execHandOver_keeps (h := .refl ..) ..
  | restartStandby => exact execRestartStandby_keeps (h := .refl ..) ..
  | restoreDefaults => exact execRestoreDefaults_keeps (h := .refl ..) ..
  | pldmRequest => exact execPldmRequest_keeps (h := .refl ..) ..
  | setEndpointId => exact execSetEndpointId_keeps (h := .refl ..) ..
  | operationAbort => exact execOperationAbort_keeps (h := .refl ..) ..
  | imageUpload => exact execImageUpload_keeps (h := .refl ..) ..
  | restartModule => exact execRestartModule_keeps (h := .refl ..) ..
  | modeSelect => exact execModeSelect_keeps (h := .refl ..) ..
  | powerCap => exact execPowerCap_keeps (h := .refl ..) ..
  | releaseThermalLatch => exact execReleaseThermalLatch_keeps (h := .refl ..) ..
  | tileClockLimit => exact execTileClockLimit_keeps (h := .refl ..) ..
  | startCalibration => exact execStartCalibration_keeps (h := .refl ..) ..
  | switchLaserGroup => exact execSwitchLaserGroup_keeps (h := .refl ..) ..
  | restartLaserDie => exact execRestartLaserDie_keeps (h := .refl ..) ..
  | laserRestartCheckDone => exact execLaserRestartCheckDone_keeps (h := .refl ..) ..
  | portRolesWrite => exact execPortRolesWrite_keeps (h := .refl ..) ..
  | clearThrough => exact execClearThrough_keeps (h := .refl ..) ..
  | startSelfTest => exact execStartSelfTest_keeps (h := .refl ..) ..
  | sleepRequest => exact execSleepRequest_keeps (h := .refl ..) ..
  | diagnosticMode => exact execDiagnosticMode_keeps (h := .refl ..) ..
  | faultInjection => exact execFaultInjection_keeps (h := .refl ..) ..
  | seamTapOverride => exact execSeamTapOverride_keeps (h := .refl ..) ..
  | erasePersistentStore => exact execErasePersistentStore_keeps (h := .refl ..) ..
  | pcieLinkTraining => exact execPcieLinkTraining_keeps (h := .refl ..) ..
  | regPlainWrite => exact execRegPlainWrite_keeps (h := .refl ..) ..
  | setAliasWrite => exact execSetAliasWrite_keeps (h := .refl ..) ..
  | clearAliasWrite => exact execClearAliasWrite_keeps (h := .refl ..) ..
  | toggleAliasWrite => exact execToggleAliasWrite_keeps (h := .refl ..) ..
  | statusRegisterWrite => exact execStatusRegisterWrite_keeps (h := .refl ..) ..
  | domainWrite => exact execDomainWrite_keeps (h := .refl ..) ..
  | domainWriteApplied => exact execDomainWriteApplied_keeps (h := .refl ..) ..
  | domainRegisterRead => exact execDomainRegisterRead_keeps (h := .refl ..) ..
  | domainReadRecovery => exact execDomainReadRecovery_keeps (h := .refl ..) ..
  | epochLoRead => exact execEpochLoRead_keeps (h := .refl ..) ..
  | mboxDoorbell => exact execMboxDoorbell_keeps (h := .refl ..) ..
  | mailboxResponse => exact execMailboxResponse_keeps (h := .refl ..) ..
  | tileSyncAdd => exact execTileSyncAdd_keeps (h := .refl ..) ..
  | baseSyncAdd => exact execBaseSyncAdd_keeps (h := .refl ..) ..
  | fcWake => exact execFcWake_keeps (h := .refl ..) ..
  | queueEnable => exact execQueueEnable_keeps (h := .refl ..) ..
  | queueDisable => exact execQueueDisable_keeps (h := .refl ..) ..
  | queueDisabled => exact execQueueDisabled_keeps (h := .refl ..) ..
  | sqTail => exact execSqTail_keeps (h := .refl ..) ..
  | cqHead => exact execCqHead_keeps (h := .refl ..) ..
  | sqEntryFetch => exact execSqEntryFetch_keeps (h := .refl ..) ..
  | write => exact execWrite_keeps (h := .refl ..) ..
  | read => exact execRead_keeps (h := .refl ..) ..
  | signal => exact execSignal_keeps (h := .refl ..) ..
  | wait => exact execWait_keeps (h := .refl ..) ..
  | barrier => exact execBarrier_keeps (h := .refl ..) ..
  | cqRecordWrite => exact execCqRecordWrite_keeps (h := .refl ..) ..
  | cqCoalesceTimer => exact execCqCoalesceTimer_keeps (h := .refl ..) ..
  | queueDmaFault => exact execQueueDmaFault_keeps (h := .refl ..) ..
  | watch => exact execWatch_keeps (h := .refl ..) ..
  | watchFire => exact execWatchFire_keeps (h := .refl ..) ..
  | watchExpiry => exact execWatchExpiry_keeps (h := .refl ..) ..
  | bar4Write => exact execBar4Write_keeps (h := .refl ..) ..
  | bar4Read => exact execBar4Read_keeps (h := .refl ..) ..
  | functionLevelReset => exact execFunctionLevelReset_keeps (h := .refl ..) ..
  | hotReset => exact execHotReset_keeps (h := .refl ..) ..
  | busMasterDisable => exact execBusMasterDisable_keeps (h := .refl ..) ..
  | d3hotEntry => exact execD3hotEntry_keeps (h := .refl ..) ..
  | referenceFailure => exact execReferenceFailure_keeps (h := .refl ..) ..
  | referenceQualified => exact execReferenceQualified_keeps (h := .refl ..) ..
  | clockFront => exact execClockFront_keeps (h := .refl ..) ..
  | fallBackRequest => exact execFallBackRequest_keeps (h := .refl ..) ..
  | fallBackWithdraw => exact execFallBackWithdraw_keeps (h := .refl ..) ..
  | tilePowerEstimate => exact execTilePowerEstimate_keeps (h := .refl ..) ..
  | packagePowerEstimate => exact execPackagePowerEstimate_keeps (h := .refl ..) ..
  | housekeepingRound => exact execHousekeepingRound_keeps (h := .refl ..) ..
  | temperatureSample => exact execTemperatureSample_keeps (h := .refl ..) ..
  | throttleCeilingDrop => exact execThrottleCeilingDrop_keeps (h := .refl ..) ..
  | throttleRecoveryStep => exact execThrottleRecoveryStep_keeps (h := .refl ..) ..
  | railFault => exact execRailFault_keeps (h := .refl ..) ..
  | railRecovery => exact execRailRecovery_keeps (h := .refl ..) ..
  | calibrationStageDone => exact execCalibrationStageDone_keeps (h := .refl ..) ..
  | rotationStepEnd => exact execRotationStepEnd_keeps (h := .refl ..) ..
  | seamTapSweep => exact execSeamTapSweep_keeps (h := .refl ..) ..
  | channelRecalibration => exact execChannelRecalibration_keeps (h := .refl ..) ..
  | tableScrub => exact execTableScrub_keeps (h := .refl ..) ..
  | clockLockLoss => exact execClockLockLoss_keeps (h := .refl ..) ..
  | errorReport => exact execErrorReport_keeps (h := .refl ..) ..
  | squallEnd => exact execSquallEnd_keeps (h := .refl ..) ..
  | laserMonitorSample => exact execLaserMonitorSample_keeps (h := .refl ..) ..
  | laserDriveApply => exact execLaserDriveApply_keeps (h := .refl ..) ..
  | laserLineCheck => exact execLaserLineCheck_keeps (h := .refl ..) ..
  | laserGapEnd => exact execLaserGapEnd_keeps (h := .refl ..) ..
  | channelSample => exact execChannelSample_keeps (h := .refl ..) ..
  | mantleBootDone => exact execMantleBootDone_keeps (h := .refl ..) ..
  | startUpStageDone => exact execStartUpStageDone_keeps (h := .refl ..) ..
  | guestDiscovery => exact execGuestDiscovery_keeps (h := .refl ..) ..
  | guestLinkFailure => exact execGuestLinkFailure_keeps (h := .refl ..) ..
  | mantleRestartN => exact execMantleRestartN_keeps (h := .refl ..) ..
  | spiSel => exact execSpiSel_keeps (h := .refl ..) ..
  | sCoreLoadStore => exact execSCoreLoadStore_keeps (h := .refl ..) ..
  | referenceReturn => exact execReferenceReturn_keeps (h := .refl ..) ..
  | waitTimeout => exact execWaitTimeout_keeps (h := .refl ..) ..
  | guestLinkRetrained => exact execGuestLinkRetrained_keeps (h := .refl ..) ..
  | entdaa => exact execEntdaa_keeps (h := .refl ..) ..
  | renumbering => exact execRenumbering_keeps (h := .refl ..) ..
  | fillDone => exact execFillDone_keeps (h := .refl ..) ..
  | meshSlot => exact execMeshSlot_keeps (h := .refl ..) ..
  | planLoadDone => exact execPlanLoadDone_keeps (h := .refl ..) ..
  | planSwitchDrain => exact execPlanSwitchDrain_keeps (h := .refl ..) ..
  | scheduleLoadDone => exact execScheduleLoadDone_keeps (h := .refl ..) ..
  | sweepLost => exact execSweepLost_keeps (h := .refl ..) ..
  | teardownDone => exact execTeardownDone_keeps (h := .refl ..) ..
  | admissionDone => exact execAdmissionDone_keeps (h := .refl ..) ..
  | admissionRecompute => exact execAdmissionRecompute_keeps (h := .refl ..) ..
  | mantleRefresh => exact execMantleRefresh_keeps (h := .refl ..) ..
  | mantleOwnershipExpiry => exact execMantleOwnershipExpiry_keeps (h := .refl ..) ..
  | standbyClaim => exact execStandbyClaim_keeps (h := .refl ..) ..
  | mantleClaimTimeout => exact execMantleClaimTimeout_keeps (h := .refl ..) ..
  | handOverReclaim => exact execHandOverReclaim_keeps (h := .refl ..) ..
  | perstDeassert => exact execPerstDeassert_keeps (h := .refl ..) ..
  | bar4FenceRead => exact execBar4FenceRead_keeps (h := .refl ..) ..
  | holdoverFailure => exact execHoldoverFailure_keeps (h := .refl ..) ..
  | epochOffsetAverage => exact execEpochOffsetAverage_keeps (h := .refl ..) ..
  | capSkipEnd => exact execCapSkipEnd_keeps (h := .refl ..) ..
  | capLoopIteration => exact execCapLoopIteration_keeps (h := .refl ..) ..
  | thaw => exact execThaw_keeps (h := .refl ..) ..
  | inputFault => exact execInputFault_keeps (h := .refl ..) ..
  | inputRecovery => exact execInputRecovery_keeps (h := .refl ..) ..
  | calibrationDone => exact execCalibrationDone_keeps (h := .refl ..) ..
  | forecastHeartbeatMiss => exact execForecastHeartbeatMiss_keeps (h := .refl ..) ..
  | forecastDecision => exact execForecastDecision_keeps (h := .refl ..) ..
  | wakeComplete => exact execWakeComplete_keeps (h := .refl ..) ..
  | dozeStageDone => exact execDozeStageDone_keeps (h := .refl ..) ..
  | napStageDone => exact execNapStageDone_keeps (h := .refl ..) ..
  | hibernateStageDone => exact execHibernateStageDone_keeps (h := .refl ..) ..
  | standbyRailUp => exact execStandbyRailUp_keeps (h := .refl ..) ..
  | mainRailsStart => exact execMainRailsStart_keeps (h := .refl ..) ..
  | mainEnableDeassert => exact execMainEnableDeassert_keeps (h := .refl ..) ..
  | orderlyShutdownStep => exact execOrderlyShutdownStep_keeps (h := .refl ..) ..
  | moduleResetN => exact execModuleResetN_keeps (h := .refl ..) ..
  | j1Withdrawal => exact execJ1Withdrawal_keeps (h := .refl ..) ..
  | moduleResetNRelease => exact execModuleResetNRelease_keeps (h := .refl ..) ..
  | standbyRailLoss => exact execStandbyRailLoss_keeps (h := .refl ..) ..

/-- What follows a state that meets the invariant meets it. -/
theorem Follows.inv {s u : State} (h : Follows s u) (start : s.Inv) : u.Inv := ⟨h.wf start.1, h.inj start.2⟩

/-- A step answers a next state that meets the invariant where its own does: the tick or the command
in front keeps both parts of it. -/
theorem step_keeps_inv {s : State} (start : s.Inv) : ∃ u, step s = .next u ∧ u.Inv := by
  cases waiting : s.pending with
  | nil => exact ⟨tick s, step_idle waiting, (tick_keeps (.refl ..)).inv start⟩
  | cons c rest =>
    obtain ⟨u, next, kept⟩ := exec_keeps c { s with pending := rest }
    exact ⟨u, by rw [step, waiting]; exact next, kept.inv start⟩

end Sys2Proof.Machine

section
open Sys2Proof Sys2Proof.Machine

/-- Settles O56: by what the tick and every command keep (`step_keeps_inv`). -/
theorem stepKeepsTheInvariant : Obligations.StepKeepsTheInvariant := by
  unfold Obligations.StepKeepsTheInvariant
  exact fun s => step_keeps_inv
end

namespace Sys2Proof.Machine

/-! ### The unpowered module (R371, 00_scope.md) -/

section
variable (t p q k : Nat)

@[simp] theorem getTile_reset : getTile State.reset t = {} := rfl

@[simp] theorem getSCore_reset : getSCore State.reset t p = {} := rfl

@[simp] theorem getHQ_reset : getHQ State.reset q = {} := rfl

@[simp] theorem getOp_reset : getOp State.reset k = {} := rfl

@[simp] theorem rd8_reset : rd8 State.reset.mem k = 0#8 := rfl

/-- The tiles' logs and the package's are empty. -/
theorem logOf_reset : logOf State.reset k = {} := ite_self ..

theorem opRunning_reset : opRunning State.reset k = false := by rw [opRunning, getOp_reset]; rfl

/-- The hardwired register 0 and the others all read 0. -/
theorem xReg_reset : xReg State.reset t p k = 0#64 := by
  rw [xReg, getSCore_reset]
  exact ite_self ..

/-- The base's sync objects and the tiles' all count from 0. -/
theorem syncGet_reset : syncGet State.reset t k = 0#32 := by
  rw [syncGet, getTile_reset]
  exact ite_self ..

/-- A queue's enable bit is clear. -/
theorem hostQueue_disabled_reset : bit (getHQ State.reset q).ctrl 31 = false := by
  rw [getHQ_reset]
  exact Nat.zero_testBit 31

/-- No value was written: an entry holds the default of its key. -/
theorem rdE_reset (index sub : Nat) : rdE State.reset index sub = dictDefault (dictKey index sub) := rfl

theorem rdB_reset (index sub : Nat) : rdB State.reset index sub = [] := rfl

end

/-- Empty memory is in canonical form, and no record is pending. -/
theorem inv_reset : State.reset.Inv := ⟨rfl, Nat.zero_le 16⟩

end Sys2Proof.Machine

section
open Sys2Proof Sys2Proof.Machine

/-- Settles O54: by what each accessor reads of the state at reset. -/
theorem resetIsTheUnpoweredModule : Obligations.ResetIsTheUnpoweredModule := by
  unfold Obligations.ResetIsTheUnpoweredModule
  exact ⟨inv_reset, rfl, rfl, rfl, rfl, rfl, rfl, rfl, fun index sub => ⟨rdE_reset index sub, rdB_reset index sub⟩, rfl,
    opRunning_reset, rfl, logOf_reset, hostQueue_disabled_reset, xReg_reset, getSCore_reset, syncGet_reset, rd8_reset⟩
end

namespace Sys2Proof.Machine

/-! ### Row ports (R107, R109 to R112) -/

/-- A row without a disturbance decodes clean, whatever mats are marked (R116). -/
theorem rowDecode_undisturbed (marks : List Nat) (free : Nat) : rowDecode marks [] free = .clean := rfl

theorem exec_rowRead_eq (t die row : Nat) (ask : PortAsk) (errs : List Flip) (fails : Nat) (s : State) :
    exec (.rowRead t die row ask errs fails) s = execRowRead t die row ask errs fails s := rfl

section
variable {t die row ini mask fails : Nat} {data : List Byte} {cell : Option CellWord} {errs : List Flip} {rivals : List Nat} {s : State}
variable (isOpen : rowOpen s t die row = true) (takes : portTakes s t (portOf die row) ini rivals = true)
include isOpen takes

/-- The port takes the request: the test in front of the three row commands passes. -/
theorem rowRequest_taken : (!rowOpen s t die row || !portTakes s t (portOf die row) ini rivals) = false := by
  rw [isOpen, takes]
  rfl

theorem exec_rowRead_clean (few : fails < 3) :
    let a := portAccept s t (portOf die row) ini
    let v := rowInjections a t die (rowBytes a t die row)
    Tab.get false v.badRows (rowKey t die row) = false → exec (.rowRead t die row ⟨ini, rivals⟩ [] fails) s = .next
      (portAnswer (crossing v t die row fails) t die row { initiator := ini, data := rowBytes a t die row, bad := false, ok := true }) := by
  intro a v unmarked
  have crosses : ¬ 3 ≤ fails := Nat.not_le.2 few
  simp only [exec_rowRead_eq, execRowRead, rowRequest_taken isOpen takes, rowDecode_undisturbed, v, a] at unmarked ⊢
  simp only [unmarked, crosses, decide_false, Bool.or_self, Bool.false_eq_true, if_false]

theorem exec_rowWrite (few : fails < 3) :
    let u := crossing (portAccept s t (portOf die row) ini) t die row fails
    exec (.rowWrite t die row ⟨ini, rivals⟩ data cell fails) s = .next
      (portAnswer (putCell (setBadRow { u with mem := wrBytes u.mem (rowKey t die row * 1024) (fit 1024 data) } (rowKey t die row) false)
        t die row cell) t die row { initiator := ini, data := [], bad := false, ok := true }) := by
  simp only [exec_rowWrite_eq, execRowWrite, rowRequest_taken isOpen takes, Nat.not_le.2 few, Bool.false_eq_true, if_false]

theorem exec_rowWrite_failed (fail : 3 ≤ fails) : exec (.rowWrite t die row ⟨ini, rivals⟩ data cell fails) s = .next
    (writeFailure (crossing (portAccept s t (portOf die row) ini) t die row fails) t die row ini) := by
  simp only [exec_rowWrite_eq, execRowWrite, rowRequest_taken isOpen takes, fail, Bool.false_eq_true, if_false, if_true]

theorem exec_maskedRowWrite_failed (fail : 3 ≤ fails) :
    exec (.maskedRowWrite t die row ⟨ini, rivals⟩ mask data cell errs fails) s = .next
      (writeFailure (crossing (portAccept s t (portOf die row) ini) t die row fails) t die row ini) := by
  simp only [exec_maskedRowWrite_eq, execMaskedRowWrite, rowRequest_taken isOpen takes, fail, Bool.false_eq_true, if_false, if_true]

theorem exec_maskedRowWrite_marked (few : fails < 3) :
    let u := crossing (portAccept s t (portOf die row) ini) t die row fails
    Tab.get false u.badRows (rowKey t die row) = true → exec (.maskedRowWrite t die row ⟨ini, rivals⟩ mask data cell errs fails) s =
      .next (writeFailure (foundBad u t die row) t die row ini) := by
  intro u marked
  simp only [exec_maskedRowWrite_eq, execMaskedRowWrite, rowRequest_taken isOpen takes, Nat.not_le.2 few, u, marked,
    Bool.false_eq_true, if_false, if_true]

/-- The merged row is stored: `maskedMerge` of the data over what stood there. -/
theorem exec_maskedRowWrite_clean (few : fails < 3) :
    let u := crossing (portAccept s t (portOf die row) ini) t die row fails
    let w := rowInjections u t die (rowBytes u t die row)
    Tab.get false u.badRows (rowKey t die row) = false → exec (.maskedRowWrite t die row ⟨ini, rivals⟩ mask data cell [] fails) s =
      .next (portAnswer (putCell { w with mem := wrBytes w.mem (rowKey t die row * 1024) (maskedMerge mask data (rowBytes w t die row)) }
        t die row cell) t die row { initiator := ini, data := [], bad := false, ok := true }) := by
  intro u w unmarked
  simp only [exec_maskedRowWrite_eq, execMaskedRowWrite, rowRequest_taken isOpen takes, Nat.not_le.2 few, u, w, unmarked,
    rowDecode_undisturbed, maskedMerge, Bool.false_eq_true, if_false]

end

end Sys2Proof.Machine

section
open Sys2Proof Sys2Proof.Machine

/-- Settles O7: by one equation for each way that a taken row request goes, the crossing's failures
and the row's mark told apart. -/
theorem rowPortsReadAndWriteRows : Obligations.RowPortsReadAndWriteRows := by
  unfold Obligations.RowPortsReadAndWriteRows
  intro t die row ini mask fails data cell errs rivals s isOpen takes k a u v w
  exact ⟨fun unmarked few => exec_rowRead_clean isOpen takes few unmarked, exec_rowWrite isOpen takes,
    fun fail => ⟨exec_rowWrite_failed isOpen takes fail, exec_maskedRowWrite_failed isOpen takes fail⟩,
    fun marked few => exec_maskedRowWrite_marked isOpen takes few marked,
    fun unmarked few => exec_maskedRowWrite_clean isOpen takes few unmarked⟩
end

namespace Sys2Proof.Machine

/-! ### Refresh, scrub and self-refresh of a die (R121, R122, R124) -/

section
variable (s : State)

theorem exec_refresh_eq (t die bank : Nat) (due waiting : Bool) :
    exec (.refresh t die bank due waiting) s = execRefresh t die bank due waiting s := rfl

theorem exec_patrolScrubRow_eq (t die : Nat) (errs : List Flip) :
    exec (.patrolScrubRow t die errs) s = execPatrolScrubRow t die errs s := rfl

theorem exec_selfRefreshDrainDone_eq (t die : Nat) : exec (.selfRefreshDrainDone t die) s = execSelfRefreshDrainDone t die s := rfl

theorem exec_selfRefreshExit_eq (t die fails : Nat) : exec (.selfRefreshExit t die fails) s = execSelfRefreshExit t die fails s := rfl

theorem exec_rowRateStepEscalate_eq (t : Nat) : exec (.rowRateStepEscalate t) s = execRowRateStepEscalate t s := rfl

theorem exec_rowRateStepUp_eq (t : Nat) : exec (.rowRateStepUp t) s = execRowRateStepUp t s := rfl

end

/-- A die that is built belongs to a tile of the package. -/
theorem dieBuilt_tile_lt {s : State} {t die : Nat} (h : dieBuilt s t die = true) : t < 24 := by
  simp only [dieBuilt, Bool.and_eq_true, decide_eq_true_eq] at h
  obtain ⟨⟨inPackage, -⟩, -⟩ := h
  exact inPackage

section
variable {t die : Nat} {s : State} (built : dieBuilt s t die = true)
include built

/-- A refresh that falls due, or one that is still owed: it is owed on while the bank's requests may
postpone it, and made otherwise (R121). -/
theorem exec_refresh {bank : Nat} {due waiting : Bool} (on : (getDie s t die).state ≠ 0) (inDie : bank < 256) :
    let owed := Tab.get 0 (getDie s t die).owed bank + b2n due
    1 ≤ owed → exec (.refresh t die bank due waiting) s = .next (
      if waiting && decide (owed ≤ 8) then modDie s t die (fun x => { x with owed := Tab.put 0 x.owed bank owed })
      else modDie s t die (fun x => { x with owed := Tab.put 0 x.owed bank (owed - 1),
                                             refreshNext := Tab.mod 0 x.refreshNext bank (fun n => (n + 1) % 4096) })) := by
  intro owed some
  have notNone : ¬ owed = 0 := Nat.ne_of_gt some
  simp only [exec_refresh_eq, execRefresh, built, on, Nat.not_le.2 inDie, decide_false, Bool.not_true, Bool.or_self,
    Bool.false_eq_true, if_false]
  rw [if_neg notNone]
  split <;> rfl

theorem exec_patrolScrubRow {errs : List Flip} (on : (getDie s t die).state ≠ 0) (awake : (getDie s t die).state ≠ 2)
    (goes : rdE s 0xF000 0xA ≠ 1) :
    let n := ((getDie s t die).scrubPos + 1) % 2 ^ 23
    exec (.patrolScrubRow t die errs) s = .next (modDie (scrubRow s 0 t die (getDie s t die).scrubPos errs) t die
      (fun y => { (if n = 0 then newPass 0 y else y) with scrubPos := n })) := by
  simp only [exec_patrolScrubRow_eq, execPatrolScrubRow, built, on, awake, goes, decide_false, Bool.not_true, Bool.or_self,
    Bool.false_eq_true, if_false]

theorem exec_selfRefreshDrainDone (active : (getDie s t die).state = 1) (draining : (getDie s t die).draining = true)
    (idle : runsDescriptor s t = false) :
    exec (.selfRefreshDrainDone t die) s = .next (modDie s t die (fun x => { x with state := 2, draining := false })) := by
  simp only [exec_selfRefreshDrainDone_eq, execSelfRefreshDrainDone, built, active, draining, idle, ne_eq, not_true, decide_false,
    Bool.not_true, Bool.or_self, Bool.false_eq_true, if_false]

/-- The exit: the die is Active where every port passes, and waits for recalibration otherwise. -/
theorem exec_selfRefreshExit {fails : Nat} (sleeps : (getDie s t die).state = 2) (rails : s.boot.mainOn = true)
    (wakes : s.fc.closed = false ∨ s.fc.waking = true) :
    exec (.selfRefreshExit t die fails) s = .next (
      if fails = 0 then modDie s t die (fun x => { x with state := 1 })
      else modDie (bumpN s (0x6300 + t) 5 fails) t die (fun x => { x with state := 3 })) := by
  have opens : (s.fc.closed && !s.fc.waking) = false := by
    rw [Bool.and_eq_false_iff, Bool.not_eq_false']
    exact wakes
  simp only [exec_selfRefreshExit_eq, execSelfRefreshExit, built, sleeps, rails, opens, ne_eq, not_true, decide_false,
    Bool.not_true, Bool.or_self, Bool.false_eq_true, if_false]
  split <;> rfl

end

/-! ### Row-rate steps (R129, R130) -/

section
variable {t : Nat} {s : State} (inPackage : t < 24)
include inPackage

theorem exec_rowRateStepEscalate (step : (getTile s t).rowStep = 2 ∨ (getTile s t).rowStep = 3) (hot : 2 ≤ tileStage s t) :
    exec (.rowRateStepEscalate t) s =
      .next (setRowStep (advanceTo s ((getTile s t).rowStepSince + msPs)) t ((getTile s t).rowStep + 1)) := by
  have moves : (decide ((getTile s t).rowStep = 2) || decide ((getTile s t).rowStep = 3)) = true := by
    rw [Bool.or_eq_true, decide_eq_true_eq, decide_eq_true_eq]
    exact step
  simp only [exec_rowRateStepEscalate_eq, execRowRateStepEscalate, moves, Nat.not_le.2 inPackage, Nat.not_lt.2 hot, decide_false,
    Bool.not_true, Bool.or_self, Bool.false_eq_true, if_false]

theorem exec_rowRateStepUp (slowed : (getTile s t).rowStep ≠ 0) (calm : stepHolds s t (getTile s t).rowStep = false) :
    exec (.rowRateStepUp t) s =
      .next (setRowStep (advanceTo s ((getTile s t).rowCalm + 10 * msPs)) t ((getTile s t).rowStep - 1)) := by
  simp only [exec_rowRateStepUp_eq, execRowRateStepUp, slowed, calm, Nat.not_le.2 inPackage, decide_false, Bool.or_self,
    Bool.false_eq_true, if_false]

end

end Sys2Proof.Machine

section
open Sys2Proof Sys2Proof.Machine

/-- Settles O8: by one equation for each command of a die that is built, the two ends of a refresh
and of a self-refresh told apart, and for the two moves of the row-rate step. -/
theorem refreshScrubAndSelfRefreshKeepADie : Obligations.RefreshScrubAndSelfRefreshKeepADie := by
  unfold Obligations.RefreshScrubAndSelfRefreshKeepADie
  intro t die bank due waiting errs fails s built x owed
  have inPackage := dieBuilt_tile_lt built
  refine ⟨fun on inDie waits some few => ?_, fun on inDie some made => ?_, exec_patrolScrubRow built, exec_selfRefreshDrainDone built,
    fun sleeps rails wakes => ?_, fun sleeps rails wakes failed => ?_, exec_rowRateStepEscalate inPackage, exec_rowRateStepUp inPackage⟩
  · have postponed : (waiting && decide (owed ≤ 8)) = true := by rw [waits, decide_eq_true few]; rfl
    exact (exec_refresh built on inDie some).trans (by rw [if_pos postponed])
  · have due : ¬ (waiting && decide (owed ≤ 8)) = true := by
      rw [Bool.and_eq_true, decide_eq_true_eq]
      rintro ⟨waits, few⟩
      exact made.elim (ne_false_of_eq_true waits) (Nat.not_lt.2 few)
    exact (exec_refresh built on inDie some).trans (by rw [if_neg due])
  · rw [exec_selfRefreshExit built sleeps rails wakes, if_pos rfl]
  · rw [exec_selfRefreshExit built sleeps rails wakes, if_neg (Nat.ne_of_gt failed)]
end

namespace Sys2Proof.Machine

/-! ### Demand scrub, fill and the clearing of confirmed faults (R126, R127, R154) -/

section
variable (s : State)

theorem exec_demandScrub_eq (r : VdpReq) : exec (.demandScrub r) s = execDemandScrub r s := rfl

theorem exec_demandScrubDone_eq (errs : List RowErr) : exec (.demandScrubDone errs) s = execDemandScrubDone errs s := rfl

theorem exec_fill_eq (r : VdpReq) : exec (.fill r) s = execFill r s := rfl

theorem exec_fillDone_eq : exec .fillDone s = execFillDone s := rfl

theorem exec_clearConfirmedFaults_eq (t : Nat) (r : VdpReq) :
    exec (.clearConfirmedFaults t r) s = execClearConfirmedFaults t r s := rfl

end

section
variable {s : State} (sel : Tab Nat) (v : List Byte)

theorem startDemandScrub_free (free : opRunning s 3 = false) :
    let n := (namedTiles s (leNat v)).length
    let u := startOp s 3 (n * 3 * 2 ^ 23) (leNat v)
    startDemandScrub s sel v = { s := if n = 0 then endOp u 3 2 0 0 else u } := by
  simp only [startDemandScrub, free, Bool.false_eq_true, if_false]

theorem startFill_free (free : opRunning s 4 = false) (whole : fillRangeOk (rdE s 0x6400 4) (rdE s 0x6400 5) = true) :
    let n := (namedTiles s (leNat v)).length
    let u := startOp s 4 (n * (rdE s 0x6400 5 / 1024)) (leNat v)
    let w := putOp u 4 { getOp u 4 with latched := [rdE s 0x6400 3, rdE s 0x6400 4, rdE s 0x6400 5] }
    startFill s sel v = { s := if n = 0 then endOp w 4 2 0 0 else w } := by
  simp only [startFill, free, whole, Bool.not_true, Bool.false_eq_true, if_false]

theorem startFill_refused (free : opRunning s 4 = false) (ragged : fillRangeOk (rdE s 0x6400 4) (rdE s 0x6400 5) = false) :
    startFill s sel v = { s := s, status := stRefused } := by
  simp only [startFill, free, ragged, Bool.not_false, Bool.false_eq_true, if_false, if_true]

end

section
variable {r : VdpReq} {s : State}

theorem exec_demandScrub (ok : granted s (atEntry r 0x6400 2) = true) (free : opRunning s 3 = false) :
    let n := (namedTiles s (leNat r.data)).length
    let u := startOp s 3 (n * 3 * 2 ^ 23) (leNat r.data)
    exec (.demandScrub r) s = .next (served { s := if n = 0 then endOp u 3 2 0 0 else u } (atEntry r 0x6400 2)) := by
  have starts := startDemandScrub_free (selects s (atEntry r 0x6400 2)) r.data free
  rw [exec_demandScrub_eq, execDemandScrub, vdpEntry_served ok rfl (congrArg Effect.status starts)]
  exact congrArg (fun e => Host.Outcome.next (served e _)) starts

theorem exec_fill (ok : granted s (atEntry r 0x6400 6) = true) (free : opRunning s 4 = false)
    (whole : fillRangeOk (rdE s 0x6400 4) (rdE s 0x6400 5) = true) :
    let n := (namedTiles s (leNat r.data)).length
    let u := startOp s 4 (n * (rdE s 0x6400 5 / 1024)) (leNat r.data)
    let v := putOp u 4 { getOp u 4 with latched := [rdE s 0x6400 3, rdE s 0x6400 4, rdE s 0x6400 5] }
    exec (.fill r) s = .next (served { s := if n = 0 then endOp v 4 2 0 0 else v } (atEntry r 0x6400 6)) := by
  have starts := startFill_free (selects s (atEntry r 0x6400 6)) r.data free whole
  rw [exec_fill_eq, execFill, vdpEntry_served ok rfl (congrArg Effect.status starts)]
  exact congrArg (fun e => Host.Outcome.next (served e _)) starts

theorem exec_fill_refused (ok : granted s (atEntry r 0x6400 6) = true) (free : opRunning s 4 = false)
    (ragged : fillRangeOk (rdE s 0x6400 4) (rdE s 0x6400 5) = false) :
    exec (.fill r) s = .next (answer s (atEntry r 0x6400 6) (respOf (atEntry r 0x6400 6) stRefused 0 [])) := by
  have refuses := startFill_refused (selects s (atEntry r 0x6400 6)) (atEntry r 0x6400 6).data free ragged
  have failed : (startFill s (selects s (atEntry r 0x6400 6)) (atEntry r 0x6400 6).data).status ≠ 0 := by
    rw [refuses]
    exact (by decide : stRefused ≠ 0)
  rw [exec_fill_eq, execFill, vdpEntry_refused ok rfl failed, refuses]

theorem exec_clearConfirmedFaults {t : Nat} (ok : granted s (atEntry r (instIndex 0x6600 24 t) 6) = true) :
    exec (.clearConfirmedFaults t r) s = .next (served { s := clearCounts s t } (atEntry r (instIndex 0x6600 24 t) 6)) := by
  rw [exec_clearConfirmedFaults_eq, execClearConfirmedFaults, vdpEntry_served ok rfl rfl]

/-- The scrub goes over the named tiles, and ends at its total. -/
theorem exec_demandScrubDone {errs : List RowErr} (runs : opRunning s 3 = true) :
    let u := (namedTiles s (getOp s 3).arg).foldl (fun s t => demandTile s errs t) s
    exec (.demandScrubDone errs) s = .next (endOp u 3 2 0 (getOp u 3).total) := by
  simp only [exec_demandScrubDone_eq, execDemandScrubDone, runs, Bool.not_true, Bool.false_eq_true, if_false]

theorem exec_fillDone (runs : opRunning s 4 = true) :
    exec .fillDone s = .next (endOp (fillRows s (getOp s 4).total) 4 2 0 (getOp s 4).total) := by
  simp only [exec_fillDone_eq, execFillDone, runs, Bool.not_true, Bool.false_eq_true, if_false]

end

end Sys2Proof.Machine

section
open Sys2Proof Sys2Proof.Machine

/-- Settles O9: by what the two starts do with a granted value (`startDemandScrub_free`,
`startFill_free`, `startFill_refused`), and by the ends of the operations. -/
theorem scrubFillAndClearCommandsRun : Obligations.ScrubFillAndClearCommandsRun := by
  unfold Obligations.ScrubFillAndClearCommandsRun
  exact ⟨fun r s => exec_demandScrub, fun errs s => exec_demandScrubDone,
    fun r s ok free => ⟨exec_fill ok free, exec_fill_refused ok free⟩, fun s => exec_fillDone,
    fun t r s => exec_clearConfirmedFaults⟩
end

namespace Sys2Proof.Machine

/-! ### Requests that are refused or handed on (R278, R282) -/

section
variable {s : State} {st n : Nat} {p : Pkt} {aligned : Bool} (torn : tornDown s p = false)
include torn

theorem checked_of_ok {x : Target} {f : State → Target → State} (h : checkRequest s st p n aligned = .ok x) :
    checked s st p n aligned f = f s x := by
  simp only [checked, torn, h, Bool.false_eq_true, if_false]

/-- A request that its checks refuse, but not for a sleep, is answered with their status. -/
theorem checked_of_error {e : Refused} {f : State → Target → State} (h : checkRequest s st p n aligned = .error e)
    (awake : e.status ≠ fsAsleep) : checked s st p n aligned f = refuseReq s st p e.status e.detail := by
  simp only [checked, answerRefused, torn, h, awake, Bool.false_eq_true, if_false]

/-- A request to a guest's region that passes its checks is the guest's to perform. -/
theorem serve_of_guest {x : Target} {f : State → Target → State} (guest : isGuest st = true)
    (h : checkRequest s st p n aligned = .ok x) : serve s st p n aligned f = emit s (.arrived st p) := by
  simp only [serve, checked_of_ok torn h, guest, if_true]

end

/-! ### LOAD (R118, R292) -/

/-- A raw read of marked rows: their bytes as poison in POISON mode, containment otherwise. -/
theorem rawFetch_marked {s : State} {t a n : Nat} {flips : List Flip} (h : anyBadRow s t a n = true) :
    let u := readBadRows s t a n
    rawFetch s t a n flips = if poisonMode u then (u, .ok (bytesAt s t a n, true)) else (containRange u t a n, .error fsMemory) := by
  simp only [rawFetch, h, if_true]

section
variable {s u : State} {st : Nat} {p : Pkt} {x : Target} {first again : List Flip}
variable (torn : tornDown s p = false) (guest : isGuest st = false)
variable (ok : checkRequest s st p (loadLength p) (rangeAligned (gaOffset (qAddr p)) (loadLength p)) = .ok x)
include torn guest ok

section
variable (raw : isBlockReq (gaOffset (qAddr p)) (loadLength p) (qTid p) = false)
include raw

theorem exec_loadReq_raw {d : List Byte} {poison : Bool} (read : rawFetch s x.tile x.addr (loadLength p) first = (u, .ok (d, poison))) :
    exec (.loadReq st p first again) s = .next (performed u st p 0 0 d poison) := by
  refine congrArg Host.Outcome.next ((serve_of_ok torn guest ok).trans ?_)
  simp only [raw, read, Bool.false_eq_true, if_false]

theorem exec_loadReq_raw_failed {status : Nat} (read : rawFetch s x.tile x.addr (loadLength p) first = (u, .error status)) :
    exec (.loadReq st p first again) s = .next (refuseReq u st p status 0) := by
  refine congrArg Host.Outcome.next ((serve_of_ok torn guest ok).trans ?_)
  simp only [raw, read, Bool.false_eq_true, if_false]

end

section
variable (block : isBlockReq (gaOffset (qAddr p)) (loadLength p) (qTid p) = true)
include block

theorem exec_loadReq_block {d : List Byte} {poison : Bool}
    (read : routerFetch s x.tile x.addr (qTid p) (qBlk p) first again = (u, .ok (d, poison))) :
    exec (.loadReq st p first again) s = .next (performed u st p 0 (stitchOf d (qTid p) (qBlk p)).toNat d poison) := by
  refine congrArg Host.Outcome.next ((serve_of_ok torn guest ok).trans ?_)
  simp only [block, read, if_true]

theorem exec_loadReq_block_failed {status detail : Nat}
    (read : routerFetch s x.tile x.addr (qTid p) (qBlk p) first again = (u, .error (status, detail))) :
    exec (.loadReq st p first again) s = .next (refuseReq u st p status detail) := by
  refine congrArg Host.Outcome.next ((serve_of_ok torn guest ok).trans ?_)
  simp only [block, read, if_true]

end

end

/-! ### STORE and MSTORE (R111, R118, R293, R296) -/

section
variable {s : State} {x : Target} {p : Pkt} {block : Bool}

theorem storeData_mismatch {fails : Bool} (h : block = true) (differs : (stitchOf (qData p) (qTid p) (qBlk p)).toNat ≠ qOperand p) :
    storeData s x p block fails = (s, .mismatch (stitchOf (qData p) (qTid p) (qBlk p))) := by
  simp only [storeData, h, ne_eq, differs, not_false_eq_true, decide_true, Bool.and_self, if_true]

/-- A row write that fails stores nothing, once the stitch is seen to fit. -/
theorem storeData_fails (h : block = false ∨ (stitchOf (qData p) (qTid p) (qBlk p)).toNat = qOperand p) :
    storeData s x p block true = (s, .memory) := by
  obtain rfl | fits := h
  · rfl
  · simp only [storeData, fits, ne_eq, not_true, decide_false, Bool.and_false, Bool.false_eq_true, if_false, if_true]

theorem storeData_block (h : block = true) (fits : (stitchOf (qData p) (qTid p) (qBlk p)).toNat = qOperand p) :
    storeData s x p block false = (writeBlock s x.tile x.addr (qTid p) (qBlk p) (qData p) p.poison, .done) := by
  simp only [storeData, h, fits, ne_eq, not_true, decide_false, Bool.and_false, Bool.false_eq_true, if_false, if_true]

theorem storeData_bytes (h : block = false) (taken : writeRefused s x.tile x.addr (qData p).length = false) :
    storeData s x p block false = (rawWrite s x.tile x.addr (qData p), .done) := by
  simp only [storeData, h, taken, Bool.false_and, Bool.false_eq_true, if_false]

theorem storeData_bytes_refused (h : block = false) (refused : writeRefused s x.tile x.addr (qData p).length = true) :
    storeData s x p block false = (countRefused s x.tile x.addr (qData p).length, .memory) := by
  simp only [storeData, h, refused, Bool.false_and, Bool.false_eq_true, if_false, if_true]

end

section
variable {s u : State} {st : Nat} {p : Pkt} {x : Target} {fails : Bool} (torn : tornDown s p = false)
variable (ok : checkRequest s st p (qData p).length (rangeAligned (gaOffset (qAddr p)) (qData p).length) = .ok x)
include torn ok

theorem exec_mstoreReq_guest (guest : isGuest st = true) : exec (.mstoreReq st p fails) s = .next (emit s (.arrived st p)) := by
  refine (if_neg (ne_true_of_eq_false torn)).trans ?_
  simp only [ok, guest, if_true]

variable (guest : isGuest st = false)
include guest

/-- A STORE is answered by what becomes of its data. -/
theorem exec_storeReq {y : Stored} (stored : storeData s x p
      (isBlockReq (gaOffset (qAddr p)) (qData p).length (qTid p) && decide (x.addr % 4096 = 0)) fails = (u, y)) :
    exec (.storeReq st p fails) s = .next (match y with
      | .mismatch c => complete u st p fsStitch 0 c.toNat [] false
      | .memory => refuseReq u st p fsMemory 0
      | .done => performed u st p 0 0 [] false) := by
  refine congrArg Host.Outcome.next ((serve_of_ok torn guest ok).trans ?_)
  simp only [stored]
  cases y <;> rfl

theorem exec_mstoreReq_done
    (stored : storeData s x p (isBlockReq (gaOffset (qAddr p)) (qData p).length (qTid p)) fails = (u, .done)) :
    exec (.mstoreReq st p fails) s = .next (signalPacket u st p).1 := by
  refine (if_neg (ne_true_of_eq_false torn)).trans ?_
  simp only [ok, guest, stored, Bool.false_eq_true, if_false]

end

end Sys2Proof.Machine

section
open Sys2Proof Sys2Proof.Machine

/-- Settles O20: the checks decide whether a request's operation runs (`serve_of_ok`,
`serve_of_guest`, `checked_of_ok`, `checked_of_error`); what it answers follows what its read gives
or what becomes of its data (`storeData`). -/
theorem admittedRequestsReadAndWriteTheirTarget : Obligations.AdmittedRequestsReadAndWriteTheirTarget := by
  unfold Obligations.AdmittedRequestsReadAndWriteTheirTarget
  intro st p x s torn off n
  refine ⟨fun ok guest => ⟨fun raw clean => exec_loadReq_raw torn guest ok raw (rawFetch_clean clean),
      fun first again raw marked => ⟨fun poison => ?_, fun contain => ?_⟩,
      fun first again u d poison block read => exec_loadReq_block torn guest ok block read,
      fun first again u status detail block read => exec_loadReq_block_failed torn guest ok block read⟩,
    fun ok guest => ?_, fun guest first again fails => ⟨fun ok => ?_, fun ok => ⟨?_, exec_mstoreReq_guest torn ok guest⟩⟩,
    fun ok => ?_, fun e awake first again fails => ⟨fun bad => ?_, fun bad => ?_, fun bad => ?_⟩⟩
  · exact exec_loadReq_raw torn guest ok raw ((rawFetch_marked marked).trans (if_pos poison))
  · exact exec_loadReq_raw_failed torn guest ok raw ((rawFetch_marked marked).trans (if_neg (ne_true_of_eq_false contain)))
  · exact ⟨fun bytes taken => exec_storeReq torn ok guest (storeData_bytes bytes taken),
      fun bytes taken => exec_mstoreReq_done torn ok guest (storeData_bytes bytes taken),
      fun bytes refused => exec_storeReq torn ok guest (storeData_bytes_refused bytes refused),
      fun block fits => exec_storeReq torn ok guest (storeData_block block fits),
      fun block fits => exec_mstoreReq_done torn ok guest (storeData_block block fits),
      fun fails block differs => exec_storeReq torn ok guest (storeData_mismatch block differs),
      fun h => exec_storeReq torn ok guest (storeData_fails h)⟩
  · exact congrArg Host.Outcome.next (serve_of_guest torn guest ok)
  · exact congrArg Host.Outcome.next (serve_of_guest torn guest ok)
  · exact congrArg Host.Outcome.next (checked_of_ok torn ok)
  · exact congrArg Host.Outcome.next (checked_of_error torn bad awake)
  · exact congrArg Host.Outcome.next (checked_of_error torn bad awake)
  · exact congrArg Host.Outcome.next (checked_of_error torn bad awake)
end

namespace Sys2Proof.Machine

/-! ### Tile resets, self-tests and renumbering (R27, R146, R149, R395, R515) -/

section
variable (s : State)

theorem exec_tileResetComplete_eq (t : Nat) : exec (.tileResetComplete t) s = execTileResetComplete t s := rfl

theorem exec_selfTest_eq (u : UnitId) (passes : Bool) : exec (.selfTest u passes) s = execSelfTest u passes s := rfl

theorem exec_renumbering_eq : exec .renumbering s = execRenumbering s := rfl

theorem exec_startSelfTest_eq (r : VdpReq) : exec (.startSelfTest r) s = execStartSelfTest r s := rfl

theorem exec_clockLockLoss_eq (t : Nat) : exec (.clockLockLoss t) s = execClockLockLoss t s := rfl

end

/-- A reset ends once the rail is good and the Seam has passed; the tile of a retirement that is
pending or made stays in it (R149, R497). -/
theorem exec_tileResetComplete {t : Nat} {x : TileReset} {s : State} (inReset : (getTile s t).reset = some x)
    (rail : (getTile s t).railLow = false) (seam : seamHeld s t = false) :
    let u := clearOnDie s t
    exec (.tileResetComplete t) s = .next (modTile u t (fun tl =>
      { tl with sync := [], sCores := [], mQueue := [], vQueue := [], mip17 := false, portResp := [],
                reset := if bit u.pendingTiles t || bit u.retiredTiles t then some x else none })) := by
  simp only [exec_tileResetComplete_eq, execTileResetComplete, finishReset, inReset, rail, seam, Bool.or_self, Bool.false_eq_true,
    if_false]

section
variable {u : UnitId} {passes : Bool} {t0 : Nat} {s : State} (ready : s.boot.readyAt = some t0) (isOpen : unitOpen s u = true)
include ready isOpen

theorem exec_selfTest_commanded (wanted : testWanted s u = true) :
    exec (.selfTest u passes) s = .next (commandedTest s u passes) := by
  simp only [exec_selfTest_eq, execSelfTest, ready, isOpen, wanted, Bool.not_true, Bool.false_eq_true, if_false, if_true]

/-- A periodic test falls due 600 s after READY, or when the last one set it (R146). -/
theorem exec_selfTest_periodic (unwanted : testWanted s u = false) :
    let due := Tab.get 0 (getTile s (unitTile u)).testDue (unitKey u)
    let v := runSelfTest (advanceTo s (if due = 0 then t0 + 600 * secPs else due)) u passes
    exec (.selfTest u passes) s = .next (modTile v (unitTile u) (fun tl =>
      { tl with testDue := Tab.put 0 tl.testDue (unitKey u) (v.now + (if 1 ≤ confCount v u then 10 else 600) * secPs) })) := by
  simp only [exec_selfTest_eq, execSelfTest, ready, isOpen, unwanted, Bool.not_true, Bool.false_eq_true, if_false]

end

theorem exec_renumbering {s : State} (idle : noJobs s = true) (pending : retirementPending s = true)
    (ready : s.boot.readyAt.isSome = true) : exec .renumbering s = .next (renumber s) := by
  simp only [exec_renumbering_eq, execRenumbering, idle, pending, ready, Bool.and_self, if_true]

theorem startSelfTest_free {s : State} (sel : Tab Nat) (v : List Byte) (free : opRunning s 2 = false) :
    startSelfTest s sel v =
      { s := endTests { startOp s 2 (maskUnits s (leNat v)).length (leNat v) with tested := [] } } := by
  simp only [startSelfTest, free, Bool.false_eq_true, if_false]

theorem exec_startSelfTest {r : VdpReq} {s : State} (ok : granted s (atEntry r 0x8200 1) = true) (free : opRunning s 2 = false)
    (named : leNat r.data < 2 ^ 24) :
    exec (.startSelfTest r) s = .next (served
      { s := endTests { startOp s 2 (maskUnits s (leNat r.data)).length (leNat r.data) with tested := [] } } (atEntry r 0x8200 1)) := by
  have starts := startSelfTest_free (selects s (atEntry r 0x8200 1)) r.data free
  rw [exec_startSelfTest_eq, execStartSelfTest, vdpEntry_served ok (decide_eq_true named) (congrArg Effect.status starts)]
  exact congrArg (fun e => Host.Outcome.next (served e _)) starts

theorem exec_clockLockLoss {t : Nat} {s : State} (isOpen : tileOpen s t = true) :
    exec (.clockLockLoss t) s = .next (tileReset (confirmedFault (tileReport s 0x1B t 0 0) (.tile t)) t 3 0) := by
  simp only [exec_clockLockLoss_eq, execClockLockLoss, isOpen, Bool.not_true, Bool.false_eq_true, if_false]

end Sys2Proof.Machine

section
open Sys2Proof Sys2Proof.Machine

/-- Settles O10: by one equation for each command, the commanded and the periodic self-test told
apart by what the unit awaits. -/
theorem tileResetSelfTestAndRenumberingEndAsStated : Obligations.TileResetSelfTestAndRenumberingEndAsStated := by
  unfold Obligations.TileResetSelfTestAndRenumberingEndAsStated
  exact ⟨fun t x s => exec_tileResetComplete,
    fun u passes t0 s ready isOpen => ⟨exec_selfTest_commanded ready isOpen, exec_selfTest_periodic ready isOpen⟩,
    fun s => exec_renumbering, fun r s => exec_startSelfTest, fun t s => exec_clockLockLoss⟩
end

namespace Sys2Proof.Machine

/-! ### The end of a tracker entry (R288, R300) -/

section
variable (s : State)

theorem exec_completion_eq (st : Nat) (p : Pkt) (first again : List Flip) :
    exec (.completion st p first again) s = execCompletion st p first again s := rfl

theorem exec_requestTimeout_eq (st tag : Nat) : exec (.requestTimeout st tag) s = execRequestTimeout st tag s := rfl

theorem exec_tagQuarantineExpiry_eq (st tag : Nat) : exec (.tagQuarantineExpiry st tag) s = execTagQuarantineExpiry st tag s := rfl

theorem exec_tearDownSlice_eq (r : VdpReq) : exec (.tearDownSlice r) s = execTearDownSlice r s := rfl

theorem exec_teardownDone_eq : exec .teardownDone s = execTeardownDone s := rfl

end

/-- An answered entry of a tile ends in its queue, and its tag is free at once. -/
theorem endTrack_answered {s : State} {st tag : Nat} {x : Track} {status detail value flags : Nat} (tile : st < 24) :
    endTrack s st tag x status detail value flags true =
      endEntry (putTrack s st tag none) st x.queue x.index x.entry status detail value flags := by
  simp only [endTrack, tile, if_true]

/-! ### Stitch mismatches and the second sending (R143, R293) -/

/-- What a stitch mismatch of a block leads to: the first one sends the entry's packet again, the
second ends the entry. -/
def mismatched (s : State) (st tag : Nat) (x : Track) (c : DWord) (first again : List Flip) : State :=
  if x.twice then
    let y := secondMismatch s st x.entry x.first c
    endTrack y.1 st tag x fsStitch y.2 0 0 true
  else resendEntry s st tag x c first again

section
variable {s : State} {st tag : Nat} {x : Track} {p : Pkt} {c : DWord} {first again : List Flip}

theorem mismatched_eq (tile : st < 24) : mismatched s st tag x c first again =
    if x.twice = false then resendEntry s st tag x c first again
    else if x.first = c then
      endEntry (putTrack (pathFault (bump s 0x6500 3) st 0x09 x.entry) st tag none) st x.queue x.index x.entry fsStitch 1 0 0
    else endEntry (putTrack (pathFault (bump s 0x6500 4) st 0x0A x.entry) st tag none) st x.queue x.index x.entry fsStitch 2 0 0 := by
  unfold mismatched secondMismatch
  cases x.twice with
  | false => rfl
  | true =>
    simp only [Bool.true_eq_false, if_false, if_true]
    split
    · exact endTrack_answered tile
    · exact endTrack_answered tile

/-- The second sending ends the entry only where the data reads badly or no way is open. -/
theorem resendEntry_eq (tile : st < 24) : resendEntry s st tag x c first again =
    match sourceData s st x.entry first again with
    | (u, .error (status, detail)) => endEntry (putTrack u st tag none) st x.queue x.index x.entry status detail 0 0
    | (u, .ok (data, poison)) =>
      match sendNewPkt (putTrack u st tag (some { x with twice := true, first := c })) st
          (entryPkt x.queue x.slice tag x.nonce x.entry data poison) with
      | (v, 0) => v
      | (v, why) => endEntry (putTrack v st tag none) st x.queue x.index x.entry fsRoute why 0 0 := by
  unfold resendEntry
  obtain ⟨u, ⟨status, detail⟩ | ⟨data, poison⟩⟩ := sourceData s st x.entry first again
  · exact endTrack_answered tile
  · dsimp only
    obtain ⟨v, _ | why⟩ := sendNewPkt (putTrack u st tag (some { x with twice := true, first := c })) st
      (entryPkt x.queue x.slice tag x.nonce x.entry data poison)
    · rfl
    · exact endTrack_answered tile

/-! ### What an answer does, by the kind of its entry (R290, R292) -/

theorem landLoad_bytes (bytes : entryBlock x.entry = false) (taken : writeRefused s st (eLocal x.entry) (aData p).length = false) :
    landLoad s st tag x p =
      endTrack (rawWriteMarked s st (eLocal x.entry) (eTid x.entry) (eBlk x.entry) (aData p) p.poison) st tag x fsOk 0 0 0 true := by
  simp only [landLoad, bytes, taken, Bool.false_eq_true, if_false]

section
variable (block : entryBlock x.entry = true)
include block

theorem landLoad_block (fits : (stitchOf (aData p) (eTid x.entry) (eBlk x.entry)).toNat = aValue p) :
    landLoad s st tag x p = endTrack
      (writeBlock (maskedMismatch s st x) st (eLocal x.entry) (eTid x.entry) (eBlk x.entry) (aData p) p.poison) st tag x fsOk 0 0 0 true := by
  simp only [landLoad, block, fits, if_true]

theorem landLoad_mismatched (differs : (stitchOf (aData p) (eTid x.entry) (eBlk x.entry)).toNat ≠ aValue p) :
    landLoad s st tag x p = mismatched s st tag x (stitchOf (aData p) (eTid x.entry) (eBlk x.entry)) [] [] := by
  simp only [landLoad, mismatched, block, differs, if_true, if_false]

end

section
variable (tile : st < 24)
include tile

theorem takeAnswer_load (kind : eKind x.entry = 1) (ok : aStatus p = fsOk) :
    takeAnswer s st tag x p first again = landLoad s st tag x p := by
  have notBridge : ¬ st = 28 := by omega
  simp only [takeAnswer, notBridge, kind, ok, decide_true, Bool.and_self, if_false, if_true]

theorem takeAnswer_storeStitch (kind : eKind x.entry = 2) (block : entryBlock x.entry = true) (status : aStatus p = fsStitch)
    (detail : aDetail p = 0) :
    takeAnswer s st tag x p first again = mismatched s st tag x (BitVec.ofNat 64 (aValue p)) first again := by
  have notBridge : ¬ st = 28 := by omega
  have notLoad : ¬ (2 : Nat) = 1 := by decide
  simp only [takeAnswer, mismatched, notBridge, notLoad, kind, block, status, detail, decide_true, decide_false, Bool.false_and, Bool.and_self,
    Bool.false_eq_true, if_false, if_true]

section
variable (ok : aStatus p = fsOk)
include ok

theorem takeAnswer_storeOk (kind : eKind x.entry = 2) :
    takeAnswer s st tag x p first again = endTrack (maskedMismatch s st x) st tag x fsOk 0 0 0 true := by
  have notBridge : ¬ st = 28 := by omega
  have notStitch : ¬ fsOk = fsStitch := by decide
  simp only [takeAnswer, notBridge, notStitch, kind, ok, decide_false, Bool.false_and, Bool.and_false, Bool.false_eq_true,
    Nat.reduceEqDiff, if_false, if_true]

theorem takeAnswer_reduceOk (kind : eKind x.entry = 4) :
    takeAnswer s st tag x p first again = endTrack s st tag x fsOk 0 0 (aDetail p) true := by
  have notBridge : ¬ st = 28 := by omega
  simp only [takeAnswer, notBridge, kind, ok, decide_false, Bool.false_and, Bool.false_eq_true, Nat.reduceEqDiff, if_false, if_true]

/-- Every other kind but a LOAD ends with the answer's value. -/
theorem takeAnswer_valueOk (kind : eKind x.entry = 3 ∨ 5 ≤ eKind x.entry) :
    takeAnswer s st tag x p first again = endTrack s st tag x fsOk 0 (aValue p) 0 true := by
  have notBridge : ¬ st = 28 := by omega
  have notLoad : ¬ eKind x.entry = 1 := by omega
  have notStore : ¬ eKind x.entry = 2 := by omega
  have notReduce : ¬ eKind x.entry = 4 := by omega
  simp only [takeAnswer, notBridge, notLoad, notStore, notReduce, ok, decide_false, Bool.false_and, Bool.false_eq_true,
    if_false, if_true]

end

/-- Any other status ends the entry, but a STITCH that asks for a STORE's block once more. -/
theorem takeAnswer_failed (bad : aStatus p ≠ fsOk)
    (final : eKind x.entry = 2 ∧ aStatus p = fsStitch → entryBlock x.entry = false ∨ aDetail p ≠ 0) :
    takeAnswer s st tag x p first again =
      endTrack s st tag x (aStatus p) (aDetail p) (if aStatus p = fsLeaseHeld then aValue p else 0) 0 true := by
  have notBridge : ¬ st = 28 := by omega
  have notAgain : ¬ (decide (eKind x.entry = 2) && entryBlock x.entry && decide (aStatus p = fsStitch) && decide (aDetail p = 0)) = true := by
    simp only [Bool.and_eq_true, decide_eq_true_eq]
    rintro ⟨⟨⟨store, block⟩, stitch⟩, first⟩
    exact (final ⟨store, stitch⟩).elim (ne_false_of_eq_true block) (absurd first)
  simp only [takeAnswer, notBridge, notAgain, bad, decide_false, Bool.and_false, Bool.false_eq_true, if_false]

end

end

/-! ### Answers and their entries (R212, R300, R301) -/

section
variable {s : State} {st : Nat} {p : Pkt} {x : Track} {first again : List Flip}

section
variable (own : p.fabric = false) (entry : getTrack s st p.tag = some x)
include own entry

theorem exec_completion_taken (nonce : x.nonce = aNonce p) (live : s.fab.torn.contains p.slice = false) :
    exec (.completion st p first again) s = .next (takeAnswer s st p.tag x p first again) := by
  simp only [exec_completion_eq, execCompletion, own, entry, nonce, live, ne_eq, not_true, decide_false, Bool.or_self,
    Bool.false_eq_true, if_false]

theorem exec_completion_late (late : x.nonce ≠ aNonce p ∨ s.fab.torn.contains p.slice = true) :
    exec (.completion st p first again) s = .next (bump s 0x5600 4) := by
  have counted : (decide (x.nonce ≠ aNonce p) || s.fab.torn.contains p.slice) = true := by
    rw [Bool.or_eq_true, decide_eq_true_eq]
    exact late
  simp only [exec_completion_eq, execCompletion, own, entry, counted, Bool.false_eq_true, if_false, if_true]

end

theorem exec_completion_absorbed (own : p.fabric = false) (none : getTrack s st p.tag = none) :
    exec (.completion st p first again) s = .next (releaseTag (bump s 0x5600 4) st p.tag) := by
  simp only [exec_completion_eq, execCompletion, own, none, absorbAnswer, Bool.false_eq_true, if_false]

theorem exec_completion_fabric {slot : Nat} {r : CRun} (fabric : p.fabric = true)
    (run : runOf s (field p.body 12 4) (field p.body 8 4) = some (slot, r)) :
    exec (.completion st p first again) s = .next (failRun s slot (if aStatus p = fsTileReset then 8 else 9)) := by
  simp only [exec_completion_eq, execCompletion, fabric, collectiveAnswer, run, if_true]

/-- The deadline of an entry: it is counted, reported and ended. The engine's own entries of kind
0x60 have none. -/
theorem exec_requestTimeout {tag : Nat} (entry : getTrack s st tag = some x) (kind : eKind x.entry ≠ 0x60) :
    let u := bump (advanceTo s x.deadline) 0x5600 3
    let v := report u { cls := 0x40, kind := if st = 28 then 12 else 1, place := st, logical := logicalTile u st, slice := some x.slice
                        detail := fsTimeout, tag := eAddr x.entry }
    exec (.requestTimeout st tag) s = .next (drainEnded (endTrack v st tag x fsTimeout 0 0 0 false)) := by
  simp only [exec_requestTimeout_eq, execRequestTimeout, entry, kind, if_false]

theorem exec_tagQuarantineExpiry {tag : Nat} (held : Tab.get 0 s.fab.quar (trackKey st tag) ≠ 0) :
    exec (.tagQuarantineExpiry st tag) s = .next
      (releaseTag (advanceTo s (Tab.get 0 s.fab.quar (trackKey st tag))) st tag) := by
  simp only [exec_tagQuarantineExpiry_eq, execTagQuarantineExpiry, held, if_false]

end

/-! ### Teardown (R307) -/

theorem tearDown_free {s : State} (sel : Tab Nat) (v : List Byte) (free : rdE s 0x5600 0xA % 4 ≠ 1) :
    tearDown s sel v = { s := startTeardown s (leNat v) } := by
  simp only [tearDown, free, if_false]

theorem exec_tearDownSlice {r : VdpReq} {s : State} (ok : granted s (atEntry r 0x5600 9) = true) (free : rdE s 0x5600 0xA % 4 ≠ 1) :
    exec (.tearDownSlice r) s = .next (served { s := startTeardown s (leNat r.data) } (atEntry r 0x5600 9)) := by
  have starts := tearDown_free (selects s (atEntry r 0x5600 9)) r.data free
  rw [exec_tearDownSlice_eq, execTearDownSlice, vdpEntry_served ok rfl (congrArg Effect.status starts)]
  exact congrArg (fun e => Host.Outcome.next (served e _)) starts

theorem exec_teardownDone {s : State} (runs : rdE s 0x5600 0xA % 4 = 1) :
    exec .teardownDone s = .next (finishTeardown s (rdE s 0x5600 0xA / 256)) := by
  simp only [exec_teardownDone_eq, execTeardownDone, runs, if_true]

end Sys2Proof.Machine

section
open Sys2Proof Sys2Proof.Machine

/-- Settles O24: an answer that its entry takes (`exec_completion_taken`) ends it by its kind and
status (the lemmas about `takeAnswer`), a mismatched block by whether it was sent before
(`mismatched_eq`). -/
theorem answersTimeoutsAndTeardownEndEntries : Obligations.AnswersTimeoutsAndTeardownEndEntries := by
  unfold Obligations.AnswersTimeoutsAndTeardownEndEntries
  refine ⟨fun st p first again x s own entry => ?_, fun st p first again s => exec_completion_absorbed,
    fun st p first again s slot r => exec_completion_fabric, fun st tag x s => exec_requestTimeout,
    fun st tag s => exec_tagQuarantineExpiry, fun r s => exec_tearDownSlice, fun s => exec_teardownDone⟩
  intro e k ended mask resent again2
  refine ⟨fun nonce live tile => ?_, exec_completion_late own entry⟩
  have taken : ∀ {u v : State}, takeAnswer s st p.tag x p first again = u → u = v →
      exec (.completion st p first again) s = .next v :=
    fun takes same => (exec_completion_taken own entry nonce live).trans (congrArg _ (takes.trans same))
  have twiceSent : ∀ c f g, mismatched s st p.tag x c f g = again2 c f g := fun c f g =>
    (mismatched_eq tile).trans (congrArg (ite (x.twice = false) · _) (resendEntry_eq tile))
  refine ⟨fun load ok bytes writes => ?_, fun load ok block => ⟨fun fits => ?_, fun differs => ?_⟩,
    fun store block stitch detail => ?_, fun store ok => ?_, fun reduce ok => ?_, fun other ok => ?_, fun bad final => ?_⟩
  · exact taken (takeAnswer_load tile load ok) ((landLoad_bytes bytes writes).trans (endTrack_answered tile))
  · exact taken (takeAnswer_load tile load ok) ((landLoad_block block fits).trans (endTrack_answered tile))
  · exact taken (takeAnswer_load tile load ok) ((landLoad_mismatched block differs).trans (twiceSent ..))
  · exact taken (takeAnswer_storeStitch tile store block stitch detail) (twiceSent ..)
  · exact taken (takeAnswer_storeOk tile ok store) (endTrack_answered tile)
  · exact taken (takeAnswer_reduceOk tile ok reduce) (endTrack_answered tile)
  · exact taken (takeAnswer_valueOk tile ok other) (endTrack_answered tile)
  · exact taken (takeAnswer_failed tile bad final) (endTrack_answered tile)
end

namespace Sys2Proof.Machine

/-! ### Codewords of circuit ports and of mesh buses (R157 to R162, R173) -/

section
variable (st port line : Nat) (s : State)

theorem exec_codewordReceive_eq (seq : Nat) (data : List Byte) (errs : Nat) (locked : Bool) :
    exec (.codewordReceive st port line seq data errs locked) s = execCodewordReceive st port line seq data errs locked s := rfl

theorem exec_laneControlCodeword_eq (ack : Option Nat) (naks credits : List Nat) (lineMap errs : Nat) :
    exec (.laneControlCodeword st port line ack naks credits lineMap errs) s =
      execLaneControlCodeword st port line ack naks credits lineMap errs s := rfl

theorem exec_codewordResend_eq : exec (.codewordResend st port) s = execCodewordResend st port s := rfl

end

/-- The code corrects up to 6 symbols (R157). -/
theorem codewordDecode_good {errs : Nat} (few : errs ≤ 6) (free : Nat) : codewordDecode errs free = 0 := if_pos few

/-- The code detects 7 to 9 symbols for certain (R157). -/
theorem codewordDecode_uncorrectable {errs : Nat} (many : 7 ≤ errs) (inReach : errs ≤ 9) (free : Nat) :
    codewordDecode errs free = 1 := by
  rw [codewordDecode, if_neg (Nat.not_le.2 many), decide_eq_true inReach, Bool.true_or, if_pos rfl]

/-- Within the code's reach a codeword is uncorrectable from 7 symbols on (R157). -/
theorem codewordDecode_eq_one_iff {errs : Nat} (inReach : errs ≤ 9) (free : Nat) : codewordDecode errs free = 1 ↔ 7 ≤ errs := by
  obtain few | many : errs ≤ 6 ∨ 7 ≤ errs := by omega
  · rw [codewordDecode_good few]
    omega
  · simp only [codewordDecode_uncorrectable many inReach, many]

/-- Without events no symbol is put in error, and nothing is dropped. -/
@[simp] theorem injectErrs_nil (data : List Byte) : injectErrs [] data = 0 := rfl

@[simp] theorem injectDrops_nil : injectDrops [] = false := rfl

/-- A codeword without errors leaves the counts of corrected symbols. -/
@[simp] theorem noteCorrected_zero (s : State) (st k line : Nat) : noteCorrected s st k line 0 = s := rfl

/-- The symbols of a codeword that does not decode wrong are counted as they are. -/
theorem countedErrs_of_ne {v : Nat} (right : v ≠ 2) (s : State) (errs n : Nat) : countedErrs s v errs n = errs := if_neg right

section
variable {st port line seq errs : Nat} {data : List Byte} {s : State}

section
variable (inModule : st ≤ 28) (live : stationLive s st = true) (lane : line ≤ 16)
include inModule live lane

/-- A live station takes the codeword: the test in front passes. -/
theorem codeword_taken : (decide (28 < st) || !stationLive s st || decide (16 < line)) = false := by
  simp only [Nat.not_lt.2 inModule, live, Nat.not_lt.2 lane, decide_false, Bool.not_true, Bool.or_self]

section
variable (circuit : port < 16) (built : port < portCount st) (up : (getPort s (portKey st port)).up = true)
variable (undisturbed : pendingAt s 5 st line = [])
include circuit built up undisturbed

theorem exec_codewordReceive_uncorrectable (many : 7 ≤ errs) (inReach : errs ≤ 9) :
    let u := useInjections s 5 st line
    let v := modPort u (portKey st port) (fun p =>
      { p with naks := if p.naks.contains (seq % 1024) then p.naks else p.naks ++ [seq % 1024] })
    exec (.codewordReceive st port line seq data errs true) s = .next (tell st port 64 (portWindow' v st port line true)) := by
  simp only [exec_codewordReceive_eq, execCodewordReceive, codeword_taken inModule live lane, undisturbed, injectErrs_nil, injectDrops_nil,
    codewordDecode_uncorrectable many inReach, Nat.not_le.2 circuit, Nat.not_le.2 built, Nat.not_lt.2 inReach, up, Nat.add_zero, ne_eq,
    not_true, decide_true, decide_false, Bool.not_true, Bool.or_self, Bool.false_eq_true, if_false, if_true]

theorem exec_codewordReceive_good (new : (seq % 1024 + 1024 - (getPort s (portKey st port)).rxNext) % 1024 < 512) :
    let v := deliverInOrder st port 512 (modPort (useInjections s 5 st line) (portKey st port) (fun p =>
      { p with naks := p.naks.filter (· ≠ seq % 1024)
               reorder := Tab.insert (Tab.erase p.reorder (seq % 1024)) (seq % 1024) (fit 320 data) }))
    exec (.codewordReceive st port line seq data 0 true) s = .next (tell st port 64 (portWindow' v st port line false)) := by
  simp only [exec_codewordReceive_eq, execCodewordReceive, codeword_taken inModule live lane, undisturbed, injectErrs_nil, injectDrops_nil,
    codewordDecode_good (Nat.zero_le 6), countedErrs_of_ne (by decide : (0 : Nat) ≠ 2), noteCorrected_zero,
    Nat.not_le.2 circuit, Nat.not_le.2 built, Nat.not_lt.2 (Nat.zero_le 9), Nat.not_le.2 new, up, Nat.add_zero, ne_eq, ite_self,
    decide_false, Bool.not_true, Bool.or_self, Nat.reduceEqDiff, Bool.false_eq_true, if_false]

end

theorem exec_codewordReceive_mesh {src : Nat} (inMesh : src ≤ 28) (other : src ≠ st) (inReach : errs ≤ 9) :
    let u := if 1 ≤ errs && decide (errs ≤ 6) then bump s (0x4300 + st) 2 else s
    exec (.codewordReceive st (16 + src) line seq data errs true) s = .next (meshWindow u st src line (decide (7 ≤ errs))) := by
  have corrected : (!decide (7 ≤ errs)) = decide (errs ≤ 6) := by rw [← decide_not, decide_eq_decide]; omega
  simp only [exec_codewordReceive_eq, execCodewordReceive, codeword_taken inModule live lane, Nat.le_add_right, Nat.add_sub_cancel_left,
    Nat.not_lt.2 inMesh, other, codewordDecode_eq_one_iff inReach, corrected, Nat.not_lt.2 inReach, decide_false, Bool.not_true,
    Bool.or_self, Bool.false_eq_true, if_false, if_true]

end

theorem exec_laneControlCodeword (inModule : st ≤ 28) (built : port < portCount st) (up : (getPort s (portKey st port)).up = true)
    (a : Nat) (naks credits : List Nat) (lineMap : Nat) :
    let key := portKey st port
    let w := portWindow' s st port line false
    let q := getPort w key
    let kept := q.retry.filter (fun (c : TxCw) => 512 ≤ (a % 1024 + 1024 - c.seq) % 1024)
    let dead := (kept.filter (fun (c : TxCw) => naks.contains c.seq && 8 ≤ c.sends)).map (·.seq)
    let retry := kept.map (fun (c : TxCw) => if naks.contains c.seq then { c with nak := true } else c)
    let freed := [0, 1, 2, 3].foldl (fun t c => Tab.put 0 t c (credits.getD c (Tab.get 0 q.freed c) % 65536)) q.freed
    let u := modPort w key (fun q => { q with retry := retry, freed := freed })
    let v := dead.foldl (fun s q => dropCodeword s st port q) u
    let lost := linesWithout (getPort v key).inUse lineMap
    let x := (List.range 17).foldl (fun s l => if bit lost l then failCircuitLane s st port l else s) v
    exec (.laneControlCodeword st port line (some a) naks credits lineMap 0) s = .next
      (tell st port 64 (pump (if lost = 0 then x else reagree x key (2 ^ line)) st port)) := by
  intro key w q kept dead retry freed u v lost x
  simp only [exec_laneControlCodeword_eq, execLaneControlCodeword, Nat.not_lt.2 inModule, Nat.not_le.2 built, up,
    codewordDecode_good (Nat.zero_le 6), noteCorrected_zero, Nat.not_lt.2 (Nat.zero_le 9), ne_eq, not_true, decide_false,
    Bool.not_true, Bool.or_self, Bool.false_eq_true, Nat.reduceEqDiff, if_false]
  rfl

theorem exec_codewordResend {c : TxCw} (up : (getPort s (portKey st port)).up = true)
    (named : (getPort s (portKey st port)).retry.find? (·.nak) = some c) :
    let key := portKey st port
    let p := getPort s key
    let u := advanceTo s (c.last + 150000)
    let sent : TxCw → TxCw := fun x =>
      { x with sends := x.sends + 1, last := max u.now (laneTime p (dataPlace u p).1), nak := false }
    exec (.codewordResend st port) s = .next (placeCodeword (bump
      (modPort u key (fun q => { q with retry := updFirst (fun x => x.seq = c.seq) sent q.retry })) (0x4300 + st) 3)
      st port c.seq c.data) := by
  simp only [exec_codewordResend_eq, execCodewordResend, up, named, if_true]

end

end Sys2Proof.Machine

section
open Sys2Proof Sys2Proof.Machine

/-- Settles O11: by one equation for each way that a codeword arrives, by how it decodes within the
reach of its code (`codewordDecode_good`, `codewordDecode_uncorrectable`), and for a resend. -/
theorem codewordsAreDeliveredAcknowledgedAndResent : Obligations.CodewordsAreDeliveredAcknowledgedAndResent := by
  unfold Obligations.CodewordsAreDeliveredAcknowledgedAndResent
  intro st port line seq data s inModule key p sq
  exact ⟨fun errs live circuit built up lane undisturbed =>
      exec_codewordReceive_uncorrectable inModule live lane circuit built up undisturbed,
    fun live circuit built up lane undisturbed => exec_codewordReceive_good inModule live lane circuit built up undisturbed,
    fun src errs live inMesh other lane => exec_codewordReceive_mesh inModule live lane inMesh other,
    fun a naks credits lineMap built up => exec_laneControlCodeword inModule built up a naks credits lineMap,
    fun c => exec_codewordResend⟩
end

namespace Sys2Proof.Machine

/-! ### Mesh slots, routers and shapers (R164 to R168, R183, R256, R257, R316, R317) -/

section
variable (s : State)

theorem exec_meshSlot_eq : exec .meshSlot s = execMeshSlot s := rfl

theorem exec_meshSlotAck_eq (src seq dst : Nat) (ok : Bool) : exec (.meshSlotAck src seq dst ok) s = execMeshSlotAck src seq dst ok s := rfl

theorem exec_packetSend_eq (st crossing : Nat) (space : Bool) :
    exec (.packetSend st crossing space) s = execPacketSend st crossing space s := rfl

theorem exec_shaperRelease_eq (slot crossing : Nat) (space : Bool) :
    exec (.shaperRelease slot crossing space) s = execShaperRelease slot crossing space s := rfl

theorem exec_meshSlot :
    let u := (List.range 29).foldl (transmit s.bas.grants) s
    let v := grantAll u (u.bas.slot + 1) u.bas.requests
    exec .meshSlot s = .next { v.1 with bas := { v.1.bas with
      grants := v.2, slot := (u.bas.slot + 1) % 1024
      requests := (List.range 29).flatMap (fun st => if stationLive v.1 st then postRequests (getStation v.1 st) st else []) } } := by
  simp only [exec_meshSlot_eq, execMeshSlot]

end

/-- A source no longer waits for a receiver of a slot; one that every receiver has is freed (R168). -/
def settleSlot (s : State) (src seq dst : Nat) : State :=
  let heard := fun (y : MeshSlot) => { y with waitAck := y.waitAck.filter (· ≠ dst), rejected := y.rejected.filter (· ≠ dst) }
  modStation s src (fun x =>
    { x with unacked := (updFirst (fun y => y.seq = seq) heard x.unacked).filter (fun y => !y.waitAck.isEmpty) })

/-- A source is to send a slot again to a receiver (R168). -/
def rejectSlot (s : State) (src seq dst : Nat) : State :=
  let refused := fun (y : MeshSlot) => { y with rejected := if y.rejected.contains dst then y.rejected else y.rejected ++ [dst] }
  modStation s src (fun x => { x with unacked := updFirst (fun y => y.seq = seq) refused x.unacked })

/-- A receiver has a slot that it had granted (R168). -/
def slotReceived (s : State) (src seq dst : Nat) : State :=
  { s with bas := { s.bas with rx := s.bas.rx.map (fun e =>
      if e.dst = dst && e.src = src && e.seq = seq then { e with ok := true } else e) } }

/-- What the answer of a receiver does that a source waits for, without events pending. -/
theorem exec_meshSlotAck {src seq dst : Nat} {m : MeshSlot} {s : State} (undisturbed : pendingAt s 8 src 0 = [])
    (waits : (getStation s src).unacked.find? (fun u => u.seq = seq && u.waitAck.contains dst) = some m) (ok : Bool) :
    let i := useInjections s 8 src 0
    exec (.meshSlotAck src seq dst ok) s = .next (
      if ok then deliverSlots dst src 1024 (slotReceived (settleSlot i src seq dst) src seq dst)
      else if 8 ≤ m.sends then deliverSlots dst src 1024 (settleSlot (dropSlot i src seq dst) src seq dst)
      else rejectSlot i src seq dst) := by
  simp only [exec_meshSlotAck_eq, execMeshSlotAck, waits, undisturbed, injectDrops_nil, List.any_nil, Bool.not_false, Bool.and_true,
    Bool.false_eq_true, if_false]
  cases ok with
  | true => rfl
  | false =>
    simp only [Bool.false_eq_true, if_false]
    split <;> rfl

/-! ### What a router takes and lets go -/

section
variable {st crossing : Nat} {space : Bool} {s : State}

/-- A packet at the end of its route that asks for no response reaches its sink at once (R257). -/
theorem arriveAt_end {p : Pkt} (single : p.mcast = false) (ends : p.hops ≤ p.next) (quiet : causesReply p = false) :
    arriveAt s st p space = (emit s (.arrived st p), true) := by
  simp only [arriveAt, sink, Nat.not_lt.2 ends, single, quiet, decide_false, Bool.false_and, Bool.not_false, Bool.true_or,
    Bool.false_eq_true, if_false, if_true]

/-- A packet that a port or the mesh brought is taken where it arrives. -/
theorem takeOne_arrived {x : RPkt} {p : Pkt} (reads : parsePkt x.data = some p) (known : (classOf p).isSome = true)
    (brought : x.via ≠ 32) :
    takeOne s st x space = (takeIn (arriveAt s st p space).1 st x, (arriveAt s st p space).2) := by
  simp only [takeOne, reads, Option.isNone_eq_false_iff.2 known, brought, Bool.false_eq_true, if_false]

theorem takeFirst_head {x : RPkt} {seen l : List RPkt} {v : State}
    (takes : takeOne { s with bas := { s.bas with inbox := Tab.put [] s.bas.inbox st (seen ++ l) } } st x space = (v, true)) :
    takeFirst s st space seen (x :: l) = some v := by
  simp only [takeFirst, takes, if_true]

/-- The first packet that has reached a router is handed over where its route ends there (R257). -/
theorem takeFirst_delivered {x : RPkt} {p : Pkt} {l : List RPkt} (reads : parsePkt x.data = some p) (known : (classOf p).isSome = true)
    (brought : x.via ≠ 32) (single : p.mcast = false) (ends : p.hops ≤ p.next) (quiet : causesReply p = false) :
    takeFirst s st space [] (x :: l) =
      some (takeIn (emit { s with bas := { s.bas with inbox := Tab.put [] s.bas.inbox st l } } (.arrived st p)) st x) := by
  apply takeFirst_head
  rw [takeOne_arrived reads known brought, arriveAt_end single ends quiet]
  rfl

/-- A live station's router takes what has reached it, else a copy, else lets a packet go. -/
theorem exec_packetSend (inModule : st ≤ 28) (live : stationLive s st = true) :
    let u := settleReplicator s st
    exec (.packetSend st crossing space) s = .next
      ((takeFirst u st space [] (Tab.get [] u.bas.inbox st) <|> copyFirst u st [] (Tab.get [] u.bas.copies st)
        <|> releaseFirst u st crossing space (byRank u (Tab.get [] u.fab.routers st))).getD u) := by
  intro u
  simp only [exec_packetSend_eq, execPacketSend, Nat.not_lt.2 inModule, live, decide_false, Bool.not_true, Bool.or_self,
    Bool.false_eq_true, if_false, u]
  split
  next taken => rw [taken, Option.getD_some]
  next none => rw [none, Option.getD_none]

end

theorem exec_shaperRelease {slot crossing n : Nat} {space : Bool} {f : List Byte} {x : Shaper} {p : Pkt} {l : List Pkt} {s : State}
    (flow : s.adm.flows.find? (fun e => e.1 = slot) = some (n, f)) (shaper : Tab.get none s.adm.shapers slot = some x)
    (first : x.queue = p :: l) :
    let u := advanceTo s (s.now + ceilDiv (pktCost p - (shaperNow s slot f).tokens) (max 1 (fRate f)))
    let y := shaperNow u slot f
    let v := countOverrun (putShaper u slot { y with tokens := y.tokens - pktCost p, queue := l }) slot f
      ((epoch u - p.stamp) * countPs + crossing)
    let st := if fEntry f < 16384 then (stationOf u (fEntry f % 32)).getD 28 else linkStation u (fEntry f % 1024 / 16)
    let w := depart v st (legOf f) p space
    exec (.shaperRelease slot crossing space) s = .next (if w.2 then w.1 else u) := by
  simp only [exec_shaperRelease_eq, execShaperRelease, flow, shaper, first]

end Sys2Proof.Machine

section
open Sys2Proof Sys2Proof.Machine

/-- Settles O12: by one equation for each command; a receiver's answer by how often the slot was
sent (`exec_meshSlotAck`), a router's turn by what is there to take (`exec_packetSend`). -/
theorem meshSlotsAndPacketsMove : Obligations.MeshSlotsAndPacketsMove := by
  unfold Obligations.MeshSlotsAndPacketsMove
  refine ⟨exec_meshSlot, fun src seq dst m s undisturbed waits => ?_, fun st crossing space s inModule live => ?_,
    fun slot crossing space n f x p l s => exec_shaperRelease⟩
  · have answered := exec_meshSlotAck undisturbed waits
    refine ⟨answered true, fun eighth => ?_, fun fewer => ?_⟩
    · exact (answered false).trans (congrArg _ (if_pos eighth))
    · exact (answered false).trans (congrArg _ (if_neg (Nat.not_le.2 fewer)))
  · intro u arrived copy
    have turn : exec (.packetSend st crossing space) s = .next
        ((arrived <|> copy <|> releaseFirst u st crossing space (byRank u (Tab.get [] u.fab.routers st))).getD u) :=
      exec_packetSend inModule live
    refine ⟨fun v takes => ?_, fun v noArrival takes => ?_, fun v noArrival noCopy leaves => ?_,
      fun x l p inbox reads known brought single ends quiet => ?_⟩
    · rw [turn, takes]
      rfl
    · rw [turn, noArrival, takes]
      rfl
    · rw [turn, noArrival, noCopy, leaves]
      rfl
    · have delivered : arrived = _ :=
        (congrArg (takeFirst u st space []) inbox).trans (takeFirst_delivered reads known brought single ends quiet)
      rw [turn, delivered]
      rfl
end

namespace Sys2Proof.Machine

/-! ### Circuit plans and port roles (R175, R176, R189, R391) -/

section
variable (s : State)

theorem exec_planBodyWrite_eq (p : Nat) (r : VdpReq) : exec (.planBodyWrite p r) s = execPlanBodyWrite p r s := rfl

theorem exec_loadPlan_eq (r : VdpReq) : exec (.loadPlan r) s = execLoadPlan r s := rfl

theorem exec_planLoadDone_eq : exec .planLoadDone s = execPlanLoadDone s := rfl

theorem exec_switchRequest_eq (r : VdpReq) : exec (.switchRequest r) s = execSwitchRequest r s := rfl

theorem exec_planSwitchDrain_eq : exec .planSwitchDrain s = execPlanSwitchDrain s := rfl

theorem exec_planSwitchFirstData_eq (st port ns failedLanes farLanes : Nat) :
    exec (.planSwitchFirstData st port ns failedLanes farLanes) s = execPlanSwitchFirstData st port ns failedLanes farLanes s := rfl

theorem exec_portRolesWrite_eq (x : Nat) (r : VdpReq) : exec (.portRolesWrite x r) s = execPortRolesWrite x r s := rfl

end

theorem startLoadPlan_free {s : State} (sel : Tab Nat) (v : List Byte) (free : opRunning s 5 = false) :
    startLoadPlan s sel v =
      { s := setPlanState (startOp s 5 (pairCount (planBody s (leNat v % 256))) (leNat v % 256)) (leNat v % 256) 1 } := by
  simp only [startLoadPlan, free, Bool.false_eq_true, if_false]

section
variable {r : VdpReq} {s : State}

theorem exec_planBodyWrite {p : Nat} (ok : granted s (atEntry r (instIndex 0x7400 256 p) 1) = true) (fits : r.data.length ≤ 808) :
    let u := setPlanState (wrB s (0x7400 + p) 1 r.data) p 0
    exec (.planBodyWrite p r) s = .next (served
      { s := if opRunning u 5 && (getOp u 5).arg = p then endOp u 5 4 0 (getOp u 5).position else u }
      (atEntry r (instIndex 0x7400 256 p) 1)) := by
  rw [exec_planBodyWrite_eq, execPlanBodyWrite, vdpEntry_served ok (decide_eq_true fits) rfl]
  rfl

theorem exec_loadPlan (ok : granted s (atEntry r 0x7300 3) = true) (free : opRunning s 5 = false) :
    let p := leNat r.data % 256
    exec (.loadPlan r) s = .next (served { s := setPlanState (startOp s 5 (pairCount (planBody s p)) p) p 1 } (atEntry r 0x7300 3)) := by
  have starts := startLoadPlan_free (selects s (atEntry r 0x7300 3)) r.data free
  rw [exec_loadPlan_eq, execLoadPlan, vdpEntry_served ok rfl (congrArg Effect.status starts)]
  exact congrArg (fun e => Host.Outcome.next (served e _)) starts

/-- The end of a load: READY, or INVALID with what failed (R176, R177). -/
theorem exec_planLoadDone (runs : opRunning s 5 = true) :
    let p := (getOp s 5).arg
    let c := planCheck s (planBody s p)
    let u := wrE s (0x7400 + p) 3 (c.1 * 2 ^ 24 + c.2)
    exec .planLoadDone s = .next (
      if c.1 = 0 then endOp (setPlanState u p 2) 5 2 0 (getOp u 5).total else endOp (setPlanState u p 3) 5 3 c.1 c.2) := by
  simp only [exec_planLoadDone_eq, execPlanLoadDone, runs, Bool.not_true, Bool.false_eq_true, if_false]
  split <;> rfl

theorem exec_portRolesWrite {x : Nat} (ok : granted s (atEntry r (instIndex 0x4600 28 x) 1) = true) (valid : rolesOk x r.data = true) :
    exec (.portRolesWrite x r) s = .next (served { s := settleRoles (wrB s (0x4600 + x) 1 r.data) }
      (atEntry r (instIndex 0x4600 28 x) 1)) := by
  rw [exec_portRolesWrite_eq, execPortRolesWrite, vdpEntry_served ok valid rfl]
  rfl

/-! ### Switches (R178, R180, R181, R348) -/

theorem exec_switchRequest (ok : granted s (atEntry r 0x7300 2) = true) :
    exec (.switchRequest r) s = .next (served
      { s := (requestSwitch s (leNat r.data)).1, data := leBytes 8 (requestSwitch s (leNat r.data)).2 } (atEntry r 0x7300 2)) := by
  rw [exec_switchRequest_eq, execSwitchRequest, vdpEntry_served ok rfl rfl]
  rfl

theorem exec_planSwitchDrain {w : Switch} (next : nextSwitch s = some w) :
    let u := advanceTo s (s.now + (w.front - epoch s - 125) * countPs)
    exec .planSwitchDrain s = .next ((changingPorts u (planFars u w.dark w.plan)).foldl
      (fun s k => modPort s k (fun p => { p with draining := true })) u) := by
  simp only [exec_planSwitchDrain_eq, execPlanSwitchDrain, next]

end

/-- A port that a switch trained comes up at `now` with empty buffers and the lines `i` (R173, R181). -/
def portUp (i now : Nat) (p : Port) : Port :=
  { p with up := true, training := false, draining := false, inUse := i, txSeq := 0, retry := [], sent := [], freed := [],
           rxNext := 0, reorder := [], naks := [], rxFreed := [], rxHeld := [], asm := [], switching := false, delayed := false,
           trainedAt := now, txPos := [], ctlPos := [], corr := [], told := [], heard := false }

/-- The lines that failed to relock are out at a port (R181). -/
def linesOut (failedLanes : Nat) (p : Port) : Port :=
  { p with failed := maskOf (fun l => bit p.failed l || bit failedLanes l) 17 }

/-- A training port takes the lanes out that failed, reports and counts them; with four data lanes
it comes up, with fewer it stays down. -/
theorem exec_planSwitchFirstData {st port : Nat} {s : State} (inModule : st ≤ 28) (built : port < portCount st)
    (lasers : gapLines s = 0) (ready : farReady s (portKey st port) = true) (training : (getPort s (portKey st port)).training = true)
    (ns failedLanes farLanes : Nat) :
    let key := portKey st port
    let p := getPort s key
    let other := match p.far with | some f => getPort s f | none => {}
    let new := linesWithout (failedLanes % 2 ^ 17) p.failed
    let i := linesWithout (linesWithout (linesWithout (linesWithout (usableLines s) p.failed) other.failed) failedLanes) farLanes
    let u := modPort s key (linesOut failedLanes)
    let v := if new = 0 then u else portReport u 0x30 st port new
    let w := if new ≠ 0 && popBelow new 17 = 1 && dataLanes i = 16 then
      wrE v (0x4300 + st) 5 ((rdE v (0x4300 + st) 5 + 1) % 2 ^ 32) else v
    let x := agreeLines (switchTimed w key ns) key i
    exec (.planSwitchFirstData st port ns failedLanes farLanes) s = .next (
      if dataLanes i < 4 then stayDown w key new else tell st port 64 (pump (modPort x key (portUp i x.now)) st port)) := by
  intro key p other new i u v w x
  simp only [exec_planSwitchFirstData_eq, execPlanSwitchFirstData, Nat.not_lt.2 inModule, Nat.not_le.2 built, lasers, ready, training,
    ne_eq, not_true, decide_false, Bool.not_true, Bool.or_self, Bool.false_eq_true, if_false]
  by_cases few : dataLanes i < 4
  · exact (if_pos few).trans (congrArg _ (if_pos few).symm)
  · exact (if_neg few).trans (congrArg _ (if_neg few).symm)

end Sys2Proof.Machine

section
open Sys2Proof Sys2Proof.Machine

/-- Settles O13: by what each granted value does, and by how a load and a training end
(`exec_planLoadDone`, `exec_planSwitchFirstData`). -/
theorem plansLoadAndSwitchAtTheirFronts : Obligations.PlansLoadAndSwitchAtTheirFronts := by
  unfold Obligations.PlansLoadAndSwitchAtTheirFronts
  refine ⟨fun p r s => exec_planBodyWrite, fun r s => exec_loadPlan, fun s runs => ⟨fun passes => ?_, fun fails => ?_⟩,
    fun r s => exec_switchRequest, fun w s => exec_planSwitchDrain, ?_, fun x r s => exec_portRolesWrite⟩
  · exact (exec_planLoadDone runs).trans (congrArg _ (if_pos passes))
  · exact (exec_planLoadDone runs).trans (congrArg _ (if_neg fails))
  · intro st port ns failedLanes farLanes s inModule built lasers ready training
    have ends := exec_planSwitchFirstData inModule built lasers ready training ns failedLanes farLanes
    exact ⟨fun enough => ends.trans (congrArg _ (if_neg (Nat.not_lt.2 enough))), fun few => ends.trans (congrArg _ (if_pos few))⟩
end

namespace Sys2Proof.Machine

/-! ### Contributions and the exponent stage (R202, R203, R207) -/

section
variable (t slot : Nat) (p : Pkt) (s : State)

theorem exec_contributeSend_eq (m : Nat) (first again : List Flip) :
    exec (.contributeSend slot m first again) s = execContributeSend slot m first again s := rfl

theorem exec_exponentScanDone_eq : exec (.exponentScanDone slot t) s = execExponentScanDone slot t s := rfl

theorem exec_exponent_eq : exec (.exponent t p) s = execExponent t p s := rfl

theorem exec_anchor_eq : exec (.anchor t p) s = execAnchor t p s := rfl

theorem exec_partialBlock_eq (dual : Nat) (err : Option (Nat × DWord)) :
    exec (.partialBlock t p dual err) s = execPartialBlock t p dual err s := rfl

theorem exec_grant_eq : exec (.grant t p) s = execGrant t p s := rfl

theorem exec_result_eq : exec (.result t p) s = execResult t p s := rfl

theorem exec_refetch_eq : exec (.refetch t p) s = execRefetch t p s := rfl

theorem exec_resend_eq (first again : List Flip) : exec (.resend t p first again) s = execResend t p first again s := rfl

end

section
variable {slot : Nat} {r : CRun} {s : State}

theorem exec_contributeSend {m : Nat} (first again : List Flip) (run : getRun s slot = some r) :
    let b := schBody s slot
    let x := stepAt b m
    let i := Tab.get 0 r.sent m
    m < hSteps b → x.kind = 1 → (physTile s x.tile).any (engineIn s r) = true → phaseOpen r x = true → i < x.count →
    mayRun s b r m x i = true → (stepAnchor b r m).isSome = true →
    exec (.contributeSend slot m first again) s = .next
      (modRun (contributeBlock s slot m x (x.first + i) none first again) slot (fun r => { r with sent := Tab.put 0 r.sent m (i + 1) })) := by
  intro b x i inBody contributes takesPart begun left granted anchored
  simp only [b, x, i] at inBody contributes takesPart begun left granted anchored
  simp only [exec_contributeSend_eq, execContributeSend, run, Nat.not_le.2 inBody, contributes, takesPart, begun, Nat.not_le.2 left,
    granted, Option.isNone_eq_false_iff.2 anchored, ne_eq, not_true, decide_false, Bool.not_true, Bool.or_self, Bool.false_eq_true,
    if_false, b, x, i]

section
variable {t : Nat} {u : State} (run : getRun s slot = some r) (stage : r.exponents = true) (due : r.scanning.contains t = true)
variable (takesPart : engineIn s r t = true)
include run stage due takesPart

/-- A block that does not read well ends the scan as that read does. -/
theorem exec_exponentScanDone_stopped
    (scan : (((stepsOfKind (schBody s slot) 1).filter (fun e => physTile s e.2.tile = some t)).map (·.2)).foldl
      (scanStep slot t) (s, some []) = (u, none)) :
    exec (.exponentScanDone slot t) s = .next u := by
  simp only [exec_exponentScanDone_eq, execExponentScanDone, run, stage, due, takesPart, scan, Bool.not_true, Bool.or_self,
    Bool.false_eq_true, if_false]

theorem exec_exponentScanDone_scanned {vals : List Val}
    (scan : (((stepsOfKind (schBody s slot) 1).filter (fun e => physTile s e.2.tile = some t)).map (·.2)).foldl
      (scanStep slot t) (s, some []) = (u, some vals)) :
    let b := schBody s slot
    let mine := (stepsOfKind b 1).filter (fun e => physTile s e.2.tile = some t)
    let e : Int := (maxTop vals).getD (-32768)
    let v := modRun u slot (fun r => { r with scanning := r.scanning.filter (· ≠ t) })
    exec (.exponentScanDone slot t) s = .next (settleStage
      (mine.foldl (fun s x => stepSend s slot t b x.2 (plainBody s slot r (targetOf s b x.2) x.2.slot 0 0 e)) v) slot) := by
  simp only [exec_exponentScanDone_eq, execExponentScanDone, run, stage, due, takesPart, scan, Bool.not_true, Bool.or_self,
    Bool.false_eq_true, if_false]

end

/-! ### What reaches an open tile (R190, R212) -/

section
variable {t : Nat} {p : Pkt} (opened : closedStatus s t = 0)
include opened

/-- The exponent of a new slot of a node is noted; the last one is settled here at the root, else it goes on
(R207). -/
theorem exec_exponent {x : Step} (node : nodeAt s t p = some (slot, r, x)) :
    let n := getNode r x.node
    let es := n.exps ++ [(rSlot p, rAnchor p)]
    let u := modNode s slot x.node (fun n => { n with exps := n.exps ++ [(rSlot p, rAnchor p)], srcs := addSource n.srcs p })
    let b := schBody u slot
    let e := es.foldl (fun m y => max m y.2) (-32768)
    let a := if e = -32768 then 0 else clampAnchor (e + (hHead b : Int) - 61)
    rSlot p < x.fanIn → n.exps.any (fun e => e.1 = rSlot p) = false →
    exec (.exponent t p) s = .next (
      if es.length < x.fanIn then u
      else if x.root then settleStage (sendAnchor (anchorNode u slot x.node a) slot t x.node a) slot
      else ((stepsOfKind b 3).filter (fun y => y.2.node = x.node)).foldl
        (fun s y => stepSend s slot t b y.2 (plainBody s slot r (targetOf s b y.2) y.2.slot 0 0 e)) u) := by
  intro n es u b e a inFan new
  simp only [n] at new
  simp only [exec_exponent_eq, execExponent, opened, node, Nat.not_le.2 inFan, new, ne_eq, not_true, decide_false, Bool.or_self,
    Bool.false_eq_true, if_false, apply_ite Host.Outcome.next]
  rfl

/-! ### Packets of a run (R197, R209) -/

section
variable (run : runOf s (rTag p) (rRun p) = some (slot, r))
include run

theorem exec_anchor (fed : feeders s r (schBody s slot) t p ≠ []) (stats : hStats (schBody s slot) = true) :
    exec (.anchor t p) s = .next (settleStage
      ((feeders s r (schBody s slot) t p).foldl (fun s e => takeAnchor s slot t e (rAnchor p)) s) slot) := by
  simp only [exec_anchor_eq, execAnchor, opened, run, List.isEmpty_eq_false_iff.2 fed, stats, ne_eq, not_true, Bool.not_true,
    Bool.or_self, Bool.false_eq_true, if_false]

theorem exec_grant (fed : feeders s r (schBody s slot) t p ≠ []) :
    let who := p.srcNode * 32 + p.srcStation
    let best := fun (r : CRun) (m : Nat) => ((Tab.get [] r.grants m).filter (fun g => g.1 = who)).foldl (fun m g => max m g.2) (rBlock p)
    let raised := fun (r : CRun) (m : Nat) => (Tab.get [] r.grants m).filter (fun g => g.1 ≠ who) ++ [(who, best r m)]
    exec (.grant t p) s = .next (pumpForward ((feeders s r (schBody s slot) t p).foldl (fun s e => modRun s slot (fun r =>
      { r with grants := Tab.put [] r.grants e.1 (raised r e.1) })) s) slot) := by
  simp only [exec_grant_eq, execGrant, opened, run, List.isEmpty_eq_false_iff.2 fed, ne_eq, not_true, Bool.false_eq_true, if_false]

theorem exec_result :
    let hits := (stepsOfKind (schBody s slot) 4).filter (fun e => e.2.node = rNode p && physTile s e.2.tile = some t && !r.lost.contains t
      && inRange e.2 (rBlock p) && decide ((getDeliv r e.1 (rBlock p)).state < 4))
    hits ≠ [] → exec (.result t p) s = .next (hits.foldl (takeDeliver slot t p) s) := by
  intro hits wanted
  have hit : hits.isEmpty = false := List.isEmpty_eq_false_iff.2 wanted
  simp only [hits] at hit
  simp only [exec_result_eq, execResult, takeResult, opened, run, hit, ne_eq, not_true, Bool.false_eq_true, if_false, hits]

theorem exec_resend_toSource (first again : List Flip) (toSource : rSlot p ≠ 0xFF)
    (fed : (feeders s r (schBody s slot) t p).filter (fun e => inRange e.2 (rBlock p)) ≠ []) :
    exec (.resend t p first again) s = .next
      (((feeders s r (schBody s slot) t p).filter (fun e => inRange e.2 (rBlock p))).foldl (resendStep slot t p first again) s) := by
  simp only [exec_resend_eq, execResend, opened, run, toSource, List.isEmpty_eq_false_iff.2 fed, ne_eq, not_true, Bool.false_eq_true,
    if_false]

end

/-! ### A block of the root sent again (R220, R221) -/

section
variable {x : Step} (node : nodeAt s t p = some (slot, r, x))
include node

theorem exec_refetch : exec (.refetch t p) s = .next (resendResult s slot t r x p [] []) := by
  simp only [exec_refetch_eq, execRefetch, opened, node, ne_eq, not_true, if_false]

theorem exec_resend_toRoot (first again : List Flip) (deliverer : rSlot p = 0xFF) (stitch : ofRepeat p = false) :
    exec (.resend t p first again) s = .next (resendResult s slot t r x p first again) := by
  simp only [exec_resend_eq, execResend, opened, node, deliverer, stitch, ne_eq, not_true, Bool.false_eq_true, if_false, if_true]

end

end

/-- The root answers with a block that it has and reads well. -/
theorem resendResult_answered {t : Nat} {p : Pkt} {x : Step} {first again : List Flip} {w : WireBlk} {a : Int} {u : State}
    (root : x.root = true) (held : inRange x (rBlock p) = true) (done : blockDone (getNode r x.node) (rBlock p) = true)
    (reads : nodeOut s slot t r x (rBlock p) first again = (u, some (w, a))) :
    resendResult s slot t r x p first again =
      replySend u slot t (p.srcNode, p.srcStation) (wireBody u slot r x.node 0xFF 3 (rBlock p) a w) := by
  simp only [resendResult, root, held, done, reads, Bool.not_true, Bool.or_self, Bool.false_eq_true, if_false]

/-! ### The first input of a block at a node (R202, R209) -/

/-- The first good PARTIAL of a block is the block under way as it came: nothing is combined yet, so the
outcome of the dual check and an error of the engine do not count. -/
theorem takePartial_first {t dual : Nat} {p : Pkt} {err : Option (Nat × DWord)} {x : Step} (node : nodeAt s t p = some (slot, r, x)) :
    let n := { getNode r x.node with low := max (getNode r x.node).low x.first, granted := max (getNode r x.node).granted x.first }
    let blk := rBlock p
    let w := rBlk p
    let fresh := !n.seen.contains (rSlot p)
    rSlot p < x.fanIn → inRange x blk = true → Tab.get none n.parts blk = none → (blockDone n blk && !n.checked.contains blk) = false →
    blk < n.low + 512 → stitchOf w.data (hTidWire (schBody s slot) r.run) blk = rStitch p →
    n.again.find? (fun e => e.1 = rSlot p && e.2.1 = blk) = none →
    let u := modNode s slot x.node (fun _ =>
      { n with again := n.again.filter (fun e => !(e.1 = rSlot p && e.2.1 = blk)), srcs := addSource n.srcs p,
               seen := if fresh then n.seen ++ [rSlot p] else n.seen,
               parts := Tab.put none n.parts blk (some { slots := [rSlot p], blk := w }) })
    let v := if fresh then replySend u slot t (p.srcNode, p.srcStation) (plainBody u slot r x.node (rSlot p) 4 (n.low + 511) 0) else u
    takePartial s t p dual err = if 1 < x.fanIn then v else emitBlock v slot t x blk (rAnchor p) w := by
  intro n blk w fresh inFan wanted first undone inWindow stitched unasked
  simp only [n, blk, w] at wanted first undone inWindow stitched unasked
  simp only [takePartial, node, first, undone, wanted, stitched, unasked, Nat.not_le.2 inFan, Nat.not_le.2 inWindow, ne_eq, not_true,
    Option.map_none, Option.getD_none, Option.isSome_none, decide_false, Bool.not_true, Bool.or_self, Bool.false_and, Bool.false_eq_true,
    if_false, List.nil_append, List.length_singleton]
  cases err <;> rfl

/-! ### A result that passes (R219) -/

/-- A block that a deliverer has not seen fail passes where its stitch and both digests match. -/
theorem takeDeliver_passes {t m : Nat} {p : Pkt} {x : Step} (run : getRun s slot = some r) :
    let b := schBody s slot
    let blk := rBlock p
    let w := rBlk p
    let tid := hTidWire b r.run
    (getDeliv r m blk).bad = none → stitchOf w.data tid blk = rStitch p → hOp b = 0 → w.poison = false →
    (wordsOf w.data).contains narCode = false →
    let u := bump (putDeliv s slot m blk { getDeliv r m blk with bad := none }) 0x7500 2
    digest 0 (scheduleSeed u slot) (blockTag tid blk) (wordsOf w.data) = w.d0 →
    digest 1 (scheduleSeed u slot) (blockTag tid blk) (wordsOf w.data) = w.d1 →
    takeDeliver slot t p s (m, x) = passResult u slot m t x blk (rAnchor p) w (decide (2 ≤ (getDeliv r m blk).state)) := by
  intro b blk w tid unfailed stitched sums clean numbers u digest0 digest1
  simp only [b, blk, w, tid, u] at unfailed stitched sums clean numbers digest0 digest1
  simp only [takeDeliver, run, unfailed, stitched, sums, clean, numbers, digest0, digest1, ne_eq, not_true, Option.isSome_none,
    decide_false, decide_true, Bool.or_self, Bool.and_self, Bool.false_eq_true, if_false, if_true, blk, w, u]

end

end Sys2Proof.Machine

section
open Sys2Proof Sys2Proof.Machine

/-- Settles O15: by one equation for each packet of a run; an exponent by how many have come
(`exec_exponent`), a first input by the fan-in (`takePartial_first`), a result by its one step
(`takeDeliver_passes`), and a block sent again by what the root reads (`resendResult_answered`).
That slot 0xFF stands for a deliverer and what a RESEND's Anchor field tells are the model's
choices (logs 43, 44). -/
theorem collectiveBlocksAreSentCombinedAndDelivered : Obligations.CollectiveBlocksAreSentCombinedAndDelivered := by
  unfold Obligations.CollectiveBlocksAreSentCombinedAndDelivered
  refine ⟨fun slot m first again r s => exec_contributeSend first again,
    fun slot t r s u run stage due takesPart => ⟨exec_exponentScanDone_stopped run stage due takesPart,
      fun vals => exec_exponentScanDone_scanned run stage due takesPart⟩,
    fun t slot p r x s opened node inFan new => ?_,
    fun t slot p r s opened run => exec_anchor opened run,
    fun t slot dual p err r x s opened node inFan wanted first undone inWindow stitched unasked => ?_,
    fun t slot p r s opened run => exec_grant opened run,
    fun t slot p r s opened run => ⟨exec_result opened run,
      fun m x one found unfailed stitched sums clean numbers digest0 digest1 => ?_⟩,
    fun t slot p r x w a s u opened node root held done => ⟨fun reads => ?_, fun first again deliverer stitch reads => ?_⟩,
    fun t slot p first again r s opened run => exec_resend_toSource opened run first again⟩
  · have heard := exec_exponent opened node inFan new
    refine ⟨fun more => ?_, fun last root => ?_, fun last inner => ?_⟩
    · exact heard.trans (congrArg _ (if_pos more))
    · exact heard.trans (congrArg _ ((if_neg (Nat.not_lt.2 last)).trans (if_pos root)))
    · exact heard.trans (congrArg _ ((if_neg (Nat.not_lt.2 last)).trans (if_neg (ne_true_of_eq_false inner))))
  · have taken : exec (.partialBlock t p dual err) s = .next (takePartial s t p dual err) := by
      simp only [exec_partialBlock_eq, execPartialBlock, opened, ne_eq, not_true, if_false]
    exact taken.trans (congrArg _ (takePartial_first node inFan wanted first undone inWindow stitched unasked))
  · have passes := takeDeliver_passes (t := t) (x := x) found unfailed stitched sums clean numbers digest0 digest1
    exact (exec_result opened run (one ▸ List.cons_ne_nil _ _)).trans (congrArg _ ((congrArg (List.foldl _ s) one).trans passes))
  · exact (exec_refetch opened node).trans (congrArg _ (resendResult_answered root held done reads))
  · exact (exec_resend_toRoot opened node first again deliverer stitch).trans (congrArg _ (resendResult_answered root held done reads))
end

namespace Sys2Proof.Machine

/-! ### Packets from lane groups (R214, R215, R251, R253, R259) -/

section
variable (s : State)

theorem exec_hemPacketReceive_eq (link g : Nat) (data : List Byte) (space : Bool) :
    exec (.hemPacketReceive link g data space) s = execHemPacketReceive link g data space s := rfl

theorem exec_multicastCopyReceive_eq (link : Nat) (p : Pkt) :
    exec (.multicastCopyReceive link p) s = execMulticastCopyReceive link p s := rfl

theorem exec_multicastGroupWrite_eq (r : VdpReq) : exec (.multicastGroupWrite r) s = execMulticastGroupWrite r s := rfl

theorem exec_routeFail_eq (st : Nat) (p : Pkt) : exec (.routeFail st p) s = execRouteFail st p s := rfl

theorem exec_sliceFail_eq (st : Nat) (p : Pkt) : exec (.sliceFail st p) s = execSliceFail st p s := rfl

end

section
variable {link g key : Nat} {data : List Byte} {s : State}

section
variable (inModule : link < 64) (attached : attachedPort s link = some key) (up : (getGroup s link g).state = 2) (space : Bool)
include inModule attached up

theorem exec_hemPacketReceive_unreadable (unreadable : parsePkt data = none) :
    exec (.hemPacketReceive link g data space) s = .next (hemReport (bump s 0x5100 5) 0x3E link g 0) := by
  simp only [exec_hemPacketReceive_eq, execHemPacketReceive, attached, Nat.not_le.2 inModule, up, unreadable, ne_eq, not_true,
    decide_false, Bool.or_self, Bool.false_eq_true, if_false]

section
variable {p : Pkt} (reads : parsePkt data = some p)
include reads

theorem exec_hemPacketReceive_unknown (unknown : classOf p = none) :
    exec (.hemPacketReceive link g data space) s = .next (bump s 0x5100 5) := by
  simp only [exec_hemPacketReceive_eq, execHemPacketReceive, attached, Nat.not_le.2 inModule, up, reads, unknown, ne_eq, not_true,
    decide_false, Bool.or_self, Bool.false_eq_true, if_false, Option.isNone_none, if_true]

/-- A packet with a class is checked for its slice, then handled by what it is. -/
theorem exec_hemPacketReceive_known (known : (classOf p).isSome = true) :
    exec (.hemPacketReceive link g data space) s = .next (
      if sliceAllowed s link g p.slice = false then leaveBuffer (sliceFail s link g (key / 16) (rewrite p link g) space) link g p
      else if p.mcast = true then arriveCopy s link g p
      else if p.kind = 0x52 then leaveBuffer (sweepArrive s link g p) link g p
      else forwardPkt s (key / 16) p link g space) := by
  simp only [exec_hemPacketReceive_eq, execHemPacketReceive, attached, Nat.not_le.2 inModule, up, reads,
    Option.isNone_eq_false_iff.2 known, ne_eq, not_true, decide_false, Bool.or_self, Bool.false_eq_true, if_false,
    Bool.not_eq_true', apply_ite Host.Outcome.next]

end
end

/-- The reason why a packet that has arrived fails at this module, 0 where its route and destination are good
(R251 rules 4 to 6). -/
def arrivalFailure (s : State) (q : Pkt) : Nat :=
  if ownNode s = 0xFFFF && q.kind ≠ 0x53 then 6
  else if 4 < q.hops || q.hops < q.next then 7
  else if q.next = q.hops && !isOwn s q.destNode && !(q.kind = 0x53 && ownNode s = 0xFFFF) then 4 else 0

theorem forwardPkt_good {st : Nat} {p : Pkt} {space : Bool} (good : arrivalFailure s (rewrite p link g) = 0) :
    forwardPkt s st p link g space = enqueue s st (rewrite p link g) :=
  if_neg (not_not_intro good)

theorem forwardPkt_fails {st : Nat} {p : Pkt} {space : Bool} (bad : arrivalFailure s (rewrite p link g) ≠ 0) :
    forwardPkt s st p link g space =
      freeArrival (failPkt s st (rewrite p link g) (arrivalFailure s (rewrite p link g)) space) (rewrite p link g) :=
  if_pos bad

/-! ### Copies of a multicast packet (R214 to R216) -/

section
variable {p : Pkt}

theorem exec_multicastCopyReceive (inModule : link < 64) (attached : (attachedPort s link).isSome = true) (copy : p.mcast = true) :
    exec (.multicastCopyReceive link p) s = .next (arriveCopy s link 0 p) := by
  simp only [exec_multicastCopyReceive_eq, execMulticastCopyReceive, Nat.not_le.2 inModule, Option.isNone_eq_false_iff.2 attached, copy,
    decide_false, Bool.not_true, Bool.or_self, Bool.false_eq_true, if_false]

/-- A copy that the replicator is done with leaves its receive buffer. -/
theorem arriveCopy_done {v : State} (done : receiveCopy s link p = (v, true)) : arriveCopy s link g p = leaveBuffer v link g p := by
  simp only [arriveCopy, acceptCopy, done, if_true]
  rfl

theorem arriveCopy_waits {v : State} (waits : receiveCopy s link p = (v, false)) :
    arriveCopy s link g p =
      { s with bas := { s.bas with copies := Tab.mod [] s.bas.copies (linkStation s link) (fun l => l ++ [(link * 16 + g, p)]) } } := by
  simp only [arriveCopy, acceptCopy, waits, Bool.false_eq_true, if_false]

/-- A module with a node number takes a copy of a valid group of its slice (R215, R244). -/
def groupTakes (u : State) (rec' : List Byte) (p : Pkt) : Prop :=
  ownNode u ≠ 0xFFFF ∧ groupValid rec' = true ∧ field rec' 12 1 = p.slice

theorem groupTakes_iff (u : State) (rec' : List Byte) (p : Pkt) :
    (decide (ownNode u = 0xFFFF) || !groupValid rec' || decide (field rec' 12 1 ≠ p.slice)) = false ↔ groupTakes u rec' p := by
  simp only [groupTakes, Bool.or_eq_false_iff, decide_eq_false_iff_not, Bool.not_eq_false', ne_eq, Decidable.not_not, and_assoc]

theorem receiveCopy_fails (bad : ¬ groupTakes (settleReplicator s (linkStation s link)) (groupRecord s p.route) p) :
    receiveCopy s link p = (bumpN (settleReplicator s (linkStation s link)) 0x5400 4 1, true) :=
  if_pos (eq_true_of_ne_false (mt (groupTakes_iff _ _ _).1 bad))

section
variable (good : groupTakes (settleReplicator s (linkStation s link)) (groupRecord s p.route) p)
include good

theorem receiveCopy_taken (room : replicatorRoom (settleReplicator s (linkStation s link)) (linkStation s link) p = true) :
    let rec' := groupRecord s p.route
    let left := p.route / 4096 % 8 - 1
    receiveCopy s link p = (copyOut (settleReplicator s (linkStation s link)) (linkStation s link) rec'
      (if left = 0 then [] else (groupLinks rec').filter (· ≠ link)) none { p with route := p.route % 4096 + left * 4096 }, true) := by
  simp only [receiveCopy, (groupTakes_iff _ _ _).2 good, room, Bool.not_true, Bool.false_eq_true, if_false]

theorem receiveCopy_waits (full : replicatorRoom (settleReplicator s (linkStation s link)) (linkStation s link) p = false) :
    receiveCopy s link p = (settleReplicator s (linkStation s link), false) := by
  simp only [receiveCopy, (groupTakes_iff _ _ _).2 good, full, Bool.not_false, Bool.false_eq_true, if_false, if_true]

end

end

theorem exec_multicastGroupWrite {r : VdpReq} (ok : granted s (atEntry r 0x5400 2) = true) (fits : r.data.length = 16) :
    exec (.multicastGroupWrite r) s = .next (served
      { s := { s with col := { s.col with groups := Tab.put [] s.col.groups (selOf (selects s (atEntry r 0x5400 2)) 0x5400 1) r.data } } }
      (atEntry r 0x5400 2)) := by
  rw [exec_multicastGroupWrite_eq, execMulticastGroupWrite, vdpEntry_served ok (decide_eq_true fits) rfl]
  rfl

/-! ### Failure packets (R253, R259) -/

/-- A failure that names an open request by its tag and kind ends it. -/
theorem failAtSource_named {st tag kind status detail : Nat} {x : Track} (entry : getTrack s st tag = some x)
    (named : eKind x.entry = kind) : failAtSource s st tag kind status detail = endTrack s st tag x status detail 0 0 true := by
  simp only [failAtSource, entry, named, if_true]

section
variable {st : Nat} {p : Pkt}

theorem exec_routeFail (kind : p.kind = 0x50) :
    exec (.routeFail st p) s = .next
      (failAtSource s st (field p.body 6 2 % 16384) (field p.body 4 1) fsRoute (field p.body 0 1)) :=
  if_neg (not_not_intro kind)

theorem exec_sliceFail (kind : p.kind = 0x51) :
    exec (.sliceFail st p) s = .next (failAtSource s st (field p.body 6 2 % 16384) (field p.body 4 1) fsSliceRefused 0) :=
  if_neg (not_not_intro kind)

end

end

end Sys2Proof.Machine

section
open Sys2Proof Sys2Proof.Machine

/-- Settles O18: by the order of the checks (`exec_hemPacketReceive_known`), what a route fails by
(`arrivalFailure`), what the replicator does with a copy (`groupTakes`), and the request that a
failure names (`failAtSource_named`). -/
theorem packetsFromLaneGroupsAreCheckedInOrder : Obligations.PacketsFromLaneGroupsAreCheckedInOrder := by
  unfold Obligations.PacketsFromLaneGroupsAreCheckedInOrder
  refine ⟨fun link g key data space s inModule attached up =>
      ⟨exec_hemPacketReceive_unreadable inModule attached up space,
        fun p => exec_hemPacketReceive_unknown inModule attached up space, fun p reads known => ?_⟩,
    fun link p s inModule attached copy => ?_, fun r s => exec_multicastGroupWrite,
    fun st p x s entry named => ⟨fun kind => ?_, fun kind => ?_⟩⟩
  · have checked := exec_hemPacketReceive_known inModule attached up space reads known
    refine ⟨fun refused => ?_, fun allowed copy => ?_, fun allowed single sweep => ?_, fun allowed single other good => ?_,
      fun allowed single other bad => ?_⟩
    · rw [checked, if_pos refused]
    · rw [checked, if_neg (ne_false_of_eq_true allowed), if_pos copy]
    · rw [checked, if_neg (ne_false_of_eq_true allowed), if_neg (ne_true_of_eq_false single), if_pos sweep]
    · rw [checked, if_neg (ne_false_of_eq_true allowed), if_neg (ne_true_of_eq_false single), if_neg other, forwardPkt_good good]
    · rw [checked, if_neg (ne_false_of_eq_true allowed), if_neg (ne_true_of_eq_false single), if_neg other, forwardPkt_fails bad]
      rfl
  · have arrives := exec_multicastCopyReceive inModule attached copy
    refine ⟨fun bad => ?_, fun good room => ?_, fun good full => ?_⟩
    · exact arrives.trans (congrArg _ (arriveCopy_done (receiveCopy_fails bad)))
    · exact arrives.trans (congrArg _ (arriveCopy_done (receiveCopy_taken good room)))
    · exact arrives.trans (congrArg _ (arriveCopy_waits (receiveCopy_waits good full)))
  · exact (exec_routeFail kind).trans (congrArg _ (failAtSource_named entry named))
  · exact (exec_sliceFail kind).trans (congrArg _ (failAtSource_named entry named))
end

namespace Sys2Proof.Machine

/-! ### Packets as bytes (R247, R248) -/

theorem headerBytes_length (p : Pkt) : (headerBytes p).length = 30 := by
  simp only [headerBytes, List.length_append, leBytes_length]

theorem pktBytes_length (p : Pkt) : (pktBytes p).length = 32 + p.body.length := by
  simp only [pktBytes, List.length_append, headerBytes_length, leBytes_length]

/-- The header check covers the header alone. -/
theorem take_pktBytes (p : Pkt) : (pktBytes p).take 30 = headerBytes p := by
  simp only [pktBytes, List.append_assoc]
  rw [List.take_append_of_le_length (Nat.le_of_eq (headerBytes_length p).symm),
    List.take_of_length_le (Nat.le_of_eq (headerBytes_length p))]

theorem field_pktBytes_header (p : Pkt) {off n : Nat} (h : off + n ≤ 30) :
    field (pktBytes p) off n = field (headerBytes p) off n := by
  simp only [pktBytes, List.append_assoc]
  exact field_append_left _ _ (by rwa [headerBytes_length])

theorem field_pktBytes_check (p : Pkt) : field (pktBytes p) 30 2 = (crc16 (headerBytes p)).toNat := by
  have check : (crc16 (headerBytes p)).toNat % 256 ^ 2 = (crc16 (headerBytes p)).toNat := Nat.mod_eq_of_lt (crc16 (headerBytes p)).isLt
  simp only [pktBytes, field_append_left, field_append_right, field_leBytes, leBytes_length, headerBytes_length, List.length_append,
    Nat.reduceAdd, Nat.reduceSub, Nat.reduceLeDiff, check]

theorem slice_pktBytes_body (p : Pkt) : slice (pktBytes p) 32 p.body.length = p.body := by
  have front : (headerBytes p ++ leBytes 2 (crc16 (headerBytes p)).toNat).length = 32 := by
    rw [List.length_append, headerBytes_length, leBytes_length]
  rw [pktBytes, slice_append_right _ _ (Nat.le_of_eq front), front]
  exact slice_all p.body

/-- The first byte of a header: HOPS, NEXT and the multicast mark. -/
def hopByte (p : Pkt) : Nat := p.hops % 8 + p.next % 8 * 8 + b2n p.mcast * 64

/-- Byte 28 of a header: the poison and fabric marks. -/
def markByte (p : Pkt) : Nat := b2n p.poison + 2 * b2n p.fabric

/-- The fields of a header, at their places of R247. -/
theorem field_headerBytes (p : Pkt) :
    field (headerBytes p) 0 1 = hopByte p % 256 ^ 1 ∧ field (headerBytes p) 1 5 = p.route % 256 ^ 5 ∧
    field (headerBytes p) 6 1 = p.slice % 256 ^ 1 ∧ field (headerBytes p) 7 1 = p.kind % 256 ^ 1 ∧
    field (headerBytes p) 8 2 = p.destNode % 4096 % 256 ^ 2 ∧ field (headerBytes p) 10 1 = p.destStation % 32 % 256 ^ 1 ∧
    field (headerBytes p) 11 1 = p.srcStation % 32 % 256 ^ 1 ∧ field (headerBytes p) 12 2 = p.srcNode % 4096 % 256 ^ 2 ∧
    field (headerBytes p) 14 2 = p.body.length % 16384 % 256 ^ 2 ∧ field (headerBytes p) 16 2 = p.tag % 16384 % 256 ^ 2 ∧
    field (headerBytes p) 18 2 = p.stream % 256 ^ 2 ∧ field (headerBytes p) 20 4 = p.seq % 256 ^ 4 ∧
    field (headerBytes p) 24 2 = p.sigSync % 256 ^ 2 ∧ field (headerBytes p) 26 2 = p.sigCount % 256 ^ 2 ∧
    field (headerBytes p) 28 1 = markByte p % 256 ^ 1 := by
  unfold headerBytes
  refine ⟨?_, ?_, ?_, ?_, ?_, ?_, ?_, ?_, ?_, ?_, ?_, ?_, ?_, ?_, ?_⟩ <;>
    simp only [field_append_left, field_append_right, field_leBytes, leBytes_length, List.length_append, hopByte, markByte,
      Nat.reduceAdd, Nat.reduceSub, Nat.reduceLeDiff]

theorem read_hopByte {p : Pkt} (hops : p.hops < 8) (next : p.next < 8) :
    hopByte p % 256 ^ 1 % 8 = p.hops ∧ hopByte p % 256 ^ 1 / 8 % 8 = p.next ∧ bit (hopByte p % 256 ^ 1) 6 = p.mcast := by
  have mark : b2n p.mcast ≤ 1 := by unfold b2n; split <;> decide
  have whole : hopByte p % 256 ^ 1 = p.hops + p.next * 8 + b2n p.mcast * 64 := by
    unfold hopByte
    omega
  rw [whole]
  refine ⟨by omega, by omega, ?_⟩
  rw [bit, Nat.testBit_eq_decide_div_mod_eq, show (p.hops + p.next * 8 + b2n p.mcast * 64) / 2 ^ 6 % 2 = b2n p.mcast by omega]
  cases p.mcast <;> rfl

theorem read_markByte (p : Pkt) : bit (markByte p % 256 ^ 1) 0 = p.poison ∧ bit (markByte p % 256 ^ 1) 1 = p.fabric := by
  unfold markByte
  generalize p.poison = poison, p.fabric = fabric
  revert poison fabric
  decide

/-- A string that holds no whole header, or whose header check fails, is no packet (R248). -/
theorem parsePkt_none {l : List Byte} (bad : l.length < 32 ∨ field l 30 2 ≠ (crc16 (l.take 30)).toNat) : parsePkt l = none := by
  rw [parsePkt, if_pos (by simpa only [Bool.or_eq_true, decide_eq_true_eq] using bad)]

/-- The bytes of a packet pass the header check, and every field is read where it was put. -/
theorem parsePkt_pktBytes {p : Pkt} (h : p.wf = true) : parsePkt (pktBytes p) = some { p with stamp := 0 } := by
  simp only [Pkt.wf, Bool.and_eq_true, decide_eq_true_eq] at h
  obtain ⟨⟨⟨⟨⟨⟨⟨⟨⟨⟨⟨⟨⟨⟨hops, next⟩, route⟩, slice⟩, kind⟩, destNode⟩, destStation⟩, srcStation⟩, srcNode⟩, tag⟩, stream⟩, seq⟩,
    sigSync⟩, sigCount⟩, body⟩ := h
  obtain ⟨f0, f1, f6, f7, f8, f10, f11, f12, f14, f16, f18, f20, f24, f26, f28⟩ := field_headerBytes p
  obtain ⟨hopsRead, nextRead, mcastRead⟩ := read_hopByte hops next
  obtain ⟨poisonRead, fabricRead⟩ := read_markByte p
  have whole : (decide ((pktBytes p).length < 32) ||
      decide (field (pktBytes p) 30 2 ≠ (crc16 ((pktBytes p).take 30)).toNat)) = false := by
    rw [take_pktBytes, field_pktBytes_check, pktBytes_length]
    simp
  rw [parsePkt, whole, if_neg Bool.false_ne_true]
  simp (disch := omega) only [field_pktBytes_header, f0, f1, f6, f7, f8, f10, f11, f12, f14, f16, f18, f20, f24, f26, f28,
    hopsRead, nextRead, mcastRead, poisonRead, fabricRead, Nat.mod_eq_of_lt, slice_pktBytes_body]

end Sys2Proof.Machine

section
open Sys2Proof Sys2Proof.Machine

/-- Settles O48: each field of the header stands whole at its place (`field_headerBytes`), and the
check of R248 is formed over the same 30 bytes (`take_pktBytes`, `field_pktBytes_check`). -/
theorem packetsReadBackFromTheirBytes : Obligations.PacketsReadBackFromTheirBytes := by
  unfold Obligations.PacketsReadBackFromTheirBytes
  exact ⟨fun p => parsePkt_pktBytes, fun l => parsePkt_none⟩
end

namespace Sys2Proof.Machine

/-! ### Frames of a lane group (R231 to R238, R241, R244) -/

section
variable (link line g : Nat) (s : State)

theorem exec_hemFrameReceive_eq (seq : Nat) (frame : List Byte) (errs : Nat) :
    exec (.hemFrameReceive link line seq frame errs) s = execHemFrameReceive link line seq frame errs s := rfl

theorem exec_hemControlFrame_eq (f : List Byte) (errs : Nat) :
    exec (.hemControlFrame link line f errs) s = execHemControlFrame link line f errs s := rfl

theorem exec_hemFrameResend_eq : exec (.hemFrameResend link g) s = execHemFrameResend link g s := rfl

end

/-- The code of a frame corrects up to 15 symbols (R231). -/
theorem frameDecode_good {errs : Nat} (few : errs ≤ 15) (free : Nat) : frameDecode errs free = 0 := if_pos few

theorem decodedFrame_of_ne {v : Nat} (right : v ≠ 2) (f : List Byte) (free : Nat) : decodedFrame f v free = f := if_neg right

/-- The module after a line has decoded a frame: the injections of the line are used, and the symbols corrected
are counted (R231, R235). -/
def frameCounted (s : State) (link g line errs : Nat) : State :=
  let v := frameDecode errs s.free
  let u := useInjections s 6 link line
  let c := if v = 1 then u else noteSymbols u link g line (countedErrs u v errs 16)
  if 15 < errs then nextFree c else c

theorem frameCounted_good {errs : Nat} (few : errs ≤ 15) (s : State) (link g line : Nat) :
    frameCounted s link g line errs = noteSymbols (useInjections s 6 link line) link g line errs := by
  simp only [frameCounted, frameDecode_good few, countedErrs_of_ne (by decide : (0 : Nat) ≠ 2), Nat.not_lt.2 few,
    (by decide : ¬ (0 : Nat) = 1), if_false]

/-- What a group that is UP does with a good frame: the piggyback of all but a training frame, then its data
(R232 to R234). -/
def frameTaken (s : State) (link g : Nat) (f : List Byte) : State :=
  let x := if frameType f = 3 then s else piggyback s link g (field f 2562 4)
  if frameType f = 1 then frameData x link g f else x

section
variable {link g : Nat} {f : List Byte} {s : State}

/-- A second copy of a frame is discarded (R237). -/
theorem frameData_old (old : 2048 ≤ (field f 0 2 % 4096 + 4096 - (getGroup s link g).rxNext) % 4096) : frameData s link g f = s :=
  if_pos old

theorem frameData_new (new : (field f 0 2 % 4096 + 4096 - (getGroup s link g).rxNext) % 4096 < 2048) :
    let q := field f 0 2 % 4096
    frameData s link g f = deliverFrames link g 2048 (modGroup s link g (fun x => { x with
      naks := (x.naks ++ skipped x q).filter (· ≠ q)
      reorder := Tab.insert (Tab.erase x.reorder q) q (slice f 2 2560) })) :=
  if_neg (Nat.not_le.2 new)

end

section
variable {link line g : Nat} {s : State} (inModule : link < 64) (lane : line ≤ 16) (owner : lineOwner s link line = g)
variable (undisturbed : pendingAt s 6 link line = [])
include inModule lane owner undisturbed

/-- A group that its line's window leaves UP loses a bad frame and takes a good one. -/
theorem exec_hemFrameReceive {frame : List Byte} {errs : Nat} (up : (getGroup s link g).state = 2) (seq : Nat) :
    let v := frameDecode errs s.free
    let f := decodedFrame frame v (useInjections s 6 link line).free
    let w := frameWindow (frameCounted s link g line errs) link g line (!frameGood f v)
    (getGroup w link g).state = 2 →
    exec (.hemFrameReceive link line seq frame errs) s = .next (tellGroup link g 64 (
      if frameGood f v = false then frameLost w link g (seq % 4096) else frameTaken w link g f)) := by
  intro v f w stays
  simp only [w, f, v, frameCounted] at stays ⊢
  simp only [exec_hemFrameReceive_eq, execHemFrameReceive, owner, undisturbed, injectErrs_nil, injectDrops_nil, up, stays,
    Nat.not_le.2 inModule, Nat.not_lt.2 lane, Nat.add_zero, ne_eq, not_true, decide_false, Bool.or_self, Bool.false_eq_true,
    if_false, Bool.not_eq_true', frameTaken, apply_ite Host.Outcome.next, apply_ite (tellGroup link g 64)]

/-- A control frame within the reach of its code, on a lit group that is not DOWN. -/
theorem exec_hemControlFrame {f : List Byte} {errs : Nat} (notDown : (getGroup s link g).state ≠ 0)
    (lit : (getGroup s link g).dark = false) (few : errs ≤ 15) :
    let n := noteSymbols (useInjections s 6 link line) link g line errs
    let w := if (getGroup s link g).state = 2 then frameWindow n link g line false else n
    frameGood f 0 = true → frameType f = 2 → (getGroup w link g).state ≠ 0 →
    let i := downWithoutLanes (checkIdentity (modGroup w link g (fun x => takeIdentity x f)) link g (getGroup s link g)) link g
    exec (.hemControlFrame link line f errs) s = .next (tellGroup link g 64 (piggyback
      (offsetStamp (takeControl i link g f) link g (field f 60 8)) link g (field f 2562 4))) := by
  intro n w good control stays i
  simp only [w, n] at stays
  simp only [exec_hemControlFrame_eq, execHemControlFrame, owner, undisturbed, injectErrs_nil, injectDrops_nil, notDown, lit,
    frameDecode_good few, decodedFrame_of_ne (by decide : (0 : Nat) ≠ 2), countedErrs_of_ne (by decide : (0 : Nat) ≠ 2), good, control, stays,
    Nat.not_le.2 inModule, Nat.not_lt.2 lane, Nat.not_lt.2 few, Nat.add_zero, ne_eq, not_true, decide_false, Bool.not_true,
    Bool.or_self, Bool.false_eq_true, Nat.reduceEqDiff, if_false, i, w, n]

end

/-- The frame that is due first is dropped after its eighth send, and else sent again once its time has
passed (R237, R238). -/
theorem exec_hemFrameResend {link g : Nat} {s : State} {f : TxFrame} (up : (getGroup s link g).state = 2)
    (lines : frameLines s link g ≠ []) (first : firstDue (getGroup s link g) (getGroup s link g).retry = some f) :
    let x := getGroup s link g
    let u := advanceTo s (resendAt x f)
    let lines := frameLines u link g
    let line := (lines.find? (fun l => lineGroup l ≠ lineGroup f.line)).getD (lines.headD f.line)
    let again : TxFrame → TxFrame := fun y =>
      { y with sends := y.sends + 1, last := frameTime x (dataFramePos u x line), line := line, nak := false }
    let v := modGroup u link g (fun x => { x with retry := updFirst (fun y => y.seq = f.seq) again x.retry, resent := x.resent + 1 })
    exec (.hemFrameResend link g) s = .next (
      if 8 ≤ f.sends then hemPumpAll (dropFrame u link g f.seq) link g
      else placeFrame (bump v (0x4400 + link) 9) link g line f.seq f.data) := by
  intro x u lines' line again v
  have sends : (frameLines s link g).isEmpty = false := by rwa [List.isEmpty_eq_false_iff]
  simp only [exec_hemFrameResend_eq, execHemFrameResend, up, sends, first, ne_eq, not_true, decide_false, Bool.or_self, Bool.false_eq_true,
    if_false, apply_ite Host.Outcome.next, v, again, line, lines', u, x]

end Sys2Proof.Machine

section
open Sys2Proof Sys2Proof.Machine

/-- Settles O16: a received frame by what its line's window leaves of the group (`exec_hemFrameReceive`), a good one by
its type and FSEQ (`frameTaken`, `frameData_old`, `frameData_new`), a resend by the count of sends
(`exec_hemFrameResend`). That a control frame without a data lane takes the group DOWN and that control frames leave
where they tell something new are the model's choices (logs 80, 99). -/
theorem framesAreTakenNakkedAndResent : Obligations.FramesAreTakenNakkedAndResent := by
  unfold Obligations.FramesAreTakenNakkedAndResent
  intro link line g s inModule lane owner
  refine ⟨fun seq frame errs up undisturbed => ?_, fun f errs notDown lit undisturbed few =>
    exec_hemControlFrame inModule lane owner undisturbed notDown lit few, fun f up lines first => ?_⟩
  · intro v u f c n w stays
    have received := exec_hemFrameReceive inModule lane owner undisturbed up seq stays
    refine ⟨fun bad => ?_, fun good => ?_⟩
    · exact received.trans (congrArg _ (congrArg _ (if_pos bad)))
    · have taken : exec (.hemFrameReceive link line seq frame errs) s = .next (tellGroup link g 64 (frameTaken w link g f)) :=
        received.trans (congrArg _ (congrArg _ (if_neg (ne_false_of_eq_true good))))
      intro x q
      refine ⟨fun other => ?_, fun data old => ?_, fun data new => ?_⟩
      · rw [taken, frameTaken, if_neg other]
      · rw [taken, frameTaken, if_pos data, frameData_old old]
      · rw [taken, frameTaken, if_pos data, frameData_new new]
  · have sent := exec_hemFrameResend up lines first
    exact ⟨fun eighth => sent.trans (congrArg _ (if_pos eighth)), fun fewer => sent.trans (congrArg _ (if_neg (Nat.not_le.2 fewer)))⟩
end

namespace Sys2Proof.Machine

/-! ### Failed lanes, training and loss of light (R227, R230, R241, R243, R266, R501) -/

section
variable (link g : Nat) (s : State)

theorem exec_hemLaneFailed_eq (line : Nat) : exec (.hemLaneFailed link line) s = execHemLaneFailed link line s := rfl

theorem exec_hemTrainingStart_eq (ms : List Measure) : exec (.hemTrainingStart link g ms) s = execHemTrainingStart link g ms s := rfl

theorem exec_hemGroupUp_eq (latency : Nat) : exec (.hemGroupUp link g latency) s = execHemGroupUp link g latency s := rfl

theorem exec_lossOfLight_eq (space : Bool) : exec (.lossOfLight link g space) s = execLossOfLight link g space s := rfl

end

/-- The map of failed lines of a link with one line more (R241). -/
def lineFailed (s : State) (link line : Nat) : State :=
  { s with hem := { s.hem with failed := Tab.mod 0 s.hem.failed link (fun m => setBit m line true) } }

/-- A lane fails once: it is marked and reported, and its group is DOWN where no data line is left. -/
theorem failHemLane_healthy {link line : Nat} {s : State} (healthy : bit (Tab.get 0 s.hem.failed link) line = false) :
    let o := lineOwner s link line
    let u := lineFailed s link line
    failHemLane s link line = tellGroup link o 64 (downWithoutLanes (report u
      { cls := 0x38, kind := 8, place := link, unit := o, detail := 2 ^ line, tag := (getGroup s link o).farNode % 4096
        masked := decide ((groupDataLines u link o).length = (groupDataLines s link o).length) }) link o) :=
  if_neg (ne_true_of_eq_false healthy)

section
variable {link g : Nat} {s : State} (inModule : link < 64)
include inModule

section
variable (attached : (attachedPort s link).isSome = true)
include attached

theorem exec_hemLaneFailed {line : Nat} (lane : line ≤ 16) :
    exec (.hemLaneFailed link line) s = .next (failHemLane s link line) := by
  simp only [exec_hemLaneFailed_eq, execHemLaneFailed, Nat.not_le.2 inModule, Nat.not_lt.2 lane, Option.isNone_eq_false_iff.2 attached,
    decide_false, Bool.or_self, Bool.false_eq_true, if_false]

/-- A group that is DOWN, or quarantined and dark, may start to train (R243). -/
theorem exec_hemTrainingStart (inLink : g < groupCount s link)
    (may : (getGroup s link g).state = 0 ∨ (getGroup s link g).state = 3 ∧ (getGroup s link g).dark = true) (ms : List Measure) :
    let t := modGroup s link g (trainingGroup s.now)
    let u := (linesOf (groupLines t link g)).foldl (fun s l =>
      if bit (usableLines s) l then emitFrame s link g l 0 trainingFrame else s) t
    let v := modGroup u link g (fun x => { x with
      txPos := (List.range 17).map (fun l => (l, 1)), ctlPos := (List.range 17).map (fun l => (l, 1)) })
    let w := (ms.filter (fun m => ofReceiver link m && bit (groupLines v link g) (idDetail m.id))).foldl applyDecided v
    exec (.hemTrainingStart link g ms) s = .next (tellGroup link g 64 ((List.range 17).foldl (fun s l =>
      if bit (failedReceivers link ms) l && bit (groupLines s link g) l && !bit (Tab.get 0 s.hem.failed link) l then
        hemReport (lineFailed s link l) 0x38 link g (2 ^ l)
      else s) w)) := by
  have idle : (decide ((getGroup s link g).state = 0) || (decide ((getGroup s link g).state = 3) && (getGroup s link g).dark)) = true := by
    simpa only [Bool.or_eq_true, Bool.and_eq_true, decide_eq_true_eq] using may
  simp only [exec_hemTrainingStart_eq, execHemTrainingStart, Nat.not_le.2 inModule, Nat.not_le.2 inLink,
    Option.isNone_eq_false_iff.2 attached, idle, decide_false, Bool.not_true, Bool.or_self, Bool.false_eq_true, if_false, lineFailed]

end

/-- The end of training: a quarantined group stays so, one without a data line is DOWN, any other is UP (R243). -/
theorem exec_hemGroupUp (known : (getGroup s link g).known = true) (untrained : (getGroup s link g).trained = false)
    (agrees : splitAgrees s link g = true) (latency : Nat) (trains : (getGroup s link g).state = 1 ∨ (getGroup s link g).state = 3) :
    let u := modGroup s link g (upGroup (frameNow s (getGroup s link g)) latency)
    exec (.hemGroupUp link g latency) s = .next (
      if (getGroup s link g).state = 3 then tellGroup link g 64 u
      else if groupDataLines u link g = [] then modGroup u link g (fun x => emptyGroup x 0)
      else tellGroup link g 64 (hemPumpAll (modGroup u link g (fun x => { x with state := 2 })) link g)) := by
  have ends : (decide ((getGroup s link g).state ≠ 1) && decide ((getGroup s link g).state ≠ 3)) = false := by
    simp only [Bool.and_eq_false_iff, decide_eq_false_iff_not, ne_eq, Decidable.not_not]
    exact trains
  simp only [exec_hemGroupUp_eq, execHemGroupUp, Nat.not_le.2 inModule, ends, untrained, known, agrees, decide_false, Bool.not_true,
    Bool.or_self, Bool.false_eq_true, if_false, List.isEmpty_iff, apply_ite Host.Outcome.next]

theorem exec_lossOfLight (lit : (getGroup s link g).dark = false) (space : Bool) :
    exec (.lossOfLight link g space) s = .next (loseLight s link g space) := by
  simp only [exec_lossOfLight_eq, execLossOfLight, Nat.not_le.2 inModule, lit, decide_false, Bool.or_self, Bool.false_eq_true, if_false]

end

end Sys2Proof.Machine

section
open Sys2Proof Sys2Proof.Machine

/-- Settles O17: by one equation for each command, a lane by its failing once (`failHemLane_healthy`), the end of
training by the state it finds the group in (`exec_hemGroupUp`). -/
theorem laneGroupsTrainFailAndLoseLight : Obligations.LaneGroupsTrainFailAndLoseLight := by
  unfold Obligations.LaneGroupsTrainFailAndLoseLight
  refine fun link g s inModule attached => ⟨fun line lane healthy =>
      (exec_hemLaneFailed inModule attached lane).trans (congrArg _ (failHemLane_healthy healthy)),
    fun ms inLink may => exec_hemTrainingStart inModule attached inLink may ms, fun latency known untrained agrees => ?_,
    fun space lit => exec_lossOfLight inModule lit space⟩
  have ends := exec_hemGroupUp inModule known untrained agrees latency
  intro u
  refine ⟨fun quarantined => ?_, fun training noLane => ?_, fun training lanes => ?_⟩
  · rw [ends (.inr quarantined), if_pos quarantined]
  · have notQuarantined : ¬ (getGroup s link g).state = 3 := by omega
    rw [ends (.inl training), if_neg notQuarantined, if_pos noLane]
  · have notQuarantined : ¬ (getGroup s link g).state = 3 := by omega
    rw [ends (.inl training), if_neg notQuarantined, if_neg lanes]
end

namespace Sys2Proof.Machine

/-! ### Granted writes of tables and quarantine (R246, R250, R259, R273) -/

section
variable (s : State)

theorem exec_clearQuarantine_eq (r : VdpReq) : exec (.clearQuarantine r) s = execClearQuarantine r s := rfl

theorem exec_nodeNumberWrite_eq (r : VdpReq) : exec (.nodeNumberWrite r) s = execNodeNumberWrite r s := rfl

theorem exec_routeSetWrite_eq (r : VdpReq) : exec (.routeSetWrite r) s = execRouteSetWrite r s := rfl

theorem exec_allowedSlicesWrite_eq (r : VdpReq) : exec (.allowedSlicesWrite r) s = execAllowedSlicesWrite r s := rfl

theorem exec_startSweep_eq (r : VdpReq) : exec (.startSweep r) s = execStartSweep r s := rfl

theorem exec_sweep_eq (link g : Nat) (p : Pkt) : exec (.sweep link g p) s = execSweep link g p s := rfl

theorem exec_sweepReply_eq (p : Pkt) : exec (.sweepReply p) s = execSweepReply p s := rfl

theorem exec_sweepLost_eq : exec .sweepLost s = execSweepLost s := rfl

end

theorem nodeOk_iff {v : List Byte} : nodeOk v = true ↔ leNat v < 4096 ∨ leNat v = 0xFFFF := by
  simp only [nodeOk, Bool.or_eq_true, decide_eq_true_eq]

theorem routeSetOk_iff {v : List Byte} : routeSetOk v = true ↔ v.length = 64 ∧
    ∀ i < 8, (routeEntry v i).1 = 0 ∨ 1 ≤ (routeEntry v i).2.1 ∧ (routeEntry v i).2.1 ≤ 4 := by
  simp only [routeSetOk, Bool.and_eq_true, Bool.or_eq_true, decide_eq_true_eq, List.all_eq_true, List.mem_range]

section
variable {r : VdpReq} {s : State}

theorem exec_clearQuarantine (ok : granted s (atEntry r 0x5000 2) = true) :
    exec (.clearQuarantine r) s = .next (served (clearQuarantine s (selects s (atEntry r 0x5000 2)) r.data) (atEntry r 0x5000 2)) := by
  rw [exec_clearQuarantine_eq, execClearQuarantine, vdpEntry_served ok rfl rfl]
  rfl

theorem exec_nodeNumberWrite (ok : granted s (atEntry r 0x5000 1) = true) (node : leNat r.data < 4096 ∨ leNat r.data = 0xFFFF) :
    exec (.nodeNumberWrite r) s = .next (served { s := wrE s 0x5000 1 (leNat r.data) } (atEntry r 0x5000 1)) := by
  rw [exec_nodeNumberWrite_eq, execNodeNumberWrite, vdpEntry_served ok (nodeOk_iff.2 node) rfl]
  rfl

theorem exec_routeSetWrite (ok : granted s (atEntry r 0x5100 2) = true) (whole : r.data.length = 64)
    (hops : ∀ i < 8, (routeEntry r.data i).1 = 0 ∨ 1 ≤ (routeEntry r.data i).2.1 ∧ (routeEntry r.data i).2.1 ≤ 4) :
    exec (.routeSetWrite r) s = .next (served (writeRouteSet s (selects s (atEntry r 0x5100 2)) r.data) (atEntry r 0x5100 2)) := by
  rw [exec_routeSetWrite_eq, execRouteSetWrite, vdpEntry_served ok (routeSetOk_iff.2 ⟨whole, hops⟩) rfl]
  rfl

theorem exec_allowedSlicesWrite (ok : granted s (atEntry r 0x5300 2) = true) (whole : r.data.length = 32) :
    exec (.allowedSlicesWrite r) s = .next (served (writeSlices s (selects s (atEntry r 0x5300 2)) r.data) (atEntry r 0x5300 2)) := by
  rw [exec_allowedSlicesWrite_eq, execAllowedSlicesWrite, vdpEntry_served ok (decide_eq_true whole) rfl]
  rfl

end

/-! ### Sweeps (R269, R270) -/

/-- The module whose sweep of a number of hops has started: operation 7 runs, and the start is stamped. -/
def sweepStarted (s : State) (hops : Nat) : State :=
  let u := wrE (startOp s 7 hops hops) 0x5500 4 1
  { u with hem := { u.hem with sweepStart := epoch u, sweepPs := u.now } }

/-- The SWEEP that leaves the Base by the route of 0x5500:01. -/
def sweepPkt (u : State) (v : Nat) : Pkt :=
  { hops := bits v 40 3, route := v % 2 ^ 40, slice := v / 2 ^ 56, kind := 0x52, srcStation := 28, srcNode := ownNode u % 4096 }

/-- A sweep leaves by the first hop of its route, or is broken there (log 34). -/
def sweepLeaves (w : State) (v : Nat) : State :=
  let e := hopEntry (v % 2 ^ 40) 0
  if hopReason w e 0x52 = 0 then enqueue w 28 (sweepPkt w v)
  else endSweep w 3 (hopRecord w none (some (e / 16, e % 16)) (hopReason w e 0x52))

section
variable {s : State} (sel : Tab Nat) (data : List Byte) (free : opRunning s 7 = false)
include free

/-- A sweep of 1 to 4 hops starts. -/
theorem startSweep_started (least : 1 ≤ bits (rdE s 0x5500 1) 40 3) (most : bits (rdE s 0x5500 1) 40 3 ≤ 4) :
    startSweep s sel data = { s := sweepLeaves (sweepStarted s (bits (rdE s 0x5500 1) 40 3)) (rdE s 0x5500 1) } := by
  have counted : (decide (bits (rdE s 0x5500 1) 40 3 = 0) || decide (4 < bits (rdE s 0x5500 1) 40 3)) = false := by
    rw [Bool.or_eq_false_iff, decide_eq_false_iff_not, decide_eq_false_iff_not]
    omega
  simp only [startSweep, free, counted, Bool.false_eq_true, if_false, ne_eq, ite_not]
  split
  next isOpen => exact congrArg (fun x => ({ s := x } : Effect)) (if_pos isOpen).symm
  next closed => exact congrArg (fun x => ({ s := x } : Effect)) (if_neg closed).symm

theorem startSweep_refused (miscounted : bits (rdE s 0x5500 1) 40 3 = 0 ∨ 4 < bits (rdE s 0x5500 1) 40 3) :
    startSweep s sel data = { s := wrE (endOp (startOp s 7 0 0) 7 5 5 0) 0x5500 4 5, status := stRefused } := by
  have counted : (decide (bits (rdE s 0x5500 1) 40 3 = 0) || decide (4 < bits (rdE s 0x5500 1) 40 3)) = true := by
    simpa only [Bool.or_eq_true, decide_eq_true_eq] using miscounted
  simp only [startSweep, free, counted, Bool.false_eq_true, if_false, if_true]

end

section
variable {r : VdpReq} {s : State} (ok : granted s (atEntry r 0x5500 2) = true) (free : opRunning s 7 = false)
include ok free

theorem exec_startSweep (least : 1 ≤ bits (rdE s 0x5500 1) 40 3) (most : bits (rdE s 0x5500 1) 40 3 ≤ 4) :
    exec (.startSweep r) s = .next (served
      { s := sweepLeaves (sweepStarted s (bits (rdE s 0x5500 1) 40 3)) (rdE s 0x5500 1) } (atEntry r 0x5500 2)) := by
  have starts := startSweep_started (selects s (atEntry r 0x5500 2)) r.data free least most
  rw [exec_startSweep_eq, execStartSweep, vdpEntry_served ok rfl (congrArg Effect.status starts)]
  exact congrArg (fun e => Host.Outcome.next (served e _)) starts

theorem exec_startSweep_refused (miscounted : bits (rdE s 0x5500 1) 40 3 = 0 ∨ 4 < bits (rdE s 0x5500 1) 40 3) :
    exec (.startSweep r) s = .next (answer (wrE (endOp (startOp s 7 0 0) 7 5 5 0) 0x5500 4 5) (atEntry r 0x5500 2)
      (respOf (atEntry r 0x5500 2) stRefused 0 [])) := by
  have refuses := startSweep_refused (selects s (atEntry r 0x5500 2)) (atEntry r 0x5500 2).data free miscounted
  have failed : (startSweep s (selects s (atEntry r 0x5500 2)) (atEntry r 0x5500 2).data).status ≠ 0 := by
    rw [refuses]
    exact (by decide : stRefused ≠ 0)
  rw [exec_startSweep_eq, execStartSweep, vdpEntry_refused ok rfl failed, refuses]

end

section
variable {link g : Nat} {p : Pkt} {s : State}

theorem exec_sweep (inModule : link < 64) (up : (getGroup s link g).state = 2) (kind : p.kind = 0x52) :
    exec (.sweep link g p) s = .next (sweepArrive s link g p) := by
  simp only [exec_sweep_eq, execSweep, Nat.not_le.2 inModule, up, kind, ne_eq, not_true, decide_false, Bool.or_self, Bool.false_eq_true, if_false]

/-- A SWEEP whose header names no hop of its route fails (R251 rule 5). -/
theorem sweepArrive_miscounted (bad : 4 < (rewrite p link g).hops ∨ (rewrite p link g).hops < (rewrite p link g).next) :
    sweepArrive s link g p = failPkt s (linkStation s link) (rewrite p link g) 7 false :=
  if_pos (by simpa only [Bool.or_eq_true, decide_eq_true_eq] using bad)

section
variable (few : (rewrite p link g).hops ≤ 4)
include few

theorem sweepArrive_end (ends : (rewrite p link g).hops = (rewrite p link g).next) :
    sweepArrive s link g p = enqueue s (linkStation s link) (replyTo s (rewrite p link g) 0x53
      ((rewrite p link g).body ++ hopRecord s (some (link, g)) none 0)) := by
  simp only [sweepArrive, ends ▸ Nat.not_lt.2 few, ends, Nat.lt_irrefl, decide_false, Bool.or_self, Bool.false_eq_true, if_false, if_true]

/-- A SWEEP with a hop left goes on where that hop is open, and is answered where it is not. -/
theorem sweepArrive_goesOn (more : (rewrite p link g).next < (rewrite p link g).hops) :
    let st := linkStation s link
    let q := rewrite p link g
    let e := hopEntry q.route q.next
    let why := hopReason s e 0x52
    sweepArrive s link g p =
      if why = 0 then enqueue s st { q with body := q.body ++ hopRecord s (some (link, g)) (some (e / 16, e % 16)) 0 }
      else enqueue s st (replyTo s q 0x53 (q.body ++ hopRecord s (some (link, g)) (some (e / 16, e % 16)) why)) := by
  simp only [sweepArrive, Nat.not_lt.2 few, Nat.not_lt.2 (Nat.le_of_lt more), Nat.ne_of_gt more, decide_false, Bool.or_self,
    Bool.false_eq_true, if_false, ne_eq, ite_not]

end

end

section
variable {p : Pkt} {s : State} (runs : opRunning s 7 = true)
include runs

theorem exec_sweepReply (kind : p.kind = 0x53) :
    let n := p.body.length / 32
    exec (.sweepReply p) s = .next (endSweep s
      (if n = (getOp s 7).arg ∧ field p.body (32 * (n - 1) + 7) 1 = 0 then 2 else 3) p.body) := by
  simp only [exec_sweepReply_eq, execSweepReply, runs, kind, ne_eq, not_true, decide_false, Bool.not_true, Bool.or_self,
    Bool.false_eq_true, if_false, Bool.and_eq_true, decide_eq_true_eq]

theorem exec_sweepLost : exec .sweepLost s = .next (endSweep (advanceTo s (s.hem.sweepPs + 10 * msPs)) 4 []) := by
  simp only [exec_sweepLost_eq, execSweepLost, runs, Bool.not_true, Bool.false_eq_true, if_false]

end

end Sys2Proof.Machine

section
open Sys2Proof Sys2Proof.Machine

/-- Settles O19: the granted writes by the rules of their entries (`nodeOk_iff`, `routeSetOk_iff`), a start by its
count of hops and its first hop (`startSweep_started`, `startSweep_refused`), an arrival by the hops that it has left
(the lemmas about `sweepArrive`), a reply by its last record (`exec_sweepReply`). The states after a quarantine and
the record of a sweep that ends at this module are the model's choices (logs 33, 34). -/
theorem routesSlicesAndSweepsAreSetAndAnswered : Obligations.RoutesSlicesAndSweepsAreSetAndAnswered := by
  unfold Obligations.RoutesSlicesAndSweepsAreSetAndAnswered
  refine ⟨fun r s => exec_clearQuarantine, fun r s => exec_nodeNumberWrite, fun r s => exec_routeSetWrite,
    fun r s => exec_allowedSlicesWrite, fun r s ok free => ?_, fun r s => exec_startSweep_refused,
    fun link g p s inModule up kind => ?_, fun p s runs kind => ?_, fun s => exec_sweepLost⟩
  · intro v hops least most u w e why
    have starts := exec_startSweep ok free least most
    refine ⟨fun isOpen => ?_, fun closed => ?_⟩
    · exact starts.trans (congrArg (fun x => Host.Outcome.next (served { s := x } _)) (if_pos isOpen))
    · exact starts.trans (congrArg (fun x => Host.Outcome.next (served { s := x } _)) (if_neg closed))
  · have arrives : exec (.sweep link g p) s = .next (sweepArrive s link g p) := exec_sweep inModule up kind
    intro st q e why reply
    refine ⟨fun bad => ?_, fun few ends => ?_, fun few more closed => ?_, fun few more isOpen => ?_⟩
    · rw [arrives, sweepArrive_miscounted bad]
    · rw [arrives, sweepArrive_end few ends]
    · exact arrives.trans (congrArg _ ((sweepArrive_goesOn few more).trans (if_neg closed)))
    · exact arrives.trans (congrArg _ ((sweepArrive_goesOn few more).trans (if_pos isOpen)))
  · have ended := exec_sweepReply runs kind
    intro n
    refine ⟨fun all whole => ?_, fun broken => ?_⟩
    · rw [ended, if_pos ⟨all, whole⟩]
    · rw [ended, if_neg fun ⟨all, whole⟩ => broken.elim (absurd all) (absurd whole)]
end

namespace Sys2Proof.Machine

/-! ### Sync objects and leases (R297 to R299) -/

section
variable (s : State)

theorem exec_syncAdd_eq (st : Nat) (p : Pkt) : exec (.syncAdd st p) s = execSyncAdd st p s := rfl

theorem exec_syncRead_eq (st : Nat) (p : Pkt) : exec (.syncRead st p) s = execSyncRead st p s := rfl

theorem exec_acquire_eq (st : Nat) (p : Pkt) : exec (.acquire st p) s = execAcquire st p s := rfl

theorem exec_renew_eq (st : Nat) (p : Pkt) : exec (.renew st p) s = execRenew st p s := rfl

theorem exec_release_eq (st : Nat) (p : Pkt) : exec (.release st p) s = execRelease st p s := rfl

theorem exec_leaseExpiry_eq (i : Nat) : exec (.leaseExpiry i) s = execLeaseExpiry i s := rfl

theorem exec_revokeLease_eq (r : VdpReq) : exec (.revokeLease r) s = execRevokeLease r s := rfl

end

/-- The sync object that a request names in Operand [47:32] (R297). -/
def objectName (p : Pkt) : Nat := qOperand p / 2 ^ 32 % 65536

section
variable {s : State} {st : Nat} {p : Pkt} (torn : tornDown s p = false) (may : syncRefusal s st p (objectName p) = 0)
include torn may

/-- A request whose checks pass runs its operation on the object that it names. -/
theorem syncRequest_allowed (f : State → Nat → State) : syncRequest s st p f = f s (objectName p) := by
  rw [objectName] at may
  simp only [syncRequest, torn, may, ne_eq, not_true, Bool.false_eq_true, if_false, objectName]

theorem exec_syncAdd :
    let u := syncAdd s st (objectName p) (BitVec.ofNat 32 (qOperand p))
    exec (.syncAdd st p) s = .next (performed u st p 0 (syncGet u st (objectName p)).toNat [] false) := by
  rw [exec_syncAdd_eq, execSyncAdd, syncRequest_allowed torn may]

theorem exec_syncRead : exec (.syncRead st p) s = .next (performed s st p 0 (syncGet s st (objectName p)).toNat [] false) := by
  rw [exec_syncRead_eq, execSyncRead, syncRequest_allowed torn may]

section
variable (base : bit (objectName p) 15 = true)
include base

/-- A lease request on a base object runs its operation after an overdue lease has expired. -/
theorem leaseRequest_allowed (f : State → Nat → State) :
    leaseRequest s st p f = f (settleLease s (objectName p % 8192)) (objectName p % 8192) := by
  simp only [leaseRequest, syncRequest_allowed torn may, base, Bool.not_true, Bool.false_eq_true, if_false]

section
variable {u : State} {i : Nat} (settled : settleLease s (objectName p % 8192) = u) (object : objectName p % 8192 = i)
include settled object

theorem exec_acquire_free (free : (getLease u i).holder = none) : exec (.acquire st p) s = .next (performed
    (putLease u i { holder := some (holderOf p), gen := ((getLease u i).gen + 1) % 65536, since := epoch u }) st p 0
    (((getLease u i).gen + 1) % 65536) [] false) := by
  rw [exec_acquire_eq, execAcquire, leaseRequest_allowed torn may base, settled, object]
  simp only [free]

theorem exec_acquire_own (own : (getLease u i).holder = some (holderOf p)) : exec (.acquire st p) s = .next
    (performed (putLease u i { getLease u i with since := epoch u }) st p 0 (getLease u i).gen [] false) := by
  rw [exec_acquire_eq, execAcquire, leaseRequest_allowed torn may base, settled, object]
  simp only [own, if_true]

theorem exec_acquire_held {h : Nat × Nat × Nat} (held : (getLease u i).holder = some h) (other : h ≠ holderOf p) :
    exec (.acquire st p) s = .next (complete u st p fsLeaseHeld 0
      (h.1 + (leaseTime - (epoch u + 2 ^ 64 - (getLease u i).since) % 2 ^ 64) * 2 ^ 32) [] false) := by
  rw [exec_acquire_eq, execAcquire, leaseRequest_allowed torn may base, settled, object]
  simp only [held, other, if_false]

theorem exec_renew : exec (.renew st p) s = .next (
    if holds u i p then performed (putLease u i { getLease u i with since := epoch u }) st p 0 (getLease u i).gen [] false
    else refuseReq u st p fsLeaseLost 0) := by
  rw [exec_renew_eq, execRenew, leaseRequest_allowed torn may base, settled, object]

theorem exec_release : exec (.release st p) s = .next (
    if holds u i p then performed (putLease u i { getLease u i with holder := none }) st p 0 (getLease u i).gen [] false
    else refuseReq u st p fsLeaseLost 0) := by
  rw [exec_release_eq, execRelease, leaseRequest_allowed torn may base, settled, object]

end

end

end

theorem holds_iff {s : State} {i : Nat} {p : Pkt} : holds s i p = true ↔
    (getLease s i).holder = some (holderOf p) ∧ (getLease s i).gen = qOperand p % 65536 := by
  simp only [holds, Bool.and_eq_true, decide_eq_true_eq]

section
variable {s : State} {i : Nat}

/-- A held lease whose 1,562,500 counts have passed is freed. -/
theorem settleLease_overdue (held : (getLease s i).holder.isSome = true)
    (overdue : leaseTime ≤ (epoch s + 2 ^ 64 - (getLease s i).since) % 2 ^ 64) : settleLease s i = freeLease s i :=
  if_pos (by rw [held, Bool.true_and, decide_eq_true overdue])

theorem exec_leaseExpiry (held : (getLease s i).holder.isSome = true)
    (overdue : leaseTime ≤ (epoch s + 2 ^ 64 - (getLease s i).since) % 2 ^ 64) :
    exec (.leaseExpiry i) s = .next (freeLease s i) := by
  have noneLeft := Nat.sub_eq_zero_of_le overdue
  simp only [exec_leaseExpiry_eq, execLeaseExpiry, ← Option.not_isSome, held, Bool.not_true, Bool.false_eq_true, if_false, noneLeft,
    if_true, settleLease_overdue held overdue]

end

theorem exec_revokeLease {r : VdpReq} {s : State} (ok : granted s (atEntry r 0x5600 8) = true) (inTable : leNat r.data < 8192)
    (held : (getLease s (leNat r.data)).holder.isSome = true) :
    exec (.revokeLease r) s = .next (served { s := freeLease s (leNat r.data) } (atEntry r 0x5600 8)) := by
  rw [exec_revokeLease_eq, execRevokeLease, vdpEntry_served ok (decide_eq_true inTable) rfl]
  exact congrArg (fun u => Host.Outcome.next (served { s := u } _)) (if_pos held)

end Sys2Proof.Machine

section
open Sys2Proof Sys2Proof.Machine

/-- Settles O22: a request whose checks pass runs its operation (`syncRequest_allowed`), one on a lease after an
overdue lease has expired (`leaseRequest_allowed`), and ends by who holds the lease (`exec_acquire_free` and the lemmas
after it). What a RELEASE leaves of the lease is the model's choice (log 41). -/
theorem syncObjectsAndLeasesAnswerTheFabric : Obligations.SyncObjectsAndLeasesAnswerTheFabric := by
  unfold Obligations.SyncObjectsAndLeasesAnswerTheFabric
  refine ⟨fun st p s torn => ?_, fun i s => exec_leaseExpiry, fun r s => exec_revokeLease⟩
  intro name i may
  refine ⟨exec_syncAdd torn may, exec_syncRead torn may, fun base => ?_⟩
  intro u l mine
  refine ⟨exec_acquire_free torn may base rfl rfl, exec_acquire_own torn may base rfl rfl,
    fun h => exec_acquire_held torn may base rfl rfl, fun own => ?_, fun own => ?_, fun lost => ⟨?_, ?_⟩⟩
  · exact (exec_renew torn may base rfl rfl).trans (congrArg _ (if_pos (holds_iff.2 own)))
  · exact (exec_release torn may base rfl rfl).trans (congrArg _ (if_pos (holds_iff.2 own)))
  · exact (exec_renew torn may base rfl rfl).trans (congrArg _ (if_neg (mt holds_iff.1 lost)))
  · exact (exec_release torn may base rfl rfl).trans (congrArg _ (if_neg (mt holds_iff.1 lost)))
end

namespace Sys2Proof.Machine

/-! ### Region records, owners and fabric queues (R280, R281, R284 to R287, R302) -/

section
variable (s : State)

theorem exec_regionRecordWrite_eq (r : VdpReq) : exec (.regionRecordWrite r) s = execRegionRecordWrite r s := rfl

theorem exec_setOwner_eq (r : VdpReq) : exec (.setOwner r) s = execSetOwner r s := rfl

theorem exec_fabricQueueEnable_eq (t q : Nat) : exec (.fabricQueueEnable t q) s = execFabricQueueEnable t q s := rfl

theorem exec_fabricQueueDisabled_eq (t q : Nat) : exec (.fabricQueueDisabled t q) s = execFabricQueueDisabled t q s := rfl

theorem exec_fabricEntryIssue_eq (t q : Nat) (first again : List Flip) :
    exec (.fabricEntryIssue t q first again) s = execFabricEntryIssue t q first again s := rfl

theorem exec_fence_eq (t q : Nat) : exec (.fence t q) s = execFence t q s := rfl

theorem exec_fenceComplete_eq (t q : Nat) : exec (.fenceComplete t q) s = execFenceComplete t q s := rfl

end

/-- The record of a region as a write finds it. -/
def oldRegion (s : State) (sel : Tab Nat) : List Byte := fit 32 (Tab.get [] s.fab.regions (selOf sel 0x5200 1))

/-- What a write stores: its value with the owner and the generation of the old record, nothing for a record of zeros. -/
def regionStored (old v : List Byte) : List Byte :=
  let w := patch v 18 (leBytes 2 (rOwner old) ++ leBytes 2 (rGen old))
  if w.all (fun b => b = 0#8) then [] else w

/-- A record that is placed and overlaps none, of a region that no job uses, is stored. -/
theorem writeRegion_stored {s : State} {sel : Tab Nat} {v : List Byte}
    (unused : (rValid (oldRegion s sel) && (jobs s).any (fun e => e.1 = rSlice (oldRegion s sel) && 2 ≤ e.2.state)) = false)
    (fits : rValid v = true → regionPlaceOk v = true ∧ regionOverlaps s (selOf sel 0x5200 1) v = false) :
    writeRegion s sel v = { s := putRegion s (selOf sel 0x5200 1) (regionStored (oldRegion s sel) v) } := by
  have noClash : (rValid v && (!regionPlaceOk v || regionOverlaps s (selOf sel 0x5200 1) v)) = false := by
    cases valid : rValid v with
    | false => rfl
    | true =>
      obtain ⟨placed, alone⟩ := fits valid
      rw [placed, alone]
      rfl
  refine if_neg ?_
  rw [oldRegion] at unused
  rw [unused, noClash]
  decide

section
variable {r : VdpReq} {s : State}

theorem exec_regionRecordWrite (ok : granted s (atEntry r 0x5200 2) = true) (record : regionRecordOk r.data = true) :
    let sel := selects s (atEntry r 0x5200 2)
    let i := selOf sel 0x5200 1
    let old := oldRegion s sel
    (rValid old && (jobs s).any (fun e => e.1 = rSlice old && 2 ≤ e.2.state)) = false →
    (rValid r.data = true → regionPlaceOk r.data = true ∧ regionOverlaps s i r.data = false) →
    exec (.regionRecordWrite r) s = .next (served { s := putRegion s i (regionStored old r.data) } (atEntry r 0x5200 2)) := by
  intro sel i old unused fits
  have stored : writeRegion s sel r.data = _ := writeRegion_stored unused fits
  rw [exec_regionRecordWrite_eq, execRegionRecordWrite, vdpEntry_served ok record (congrArg Effect.status stored)]
  exact congrArg (fun e => Host.Outcome.next (served e _)) stored

theorem exec_setOwner (ok : granted s (atEntry r 0x5200 3) = true) (node : leNat r.data < 4096 ∨ leNat r.data = 0xFFFF) :
    exec (.setOwner r) s = .next (served (setOwnerEntry s (selects s (atEntry r 0x5200 3)) r.data) (atEntry r 0x5200 3)) := by
  rw [exec_setOwner_eq, execSetOwner, vdpEntry_served ok (nodeOk_iff.2 node) rfl]
  rfl

end

/-! ### Enabling and disabling fabric queues (R285) -/

section
variable {t q : Nat} {s : State}

/-- The queue that an accepted control block describes: nothing read, nothing outstanding. -/
def openedQueue (b : List Byte) : FQueue :=
  { enabled := true, reqRing := field b 0 4, compRing := field b 4 4, reqEntries := field b 8 2
    compEntries := field b 10 2, slice := field b 12 1 }

section
variable (inTile : q < 8) (isOpen : tileOpen s t = true) (off : (getQueue s t q).enabled = false)
include inTile isOpen off

theorem exec_fabricQueueEnable_accepted (accepted : ctlOk s t q (ctlBlock s t q) = true) :
    let u := modQueue (putCtl s t q 1#8) t q (fun _ => openedQueue (ctlBlock s t q))
    exec (.fabricQueueEnable t q) s = .next
      (syncPut (syncPut (syncPut u t (1000 + q) 0#32) t (1008 + q) 0#32) t (1016 + q) 0#32) := by
  simp only [exec_fabricQueueEnable_eq, execFabricQueueEnable, isOpen, off, Nat.not_le.2 inTile, accepted, decide_false, Bool.not_true,
    Bool.or_self, Bool.false_eq_true, if_false, if_true, openedQueue]

theorem exec_fabricQueueEnable_refused (refused : ctlOk s t q (ctlBlock s t q) = false) :
    exec (.fabricQueueEnable t q) s = .next (tileReport (putCtl s t q 2#8) 0x02 t 0 0) := by
  simp only [exec_fabricQueueEnable_eq, execFabricQueueEnable, isOpen, off, Nat.not_le.2 inTile, refused, decide_false, Bool.not_true,
    Bool.or_self, Bool.false_eq_true, if_false]

end

section
variable (on : (getQueue s t q).enabled = true) (cleared : bit (field (ctlBlock s t q) 13 1) 0 = false)
include on cleared

theorem exec_fabricQueueDisabled_idle (noEntry : (getQueue s t q).out = []) (noFence : (getQueue s t q).fences = []) :
    exec (.fabricQueueDisabled t q) s = .next (modQueue s t q (fun _ => {})) := by
  simp only [exec_fabricQueueDisabled_eq, execFabricQueueDisabled, on, cleared, noEntry, noFence, List.isEmpty_nil, Bool.not_true,
    Bool.and_self, Bool.or_self, Bool.false_eq_true, if_false, if_true]

theorem exec_fabricQueueDisabled_busy (busy : (getQueue s t q).out ≠ [] ∨ (getQueue s t q).fences ≠ []) :
    exec (.fabricQueueDisabled t q) s = .next (modQueue s t q (fun x => { x with closing := true })) := by
  have notIdle : ((getQueue s t q).out.isEmpty && (getQueue s t q).fences.isEmpty) = false :=
    Bool.and_eq_false_iff.2 (busy.imp List.isEmpty_eq_false_iff.2 List.isEmpty_eq_false_iff.2)
  simp only [exec_fabricQueueDisabled_eq, execFabricQueueDisabled, on, cleared, notIdle, Bool.not_true, Bool.or_self, Bool.false_eq_true,
    if_false]

end

end

/-! ### Entries that are issued (R286, R287, R289, R307) -/

section
variable {s v : State} {t q i : Nat} {e : List Byte} {first again : List Flip}

/-- An entry whose data does not read well ends with the status of that read (log 39). -/
theorem sendEntry_unread {status detail : Nat} (read : sourceData s t e first again = (v, .error (status, detail))) :
    sendEntry s t q i e first again = endEntry v t q i e status detail 0 0 := by
  simp only [sendEntry, read]

section
variable {data : List Byte} {poison : Bool} {w y : State} {tag nonce why : Nat}
variable (read : sourceData s t e first again = (v, .ok (data, poison)))
variable (taken : takeTag v t q i e (getQueue s t q).slice = some (w, tag, nonce))
variable (sent : sendNewPkt w t (entryPkt q (getQueue s t q).slice tag nonce e data poison) = (y, why))
include read taken sent

theorem sendEntry_left (left : why = 0) : sendEntry s t q i e first again = addOut y t q i := by
  subst left
  simp only [sendEntry, read, taken, sent]

theorem sendEntry_noWay (closed : why ≠ 0) : sendEntry s t q i e first again = endEntry v t q i e fsRoute why 0 0 := by
  simp only [sendEntry, read, taken, sent]

end

end

section
variable {t q : Nat} {s : State} (first again : List Flip)

/-- An entry of a slice under teardown ends ABORTED (R307). -/
theorem issueEntry_torn (torn : s.fab.torn.contains (getQueue s t q).slice = true) : issueEntry s t q first again =
    endEntry (takeEntry s t q).1 t q (takeEntry s t q).2 (nextEntry s t q) fsAborted 0 0 0 := by
  simp only [issueEntry, torn, if_true, (by decide : fsAborted ≠ 0), decide_false, Bool.false_and, Bool.false_eq_true, if_false, ne_eq,
    not_false_eq_true]

section
variable (live : s.fab.torn.contains (getQueue s t q).slice = false)
include live

theorem issueEntry_refused (bad : issueRefusal s t (nextEntry s t q) ≠ 0) : issueEntry s t q first again =
    endEntry (takeEntry s t q).1 t q (takeEntry s t q).2 (nextEntry s t q) (issueRefusal s t (nextEntry s t q)) 0 0 0 := by
  simp only [issueEntry, live, bad, decide_false, Bool.false_and, Bool.false_eq_true, if_false, ne_eq, not_false_eq_true, if_true]

section
variable (good : issueRefusal s t (nextEntry s t q) = 0)
include good

theorem issueEntry_request (request : eKind (nextEntry s t q) ≠ 0x0F) : issueEntry s t q first again =
    sendEntry (takeEntry s t q).1 t q (takeEntry s t q).2 (nextEntry s t q) first again := by
  simp only [issueEntry, live, good, request, decide_false, Bool.and_false, Bool.false_eq_true, if_false, ne_eq, not_true]

theorem issueEntry_fence (fence : eKind (nextEntry s t q) = 0x0F) : issueEntry s t q first again = takeFence s t q := by
  simp only [issueEntry, live, good, fence, decide_true, Bool.and_self, Bool.false_eq_true, if_false, if_true]

end

end

section
variable (may : canIssue s t q = true)
include may

theorem exec_fabricEntryIssue : exec (.fabricEntryIssue t q first again) s = .next (issueEntry s t q first again) :=
  congrArg _ (if_pos may)

theorem exec_fence (fence : eKind (nextEntry s t q) = 0x0F) : exec (.fence t q) s = .next (issueEntry s t q [] []) :=
  congrArg _ (if_pos (by rw [may, fence]; rfl))

end

end

/-! ### Fences that complete (R302, R303) -/

/-- A fence completes when no entry before it is outstanding: it takes the failures and the flags that it covers. -/
theorem exec_fenceComplete {t q : Nat} {s : State} {f : Fence} {fs : List Fence} (waits : (getQueue s t q).fences = f :: fs)
    (ended : (getQueue s t q).out.any (fun i => i < f.index) = false) :
    exec (.fenceComplete t q) s = .next (pushRecord (modQueue s t q (fun x =>
      { x with fences := fs, fails := x.fails.filter (fun y => !fenceTakes f y), flags := 0 })) t q (fenceRecord (getQueue s t q) f)) := by
  simp only [exec_fenceComplete_eq, execFenceComplete, completeFence, waits, ended, Bool.false_eq_true, if_false]

end Sys2Proof.Machine

section
open Sys2Proof Sys2Proof.Machine

/-- Settles O23: a record and an owner by the rules of their entries (`writeRegion_stored`, `exec_setOwner`), a queue by
its control block and by what is outstanding, an entry that may issue by its slice, its checks and its kind (the lemmas
about `issueEntry`), a request by how its data reads and whether a way is open (the lemmas about `sendEntry`). The
lowest free tag (log 36), the ring that is never full (log 37) and the status of a failed local read (log 39) are the
model's choices. -/
theorem regionsAndFabricQueuesAreSetUp : Obligations.RegionsAndFabricQueuesAreSetUp := by
  unfold Obligations.RegionsAndFabricQueuesAreSetUp
  refine ⟨fun r s ok record => exec_regionRecordWrite ok record, fun r s => exec_setOwner, fun t q s inTile => ?_⟩
  intro x b e i u
  refine ⟨exec_fabricQueueEnable_accepted inTile, exec_fabricQueueEnable_refused inTile, exec_fabricQueueDisabled_idle,
    exec_fabricQueueDisabled_busy, fun first again may torn => ?_, fun first again may live => ?_, fun f fs => exec_fenceComplete⟩
  · exact (exec_fabricEntryIssue first again may).trans (congrArg _ (issueEntry_torn first again torn))
  have issues := exec_fabricEntryIssue first again may
  refine ⟨fun bad => ?_, fun good request => ?_, fun good fence => ?_⟩
  · exact issues.trans (congrArg _ (issueEntry_refused first again live bad))
  · have sends := issues.trans (congrArg _ (issueEntry_request first again live good request))
    refine ⟨fun v status detail read => ?_, fun v data poison w tag nonce y why read taken sent => ⟨fun left => ?_, fun closed => ?_⟩⟩
    · exact sends.trans (congrArg _ (sendEntry_unread read))
    · exact sends.trans (congrArg _ (sendEntry_left read taken sent left))
    · exact sends.trans (congrArg _ (sendEntry_noWay read taken sent closed))
  · refine ⟨?_, ?_⟩
    · exact (exec_fence may fence).trans (congrArg _ (issueEntry_fence [] [] live good fence))
    · exact issues.trans (congrArg _ (issueEntry_fence first again live good fence))
end

namespace Sys2Proof.Machine

/-! ### The BAR4 window, the link and resets (R308, R400, R404, R434, R437, R438, R440) -/

section
variable (s : State)

theorem exec_bar4Write_eq (off : Nat) (data : List Byte) : exec (.bar4Write off data) s = execBar4Write off data s := rfl

theorem exec_bar4Read_eq (off len : Nat) : exec (.bar4Read off len) s = execBar4Read off len s := rfl

theorem exec_perstDeassert_eq : exec .perstDeassert s = execPerstDeassert s := rfl

theorem exec_pcieLinkTraining_eq (width rate : Nat) (flit : Bool) :
    exec (.pcieLinkTraining width rate flit) s = execPcieLinkTraining width rate flit s := rfl

theorem exec_busMasterDisable_eq (fn : Nat) : exec (.busMasterDisable fn) s = execBusMasterDisable fn s := rfl

theorem exec_vfReset_eq (v : Nat) : exec (.vfReset v) s = execVfReset v s := rfl

theorem exec_vfResetComplete_eq (fn : Nat) : exec (.vfResetComplete fn) s = execVfResetComplete fn s := rfl

theorem exec_hotReset_eq (lost : Bool) : exec (.hotReset lost) s = execHotReset lost s := rfl

theorem exec_functionLevelReset_eq (fn : Nat) : exec (.functionLevelReset fn) s = execFunctionLevelReset fn s := rfl

theorem exec_d3hotEntry_eq (fn : Nat) : exec (.d3hotEntry fn) s = execD3hotEntry fn s := rfl

end

/-- An access of a function that answers acts on the state in which the function is in use. -/
theorem hostAccess_live {s : State} {fn : Nat} (live : fnLive s fn = true) (f : State → State) :
    hostAccess s fn f = .next (f (useFn s fn)) := congrArg _ (if_pos live)

/-! ### BAR4 accesses (R437, R438) -/

section
variable {s : State} (live : fnLive s 0 = true)
include live

section
variable (isOpen : barOpen (useFn s 0) = true)
include isOpen

theorem exec_bar4Write_aligned {off : Nat} {data : List Byte} (aligned : barAligned (useFn s 0) off data.length = true) :
    exec (.bar4Write off data) s = .next (startBar (useFn s 0) true off data.length data) := by
  simp only [exec_bar4Write_eq, execBar4Write, hostAccess_live live, isOpen, aligned, Bool.not_true, Bool.false_eq_true, if_false]

theorem exec_bar4Write_misaligned {off : Nat} {data : List Byte} (misaligned : barAligned (useFn s 0) off data.length = false) :
    exec (.bar4Write off data) s = .next (raiseBar (useFn s 0) 2) := by
  simp only [exec_bar4Write_eq, execBar4Write, hostAccess_live live, isOpen, misaligned, Bool.not_true, Bool.not_false,
    Bool.false_eq_true, if_false, if_true]

theorem exec_bar4Read_aligned {off len : Nat} (aligned : barAligned (useFn s 0) off len = true) :
    exec (.bar4Read off len) s = .next (startBar (useFn s 0) false off len []) := by
  simp only [exec_bar4Read_eq, execBar4Read, hostAccess_live live, isOpen, aligned, Bool.not_true, Bool.false_eq_true, if_false]

end

theorem exec_bar4Read_closed {off len : Nat} (closed : barOpen (useFn s 0) = false) :
    exec (.bar4Read off len) s = .next (emit (useFn s 0) (.barRead off (List.replicate len 0xFF#8))) := by
  simp only [exec_bar4Read_eq, execBar4Read, hostAccess_live live, closed, Bool.not_false, if_true]

end

/-! ### PERST#, training and bus mastering (R400, R404, R434) -/

theorem exec_perstDeassert {s : State} (low : s.host.perst = false) :
    exec .perstDeassert s = .next { s with host := { s.host with perst := true, perstAt := s.now } } :=
  congrArg _ (if_neg (ne_true_of_eq_false low))

/-- The link as a training leaves it: width, rate and flit mode stored, the link up. -/
def linkTrained (s : State) (width rate : Nat) (flit : Bool) : State :=
  let v := wrE (wrE (wrE s 0x1030 1 (width % 256)) 0x1030 2 (rate % 256)) 0x1030 3 (b2n flit)
  { v with host := { v.host with linkUp := true } }

/-- A training of at least one lane, no earlier than 10 ms after the rails and than PERST#. -/
theorem exec_pcieLinkTraining {width rate : Nat} {flit : Bool} {s : State} (rails : s.boot.mainOn = true)
    (high : s.host.perst = true) (lanes : width ≠ 0) :
    let w := linkTrained (advanceTo s (max (s.boot.mainAt + 10 * msPs) s.host.perstAt)) width rate flit
    exec (.pcieLinkTraining width rate flit) s = .next
      (if width < 16 || rate < 64 then report (raiseHb w 0 0) { cls := 0x72, kind := 12 } else w) := by
  simp only [exec_pcieLinkTraining_eq, execPcieLinkTraining, rails, high, lanes, Bool.not_true, decide_false, Bool.or_self,
    Bool.false_eq_true, if_false, linkTrained]

theorem exec_busMasterDisable {fn : Nat} {s : State} (live : fnLive s fn = true) :
    exec (.busMasterDisable fn) s = .next ((queuesOf fn).foldl (fun s q =>
      if (getHQ s q).running then dmaFault s q ((getHQ s q).sqBase + 64 * (getHQ s q).sqHead) else s) (useFn s fn)) := by
  rw [exec_busMasterDisable_eq, execBusMasterDisable, hostAccess_live live]

/-! ### Resets (R308, R440) -/

section
variable {s : State} {v : Nat} (vf : 1 ≤ v) (inModule : v < 64) (free : (getFunc s v).reset = none)
include vf inModule free

theorem resetVf_free : resetVf s v = resetFn s v true := by
  simp only [resetVf, vf, inModule, free, Option.isNone_none, decide_true, Bool.and_self, if_true]

/-- An FLR of a VF is its reset. -/
theorem flr_vf : flr s v = resetFn s v true := (if_neg (by omega)).trans (resetVf_free vf inModule free)

end

section
variable {s : State} (up : s.host.linkUp = true)
include up

theorem exec_vfReset {v : Nat} : exec (.vfReset v) s = .next (resetVf s v) := congrArg _ (if_pos up)

theorem exec_functionLevelReset {fn : Nat} : exec (.functionLevelReset fn) s = .next (flr s fn) := congrArg _ (if_pos up)

/-- D3hot with a queue enabled acts as an FLR. -/
theorem exec_d3hotEntry {fn : Nat} (enabled : (queuesOf fn).any (fun q => bit (getHQ s q).ctrl 31) = true) :
    exec (.d3hotEntry fn) s = .next (flr s fn) := congrArg _ (if_pos (by rw [up, enabled]; rfl))

theorem exec_hotReset {lost : Bool} : exec (.hotReset lost) s = .next
    { resetAll s with host := { (resetAll s).host with linkUp := (resetAll s).host.linkUp && !lost } } := by
  simp only [exec_hotReset_eq, execHotReset, up, Bool.not_true, Bool.false_eq_true, if_false]

end

section
variable {s : State} {fn t : Nat} (resets : (getFunc s fn).reset = some t)
include resets

theorem exec_vfResetComplete_idle (idle : trackedBy s fn = []) :
    exec (.vfResetComplete fn) s = .next (modFunc s fn (fun x => { x with reset := none })) := by
  simp only [exec_vfResetComplete_eq, execVfResetComplete, resets, idle, List.isEmpty_nil, if_true]

/-- What the tracker still counts at 10 ms is given up: its tags are quarantined, counted and logged. -/
theorem exec_vfResetComplete_tracked (tracked : trackedBy s fn ≠ []) :
    let u := (trackedBy s fn).foldl (fun s e => quarantineTag (putTrack s 28 (e.1 % 16384) none) 28 (e.1 % 16384))
      (advanceTo s (t + 10 * msPs))
    let v := wrE u 0x5600 0xB ((rdE u 0x5600 0xB + 1) % 2 ^ 32)
    exec (.vfResetComplete fn) s = .next (modFunc (raiseHb (report v { cls := 0x71, kind := 12, unit := fn, detail := fn }) 0 6) fn
      (fun x => { x with reset := none })) := by
  have notIdle : (trackedBy s fn).isEmpty = false := List.isEmpty_eq_false_iff.2 tracked
  simp only [exec_vfResetComplete_eq, execVfResetComplete, resets, notIdle, Bool.false_eq_true, if_false]

end

end Sys2Proof.Machine

section
open Sys2Proof Sys2Proof.Machine

/-- Settles O35: BAR4 and bus mastering through the access of a function that answers (`hostAccess_live`), a training by
its guard, a reset of a VF by its three commands' common reset (`flr_vf`, `resetVf_free`), its end by what the tracker
counts. LINK_DEGRADED at any training (log 84) and what a hot reset and an FLR leave (log 85) are the model's
choices. -/
theorem bar4LinkAndFunctionResetsAct : Obligations.Bar4LinkAndFunctionResetsAct := by
  unfold Obligations.Bar4LinkAndFunctionResetsAct
  refine ⟨fun off data len s live => ?_, fun s => exec_perstDeassert, fun width rate flit s => exec_pcieLinkTraining,
    fun fn s => exec_busMasterDisable, fun v s up vf inModule free => ⟨?_, ?_, fun enabled => ?_⟩,
    fun s up => ⟨exec_functionLevelReset up, fun lost => exec_hotReset up⟩,
    fun fn t s resets => ⟨exec_vfResetComplete_idle resets, exec_vfResetComplete_tracked resets⟩⟩
  · intro u
    exact ⟨fun isOpen => exec_bar4Write_aligned live isOpen, fun isOpen => exec_bar4Write_misaligned live isOpen,
      fun isOpen => exec_bar4Read_aligned live isOpen, exec_bar4Read_closed live⟩
  · rw [exec_vfReset up, resetVf_free vf inModule free]
  · rw [exec_functionLevelReset up, flr_vf vf inModule free]
  · rw [exec_d3hotEntry up enabled, flr_vf vf inModule free]
end

namespace Sys2Proof.Machine

/-! ### Flow records (R327) -/

section
variable (s : State)

theorem exec_flowRecordWrite_eq (r : VdpReq) : exec (.flowRecordWrite r) s = execFlowRecordWrite r s := rfl

theorem exec_admitSlice_eq (r : VdpReq) : exec (.admitSlice r) s = execAdmitSlice r s := rfl

theorem exec_admissionDone_eq : exec .admissionDone s = execAdmissionDone s := rfl

theorem exec_withdrawSlice_eq (r : VdpReq) : exec (.withdrawSlice r) s = execWithdrawSlice r s := rfl

theorem exec_admissionRecompute_eq : exec .admissionRecompute s = execAdmissionRecompute s := rfl

end

/-- The module once slot `i` holds a written record: STAGED, or EMPTY for a record of zeros. -/
def flowWritten (s : State) (i : Nat) (v : List Byte) : State :=
  let zero := v.all (fun b => b = 0#8)
  let a := s.adm
  { s with adm := { a with
      flows := Tab.put [] a.flows i (if zero then [] else v), fstate := Tab.put 0 a.fstate i (if zero then 0 else 1),
      bounds := Tab.erase a.bounds i, overruns := Tab.erase a.overruns i, offsets := Tab.erase a.offsets i } }

section
variable (s : State) (i : Nat) (v : List Byte)

@[simp] theorem flowState_flowWritten (j : Nat) :
    flowState (flowWritten s i v) j = if j = i then (if v.all (fun b => b = 0#8) then 0 else 1) else flowState s j :=
  Tab.get_put ..

@[simp] theorem flows_flowWritten (j : Nat) : Tab.get [] (flowWritten s i v).adm.flows j =
    if j = i then (if v.all (fun b => b = 0#8) then [] else v) else Tab.get [] s.adm.flows j :=
  Tab.get_put ..

end

/-- The answer leaves each flow in the state that the entry's own rules set. -/
@[simp] theorem flowState_served (e : Effect) (r : VdpReq) (i : Nat) : flowState (served e r) i = flowState e.s i := by
  simp only [flowState, served_adm]

theorem all_zero_iff {n : Nat} {v : List Byte} (whole : v.length = n) :
    v.all (fun b => b = 0#8) = true ↔ v = List.replicate n 0#8 := by
  simp only [List.eq_replicate_iff, whole, true_and, List.all_eq_true, decide_eq_true_eq]

section
variable {s : State} {sel : Tab Nat}

theorem writeFlow_writable (writable : flowState s (selOf sel 0x7200 1) < 2) (v : List Byte) :
    writeFlow s sel v = { s := flowWritten s (selOf sel 0x7200 1) v } := if_neg (Nat.not_le.2 writable)

theorem writeFlow_held (held : 2 ≤ flowState s (selOf sel 0x7200 1)) (v : List Byte) :
    writeFlow s sel v = { s := s, status := stRefused } := if_pos held

end

section
variable {r : VdpReq} {s : State} (ok : granted s (atEntry r 0x7200 2) = true) (whole : r.data.length = 48)
include ok whole

theorem exec_flowRecordWrite (writable : flowState s (selOf (selects s (atEntry r 0x7200 2)) 0x7200 1) < 2) :
    exec (.flowRecordWrite r) s = .next (served
      { s := flowWritten s (selOf (selects s (atEntry r 0x7200 2)) 0x7200 1) r.data } (atEntry r 0x7200 2)) := by
  have writes := writeFlow_writable writable r.data
  rw [exec_flowRecordWrite_eq, execFlowRecordWrite, vdpEntry_served ok (decide_eq_true whole) (congrArg Effect.status writes)]
  exact congrArg (fun e => Host.Outcome.next (served e _)) writes

theorem exec_flowRecordWrite_refused (held : 2 ≤ flowState s (selOf (selects s (atEntry r 0x7200 2)) 0x7200 1)) :
    exec (.flowRecordWrite r) s = .next (answer s (atEntry r 0x7200 2) (respOf (atEntry r 0x7200 2) stRefused 0 [])) := by
  have refuses := writeFlow_held held (atEntry r 0x7200 2).data
  have failed : (writeFlow s (selects s (atEntry r 0x7200 2)) (atEntry r 0x7200 2).data).status ≠ 0 := by
    rw [refuses]
    exact (by decide : stRefused ≠ 0)
  rw [exec_flowRecordWrite_eq, execFlowRecordWrite, vdpEntry_refused ok (decide_eq_true whole) failed, refuses]

end

end Sys2Proof.Machine

section
open Sys2Proof Sys2Proof.Machine

/-- Settles O59: a held slot refuses (`exec_flowRecordWrite_refused`); in any other the write leaves `flowWritten`, whose
flows are read slot by slot, and 48 bytes are all 0 just where they are 48 zeros (`all_zero_iff`). -/
theorem flowRecordsChangeOnlyInEmptyOrStagedSlots : Obligations.FlowRecordsChangeOnlyInEmptyOrStagedSlots := by
  unfold Obligations.FlowRecordsChangeOnlyInEmptyOrStagedSlots
  intro r s ok whole slot
  refine ⟨fun held => ⟨_, exec_flowRecordWrite_refused ok whole held, answer_adm .., rfl⟩,
    fun writable => ⟨_, exec_flowRecordWrite ok whole (Nat.lt_succ_of_le writable), ?_⟩⟩
  simp only [flowState_served, served_adm, flowState_flowWritten, flows_flowWritten, all_zero_iff whole]
  refine ⟨fun zeros => ?_, fun record => ?_, fun i other => ?_⟩
  · exact ⟨(if_pos rfl).trans (if_pos zeros), (if_pos rfl).trans (if_pos zeros)⟩
  · exact ⟨(if_pos rfl).trans (if_neg record), (if_pos rfl).trans (if_neg record)⟩
  · exact ⟨if_neg other, if_neg other⟩
end

namespace Sys2Proof.Machine

/-! ### Admission, withdrawal and recomputation (R311, R323, R326, R329, R333) -/

theorem startAdmission_free {s : State} (free : opRunning s 8 = false) (sel : Tab Nat) (v : List Byte) :
    startAdmission s sel v = { s := startOp s 8 (flowsOf s (leNat v) [1]).length (leNat v) } := by
  simp only [startAdmission, free, Bool.false_eq_true, if_false]

/-- A job whose schedules do not run is withdrawn at the next front. -/
theorem withdraw_job {s : State} {v : List Byte} (job : (Tab.get none s.adm.jobs (leNat v)).isSome = true)
    (idle : sliceRunning s (leNat v) = false) (sel : Tab Nat) :
    withdraw s sel v = { s := postWithdrawal s (leNat v) } := by
  simp only [withdraw, ← Option.not_isSome, job, idle, Bool.not_true, Bool.or_self, Bool.false_eq_true, if_false]

section
variable {r : VdpReq} {s : State}

theorem exec_admitSlice (ok : granted s (atEntry r 0x7000 1) = true) (free : opRunning s 8 = false) :
    exec (.admitSlice r) s = .next (served
      { s := startOp s 8 (flowsOf s (leNat r.data) [1]).length (leNat r.data) } (atEntry r 0x7000 1)) := by
  have starts := startAdmission_free free (selects s (atEntry r 0x7000 1)) r.data
  rw [exec_admitSlice_eq, execAdmitSlice, vdpEntry_served ok rfl (congrArg Effect.status starts)]
  exact congrArg (fun e => Host.Outcome.next (served e _)) starts

theorem exec_withdrawSlice (ok : granted s (atEntry r 0x7000 2) = true) (job : (Tab.get none s.adm.jobs (leNat r.data)).isSome = true)
    (idle : sliceRunning s (leNat r.data) = false) :
    exec (.withdrawSlice r) s = .next (served { s := postWithdrawal s (leNat r.data) } (atEntry r 0x7000 2)) := by
  have posts := withdraw_job job idle (selects s (atEntry r 0x7000 2))
  rw [exec_withdrawSlice_eq, execWithdrawSlice, vdpEntry_served ok rfl (congrArg Effect.status posts)]
  exact congrArg (fun e => Host.Outcome.next (served e _)) posts

end

/-- The end of an admission stores its result and goes by its code. -/
theorem exec_admissionDone {s : State} (runs : opRunning s 8 = true)
    (noneWaits : s.mantle.groups.any (fun e => e.2.state = 1 && groupBetweenJobs e.2) = false) :
    let sl := (getOp s 8).arg
    let n := (flowsOf s sl [1]).length
    let a := admission s sl
    let u := wrB s 0x7000 3 a.bytes
    exec .admissionDone s = if a.code = 0 then .next (endOp (acceptJob u sl a.front) 8 2 0 n)
      else .next (endOp (bump u 0x7000 7) 8 3 a.code n) := by
  simp only [exec_admissionDone_eq, execAdmissionDone, runs, noneWaits, Bool.not_true, Bool.or_self, Bool.false_eq_true, if_false]

section
variable {s : State} (free : opRunning s 8 = false)
include free

theorem exec_admissionRecompute_noJob (noJob : (jobs s).filter (fun e => 2 ≤ e.2.state) = []) :
    exec .admissionRecompute s = .next s := by
  simp only [exec_admissionRecompute_eq, execAdmissionRecompute, recomputeAdmission, free, Bool.false_eq_true, if_false, noJob,
    List.isEmpty_nil, if_true]

theorem exec_admissionRecompute_admitted (admitted : (jobs s).filter (fun e => 2 ≤ e.2.state) ≠ []) :
    let all := bySlot (((jobs s).filter (fun e => 2 ≤ e.2.state)).flatMap (fun j => flowsOf s j.1 [2, 3]))
    let x := inputsOf s all []
    exec .admissionRecompute s = .next (bump (all.foldl (recheckFlow x) (storeBounds s x all)) 0x7000 0xC) := by
  simp only [exec_admissionRecompute_eq, execAdmissionRecompute, recomputeAdmission, free, Bool.false_eq_true, if_false,
    List.isEmpty_eq_false_iff.2 admitted]

end

end Sys2Proof.Machine

section
open Sys2Proof Sys2Proof.Machine

/-- Settles O25: a record, an admission and a withdrawal by what their entries' rules do with a granted value
(`writeFlow_writable`, `startAdmission_free`, `withdraw_job`), the end of an admission by the code of its result, a
recomputation by whether a job is admitted. -/
theorem admissionsAreDecidedAndWithdrawn : Obligations.AdmissionsAreDecidedAndWithdrawn := by
  unfold Obligations.AdmissionsAreDecidedAndWithdrawn
  refine ⟨fun r s ok whole => exec_flowRecordWrite ok whole, fun r s => exec_admitSlice, fun s runs noneWaits => ?_,
    fun r s => exec_withdrawSlice, fun s free => ⟨exec_admissionRecompute_admitted free, exec_admissionRecompute_noJob free⟩⟩
  have ends := exec_admissionDone runs noneWaits
  exact ⟨fun accepted => ends.trans (if_pos accepted), fun refused => ends.trans (if_neg refused)⟩
end

section
open Sys2Proof Sys2Proof.Machine

/-- Settles O55: by what every command keeps (`exec_keeps`). That a command whose condition does not hold changes
nothing is the model's choice (log 2). -/
theorem everyCommandCompletes : Obligations.EveryCommandCompletes := by
  unfold Obligations.EveryCommandCompletes
  intro i s
  obtain ⟨u, next, kept⟩ := exec_keeps i s
  exact ⟨u, next, kept.toFollows, fun spares => kept.mem (by rw [spares]; rfl)⟩
end

namespace Sys2Proof.Machine

/-! ### Granted requests by their effect (R348, R349) -/

section
variable {s : State} {r : VdpReq} {ok : State → Tab Nat → List Byte → Bool} {effect : State → Tab Nat → List Byte → Effect}
variable {x : Effect} (h : granted s r = true) (inRange : ok s (selects s r) r.data = true) (takes : effect s (selects s r) r.data = x)
include h inRange takes

/-- A granted request whose value the entry's rules accept. -/
theorem vdpEntry_accepted (accepts : x.status = 0) : vdpEntry s r ok effect = served x r := by
  subst takes
  exact vdpEntry_served h inRange accepts

/-- A granted request whose value the entry's rules refuse. -/
theorem vdpEntry_rejected (rejects : x.status ≠ 0) :
    vdpEntry s r ok effect = answer x.s r (respOf r x.status x.detail x.data) := by
  subst takes
  exact vdpEntry_refused h inRange rejects

end

/-! ### Injections and overrides (R399, R602) -/

/-- The record that a write to 0xF000:02 queues. -/
def injectionOf (v : List Byte) : Injection :=
  { target := field v 0 1, fault := field v 1 1, place := field v 2 2, unit := field v 4 2
    left := if field v 8 4 = 0 then none else some (field v 8 4), bitOff := field v 12 4 }

section
variable {s : State} {sel : Tab Nat} {v : List Byte}

theorem queueInjection_full (full : 16 ≤ s.injections.length) : queueInjection s sel v = { s := s, status := stBusy } := if_pos full

section
variable (room : s.injections.length < 16)
include room

theorem queueInjection_off (off : diagMode s = false) : queueInjection s sel v = { s := s, status := stRefused } := by
  simp only [queueInjection, Nat.not_le.2 room, off, Bool.not_false, if_false, if_true]

theorem queueInjection_queued (on : diagMode s = true) :
    queueInjection s sel v = { s := { s with injections := s.injections ++ [injectionOf v] } } := by
  simp only [queueInjection, Nat.not_le.2 room, on, Bool.not_true, Bool.false_eq_true, if_false, injectionOf]

end

theorem overrideTap_off (off : diagMode s = false) : overrideTap s sel v = { s := s, status := stRefused } := by
  simp only [overrideTap, off, Bool.not_false, if_true]

theorem overrideTap_held (on : diagMode s = true) : overrideTap s sel v = { s := { s with cal := { s.cal with
    overrides := Tab.put 0 s.cal.overrides (seamId (field v 0 1) (field v 1 1) (field v 2 1) (field v 3 1)) (field v 4 1 + 1) } } } := by
  simp only [overrideTap, on, Bool.not_true, Bool.false_eq_true, if_false]

end

section
variable {r : VdpReq} {s : State}

section
variable (ok : granted s (atEntry r 0xF000 2) = true) (valid : injectionOk s r.data = true)
include ok valid

theorem exec_faultInjection_queued (room : s.injections.length < 16) (on : diagMode s = true) :
    exec (.faultInjection r) s = .next (served { s := { s with injections := s.injections ++ [injectionOf r.data] } }
      (atEntry r 0xF000 2)) :=
  congrArg Host.Outcome.next (vdpEntry_accepted ok valid (queueInjection_queued room on) rfl)

theorem exec_faultInjection_full (full : 16 ≤ s.injections.length) : exec (.faultInjection r) s = .next
    (answer s (atEntry r 0xF000 2) (respOf (atEntry r 0xF000 2) stBusy 0 [])) :=
  congrArg Host.Outcome.next (vdpEntry_rejected ok valid (queueInjection_full full) (by decide : stBusy ≠ 0))

theorem exec_faultInjection_off (room : s.injections.length < 16) (off : diagMode s = false) :
    exec (.faultInjection r) s = .next (answer s (atEntry r 0xF000 2) (respOf (atEntry r 0xF000 2) stRefused 0 [])) :=
  congrArg Host.Outcome.next (vdpEntry_rejected ok valid (queueInjection_off room off) (by decide : stRefused ≠ 0))

end

section
variable (ok : granted s (atEntry r 0xF000 4) = true) (valid : tapOk s r.data = true)
include ok valid

theorem exec_seamTapOverride_held (on : diagMode s = true) :
    let v := r.data
    let id := seamId (field v 0 1) (field v 1 1) (field v 2 1) (field v 3 1)
    exec (.seamTapOverride r) s = .next (served
      { s := { s with cal := { s.cal with overrides := Tab.put 0 s.cal.overrides id (field v 4 1 + 1) } } } (atEntry r 0xF000 4)) :=
  congrArg Host.Outcome.next (vdpEntry_accepted ok valid (overrideTap_held on) rfl)

theorem exec_seamTapOverride_off (off : diagMode s = false) : exec (.seamTapOverride r) s = .next
    (answer s (atEntry r 0xF000 4) (respOf (atEntry r 0xF000 4) stRefused 0 [])) :=
  congrArg Host.Outcome.next (vdpEntry_rejected ok valid (overrideTap_off off) (by decide : stRefused ≠ 0))

end

end

end Sys2Proof.Machine

section
open Sys2Proof Sys2Proof.Machine

/-- Settles O57: the bound is a part of what every command keeps (`exec_keeps`); a record is queued, or BUSY is
answered, by how many are pending (`exec_faultInjection_queued`, `exec_faultInjection_full`). -/
theorem sixteenInjectionsMayBePending : Obligations.SixteenInjectionsMayBePending := by
  unfold Obligations.SixteenInjectionsMayBePending
  refine ⟨fun i s u few runs => ?_, fun r s ok valid on room => ⟨_, exec_faultInjection_queued ok valid room on, ?_⟩,
    fun r s ok valid full => ⟨exec_faultInjection_full ok valid full.ge, answer_injections ..⟩⟩
  · obtain ⟨w, next, kept⟩ := exec_keeps i s
    cases runs.symm.trans next
    exact kept.inj few
  · rw [served_injections]
    rfl
end

namespace Sys2Proof.Machine

/-! ### Reports, squalls, table scrubs and logs (R394, R514, R515, R521, R522) -/

section
variable {s : State}

/-- The engine takes the first report of a queue. -/
theorem exec_errorReport {k : Nat} {x : Report} {l : List Report} (waits : Tab.get [] s.log.queue k = x :: l) :
    exec (.errorReport k) s = .next (takeReport { s with log := { s.log with queue := Tab.put [] s.log.queue k l } } x) := by
  change execErrorReport k s = _
  simp only [execErrorReport, waits]

theorem exec_squallEnd {c : Nat} {q : Squall} (runs : Tab.get none s.log.squall c = some q) :
    let u := setSquall (atCount s ((q.last + 1562500) % 2 ^ 64)) c none
    exec (.squallEnd c) s = .next (logRecord u { cls := 0x81, detail := c, tag := q.repeats, stamp := epoch u, diag := diagMode u }) := by
  change execSquallEnd c s = _
  simp only [execSquallEnd, runs]

theorem exec_tableScrub (rails : s.boot.mainOn = true) (fixed : List Nat) (bad : List (TableRef × Nat)) :
    exec (.tableScrub fixed bad) s = .next (bad.foldl (fun s b => report (invalidate s b.1) { cls := 0x44, tag := b.2 })
      (fixed.foldl (fun s a => report s { cls := 0x43, tag := a }) s)) := by
  change execTableScrub fixed bad s = _
  simp only [execTableScrub, rails, Bool.not_true, Bool.false_eq_true, if_false]

/-- A missed heartbeat counts while no restart is under way (R515). -/
theorem exec_forecastHeartbeatMiss (active : mantleActive s = true) (runs : s.fc.restartAt ≤ s.now) :
    let u := report s { cls := 0x53, detail := mantleStates s, tag := refreshCount s }
    exec .forecastHeartbeatMiss s = .next
      { u with fc := { u.fc with samples := [], flags := 0, fresh := 0, restartAt := u.now + 5 * msPs } } := by
  change execForecastHeartbeatMiss s = _
  simp only [execForecastHeartbeatMiss, active, Nat.not_lt.2 runs, Bool.not_true, decide_false, Bool.or_self, Bool.false_eq_true, if_false]

end

section
variable {r : VdpReq} {s : State}

theorem exec_clearThrough {k : Nat} (ok : granted s (atEntry r (if k < 24 then 0x8100 + k else 0x8000) 4) = true)
    (logged : atOrBefore (leNat r.data) (logOf s k).newest = true) : exec (.clearThrough k r) s = .next
      (served { s := clearLog s k (leNat r.data) } (atEntry r (if k < 24 then 0x8100 + k else 0x8000) 4)) :=
  congrArg Host.Outcome.next (vdpEntry_accepted ok logged rfl rfl)

section
variable (ok : granted s (atEntry r 0xF000 1) = true)
include ok

theorem exec_diagnosticMode_on (on : leNat r.data = 1) :
    exec (.diagnosticMode r) s = .next (served { s := wrE s 0xF000 1 1 } (atEntry r 0xF000 1)) :=
  congrArg Host.Outcome.next (vdpEntry_accepted ok rfl (if_pos on) rfl)

theorem exec_diagnosticMode_off (off : leNat r.data ≠ 1) :
    exec (.diagnosticMode r) s = .next (served { s := leaveDiag (wrE s 0xF000 1 0) } (atEntry r 0xF000 1)) :=
  congrArg Host.Outcome.next (vdpEntry_accepted ok rfl (if_neg off) rfl)

end

end

end Sys2Proof.Machine

section
open Sys2Proof Sys2Proof.Machine

/-- Settles O42: reports, squalls, scrubs and heartbeats by their guards; clearing, diagnostic mode, injections and
overrides by what their entries' rules do with a granted value (`vdpEntry_accepted`, `vdpEntry_rejected`). What a lost
table record becomes (log 66), injections and overrides that end or are refused outside diagnostic mode (log 67), and the
restart of the Forecast logic within 5 ms (log 68) are the model's choices. -/
theorem errorsAreLoggedClearedScrubbedAndInjected : Obligations.ErrorsAreLoggedClearedScrubbedAndInjected := by
  unfold Obligations.ErrorsAreLoggedClearedScrubbedAndInjected
  refine ⟨fun k x l s => exec_errorReport, fun c q s => exec_squallEnd, fun fixed bad s rails => exec_tableScrub rails fixed bad,
    fun k r s => exec_clearThrough, fun r s ok => ⟨exec_diagnosticMode_on ok, exec_diagnosticMode_off ok⟩,
    fun r s ok valid on room => exec_faultInjection_queued ok valid room on, fun r s ok valid => exec_seamTapOverride_held ok valid,
    fun r s ok valid => ⟨exec_faultInjection_full ok valid, exec_faultInjection_off ok valid⟩,
    fun r s ok valid => exec_seamTapOverride_off ok valid, fun s => exec_forecastHeartbeatMiss⟩
end

namespace Sys2Proof.Machine

/-! ### Messages that are answered (R346 to R351) -/

theorem withOpcode_self {r : VdpReq} {k : Nat} (op : r.opcode = k) : { r with opcode := k } = r := by
  subst op
  rfl

section
variable {s : State} {r : VdpReq} (now : answersNow s r = true) (fresh : duplicateOf s r = none)
include now fresh

/-- A message that is due an answer and repeats none is served. -/
theorem unlessRepeated_fresh (f : State → State) : unlessRepeated s r f = f s := by
  simp only [unlessRepeated, now, fresh, Bool.not_true, Bool.false_eq_true, if_false]

section
variable {e : Entry} (op : r.opcode = 1) (may : checkAccess s r = 0) (found : findEntry r.index r.sub = some e)
include op may found

/-- A READ that passes steps 1 to 7 reads a snapshot, or the entry from offset 0. -/
theorem exec_vdpRead_allowed : exec (.vdpRead r) s = .next
    (if r.offset ≠ 0 && e.ty = .blob then readSnapshot s r else readValue s r e) := by
  change execVdpRead r s = _
  simp only [execVdpRead, op, knownVdpOp, vdpReadAny, withOpcode_self op, unlessRepeated_fresh now fresh, may, found, ne_eq, not_true,
    if_false]
  rfl

section
variable (noData : r.dataLen = 0) (noGroup : r.group = 0)
include noData noGroup

section
variable (start : r.offset = 0) (room : contextFree s r.src = true)
include start room

theorem exec_vdpRead_short (short : (valueOf s (contextOf s r.src).sel e r.index r.sub).length ≤ 1024) :
    exec (.vdpRead r) s = .next (answer (readFree s r.index r.sub) r
      (segmentOf r 0 (valueOf s (contextOf s r.src).sel e r.index r.sub))) := by
  rw [exec_vdpRead_allowed now fresh op may found]
  simp only [readValue, start, noData, noGroup, room, short, ne_eq, not_true, decide_false, Bool.false_and, Bool.or_self, Bool.not_true,
    Bool.false_eq_true, if_false, if_true]

theorem exec_vdpRead_snapshot (long : 1024 < (valueOf s (contextOf s r.src).sel e r.index r.sub).length)
    (free : (readFree s r.index r.sub).mantle.snapshots.length < 16) :
    let v := valueOf s (contextOf s r.src).sel e r.index r.sub
    let u := readFree s r.index r.sub
    let id := u.mantle.snapNext
    let m := { u.mantle with
      snapshots := u.mantle.snapshots ++ [{ id := id, party := r.src, index := r.index, sub := r.sub, value := v, last := u.now }]
      snapNext := nextSnap id }
    exec (.vdpRead r) s = .next (answer { u with mantle := m } r (segmentOf r id v)) := by
  rw [exec_vdpRead_allowed now fresh op may found]
  simp only [readValue, start, noData, noGroup, room, Nat.not_le.2 long, Nat.not_le.2 free, ne_eq, not_true, decide_false,
    Bool.false_and, Bool.or_self, Bool.not_true, Bool.false_eq_true, if_false]

end

theorem exec_vdpRead_further {x : Snapshot} (further : r.offset ≠ 0) (blob : e.ty = .blob) :
    let same := fun (x : Snapshot) => x.id = r.detail && x.party = r.src && x.index = r.index && x.sub = r.sub
    s.mantle.snapshots.find? same = some x → r.offset < x.value.length →
    let m := { s.mantle with snapshots := updFirst same (fun y => { y with last := s.now }) s.mantle.snapshots }
    exec (.vdpRead r) s = .next (answer { s with mantle := m } r (segmentOf r x.id x.value)) := by
  intro same taken within
  rw [exec_vdpRead_allowed now fresh op may found]
  simp only [readSnapshot, further, blob, taken, noData, noGroup, Nat.not_le.2 within, ne_eq, not_true, not_false_eq_true, decide_true,
    decide_false, Bool.and_self, Bool.or_self, Bool.false_eq_true, if_false, if_true, same]

end

end

theorem exec_describe {e : Entry} (op : r.opcode = 8) (passes : checkEntry s r = 0) (room : contextFree s r.src = true)
    (found : findEntry r.index r.sub = some e) :
    exec (.describe r) s = .next (answer s r (respOf r 0 0 (describeData e r.index r.sub))) := by
  change execDescribe r s = _
  simp only [execDescribe, describe, withOpcode_self op, unlessRepeated_fresh now fresh, passes, room, found, ne_eq, not_true, if_false,
    Bool.not_true, Bool.false_eq_true]

end

/-! ### Granted writes of any entry (R348, R349) -/

section
variable {s : State} {r : VdpReq}

theorem opcode_of_granted (ok : granted s r = true) : r.opcode = 2 ∨ r.opcode = 3 := by
  simp only [granted, Bool.and_eq_true, Bool.or_eq_true, decide_eq_true_eq] at ok
  obtain ⟨⟨⟨⟨⟨⟨⟨-, op⟩, -⟩, -⟩, -⟩, -⟩, -⟩, -⟩ := ok
  exact op

/-- A granted VDP_WRITE of any entry but the image upload goes by the writer of its entry. -/
theorem exec_vdpWrite_granted (ok : granted s r = true) (other : r.index ≠ 0x1100 ∨ r.sub ≠ 5) :
    exec (.vdpWrite r) s = .next (vdpEntry s r (writerOf r r.index r.sub).ok (writerOf r r.index r.sub).effect) := by
  have notImage : ¬ ((r.index = 0x1100 && r.sub = 5) = true) := by
    simp only [Bool.and_eq_true, decide_eq_true_eq]
    exact fun ⟨index, sub⟩ => other.elim (· index) (· sub)
  change execVdpWrite r s = _
  obtain write | command := opcode_of_granted ok
  · simp only [execVdpWrite, write, knownVdpOp, withOpcode_self write, vdpWriteAny, if_neg notImage]
    rfl
  · simp only [execVdpWrite, command, if_true, vdpWriteAny, if_neg notImage]

section
variable (ok : granted s r = true) (other : r.index ≠ 0x1100 ∨ r.sub ≠ 5)
variable (inRange : (writerOf r r.index r.sub).ok s (selects s r) r.data = true)
include ok other inRange

theorem exec_vdpWrite_accepted (accepts : ((writerOf r r.index r.sub).effect s (selects s r) r.data).status = 0) :
    exec (.vdpWrite r) s = .next (served ((writerOf r r.index r.sub).effect s (selects s r) r.data) r) :=
  (exec_vdpWrite_granted ok other).trans (congrArg _ (vdpEntry_served ok inRange accepts))

theorem exec_vdpWrite_rejected (rejects : ((writerOf r r.index r.sub).effect s (selects s r) r.data).status ≠ 0) :
    let x := (writerOf r r.index r.sub).effect s (selects s r) r.data
    exec (.vdpWrite r) s = .next (answer x.s r (respOf r x.status x.detail x.data)) :=
  (exec_vdpWrite_granted ok other).trans (congrArg _ (vdpEntry_refused ok inRange rejects))

end

/-- A granted restore that the store can take (R344). -/
theorem exec_restoreDefaults (ok : granted s (atEntry r 0x1200 0xB) = true) (stores : r.nvFails = false) :
    exec (.restoreDefaults r) s = .next (served
      (restoreDefaults s (selects s (atEntry r 0x1200 0xB)) r.data) (atEntry r 0x1200 0xB)) :=
  congrArg Host.Outcome.next (vdpEntry_accepted ok rfl (if_neg (ne_true_of_eq_false stores)) rfl)

end

end Sys2Proof.Machine

section
open Sys2Proof Sys2Proof.Machine

/-- Settles O26: a READ by its offset and the length of its value, a granted WRITE by the writer of its entry
(`exec_vdpWrite_granted`), DESCRIBE by its checks, a restore by what the writer of 0x1200:0B does. -/
theorem readsWritesAndDescribesAreAnswered : Obligations.ReadsWritesAndDescribesAreAnswered := by
  unfold Obligations.ReadsWritesAndDescribesAreAnswered
  refine ⟨fun r e s op now fresh may found noData noGroup => ?_, fun r s ok other => ?_, fun r e s op now fresh => ?_,
    fun r s => exec_restoreDefaults⟩
  · exact ⟨exec_vdpRead_short now fresh op may found noData noGroup, exec_vdpRead_snapshot now fresh op may found noData noGroup,
      fun x => exec_vdpRead_further now fresh op may found noData noGroup⟩
  · exact fun inRange => ⟨exec_vdpWrite_accepted ok other inRange, exec_vdpWrite_rejected ok other inRange⟩
  · exact exec_describe now fresh op
end

namespace Sys2Proof.Machine

/-! ### Commit groups (R353 to R355) -/

section
variable {s : State} {r : VdpReq} (now : answersNow s r = true) (fresh : duplicateOf s r = none)
include now fresh

section
variable (copied : r.copyFails = false)
include copied

theorem exec_groupOpen {n : Nat} (op : r.opcode = 4) (passes : checkGroup s r 0 = 0) (few : (groupsIn s 0).length < 8)
    (room : contextFree s r.src = true) (next : nextGroup s s.mantle.groupLast = some n) :
    let u := putGroup s n { state := 0, party := some r.src, last := s.now }
    let v := { u with mantle := { u.mantle with groupLast := n } }
    exec (.groupOpen r) s = .next (answer v r (respOf r 0 0 (leBytes 1 n))) := by
  change execGroupOpen r s = _
  simp only [execGroupOpen, groupOpen, withOpcode_self op, unlessRepeated_fresh now fresh]
  simp only [passes, Nat.not_le.2 few, room, next, copied, standbyCopy_false, ne_eq, not_true, decide_false, Bool.not_true, Bool.or_self,
    Bool.false_eq_true, if_false]

theorem exec_groupDiscard (op : r.opcode = 6) (passes : checkGroup s r 0 = 0) (own : ownGroup s r = true) :
    exec (.groupDiscard r) s = .next (answer
      (putGroup s r.group { getCommit s r.group with state := 3, staged := [] }) r (respOf r 0 0 [])) := by
  change execGroupDiscard r s = _
  simp only [execGroupDiscard, groupDiscard, withOpcode_self op, unlessRepeated_fresh now fresh]
  simp only [passes, own, copied, standbyCopy_false, ne_eq, not_true, Bool.not_true, Bool.false_eq_true, if_false]

/-- A group that can be committed is armed for its front. -/
theorem exec_groupCommit (op : r.opcode = 5) (passes : checkGroup s r 8 = 0) (own : ownGroup s r = true) :
    let g := getCommit s r.group
    let u := putGroup s r.group { g with last := s.now }
    let sel := (contextOf u r.src).sel
    let asked := leNat r.data
    let front := if asked = 0 then frontAt (epoch u + 8192) else asked
    commitFault u r sel (sortStaged g.staged) = none → frontFault u g asked = 0 →
    (sortStaged g.staged).find? (fun x => heldByGroup u x.index x.sub) = none → (groupsIn u 1).length < 8 →
    let order := 1 + (groupsIn u 1).foldl (fun n e => max n e.2.order) 0
    let v := putGroup u r.group { g with
      state := 1, staged := (sortStaged g.staged).map (fun x => { x with sel := sel }), front := front, order := order, last := u.now }
    exec (.groupCommit r) s = .next (answer v r (respOf r 0 0 (leBytes 8 front))) := by
  intro g u sel asked front valid goodFront noConflict few order v
  change execGroupCommit r s = _
  simp only [execGroupCommit, groupCommit, withOpcode_self op, unlessRepeated_fresh now fresh, passes, own, ne_eq, not_true,
    Bool.not_true, Bool.false_eq_true, if_false]
  rw [valid, noConflict, if_neg (not_not.2 goodFront), if_neg (Nat.not_le.2 few), armGroup, copied, standbyCopy_false]

end

/-- A group of no context or of the sender's own is reported, and an open one renewed. -/
theorem exec_groupStatus (op : r.opcode = 7) (passes : checkGroup s r 0 = 0) (room : contextFree s r.src = true) :
    let g := getCommit s r.group
    g.party = none ∨ g.party = some r.src →
    exec (.groupStatus r) s = .next (answer
      (if g.state = 0 then putGroup s r.group { g with last := s.now } else s) r (respOf r 0 0 (groupStatusData g))) := by
  intro g owner
  have mine : (g.party.isSome && g.party ≠ some r.src) = false := by
    obtain free | own := owner
    · rw [free]
      rfl
    · rw [own]
      simp
  change execGroupStatus r s = _
  simp only [execGroupStatus, groupStatus, withOpcode_self op, unlessRepeated_fresh now fresh, passes, room, ne_eq, not_true,
    Bool.not_true, Bool.false_eq_true, if_false]
  rw [if_neg (ne_true_of_eq_false mine)]

end

end Sys2Proof.Machine

section
open Sys2Proof Sys2Proof.Machine

/-- Settles O27: each group request by its checks in their order. What a response carries (log 54), the renewal of an open
group by GROUP_STATUS and what a discarded group is left as (log 55) are the model's choices. -/
theorem commitGroupsOpenCommitDiscardAndReport : Obligations.CommitGroupsOpenCommitDiscardAndReport := by
  unfold Obligations.CommitGroupsOpenCommitDiscardAndReport
  intro r s now fresh copied
  exact ⟨fun n => exec_groupOpen now fresh copied, exec_groupCommit now fresh copied, exec_groupDiscard now fresh copied,
    exec_groupStatus now fresh⟩
end

namespace Sys2Proof.Machine

/-! ### Who is the active Mantle (R359, R363, R364, R366, R550) -/

section
variable {s : State}

section
variable (active : mantleActive s = true)
include active

theorem exec_mantleRefresh : exec .mantleRefresh s = .next { s with mantle := { s.mantle with refreshed := s.now } } :=
  if_pos active

theorem exec_entdaa (a : Nat) : exec (.entdaa a) s = .next { s with mantle := { s.mantle with i3cAddr := some (a % 128) } } :=
  if_pos active

theorem exec_setEndpointId (eid : Nat) (addressed : s.mantle.i3cAddr.isSome = true) :
    exec (.setEndpointId eid) s = .next (wrE s 0x1200 7 (eid % 256)) :=
  if_pos (by rw [active, addressed]; rfl)

end

theorem exec_mantleOwnershipExpiry {m : Nat} (owns : s.mantle.owner = some m) :
    exec .mantleOwnershipExpiry s = .next
      (releaseLine (cutMantle (advanceTo s (max (s.mantle.refreshed + 3 * msPs) s.fc.restartAt)) m) none) := by
  change execMantleOwnershipExpiry s = _
  simp only [execMantleOwnershipExpiry, owns]

section
variable (none : mantleActive s = false) (standby : s.boot.standby = true)
include none standby

/-- A claim of a line that was released is a switch-over. -/
theorem exec_standbyClaim_released {t m : Nat} (free : s.mantle.freeSince = some t) (claims : claimant s = some m) :
    exec .standbyClaim s = .next (switchMantle s m) := by
  change execStandbyClaim s = _
  simp only [execStandbyClaim, none, standby, free, claims, Bool.not_true, Bool.or_self, Bool.false_eq_true, if_false]

section
variable (first : s.mantle.freeSince = Option.none)
include first

theorem exec_standbyClaim_first_a (claims : claimant s = some 0) : exec .standbyClaim s = .next (becomeActive s 0) := by
  change execStandbyClaim s = _
  simp only [execStandbyClaim, none, standby, first, claims, Bool.not_true, Bool.or_self, Bool.false_eq_true, if_false]

theorem exec_standbyClaim_first_b (claims : claimant s = some 1) : exec .standbyClaim s = .next
    (becomeActive (advanceTo s (Tab.get 0 s.mantle.readyAt 1 + 200 * msPs)) 1) := by
  change execStandbyClaim s = _
  simp only [execStandbyClaim, none, standby, first, claims, Bool.not_true, Bool.or_self, Bool.false_eq_true, if_false]

end

end

section
variable {t : Nat} (free : s.mantle.freeSince = some t)
include free

section
variable {m : Nat} (handed : s.mantle.handOver = some m)
include handed

theorem exec_mantleClaimTimeout_handOver : exec .mantleClaimTimeout s = .next (reclaim (advanceTo s (t + 2 * msPs)) m) := by
  have later : (advanceTo s (t + 2 * msPs)).mantle.handOver = some m := handed
  change execMantleClaimTimeout s = _
  simp only [execMantleClaimTimeout, free, later]

theorem exec_handOverReclaim : exec .handOverReclaim s = .next (reclaim (advanceTo s (t + 2 * msPs)) m) := by
  change execHandOverReclaim s = _
  simp only [execHandOverReclaim, free, handed]

end

theorem exec_mantleClaimTimeout_expired (expired : s.mantle.handOver = none) :
    let u := advanceTo s (t + 2 * msPs)
    exec .mantleClaimTimeout s = .next (raiseAllHb (latentMantle
      { u with mantle := { u.mantle with freeSince := none }, boot := { u.boot with alert := true } }
      (if u.mantle.dieA = 4 then 1 else 0)) 5) := by
  intro u
  have later : u.mantle.handOver = none := expired
  change execMantleClaimTimeout s = _
  simp only [execMantleClaimTimeout, free]
  rw [later]

end

end

section
variable {r : VdpReq} {s : State} {m : Nat}

theorem exec_handOver (ok : granted s (atEntry r 0x1200 0xE) = true) (owns : s.mantle.owner = some m)
    (standby : dieState s (1 - m) = 2) :
    exec (.handOver r) s = .next (served { s := releaseLine (setDieState s m 2) (some m) } (atEntry r 0x1200 0xE)) := by
  have hands : handOver s (selects s (atEntry r 0x1200 0xE)) r.data = { s := releaseLine (setDieState s m 2) (some m) } := by
    simp only [handOver, owns, standby, if_true]
  exact congrArg Host.Outcome.next (vdpEntry_accepted ok rfl hands rfl)

theorem exec_restartStandby (ok : granted s (atEntry r 0x1200 0xF) = true)
    (first : [0, 1].find? (fun m => [0, 4, 5].contains (dieState s m)) = some m) :
    exec (.restartStandby r) s = .next (served { s := setDieState s m 1 } (atEntry r 0x1200 0xF)) := by
  have boots : restartStandby s (selects s (atEntry r 0x1200 0xF)) r.data = { s := setDieState s m 1 } := by
    simp only [restartStandby, first]
  exact congrArg Host.Outcome.next (vdpEntry_accepted ok rfl boots rfl)

end

end Sys2Proof.Machine

section
open Sys2Proof Sys2Proof.Machine

/-- Settles O28: each command of the Mantles by who owns the line, since when it is free and whether it was handed over;
HAND_OVER and RESTART_STANDBY by what their entries' rules do with a granted value. -/
theorem mantleOwnershipPassesAsStated : Obligations.MantleOwnershipPassesAsStated := by
  unfold Obligations.MantleOwnershipPassesAsStated
  refine ⟨fun s => exec_mantleRefresh, fun m s => exec_mantleOwnershipExpiry, fun s none standby => ⟨?_, ?_, ?_⟩,
    fun t s free => ⟨fun m handed => ⟨?_, ?_⟩, exec_mantleClaimTimeout_expired free⟩, fun r m s => exec_handOver,
    fun r m s => exec_restartStandby, fun a s active => exec_entdaa active a, fun eid s active => exec_setEndpointId active eid⟩
  · exact fun t m => exec_standbyClaim_released none standby
  · exact exec_standbyClaim_first_a none standby
  · exact exec_standbyClaim_first_b none standby
  · exact exec_mantleClaimTimeout_handOver free handed
  · exact exec_handOverReclaim free handed
end

namespace Sys2Proof.Machine

/-! ### What a requester holds (R345, R350, R353, R362, R378) -/

section
variable {s : State}

theorem exec_notifyAck {r : VdpReq} (op : r.opcode = 0xA) (now : answersNow s r = true) (passes : checkHead s r r.index = 0) :
    let keep := fun (n : Notify) => !(n.seq = r.txid && isTarget s n.target r.src)
    exec (.notifyAck r) s = .next (dropOutstanding
      { s with mantle := { s.mantle with notifies := s.mantle.notifies.filter keep } } r.src) := by
  change execNotifyAck r s = _
  simp only [execNotifyAck, notifyAck, withOpcode_self op]
  simp only [now, passes, Bool.not_true, Bool.false_eq_true, ne_eq, not_true, if_false]

section
variable {target seq : Nat} {n : Notify} (active : mantleActive s = true)
variable (waits : s.mantle.notifies.find? (fun n => n.target = target && n.seq = seq) = some n)
include active waits

/-- A notice that was sent four times is counted lost at 800 ms. -/
theorem exec_notifyResend_lost (last : 4 ≤ n.sends) :
    let same := fun (n : Notify) => n.target = target && n.seq = seq
    let u := advanceTo s (n.first + [0, 100, 200, 400].getD n.sends 800 * msPs)
    exec (.notifyResend target seq) s = .next
      (bump { u with mantle := { u.mantle with notifies := u.mantle.notifies.filter (fun x => !same x) } } 0x1200 4) := by
  change execNotifyResend target seq s = _
  simp only [execNotifyResend, waits, active, last, Bool.not_true, Bool.false_eq_true, if_false, if_true]

theorem exec_notifyResend_again (more : n.sends < 4) :
    let same := fun (n : Notify) => n.target = target && n.seq = seq
    let u := advanceTo s (n.first + [0, 100, 200, 400].getD n.sends 800 * msPs)
    exec (.notifyResend target seq) s = .next (emit
      { u with mantle := { u.mantle with notifies := updFirst same (fun x => { x with sends := x.sends + 1 }) u.mantle.notifies } }
      (.notify target seq n.record)) := by
  change execNotifyResend target seq s = _
  simp only [execNotifyResend, waits, active, Nat.not_le.2 more, Bool.not_true, Bool.false_eq_true, if_false]

end

theorem exec_snapshotRelease {id : Nat} {x : Snapshot} (held : s.mantle.snapshots.find? (fun x => x.id = id) = some x) :
    let u := advanceTo s (x.last + 2 * secPs)
    exec (.snapshotRelease id) s = .next
      { u with mantle := { u.mantle with snapshots := u.mantle.snapshots.filter (fun y => y.id ≠ id) } } := by
  change execSnapshotRelease id s = _
  simp only [execSnapshotRelease, held]

theorem exec_partialWriteDiscard {party : Party} {index sub group : Nat} {w : PartialWrite} :
    let same := fun (w : PartialWrite) => w.party = party && w.index = index && w.sub = sub && w.group = group
    s.mantle.partials.find? same = some w →
    let u := advanceTo s (w.last + 10 * secPs)
    let v := { u with mantle := { u.mantle with partials := u.mantle.partials.filter (fun x => !same x) } }
    exec (.partialWriteDiscard party index sub group) s = .next
      (if index = 0x1100 && sub = 5 && group = 0 then failUpload v 3 else v) := by
  intro same held
  change execPartialWriteDiscard party index sub group s = _
  simp only [execPartialWriteDiscard]
  rw [held]

theorem exec_groupExpiry {n : Nat} (isOpen : (Tab.get {} s.mantle.groups n).state = 0) :
    let g := Tab.get {} s.mantle.groups n
    exec (.groupExpiry n) s = .next (putGroup (advanceTo s (g.last + 10 * secPs)) n { g with state := 3, staged := [] }) :=
  if_neg (not_not.2 isOpen)

theorem exec_contextRelease {party : Party} {c : Context} (held : findContext s party = some c) :
    exec (.contextRelease party) s = .next (dropContext (advanceTo s (c.last + 60 * secPs)) party) := by
  change execContextRelease party s = _
  simp only [execContextRelease, held]

end

end Sys2Proof.Machine

section
open Sys2Proof Sys2Proof.Machine

/-- Settles O29: each release by what is found held. That an upload ends with its partial write (log 61) and what the
release of a context discards (log 62) are the model's choices. -/
theorem whatARequesterHoldsIsReleasedInTime : Obligations.WhatARequesterHoldsIsReleasedInTime := by
  unfold Obligations.WhatARequesterHoldsIsReleasedInTime
  refine ⟨fun r s => exec_notifyAck, fun target seq n s active => ?_, fun id x s => exec_snapshotRelease,
    fun party index sub group w s => exec_partialWriteDiscard, fun n s => exec_groupExpiry, fun party c s => exec_contextRelease⟩
  intro same waits
  exact ⟨exec_notifyResend_lost active waits, exec_notifyResend_again active waits⟩
end

namespace Sys2Proof.Machine

/-! ### PLDM requests (R359, R360) -/

section
variable {s : State} (active : mantleActive s = true) (addressed : s.mantle.i3cAddr.isSome = true) (eid : Nat)
include active addressed

/-- With an active Mantle and an I3C address a PLDM request is served. -/
theorem pldm_served : (!mantleActive s || s.mantle.i3cAddr.isNone) = false := by
  rw [active, ← Option.not_isSome, addressed]
  rfl

theorem exec_pldmRequest_sensor {id : Nat} {x : Int} (reads : sensorReading s id = some x) :
    exec (.pldmRequest eid (.getSensorReading id)) s = .next (pldmAnswer s eid (leBytes 4 (unsigned 32 x))) := by
  change execPldmRequest eid (.getSensorReading id) s = _
  simp only [execPldmRequest, pldm_served active addressed, reads, Bool.false_eq_true, if_false]

theorem exec_pldmRequest_noSensor {id : Nat} (noReading : sensorReading s id = none) :
    exec (.pldmRequest eid (.getSensorReading id)) s = .next (pldmOpen s eid) := by
  change execPldmRequest eid (.getSensorReading id) s = _
  simp only [execPldmRequest, pldm_served active addressed, noReading, Bool.false_eq_true, if_false]

theorem exec_pldmRequest_state {id x : Nat} (reads : sensorState s id = some x) :
    exec (.pldmRequest eid (.getStateSensorReadings id)) s = .next (pldmAnswer s eid (leBytes 1 x)) := by
  change execPldmRequest eid (.getStateSensorReadings id) s = _
  simp only [execPldmRequest, pldm_served active addressed, reads, Bool.false_eq_true, if_false]

theorem exec_pldmRequest_noState {id : Nat} (noState : sensorState s id = none) :
    exec (.pldmRequest eid (.getStateSensorReadings id)) s = .next (pldmOpen s eid) := by
  change execPldmRequest eid (.getStateSensorReadings id) s = _
  simp only [execPldmRequest, pldm_served active addressed, noState, Bool.false_eq_true, if_false]

theorem exec_pldmRequest_receiver (e : Nat) : exec (.pldmRequest eid (.setEventReceiver e)) s = .next
    (pldmAnswer { s with mantle := { s.mantle with pldmReceiver := some e } } eid []) :=
  if_neg (ne_true_of_eq_false (pldm_served active addressed))

theorem exec_pldmRequest_fru : exec (.pldmRequest eid .getFruTable) s = .next
    (pldmAnswer s eid (leBytes 8 (rdE s 0x1000 4) ++ leBytes 8 (rdE s 0x1000 6) ++ leBytes 4 (rdE s 0x1000 7))) :=
  if_neg (ne_true_of_eq_false (pldm_served active addressed))

/-- Every other request is answered with an open value (log 6). -/
theorem exec_pldmRequest_open (cmd : PldmCmd)
    (other : cmd ∈ [PldmCmd.getTid, .getVersion, .getTypes, .getCommands, .getPdrRepositoryInfo, .getPdr, .getFruTableMetadata, .other]) :
    exec (.pldmRequest eid cmd) s = .next (pldmOpen s eid) := by
  simp only [List.mem_cons, List.not_mem_nil, or_false] at other
  obtain rfl | rfl | rfl | rfl | rfl | rfl | rfl | rfl := other <;> exact if_neg (ne_true_of_eq_false (pldm_served active addressed))

end

/-! ### Aborts (R367, R369) -/

section
variable {s : State} {sel : Tab Nat} {v : List Byte} {units : Nat}

theorem abortOperation_refused {id : Nat} (held : [1, 5, 6, 7, 8].contains id = true) :
    abortOperation id units s sel v = { s := s, status := stRefused } := if_pos held

section
variable {id : Nat} (may : [1, 5, 6, 7, 8].contains id = false)
include may

theorem abortOperation_idle (idle : opRunning s id = false) : abortOperation id units s sel v = { s := s } := by
  simp only [abortOperation, may, idle, Bool.not_false, Bool.false_eq_true, if_false, if_true]

theorem abortOperation_running (runs : opRunning s id = true) (notUpload : id ≠ 9) :
    let n := min units (getOp s id).total
    let u := if id = 4 then fillRows s n else s
    let w := if id = 2 then { u with tested := [] } else u
    abortOperation id units s sel v = { s := endOp w id 4 0 (if id = 2 then (getOp w 2).position else n) } := by
  simp only [abortOperation, may, runs, notUpload, Bool.not_true, Bool.false_eq_true, if_false]

end

theorem failUpload_running {state : Nat} (runs : opRunning s 9 = true) :
    failUpload s state = endOp (setOtherImage s { otherImage s with state := 2, version := 0 }) 9 state 0 (getOp s 9).position := by
  simp only [failUpload, runs, Bool.not_true, Bool.false_eq_true, if_false]

/-- The abort of an upload drops what was sent of it. -/
theorem abortOperation_upload (runs : opRunning s 9 = true) :
    let u := endOp (setOtherImage s { otherImage s with state := 2, version := 0 }) 9 4 0 (getOp s 9).position
    let left := u.mantle.partials.filter (fun w => !(w.index = 0x1100 && w.sub = 5 && w.group = 0))
    abortOperation 9 units s sel v = { s := { u with mantle := { u.mantle with partials := left } } } := by
  have may : [1, 5, 6, 7, 8].contains 9 = false := by decide
  simp only [abortOperation, may, runs, failUpload_running runs, Bool.not_true, Bool.false_eq_true, if_false, if_true]

end

section
variable {r : VdpReq} {s : State} {id units : Nat}

/-- The index of an operation that exists. -/
theorem exec_operationAbort_eq (low : 1 ≤ id) (high : id ≤ 9) : exec (.operationAbort id units r) s =
    .next (vdpEntry s (atEntry r (0xA000 + id) 8) anyValue (abortOperation id units)) := by
  change execOperationAbort id units r s = _
  simp only [execOperationAbort, low, high, decide_true, Bool.and_self, if_true]

section
variable (low : 1 ≤ id) (high : id ≤ 9) (ok : granted s (atEntry r (0xA000 + id) 8) = true)
include low high ok

theorem exec_operationAbort_accepted {u : State}
    (aborts : abortOperation id units s (selects s (atEntry r (0xA000 + id) 8)) r.data = { s := u }) :
    exec (.operationAbort id units r) s = .next (served { s := u } (atEntry r (0xA000 + id) 8)) :=
  (exec_operationAbort_eq low high).trans (congrArg _ (vdpEntry_accepted ok rfl aborts rfl))

theorem exec_operationAbort_refused (held : [1, 5, 6, 7, 8].contains id = true) : exec (.operationAbort id units r) s = .next
    (answer s (atEntry r (0xA000 + id) 8) (respOf (atEntry r (0xA000 + id) 8) stRefused 0 [])) :=
  (exec_operationAbort_eq low high).trans
    (congrArg _ (vdpEntry_rejected ok rfl (abortOperation_refused held) (by decide : stRefused ≠ 0)))

end

end

/-! ### Uploads (R378, R379, R551) -/

/-- What the upload of an image asks of a granted request: its first checks pass, its value is whole and in no group. -/
theorem upload_of_granted {s : State} {r : VdpReq} (ok : granted s r = true) :
    answersNow s r = true ∧ duplicateOf s r = none ∧ checkEntry s r = 0
      ∧ (((findEntry r.index r.sub).bind (fun e => etypeSize e.ty)).isSome = true ∨ r.offset = 0 ∧ r.dataLen = r.total)
      ∧ r.group = 0 ∧ contextFree s r.src = true ∧ r.copyFails = false := by
  simp only [granted, Bool.and_eq_true, Bool.or_eq_true, decide_eq_true_eq, Bool.not_eq_true', Option.isNone_iff_eq_none] at ok
  obtain ⟨⟨⟨⟨⟨⟨⟨⟨⟨now, fresh⟩, passes⟩, -⟩, whole⟩, noGroup⟩, -⟩, -⟩, room⟩, copied⟩ := ok
  exact ⟨now, fresh, passes, whole, noGroup, room, copied⟩

theorem takeSegment_whole {r : VdpReq} (s : State)
    (whole : ((findEntry r.index r.sub).bind (fun e => etypeSize e.ty)).isSome = true ∨ r.offset = 0 ∧ r.dataLen = r.total) :
    takeSegment s r = (s, some r.data, 0) := by
  unfold takeSegment
  cases size : (findEntry r.index r.sub).bind (fun e => etypeSize e.ty) with
  | some n => rfl
  | none =>
    rw [size] at whole
    obtain ⟨start, all⟩ := whole.resolve_left (by decide)
    rw [start, all]
    simp only [decide_true, Bool.and_self, if_true]

section
variable {s : State} {r : VdpReq} (now : answersNow s r = true) (fresh : duplicateOf s r = none) (passes : checkEntry s r = 0)
variable (room : contextFree s r.src = true) (op : r.opcode = 2) (noGroup : r.group = 0) (notEmpty : r.total ≠ 0)
variable (own : s.boot.spiSel = false) (idle : opRunning s 9 = false) (copied : r.copyFails = false)
include now fresh passes room op noGroup notEmpty own idle copied

/-- The first segment of an upload begins it; its whole value ends it. -/
theorem imageUpload_whole {u : State} {v : List Byte} {n : Nat} (takes : takeSegment (beginUpload s r.total) r = (u, some v, n)) :
    imageUpload s r = answer (endUpload u v) r (respOf r 0 0 []) := by
  simp only [imageUpload, uploadSegment, now, fresh, passes, room, op, noGroup, notEmpty, own, idle, copied, takes, standbyCopy_false,
    ne_eq, not_true, Bool.not_true, Bool.false_and, Bool.false_eq_true, if_false]

/-- A first segment that completes nothing is held and moves the position. -/
theorem imageUpload_held {u : State} (holds : takeSegment (beginUpload s r.total) r = (u, none, 0)) :
    imageUpload s r = answer (uploadPosition u r.src) r (respOf r 0 0 []) := by
  simp only [imageUpload, uploadSegment, now, fresh, passes, room, op, noGroup, notEmpty, own, idle, copied, holds, standbyCopy_false,
    ne_eq, not_true, Bool.not_true, Bool.false_and, Bool.false_eq_true, if_false]

end

theorem exec_imageUpload_whole {r : VdpReq} {s : State} (ok : granted s (atEntry r 0x1100 5) = true) (op : r.opcode = 2)
    (notEmpty : 0 < r.total) (own : s.boot.spiSel = false) (idle : opRunning s 9 = false) :
    exec (.imageUpload r) s = .next (answer (endUpload (beginUpload s r.total) r.data) (atEntry r 0x1100 5)
      (respOf (atEntry r 0x1100 5) 0 0 [])) := by
  obtain ⟨now, fresh, passes, whole, noGroup, room, copied⟩ := upload_of_granted ok
  exact congrArg Host.Outcome.next (imageUpload_whole (r := atEntry r 0x1100 5) now fresh passes room op noGroup notEmpty.ne' own idle
    copied (takeSegment_whole _ whole))

end Sys2Proof.Machine

section
open Sys2Proof Sys2Proof.Machine

/-- Settles O30: a PLDM request by its command, an abort by its operation and whether it runs (the lemmas about
`abortOperation`), an upload by what its first segment completes (`imageUpload_whole`, `imageUpload_held`). Open values of PLDM answers
(log 6) and BAD_SIGNATURE of an image whose upload is aborted (log 61) are the model's choices. -/
theorem sensorsAbortsAndImagesAreServed : Obligations.SensorsAbortsAndImagesAreServed := by
  unfold Obligations.SensorsAbortsAndImagesAreServed
  refine ⟨fun eid s active addressed => ⟨?_, ?_, ?_, ?_, ?_, ?_, ?_⟩, fun id units r s low high ok => ?_, fun id units r s held ok => ?_,
    fun units r s ok => ⟨fun idle => ?_, fun runs => ?_⟩, fun r s => exec_imageUpload_whole, ?_⟩
  · exact fun id x => exec_pldmRequest_sensor active addressed eid
  · exact fun id => exec_pldmRequest_noSensor active addressed eid
  · exact fun id x => exec_pldmRequest_state active addressed eid
  · exact fun id => exec_pldmRequest_noState active addressed eid
  · exact exec_pldmRequest_open active addressed eid
  · exact exec_pldmRequest_receiver active addressed eid
  · exact exec_pldmRequest_fru active addressed eid
  · have may : [1, 5, 6, 7, 8].contains id = false := by
      obtain rfl | rfl | rfl : id = 2 ∨ id = 3 ∨ id = 4 := by omega
      all_goals decide
    exact ⟨fun idle => exec_operationAbort_accepted (by omega) (by omega) ok (abortOperation_idle may idle),
      fun runs => exec_operationAbort_accepted (by omega) (by omega) ok (abortOperation_running may runs (by omega))⟩
  · have refuses : [1, 5, 6, 7, 8].contains id = true := by
      obtain rfl | rfl | rfl | rfl | rfl : id = 1 ∨ id = 5 ∨ id = 6 ∨ id = 7 ∨ id = 8 := by omega
      all_goals decide
    exact exec_operationAbort_refused (by omega) (by omega) ok refuses
  · exact exec_operationAbort_accepted (id := 9) (by decide) (by decide) ok (abortOperation_idle (by decide) idle)
  · exact exec_operationAbort_accepted (id := 9) (by decide) (by decide) ok (abortOperation_upload runs)
  · intro r s u now fresh passes room op noGroup notEmpty own idle copied held
    exact congrArg Host.Outcome.next
      (imageUpload_held (r := atEntry r 0x1100 5) now fresh passes room op noGroup notEmpty own idle copied held)
end

namespace Sys2Proof.Machine

/-! ### Numbers of the host queues (R425) -/

/-- The number of a queue within its function. -/
def queueIndex (q : Nat) : Nat := if q < 32 then q else (q - 32) % 8

theorem globalQueue_pf (i : Nat) : globalQueue 0 i = if i < 32 then some i else none := if_pos rfl

theorem globalQueue_vf {v : Nat} (i : Nat) (low : 1 ≤ v) (high : v ≤ 63) :
    globalQueue v i = if i < 8 then some (32 + 8 * (v - 1) + i) else none := by
  have isVf : ¬ v = 0 := by omega
  have inModule : v < 64 := by omega
  simp only [globalQueue, isVf, inModule, decide_true, Bool.true_and, decide_eq_true_eq, if_false]

theorem globalQueue_absent {v : Nat} (i : Nat) (high : 64 ≤ v) : globalQueue v i = none := by
  have isVf : ¬ v = 0 := by omega
  simp only [globalQueue, isVf, Nat.not_lt.2 high, decide_false, Bool.false_and, Bool.false_eq_true, if_false]

/-- A function owns a queue just where the queue exists, and the number tells both its owner and its place. -/
theorem globalQueue_eq_some_iff {fn i q : Nat} : globalQueue fn i = some q ↔ q < 536 ∧ fn = queueOwner q ∧ i = queueIndex q := by
  unfold queueOwner queueIndex
  obtain rfl | vf | absent : fn = 0 ∨ (1 ≤ fn ∧ fn ≤ 63) ∨ 64 ≤ fn := by omega
  · rw [globalQueue_pf, Option.ite_none_right_eq_some, Option.some.injEq]
    split <;> omega
  · obtain ⟨low, high⟩ := vf
    rw [globalQueue_vf i low high, Option.ite_none_right_eq_some, Option.some.injEq]
    split <;> omega
  · rw [globalQueue_absent i absent]
    simp only [reduceCtorEq, false_iff]
    split <;> omega

end Sys2Proof.Machine

section
open Sys2Proof Sys2Proof.Machine

/-- Settles O58: the number of a queue tells its owner and its place (`globalQueue_eq_some_iff`). -/
theorem queueNumbersFollowTheFunctions : Obligations.QueueNumbersFollowTheFunctions := by
  unfold Obligations.QueueNumbersFollowTheFunctions
  refine ⟨globalQueue_pf, fun v i => globalQueue_vf i, fun v i => globalQueue_absent i, fun q inModule => ⟨queueIndex q, ?_, ?_⟩, ?_⟩
  · exact globalQueue_eq_some_iff.2 ⟨inModule, rfl, rfl⟩
  · intro fn j mine
    obtain ⟨-, owner, place⟩ := globalQueue_eq_some_iff.1 mine
    exact ⟨owner, place⟩
  · intro fn i q mine
    obtain ⟨inModule, -, -⟩ := globalQueue_eq_some_iff.1 mine
    exact inModule
end

namespace Sys2Proof.Machine

/-! ### Windows (R405 to R407, R412) -/

section
variable {s : State} {fn window off w : Nat}

theorem regWrite_plain (notStatus : isStatus (regAt fn off) = false) (readable : isWriteOnly (regAt fn off) = false)
    (noDomain : ∀ d i, regAt fn off ≠ .dom d i) (writable : rwMask fn (regAt fn off) ≠ 0) :
    regWrite s fn window off w = setReg s fn (regAt fn off)
      (windowValue window (regValue s fn (regAt fn off)) (w &&& rwMask fn (regAt fn off)) &&& rwMask fn (regAt fn off)) := by
  unfold regWrite
  generalize regAt fn off = r at *
  simp only [notStatus, readable, Bool.or_self, Bool.and_false, Bool.false_eq_true, if_false]
  split
  case h_1 d i => exact absurd rfl (noDomain d i)
  case h_2 => exact absurd readable (by decide)
  case h_3 => exact if_neg writable

/-- A status register changes no event through a window but the plain one. -/
theorem regWrite_status_window (status : isStatus (regAt fn off) = true) (aliased : window ≠ 0) :
    regWrite s fn window off w = raiseHb s fn 7 := by
  simp only [regWrite, status, aliased, ne_eq, not_false_eq_true, decide_true, Bool.true_or, Bool.and_self, if_true]

theorem regWrite_status (status : isStatus (regAt fn off) = true) :
    regWrite s fn 0 off w = statusWrite s fn (regAt fn off) w := by
  simp only [regWrite, status, ne_eq, not_true, decide_false, Bool.false_and, Bool.false_eq_true, if_false, if_true]

theorem regWrite_domain {d i : Nat} (domain : regAt fn off = .dom d i) (may : window = 0 ∨ isWriteOnly (.dom d i) = false) :
    regWrite s fn window off w = postWrite s d { off := off, value := w, window := window } := by
  have passes : (decide (window ≠ 0) && (isStatus (.dom d i) || isWriteOnly (.dom d i))) = false := by
    obtain plain | readable := may
    · simp only [plain, ne_eq, not_true, decide_false, Bool.false_and]
    · simp only [isStatus, readable, Bool.or_self, Bool.and_false]
  simp only [regWrite, domain, passes, Bool.false_eq_true, if_false]
  rfl

end

section
variable {s : State} {fn window off : Nat} {data : List Byte}

theorem windowWrite_word (word : data.length = 4) (aligned : off % 4 = 0) :
    windowWrite s fn window off data = regWrite s fn window off (leNat data) :=
  if_pos (by rw [word, aligned]; rfl)

/-- A register's 4 bytes as a value. -/
theorem windowWrite_value {value : Nat} (fits : value < 2 ^ 32) (aligned : off % 4 = 0) :
    windowWrite s fn window off (leBytes 4 value) = regWrite s fn window off value := by
  rw [windowWrite_word (leBytes_length 4 value) aligned, leNat_leBytes]
  exact congrArg _ (Nat.mod_eq_of_lt fits)

theorem windowWrite_pair (pair : data.length = 8) (aligned : off % 8 = 0) : windowWrite s fn window off data =
    regWrite (regWrite s fn window off (leNat (data.take 4))) fn window (off + 4) (leNat (data.drop 4)) := by
  simp only [windowWrite, pair, aligned, (by decide : ¬ 8 = 4), decide_false, Bool.false_and, Bool.false_eq_true, decide_true,
    Bool.and_self, if_false, if_true]

theorem windowWrite_misaligned (word : data.length = 4 → off % 4 ≠ 0) (pair : data.length = 8 → off % 8 ≠ 0) :
    windowWrite s fn window off data = raiseHb s fn 7 := by
  have notWord : ¬ (decide (data.length = 4) && decide (off % 4 = 0)) = true := by
    simpa only [Bool.and_eq_true, decide_eq_true_eq, not_and] using word
  have notPair : ¬ (decide (data.length = 8) && decide (off % 8 = 0)) = true := by
    simpa only [Bool.and_eq_true, decide_eq_true_eq, not_and] using pair
  rw [windowWrite, if_neg notWord, if_neg notPair]

end

/-! ### Accesses of a live function -/

section
variable {s : State} {fn off : Nat} {data : List Byte} (live : fnLive s fn = true)
include live

theorem exec_regPlainWrite {bar : Nat} (register : bar ≠ 2) :
    exec (.regPlainWrite fn bar off data) s = .next (windowWrite (useFn s fn) fn 0 off data) := by
  change execRegPlainWrite fn bar off data s = _
  rw [execRegPlainWrite, hostAccess_live live, if_neg register]

theorem exec_regPlainWrite_bar2 : exec (.regPlainWrite fn 2 off data) s = .next (bar2Write (useFn s fn) fn off data) := by
  change execRegPlainWrite fn 2 off data s = _
  rw [execRegPlainWrite, hostAccess_live live]
  rfl

theorem exec_setAliasWrite : exec (.setAliasWrite fn off data) s = .next (windowWrite (useFn s fn) fn 1 off data) := by
  change execSetAliasWrite fn off data s = _
  rw [execSetAliasWrite, hostAccess_live live]

theorem exec_clearAliasWrite : exec (.clearAliasWrite fn off data) s = .next (windowWrite (useFn s fn) fn 2 off data) := by
  change execClearAliasWrite fn off data s = _
  rw [execClearAliasWrite, hostAccess_live live]

theorem exec_toggleAliasWrite : exec (.toggleAliasWrite fn off data) s = .next (windowWrite (useFn s fn) fn 3 off data) := by
  change execToggleAliasWrite fn off data s = _
  rw [execToggleAliasWrite, hostAccess_live live]

/-- The four windows write alike where their writes of the register do. -/
theorem exec_aliasWrites {put : Nat → State} (writes : ∀ window, windowWrite (useFn s fn) fn window off data = put window) :
    (∀ bar, bar ≠ 2 → exec (.regPlainWrite fn bar off data) s = .next (put 0)) ∧
      exec (.setAliasWrite fn off data) s = .next (put 1) ∧ exec (.clearAliasWrite fn off data) s = .next (put 2) ∧
      exec (.toggleAliasWrite fn off data) s = .next (put 3) := by
  refine ⟨fun bar register => ?_, ?_, ?_, ?_⟩
  · rw [exec_regPlainWrite live register, writes]
  · rw [exec_setAliasWrite live, writes]
  · rw [exec_clearAliasWrite live, writes]
  · rw [exec_toggleAliasWrite live, writes]

/-- A status register through the set, clear and toggle windows. -/
theorem exec_aliasWrites_status (word : data.length = 4) (aligned : off % 4 = 0) (status : isStatus (regAt fn off) = true) :
    exec (.setAliasWrite fn off data) s = .next (raiseHb (useFn s fn) fn 7)
      ∧ exec (.clearAliasWrite fn off data) s = .next (raiseHb (useFn s fn) fn 7)
      ∧ exec (.toggleAliasWrite fn off data) s = .next (raiseHb (useFn s fn) fn 7) := by
  rw [exec_setAliasWrite live, exec_clearAliasWrite live, exec_toggleAliasWrite live]
  simp only [windowWrite_word word aligned, regWrite_status_window status (by decide : 1 ≠ 0),
    regWrite_status_window status (by decide : 2 ≠ 0), regWrite_status_window status (by decide : 3 ≠ 0), and_self]

/-! ### Queue pages (R426, R428, R429) -/

section
variable {q : Nat} (mine : globalQueue fn (off / 65536) = some q)
include mine

theorem exec_queuePage_window (low : 0x8000 ≤ off % 65536) (high : off % 65536 + data.length ≤ 0xA000) :
    exec (.regPlainWrite fn 2 off data) s = .next
      (modHQ (useFn s fn) q (fun x => { x with window := wrBytes x.window (off % 65536 - 0x8000) data })) := by
  rw [exec_regPlainWrite_bar2 live]
  simp only [bar2Write, mine, low, high, decide_true, Bool.and_self, if_true]

theorem exec_queuePage_tail (tail : off % 65536 = 0) (word : data.length = 4) :
    exec (.regPlainWrite fn 2 off data) s = .next (writeTail (useFn s fn) q (leNat data)) := by
  rw [exec_regPlainWrite_bar2 live]
  simp only [bar2Write, mine, tail, word]
  rfl

theorem exec_queuePage_head (head : off % 65536 = 4) (word : data.length = 4) :
    exec (.regPlainWrite fn 2 off data) s = .next (writeHead (useFn s fn) q (leNat data)) := by
  rw [exec_regPlainWrite_bar2 live]
  simp only [bar2Write, mine, head, word]
  rfl

end

/-! ### Status registers and domains (R408 to R410, R412, R420, R421) -/

section
variable {value : Nat} (fits : value < 2 ^ 32) (aligned : off % 4 = 0)
include fits aligned

theorem exec_statusRegisterWrite (status : isStatus (regAt fn off) = true) :
    exec (.statusRegisterWrite fn off value) s = .next (statusWrite (useFn s fn) fn (regAt fn off) value) := by
  change execStatusRegisterWrite fn off value s = _
  rw [execStatusRegisterWrite, hostAccess_live live]
  rw [if_pos status, windowWrite_value fits aligned, regWrite_status status]

theorem exec_domainWrite {window d i : Nat} (domain : regAt fn off = .dom d i) (may : window = 0 ∨ isWriteOnly (.dom d i) = false) :
    exec (.domainWrite fn window off value) s = .next
      (postWrite (useFn s fn) d { off := off, value := value, window := window }) := by
  have isDomain : (domainOf fn off).isSome = true := by rw [domainOf, domain]; rfl
  change execDomainWrite fn window off value s = _
  rw [execDomainWrite, hostAccess_live live]
  rw [if_pos isDomain, windowWrite_value fits aligned, regWrite_domain domain may]

end

end

theorem writeThrough_domain {off d : Nat} (s : State) (value : Nat) (domain : domainOf 0 off = some d) :
    writeThrough s off value = settleWrite (regWrite s 0 0 off (value % 2 ^ 32)) d := by
  simp only [writeThrough, domain]

section
variable {s : State} (live : fnLive s 0 = true) (value : Nat)
include live

theorem exec_tileSyncAdd {t d : Nat} (tile : t < 24) (domain : domainOf 0 (0x40000 + 64 * t) = some d) :
    exec (.tileSyncAdd t value) s = .next
      (settleWrite (regWrite (useFn s 0) 0 0 (0x40000 + 64 * t) (value % 2 ^ 32)) d) := by
  change execTileSyncAdd t value s = _
  rw [execTileSyncAdd, hostAccess_live live, if_pos tile, writeThrough_domain _ value domain]

theorem exec_baseSyncAdd : exec (.baseSyncAdd value) s = .next (settleWrite (regWrite (useFn s 0) 0 0 0x40600 (value % 2 ^ 32)) 25) := by
  change execBaseSyncAdd value s = _
  rw [execBaseSyncAdd, hostAccess_live live, writeThrough_domain _ value (by decide : domainOf 0 0x40600 = some 25)]

theorem exec_fcWake : exec (.fcWake value) s = .next (settleWrite (regWrite (useFn s 0) 0 0 0x41004 (value % 2 ^ 32)) 26) := by
  change execFcWake value s = _
  rw [execFcWake, hostAccess_live live, writeThrough_domain _ value (by decide : domainOf 0 0x41004 = some 26)]

end

theorem exec_domainWriteApplied {s : State} {d : Nat} {x : PostedWrite}
    (posted : (getDomain (releaseReads s d) d).write = some x) (runs : domainRuns (releaseReads s d) d = true) :
    exec (.domainWriteApplied d) s = .next (applyDomain (modDomain (releaseReads s d) d (fun y => { y with write := none })) d x) := by
  change execDomainWriteApplied d s = _
  simp only [execDomainWriteApplied, settleWrite, posted, runs, if_true]

end Sys2Proof.Machine

section
open Sys2Proof Sys2Proof.Machine

/-- Settles O31: a write of a register by its window's length and alignment (the lemmas about `windowWrite`) and by the
kind of the register (the lemmas about `regWrite`), a write of a queue's page by its offset, the writes that post and
apply at once by `writeThrough_domain`. That those apply at once is the model's choice (log 82). -/
theorem hostRegisterWritesReachTheirRegisters : Obligations.HostRegisterWritesReachTheirRegisters := by
  unfold Obligations.HostRegisterWritesReachTheirRegisters
  refine ⟨fun fn off data s live aligned => ?_, fun fn off data s live => ?_, fun off value s fits aligned => ?_, ?_, ?_⟩
  · intro u r
    refine ⟨fun word notStatus readable noDomain writable => ?_, fun word => exec_aliasWrites_status live word aligned⟩
    intro put
    exact exec_aliasWrites live (put := put) fun window =>
      (windowWrite_word word aligned).trans (regWrite_plain notStatus readable noDomain writable)
  · intro u two
    refine ⟨fun pair aligned => exec_aliasWrites live fun window => windowWrite_pair pair aligned, fun word pair => ?_, ?_⟩
    · exact exec_aliasWrites live (put := fun _ => raiseHb u fn 7) fun window => windowWrite_misaligned word pair
    · exact fun q mine => ⟨exec_queuePage_window live mine, exec_queuePage_tail live mine, exec_queuePage_head live mine⟩
  · refine ⟨fun fn live => ?_, fun fn window d i live _ domain => exec_domainWrite live fits aligned domain⟩
    intro u clear
    have writes := fun status => exec_statusRegisterWrite (off := off) live fits aligned status
    refine ⟨fun reg => ?_, fun reg => ?_, fun reg => ?_, fun d reg => ?_, fun q reg => ?_⟩
    all_goals
      rw [reg] at writes
      exact writes rfl
  · exact fun d x s _ posted => exec_domainWriteApplied posted
  · exact fun value s live => ⟨fun t d => exec_tileSyncAdd live value, exec_baseSyncAdd live value, exec_fcWake live value⟩
end

namespace Sys2Proof.Machine

/-! ### Reads of registers (R409, R410, R411, R439) -/

section
variable {s : State} {fn off : Nat} (live : fnLive s fn = true)
include live

theorem exec_domainRegisterRead_misaligned (misaligned : off % 4 ≠ 0) :
    exec (.domainRegisterRead fn off) s = .next (emit (raiseHb (useFn s fn) fn 7) (.readDone fn off 0xFFFFFFFF)) := by
  change execDomainRegisterRead fn off s = _
  rw [execDomainRegisterRead, hostAccess_live live, if_neg misaligned]

section
variable (aligned : off % 4 = 0)
include aligned

theorem exec_domainRegisterRead_aligned : exec (.domainRegisterRead fn off) s = .next (readReg (useFn s fn) fn off) := by
  change execDomainRegisterRead fn off s = _
  rw [execDomainRegisterRead, hostAccess_live live, if_pos aligned]

/-- A register outside the domains that has no effect of its own on a read answers its value. -/
theorem exec_domainRegisterRead_plain (noDomain : ∀ d i, regAt fn off ≠ .dom d i) (noEpoch : regAt fn off ≠ .epochLo)
    (noFence : regAt fn off ≠ .barFence) : exec (.domainRegisterRead fn off) s = .next
      (emit (useFn s fn) (.readDone fn off (regValue (useFn s fn) fn (regAt fn off)))) := by
  rw [exec_domainRegisterRead_aligned live aligned, readReg]
  split
  case h_1 d i reg => exact absurd reg (noDomain d i)
  case h_2 reg => exact absurd reg noEpoch
  case h_3 reg => exact absurd reg noFence
  case h_4 => rfl

section
variable {d i : Nat} (domain : regAt fn off = .dom d i)
include domain

theorem exec_domainRegisterRead_runs (runs : domainRuns (releaseReads (useFn s fn) d) d = true) :
    let v := releaseReads (useFn s fn) d
    exec (.domainRegisterRead fn off) s = .next (emit v (.readDone fn off (regValue v fn (.dom d i)))) := by
  rw [exec_domainRegisterRead_aligned live aligned]
  simp only [readReg, domain, runs, if_true, readNow]

theorem exec_domainRegisterRead_held (stopped : domainRuns (releaseReads (useFn s fn) d) d = false) :
    let v := releaseReads (useFn s fn) d
    exec (.domainRegisterRead fn off) s = .next (modDomain v d (fun x =>
      { x with reads := x.reads ++ [(fn, off)], since := if x.reads.isEmpty then v.now else x.since })) := by
  rw [exec_domainRegisterRead_aligned live aligned]
  simp only [readReg, domain, stopped, Bool.false_eq_true, if_false]

end

end

theorem exec_epochLoRead :
    let v := modFunc (useFn s fn) fn (fun x => { x with latch := epoch (useFn s fn) })
    exec (.epochLoRead fn) s = .next (emit v (.readDone fn 0x20 (regValue v fn (regAt fn 0x20)))) := by
  change execEpochLoRead fn s = _
  rw [execEpochLoRead, hostAccess_live live, readEpoch, readNow]

end

theorem exec_bar4FenceRead {s : State} (live : fnLive s 0 = true) :
    let u := useFn s 0
    exec .bar4FenceRead s = .next (settleFences { u with host := { u.host with fences := u.host.fences ++ [u.host.barNext] } }) := by
  change execBar4FenceRead s = _
  rw [execBar4FenceRead, hostAccess_live live, readFence]

/-- Held reads are recovered at 100 ms, not before the Forecast logic runs (R515). -/
theorem exec_domainReadRecovery {s : State} {d : Nat} (held : (getDomain (releaseReads s d) d).reads ≠ []) :
    exec (.domainReadRecovery d) s = .next (recoverDomain (advanceTo (releaseReads s d)
      (max ((getDomain (releaseReads s d) d).since + 100 * msPs) (releaseReads s d).fc.restartAt)) d) := by
  change execDomainReadRecovery d s = _
  simp only [execDomainReadRecovery, List.isEmpty_eq_false_iff.2 held, Bool.false_eq_true, if_false]

/-! ### The mailbox (R361, R364, R419) -/

section
variable {s : State} {fn value : Nat} {nvFails copyFails : Bool} (live : fnLive s fn = true)
include live

theorem exec_mboxDoorbell : exec (.mboxDoorbell fn value nvFails copyFails) s =
    .next (ringMailbox (useFn s fn) fn value nvFails copyFails) := by
  change execMboxDoorbell fn value nvFails copyFails s = _
  rw [execMboxDoorbell, hostAccess_live live]

theorem exec_mailboxResponse {e : Nat × VdpResp} :
    let u := takeHeld (useFn s fn) fn
    u.mantle.mbox.find? (fun e => e.1 = fn) = some e →
    let v := { u with mantle := { u.mantle with mbox := dropFirst (fun x => x.1 = fn) u.mantle.mbox } }
    exec (.mailboxResponse fn) s = .next
      (raiseMbox (modFunc v fn (fun x => { x with outstanding := false, rsp := responseBytes e.2 })) fn 0) := by
  intro u waits
  change execMailboxResponse fn s = _
  rw [execMailboxResponse, hostAccess_live live]
  simp only [deliverResponse]
  rw [waits]

end

section
variable {s : State} {fn value : Nat} {nvFails copyFails : Bool}

theorem ringMailbox_busy (busy : (getFunc s fn).outstanding = true) :
    ringMailbox s fn value nvFails copyFails = raiseMbox s fn 1 := if_pos busy

section
variable (free : (getFunc s fn).outstanding = false)
include free

theorem ringMailbox_length (wrong : value % 2048 < 24 ∨ 1048 < value % 2048) :
    ringMailbox s fn value nvFails copyFails = raiseMbox s fn 3 := by
  have bad : (decide (value % 2048 < 24) || decide (1048 < value % 2048)) = true := by
    rw [Bool.or_eq_true, decide_eq_true_eq, decide_eq_true_eq]
    exact wrong
  simp only [ringMailbox, free, bad, Bool.false_eq_true, if_false, if_true]

/-- A request that is taken is performed, or held while the line is between owners. -/
theorem ringMailbox_taken (low : 24 ≤ value % 2048) (high : value % 2048 ≤ 1048) :
    let n := value % 2048
    let r := { requestOf fn n (rdBytes (getFunc s fn).req 0 n) with nvFails := nvFails, copyFails := copyFails }
    let v := modFunc s fn (fun x => { x with outstanding := true })
    ringMailbox s fn value nvFails copyFails =
      if betweenMantles v then modFunc v fn (fun x => { x with held := some r }) else vdpAny v r := by
  simp only [ringMailbox, free, Nat.not_lt.2 low, Nat.not_lt.2 high, decide_false, Bool.or_self, Bool.false_eq_true, if_false]

end

end

end Sys2Proof.Machine

section
open Sys2Proof Sys2Proof.Machine

/-- Settles O32: a read by its register, a recovery by the reads that are held, a doorbell by the mailbox and its length
(the lemmas about `ringMailbox`). Held reads and WRITE_LOST (log 82) and requests performed at the doorbell (log 85) are
the model's choices. -/
theorem hostReadsAndMailboxesComplete : Obligations.HostReadsAndMailboxesComplete := by
  unfold Obligations.HostReadsAndMailboxesComplete
  refine ⟨fun fn off s live aligned => ?_, fun fn off s live => exec_domainRegisterRead_misaligned live, fun d s held => ?_,
    fun s => exec_bar4FenceRead, fun fn value nvFails copyFails s live => ?_, fun fn e s live => exec_mailboxResponse live⟩
  · exact ⟨exec_domainRegisterRead_plain live aligned, fun d i domain => ⟨exec_domainRegisterRead_runs live aligned domain,
      exec_domainRegisterRead_held live aligned domain⟩, exec_epochLoRead live⟩
  · intro u sameRestart
    refine (exec_domainReadRecovery held).trans ?_
    rw [sameRestart]
    rfl
  · intro u n r v
    have rings := exec_mboxDoorbell (value := value) (nvFails := nvFails) (copyFails := copyFails) live
    refine ⟨fun busy => ?_, fun free wrong => ?_, fun free low high owned => ?_, fun free low high between => ?_⟩
    · rw [rings, ringMailbox_busy busy]
    · rw [rings, ringMailbox_length free wrong]
    · exact rings.trans (congrArg _ ((ringMailbox_taken free low high).trans (if_neg (ne_true_of_eq_false owned))))
    · exact rings.trans (congrArg _ ((ringMailbox_taken free low high).trans (if_pos between)))
end

namespace Sys2Proof.Machine

/-! ### Enabling, disabling and doorbells of host queues (R427 to R429) -/

section
variable {s : State} {q v : Nat}

section
variable (on : bit v 31 = true) (wasOff : bit (getHQ s q).ctrl 31 = false)
include on wasOff

theorem writeQctrl_enabled (may : enableOk (getHQ s q) = true) : writeQctrl s q v = modHQ s q (fun x =>
    { x with ctrl := v, running := true, sqHead := 0, sqTail := 0, cqTail := 0, cqHead := 0, phase := true,
             fullRaised := false, ents := [], unsignalled := 0 }) := by
  simp only [writeQctrl, on, wasOff, may, Bool.not_false, Bool.and_self, if_true]

theorem writeQctrl_refused (bad : enableOk (getHQ s q) = false) :
    writeQctrl s q v = raiseQueue (modHQ s q (fun x => { x with ctrl := setBit v 31 false })) q 3 := by
  simp only [writeQctrl, on, wasOff, bad, Bool.not_false, Bool.and_self, Bool.false_eq_true, if_false, if_true]

end

theorem writeQctrl_disabled (off : bit v 31 = false) : writeQctrl s q v = modHQ s q (fun x => { x with ctrl := v }) := by
  simp only [writeQctrl, off, Bool.false_and, Bool.false_eq_true, if_false]

theorem writeTail_stored (good : badBell (getHQ s q) v (sqSize (getHQ s q)) = false) :
    writeTail s q v = modHQ s q (fun x => { x with sqTail := v }) := if_neg (ne_true_of_eq_false good)

theorem writeTail_raised (bad : badBell (getHQ s q) v (sqSize (getHQ s q)) = true) : writeTail s q v = raiseQueue s q 4 := if_pos bad

theorem writeHead_stored (good : badBell (getHQ s q) v (cqSize (getHQ s q)) = false) : writeHead s q v = modHQ s q (fun x =>
    { x with cqHead := v, fullRaised := x.fullRaised && cqFull { x with cqHead := v } }) := if_neg (ne_true_of_eq_false good)

theorem writeHead_raised (bad : badBell (getHQ s q) v (cqSize (getHQ s q)) = true) : writeHead s q v = raiseQueue s q 4 := if_pos bad

end

section
variable {s : State} {fn i q : Nat} (live : fnLive s fn = true) (mine : globalQueue fn i = some q) (value : Nat)
include live mine

theorem exec_queueEnable : exec (.queueEnable fn i value) s =
    .next (writeQctrl (useFn s fn) q (setBit value 31 true &&& 0x803FFFFF)) := by
  change execQueueEnable fn i value s = _
  simp only [execQueueEnable, hostAccess_live live, qctrlWrite, mine]

theorem exec_queueDisable : exec (.queueDisable fn i value) s =
    .next (writeQctrl (useFn s fn) q (setBit value 31 false &&& 0x803FFFFF)) := by
  change execQueueDisable fn i value s = _
  simp only [execQueueDisable, hostAccess_live live, qctrlWrite, mine]

theorem exec_sqTail : exec (.sqTail fn i value) s = .next (writeTail (useFn s fn) q value) := by
  change execSqTail fn i value s = _
  simp only [execSqTail, hostAccess_live live, mine]

theorem exec_cqHead : exec (.cqHead fn i value) s = .next (writeHead (useFn s fn) q value) := by
  change execCqHead fn i value s = _
  simp only [execCqHead, hostAccess_live live, mine]

end

/-! ### Entries and records (R429 to R433) -/

section
variable {s : State} {q : Nat}

theorem exec_queueDisabled (runs : (getHQ s q).running = true) (off : bit (getHQ s q).ctrl 31 = false) (idle : (getHQ s q).ents = []) :
    exec (.queueDisabled q) s = .next (raiseQueue (modHQ s q (fun x => { x with running := false })) q 0) := by
  change execQueueDisabled q s = _
  simp only [execQueueDisabled, runs, off, idle, List.isEmpty_nil, Bool.not_false, Bool.and_self, if_true]

theorem exec_sqEntryFetch (entry : List Byte) (may : canTake (getHQ s q) = true) :
    let x := getHQ s q
    let d := if bit x.size 16 then rdBytes x.window (64 * x.sqHead) 64 else fit 64 entry
    let e : HEntry := { idx := x.sqHead, data := d, ended := if sqEntryOk d then none else some (fsBadEntry, 0) }
    exec (.sqEntryFetch q entry) s = .next (modHQ s q (fun x =>
      { x with sqHead := (x.sqHead + 1) % sqSize x, ents := x.ents ++ [e] })) := by
  change execSqEntryFetch q entry s = _
  simp only [execSqEntryFetch, fetchEntry, may, Bool.not_true, Bool.false_eq_true, if_false]

section
variable {idx st d : Nat} {e : HEntry} (taken : getEnt s q idx = some e) (ended : e.ended = some (st, d))
include taken ended

theorem exec_cqRecordWrite_room (room : cqFull (getHQ s q) = false) :
    exec (.cqRecordWrite q idx) s = .next (writeRecord s q e st d) := by
  change execCqRecordWrite q idx s = _
  simp only [execCqRecordWrite, taken, ended, room, Bool.false_eq_true, if_false]

theorem exec_cqRecordWrite_full (full : cqFull (getHQ s q) = true) (first : (getHQ s q).fullRaised = false) :
    exec (.cqRecordWrite q idx) s = .next (raiseQueue (modHQ s q (fun x => { x with fullRaised := true })) q 2) := by
  change execCqRecordWrite q idx s = _
  simp only [execCqRecordWrite, taken, ended, full, first, Bool.false_eq_true, if_false, if_true]

end

theorem exec_cqCoalesceTimer (timed : (getHQ s q).ctrl % 256 ≠ 0) (waits : (getHQ s q).unsignalled ≠ 0) :
    exec (.cqCoalesceTimer q) s = .next
      (signalQueue (advanceTo s ((getHQ s q).coalSince + (getHQ s q).ctrl % 256 * usPs)) q) := by
  change execCqCoalesceTimer q s = _
  simp only [execCqCoalesceTimer, timed, waits, decide_false, Bool.or_self, Bool.false_eq_true, if_false]

theorem exec_barrier {e : HEntry} {l : List HEntry} (head : (getHQ s q).ents = e :: l) (kind : qeKind e.data = 5) (isOpen : e.ended = none) :
    exec (.barrier q e.idx) s = .next (modEnt s q e.idx (fun x => { x with ended := some (0, 0) })) := by
  change execBarrier q e.idx s = _
  simp only [execBarrier, head, kind, isOpen, Option.isNone_none, decide_true, Bool.and_self, if_true]

end

end Sys2Proof.Machine

section
open Sys2Proof Sys2Proof.Machine

/-- Settles O33: QCTRL, tail and head by the lemmas about `writeQctrl`, `writeTail` and `writeHead`; entries, records and
barriers by what the queue holds. That an enable also refuses a queue which still runs is the model's choice (log 84). -/
theorem hostQueuesTakeEntriesAndWriteRecords : Obligations.HostQueuesTakeEntriesAndWriteRecords := by
  unfold Obligations.HostQueuesTakeEntriesAndWriteRecords
  refine ⟨fun fn i value q s live mine => ?_, fun q s => ?_⟩
  · intro u x on off
    rw [exec_queueEnable live mine, exec_queueDisable live mine, exec_sqTail live mine, exec_cqHead live mine]
    exact ⟨fun set wasOff may => congrArg _ (writeQctrl_enabled set wasOff may),
      fun set wasOff bad => congrArg _ (writeQctrl_refused set wasOff bad), fun clear => congrArg _ (writeQctrl_disabled clear),
      fun good => congrArg _ (writeTail_stored good), fun bad => congrArg _ (writeTail_raised bad),
      fun good => congrArg _ (writeHead_stored good), fun bad => congrArg _ (writeHead_raised bad)⟩
  · intro x
    exact ⟨exec_queueDisabled, exec_sqEntryFetch, fun idx e st d taken ended =>
      ⟨exec_cqRecordWrite_room taken ended, exec_cqRecordWrite_full taken ended⟩, exec_cqCoalesceTimer, fun e l => exec_barrier⟩
end

namespace Sys2Proof.Machine

/-! ### Entries that issue (R423, R431) -/

section
variable {s : State} {q idx : Nat} {e : HEntry}

theorem exec_write (entry : openEnt s q idx 1 = some e) (data : List Byte) (fault : Bool) :
    exec (.write q idx data fault) s = .next (stepWrite s q idx e data fault) := by
  change execWrite q idx data fault s = _
  simp only [execWrite, entry]

section
variable (entry : openEnt s q idx 1 = some e) (tag : (nextTag s 28).isSome = true) (data : List Byte) (fault : Bool)

/-- The tracker has room for what a WRITE sends. -/
theorem write_has_tag (tag : (nextTag s 28).isSome = true) (fault : Bool) : (!fault && (nextTag s 28).isNone) = false := by
  rw [← Option.not_isSome, tag]
  exact Bool.and_false _

include entry tag

theorem exec_write_again {i : Nat} {c : DWord} {l : List (Nat × DWord)} (again : e.again = (i, c) :: l) :
    let u := modEnt s q idx (fun e => { e with again := l })
    exec (.write q idx data fault) s = .next
      (if fault then pieceEnd u q idx i 32 0 else issuePiece u q idx i 2 e data (some c)) := by
  rw [exec_write entry]
  simp only [stepWrite, write_has_tag tag fault, again, Bool.false_eq_true, if_false]

section
variable (noneAgain : e.again = [])
include noneAgain

theorem exec_write_piece (more : e.sent < entryPieces e.data) :
    let u := modEnt s q idx (fun e => { e with sent := e.sent + 1 })
    exec (.write q idx data fault) s = .next
      (if fault then pieceEnd u q idx e.sent 32 0 else issuePiece u q idx e.sent 2 e data none) := by
  rw [exec_write entry]
  simp only [stepWrite, write_has_tag tag fault, noneAgain, more, Bool.false_eq_true, if_false, if_true]

theorem exec_write_signal (allSent : entryPieces e.data ≤ e.sent) (answered : e.answered = entryPieces e.data) (unsent : e.signal = 0) :
    exec (.write q idx data fault) s = .next (issueAdd s q idx e) := by
  rw [exec_write entry]
  simp only [stepWrite, write_has_tag tag fault, noneAgain, Nat.not_lt.2 allSent, answered, unsent, decide_true, Bool.and_self, Bool.false_eq_true,
    if_false, if_true]

end

end

theorem exec_read (entry : openEnt s q idx 2 = some e) (more : e.sent < entryPieces e.data) (tag : (nextTag s 28).isSome = true) :
    exec (.read q idx) s = .next
      (issuePiece (modEnt s q idx (fun e => { e with sent := e.sent + 1 })) q idx e.sent 1 e [] none) := by
  change execRead q idx s = _
  simp only [execRead, entry, stepRead, more, tag, decide_true, Bool.and_self, if_true]

theorem exec_signal (entry : openEnt s q idx 3 = some e) (unsent : e.signal = 0) :
    exec (.signal q idx) s = .next (issueAdd s q idx e) := by
  change execSignal q idx s = _
  simp only [execSignal, entry, unsent, if_true]

theorem exec_wait (entry : openEnt s q idx 4 = some e) (unsent : e.signal = 0) :
    let u := modEnt s q idx (fun x => { x with deadline := s.now + waitPs x })
    exec (.wait q idx) s = .next (issueSignal u q idx 0x60 e (qeSync e.data * 2 ^ 32 + qeWait e.data)
      (leBytes 8 (epoch u + waitPs e / countPs))) := by
  change execWait q idx s = _
  simp only [execWait, entry, stepWait, unsent, ne_eq, not_true, if_false]

theorem exec_waitTimeout {tag : Nat} (taken : getEnt s q idx = some e) (outstanding : signalTag s q idx = some tag)
    (kind : qeKind e.data = 4) : exec (.waitTimeout q idx) s = .next
      (modEnt (quarantineTag (putTrack (advanceTo s e.deadline) 28 tag none) 28 tag) q idx
        (fun x => { x with signal := 2, ended := some (35, 0) })) := by
  change execWaitTimeout q idx s = _
  simp only [execWaitTimeout, taken, outstanding, kind, ne_eq, not_true, if_false]

theorem exec_queueDmaFault (cq : Bool) (runs : (getHQ s q).running = true) : exec (.queueDmaFault q cq) s = .next
    (dmaFault s q (if cq then (getHQ s q).cqBase + 32 * (getHQ s q).cqTail else (getHQ s q).sqBase + 64 * (getHQ s q).sqHead)) := by
  change execQueueDmaFault q cq s = _
  simp only [execQueueDmaFault, runs, if_true]

end

/-! ### Watches (R436) -/

section
variable {s : State} {st : Nat} {p : Pkt}

/-- The answer to a WATCH, with a status and a value. -/
def watchReply (s : State) (st : Nat) (p : Pkt) (status value : Nat) : State :=
  enqueue s st (replyTo s p 0x61 (leBytes 1 status ++ leBytes 1 0 ++ leBytes 2 (qNonce p) ++ leBytes 4 0 ++ leBytes 8 value))

theorem watchReply_eq (status value : Nat) : watchReply s st p status value =
    enqueue s st (replyTo s p 0x61 (leBytes 1 status ++ leBytes 1 0 ++ leBytes 2 (qNonce p) ++ leBytes 4 0 ++ leBytes 8 value)) := rfl

theorem exec_watch_torn (torn : tornDown s p = true) : exec (.watch st p) s = .next (watchReply s st p fsAborted 0) := by
  change execWatch st p s = _
  simp only [execWatch, watchAt, torn, if_true, (by decide : fsAborted ≠ 0), (by decide : fsAborted ≠ fsAsleep), ne_eq,
    not_false_eq_true, if_false, watchReply]

section
variable (live : tornDown s p = false)
include live

theorem exec_watch_refused (refused : syncRefusal s st p (qOperand p / 2 ^ 32 % 65536) ≠ 0) :
    let why := syncRefusal s st p (qOperand p / 2 ^ 32 % 65536)
    exec (.watch st p) s = .next (watchReply (if why = fsAsleep then bump s 0x9000 0xA else s) st p why 0) := by
  change execWatch st p s = _
  simp only [execWatch, watchAt, live, refused, Bool.false_eq_true, if_false, ne_eq, not_false_eq_true, if_true, watchReply]

section
variable (may : syncRefusal s st p (qOperand p / 2 ^ 32 % 65536) = 0)
include may

theorem exec_watch_reached (reached : reaches (syncGet s st (qOperand p / 2 ^ 32 % 65536)) (BitVec.ofNat 32 (qOperand p)) = true) :
    exec (.watch st p) s = .next (watchReply s st p 0 (syncGet s st (qOperand p / 2 ^ 32 % 65536)).toNat) := by
  change execWatch st p s = _
  simp only [execWatch, watchAt, live, may, reached, Bool.false_eq_true, if_false, ne_eq, not_true, if_true, watchReply]

section
variable (early : reaches (syncGet s st (qOperand p / 2 ^ 32 % 65536)) (BitVec.ofNat 32 (qOperand p)) = false)
include early

theorem exec_watch_full (full : 4 ≤ (Tab.get [] s.fab.watches (watchKey st (qOperand p / 2 ^ 32 % 65536))).length) :
    exec (.watch st p) s = .next (watchReply s st p 34 0) := by
  change execWatch st p s = _
  simp only [execWatch, watchAt, live, may, early, full, Bool.false_eq_true, if_false, ne_eq, not_true, if_true, watchReply]

theorem exec_watch_held (room : (Tab.get [] s.fab.watches (watchKey st (qOperand p / 2 ^ 32 % 65536))).length < 4) :
    let key := watchKey st (qOperand p / 2 ^ 32 % 65536)
    let w : Watch := { value := BitVec.ofNat 32 (qOperand p), slice := p.slice, expiry := field (qData p) 0 8, station := st
                       reply := replyTo s p 0x61 (leBytes 1 0 ++ leBytes 1 0 ++ leBytes 2 (qNonce p) ++ leBytes 4 0 ++ leBytes 8 0) }
    exec (.watch st p) s = .next
      { s with fab := { s.fab with watches := Tab.put [] s.fab.watches key (Tab.get [] s.fab.watches key ++ [w]) } } := by
  change execWatch st p s = _
  simp only [execWatch, watchAt, live, may, early, Nat.not_le.2 room, Bool.false_eq_true, if_false, ne_eq, not_true]

end

end

end

/-- The answer to a WATCH ends its WAIT as a completion does. -/
theorem exec_watchFire {x : Track} (own : p.fabric = false) (entry : getTrack s 28 p.tag = some x) (nonce : x.nonce = aNonce p)
    (live : s.fab.torn.contains p.slice = false) :
    let u := putTrack s 28 p.tag none
    let r : BridgeEnd := { track := x, status := aStatus p, detail := aDetail p, value := aValue p, data := aData p, poison := p.poison }
    exec (.watchFire p) s = .next (drainEnded { u with fab := { u.fab with ended := u.fab.ended ++ [r] } }) := by
  have completes : exec (.watchFire p) s = exec (.completion 28 p [] []) s := rfl
  rw [completes, exec_completion_taken own entry nonce live, takeAnswer, if_pos rfl]

end

theorem exec_watchExpiry {s : State} {t name : Nat} {w : Watch} {ws : List Watch}
    (held : Tab.get [] s.fab.watches (watchKey t name) = w :: ws) :
    let first := ws.foldl (fun m x => min m x.expiry) w.expiry
    let u := atCount s first
    exec (.watchExpiry t name) s = .next { u with fab := { u.fab with
      watches := Tab.put [] u.fab.watches (watchKey t name) ((w :: ws).filter (fun x => first < x.expiry)) } } := by
  change execWatchExpiry t name s = _
  simp only [execWatchExpiry, held]

end Sys2Proof.Machine

section
open Sys2Proof Sys2Proof.Machine

/-- Settles O34: what an entry issues by its kind and its progress, a WATCH by its checks in their order, its answer as a
completion (`exec_completion_taken`). Detail and tag of the record of a failure at the host are the model's choice
(log 64). -/
theorem hostEntriesIssueAndEnd : Obligations.HostEntriesIssueAndEnd := by
  unfold Obligations.HostEntriesIssueAndEnd
  refine ⟨fun q idx s => ⟨?_, ?_, fun e => exec_read, fun e => exec_signal, fun e => exec_wait, fun e tag => exec_waitTimeout,
    exec_queueDmaFault⟩, fun st p s => ?_, fun st p s live => ?_, fun p x s => exec_watchFire, fun t name w ws s => exec_watchExpiry⟩
  · exact fun e data fault entry tag noneAgain => ⟨exec_write_piece entry tag data fault noneAgain,
      exec_write_signal entry tag data fault noneAgain⟩
  · exact fun e data fault i c l entry tag => exec_write_again entry tag data fault
  · exact ⟨exec_watch_torn, exec_watch_refused⟩
  · exact fun may => ⟨exec_watch_reached live may, exec_watch_full live may, exec_watch_held live may⟩
end

namespace Sys2Proof.Machine

/-! ### References (R442, R444 to R447, R453, R533) -/

/-- A reversion posted to a source that fails is dropped. -/
def dropReversion (s : State) (src : Nat) : State :=
  match s.clk.revert with
  | some (r, _) => if r = src then { s with clk := { s.clk with revert := none } } else s
  | none => s

/-- A reversion to a source is worth posting: the source is better than the one in force and than that of a posted one. -/
def betterRef (s : State) (src : Nat) : Prop := src < s.clk.inForce ∧ ∀ r f, s.clk.revert = some (r, f) → src < r

/-- Reverting is allowed: by the entry, before READY, or while the synthesiser runs free (log 72). -/
def mayRevert (s : State) : Prop := rdE s 0x3000 5 = 1 ∨ s.boot.readyAt = none ∨ s.clk.freeRun = true

section
variable {s : State} {src : Nat}

theorem betterRef_iff : (src < s.clk.inForce && (match s.clk.revert with | some (r, _) => decide (src < r) | none => true)) = true ↔
    betterRef s src := by
  rw [Bool.and_eq_true, decide_eq_true_eq, betterRef]
  cases s.clk.revert with
  | none => simp only [reduceCtorEq, false_implies, implies_true]
  | some p =>
    obtain ⟨r, f⟩ := p
    simp only [decide_eq_true_eq, Option.some.injEq, Prod.mk.injEq, and_imp]
    exact and_congr_right fun _ => ⟨fun h r' f' same _ => same ▸ h, fun h => h r f rfl rfl⟩

theorem mayRevert_iff : (rdE s 0x3000 5 = 1 || s.boot.readyAt.isNone || s.clk.freeRun) = true ↔ mayRevert s := by
  simp only [Bool.or_eq_true, decide_eq_true_eq, Option.isNone_iff_eq_none, or_assoc, mayRevert]

theorem postReversion_posted (better : betterRef s src) (may : mayRevert s) :
    postReversion s src = { s with clk := { s.clk with revert := some (src, frontAt (epoch s + 8192)) } } :=
  if_pos ((Bool.and_eq_true _ _).mpr ⟨betterRef_iff.2 better, mayRevert_iff.2 may⟩)

theorem postReversion_kept (stays : ¬ (betterRef s src ∧ mayRevert s)) : postReversion s src = s :=
  if_neg fun h => stays ⟨betterRef_iff.1 (Bool.and_eq_true _ _ |>.mp h).1, mayRevert_iff.1 (Bool.and_eq_true _ _ |>.mp h).2⟩

section
variable (rails : s.boot.mainOn = true) (source : src < 2)
include rails source

theorem exec_referenceFailure (used : refState s src ≠ 0 ∨ s.clk.inForce = src) (works : refState s src ≠ 3) :
    let v := dropReversion (setRef s src 3) src
    exec (.referenceFailure src) s = .next (if v.clk.inForce = src then changeRef v (bestRef v) else v) := by
  have fails : (!s.boot.mainOn || 2 ≤ src || (refState s src = 0 && s.clk.inForce ≠ src) || refState s src = 3) = false := by
    simp only [rails, Nat.not_le.2 source, works, Bool.not_true, decide_false, Bool.or_self, Bool.or_false, Bool.false_or,
      Bool.and_eq_false_iff, decide_eq_false_iff_not, not_not]
    exact used
  exact if_neg (ne_true_of_eq_false fails)

theorem exec_referenceReturn (gone : refState s src = 0 ∨ refState s src = 3) (usable : src = 1 → secondaryUp s = true) :
    exec (.referenceReturn src) s = .next
      (setRef { s with clk := { s.clk with refSince := Tab.put 0 s.clk.refSince src s.now } } src 1) := by
  have returns : (!s.boot.mainOn || 2 ≤ src || (refState s src ≠ 0 && refState s src ≠ 3) || (src = 1 && !secondaryUp s)) = false := by
    simp only [rails, Nat.not_le.2 source, Bool.not_true, decide_false, Bool.or_self, Bool.false_or, Bool.or_eq_false_iff,
      Bool.and_eq_false_iff, decide_eq_false_iff_not, not_not, Bool.not_eq_false', ne_eq]
    exact ⟨gone, imp_iff_not_or.1 usable⟩
  exact if_neg (ne_true_of_eq_false returns)

theorem exec_referenceQualified (qualifying : refState s src = 1) : exec (.referenceQualified src) s = .next
    (postReversion (setRef (advanceTo s (Tab.get 0 s.clk.refSince src + 10 * secPs)) src 2) src) := by
  change execReferenceQualified src s = _
  simp only [execReferenceQualified, rails, Nat.not_le.2 source, qualifying, ne_eq, not_true, Bool.not_true, decide_false, Bool.or_self,
    Bool.false_eq_true, if_false]

end

theorem exec_holdoverFailure (rails : s.boot.mainOn = true) (holdover : s.clk.inForce = 2) (synthesised : s.clk.freeRun = false) :
    let u := setRef s 2 3
    exec .holdoverFailure s = .next (refReport { u with clk := { u.clk with freeRun := true } } 0x5A 2) := by
  change execHoldoverFailure s = _
  simp only [execHoldoverFailure, rails, holdover, synthesised, ne_eq, not_true, Bool.not_true, decide_false, Bool.or_self,
    Bool.false_eq_true, if_false]

end

/-! ### Aligning the epoch (R450 to R452, R557) -/

section
variable {s : State} (follows : epochSource s ≠ 0xFFFF) (sampled : s.clk.offN ≠ 0)
include follows sampled

theorem follower_averages : ¬ (decide (epochSource s = 0xFFFF) || decide (s.clk.offN = 0)) = true := by
  simp only [Bool.or_eq_true, decide_eq_true_eq, not_or]
  exact ⟨follows, sampled⟩

theorem exec_epochOffsetAverage_unaligned (unaligned : s.clk.aligned = false) :
    let avg := s.clk.offSum / (s.clk.offN : Int)
    let u := wrE { s with clk := { s.clk with offSum := 0, offN := 0 } } 0x3100 4 (unsigned 32 avg)
    exec .epochOffsetAverage s = .next (stepEpoch u avg) :=
  (if_neg (follower_averages follows sampled)).trans (if_pos (by rw [wrE, unaligned]; rfl))

section
variable (aligned : s.clk.aligned = true)
include aligned

/-- Whether an aligned follower's average is stepped away: it lies beyond 64 ns, and no slice is admitted. -/
theorem exec_epochOffsetAverage_aligned :
    let avg := s.clk.offSum / (s.clk.offN : Int)
    let u := wrE { s with clk := { s.clk with offSum := 0, offN := 0 } } 0x3100 4 (unsigned 32 avg)
    exec .epochOffsetAverage s = if ((avg < -64000 || 64000 < avg) && noJobs u) = true
      then .next { u with clk := { u.clk with stepAt := some (frontAt (epoch u + 1)), stepBy := avg, slewLeft := 0 } }
      else .next (noteOffset { u with clk := { u.clk with slewLeft := -avg } } avg) :=
  (if_neg (follower_averages follows sampled)).trans (if_neg (by rw [wrE, aligned]; decide))

theorem exec_epochOffsetAverage_steps :
    let avg := s.clk.offSum / (s.clk.offN : Int)
    let u := wrE { s with clk := { s.clk with offSum := 0, offN := 0 } } 0x3100 4 (unsigned 32 avg)
    avg < -64000 ∨ 64000 < avg → noJobs u = true → exec .epochOffsetAverage s = .next
      { u with clk := { u.clk with stepAt := some (frontAt (epoch u + 1)), stepBy := avg, slewLeft := 0 } } := by
  intro avg u far idle
  refine (exec_epochOffsetAverage_aligned follows sampled aligned).trans (if_pos ?_)
  simp only [Bool.and_eq_true, Bool.or_eq_true, decide_eq_true_eq]
  exact ⟨far, idle⟩

theorem exec_epochOffsetAverage_slews :
    let avg := s.clk.offSum / (s.clk.offN : Int)
    let u := wrE { s with clk := { s.clk with offSum := 0, offN := 0 } } 0x3100 4 (unsigned 32 avg)
    ¬ (avg < -64000 ∨ 64000 < avg) ∨ noJobs u = false → exec .epochOffsetAverage s = .next
      (noteOffset { u with clk := { u.clk with slewLeft := -avg } } avg) := by
  intro avg u near
  refine (exec_epochOffsetAverage_aligned follows sampled aligned).trans (if_neg ?_)
  simp only [Bool.and_eq_true, Bool.or_eq_true, decide_eq_true_eq]
  exact fun ⟨far, idle⟩ => near.elim (· far) (fun busy => ne_true_of_eq_false busy idle)

end

end

end Sys2Proof.Machine

section
open Sys2Proof Sys2Proof.Machine

/-- Settles O36: a source by its state, a qualified one by whether a reversion is better and allowed (`postReversion_posted`,
`postReversion_kept`), a follower by its alignment, its average and the admitted slices. When a returned source qualifies
(log 72) and that the secondary is judged anew (log 114) are the model's choices. -/
theorem referencesFailReturnAndAlignTheEpoch : Obligations.ReferencesFailReturnAndAlignTheEpoch := by
  unfold Obligations.ReferencesFailReturnAndAlignTheEpoch
  refine ⟨fun src s rails source => ⟨exec_referenceFailure rails source, exec_referenceReturn rails source, fun qualifying => ?_⟩,
    fun s => exec_holdoverFailure, fun s follows sampled => ⟨exec_epochOffsetAverage_unaligned follows sampled,
      fun aligned => exec_epochOffsetAverage_steps follows sampled aligned,
      fun aligned => exec_epochOffsetAverage_slews follows sampled aligned⟩⟩
  have qualifies := exec_referenceQualified rails source qualifying
  exact ⟨fun better may => qualifies.trans (congrArg _ (postReversion_posted better may)),
    fun stays => qualifies.trans (congrArg _ (postReversion_kept stays))⟩
end

namespace Sys2Proof.Machine

/-! ### Clock fronts, fall-back, mode and limit (R380, R386, R454 to R459, R475) -/

/-- A front does its work in the order of R459, after the replica's report. -/
theorem exec_clockFront (front : Nat) (nvFails : Bool) (replica : Option Int) (s : State) :
    let f := if front % 4096 = 0 && epoch s < front && front < 2 ^ 64 then front else nextFront s
    exec (.clockFront front nvFails replica) s = .next (frontWork (toFront s f) nvFails replica) := rfl

section
variable {s : State} {t : Nat} (isOpen : tileOpen s t = true)
include isOpen

theorem exec_fallBackRequest (awake : modeNow s ≠ 3) :
    exec (.fallBackRequest t) s = .next (modTile (bump s 0x3200 4) t (fun tl => { tl with
      fallPost := tl.fallPost ++ [frontAt (epoch (bump s 0x3200 4) + 313)], fallLast := s.now, fallUp := false })) := by
  change execFallBackRequest t s = _
  simp only [execFallBackRequest, isOpen, awake, Bool.not_true, decide_false, Bool.or_self, Bool.false_eq_true, if_false]
  rfl

theorem exec_fallBackWithdraw (falls : (getTile s t).fall.isSome = true) (stays : (getTile s t).fallUp = false) :
    exec (.fallBackWithdraw t) s = .next
      (modTile (advanceTo s ((getTile s t).fallLast + 10 * msPs)) t (fun tl => { tl with fallUp := true })) := by
  change execFallBackWithdraw t s = _
  simp only [execFallBackWithdraw, isOpen, ← Option.not_isSome, falls, stays, Bool.not_true, Bool.or_self, Bool.false_eq_true, if_false]

end

section
variable {r : VdpReq} {s : State}

theorem exec_modeSelect (ok : granted s (atEntry r 0x2000 1) = true) (mode : leNat r.data ≤ 3) :
    let front := frontAt (epoch s + 8192)
    exec (.modeSelect r) s = .next (served
      { s := { (wrE s 0x2000 1 (leNat r.data)) with clk := { s.clk with modeAt := some (leNat r.data, front) } }, data := leBytes 8 front }
      (atEntry r 0x2000 1)) :=
  congrArg Host.Outcome.next (vdpEntry_accepted (effect := writeMode) ok (decide_eq_true mode) rfl rfl)

theorem exec_tileClockLimit (ok : granted s (atEntry r 0x3200 1) = true) (limit : clockOk (leNat r.data) = true) :
    let front := frontAt (epoch s + 8192)
    exec (.tileClockLimit r) s = .next (served
      { s := { (wrE s 0x3200 1 (leNat r.data)) with clk := { s.clk with limitAt := some (leNat r.data, front) } }, data := leBytes 8 front }
      (atEntry r 0x3200 1)) :=
  congrArg Host.Outcome.next (vdpEntry_accepted (effect := writeLimit) ok limit rfl rfl)

end

end Sys2Proof.Machine

section
open Sys2Proof Sys2Proof.Machine

/-- Settles O37: a front by its work (`exec_clockFront`), fall-back by the tile's state, mode and limit by what their
entries' rules do with a granted value. Fronts that are jumped over are the model's choice (log 73). -/
theorem clockFrontsFallBackModesAndLimits : Obligations.ClockFrontsFallBackModesAndLimits := by
  unfold Obligations.ClockFrontsFallBackModesAndLimits
  refine ⟨fun front nvFails replica s => ?_, fun t s isOpen => ⟨exec_fallBackRequest isOpen, exec_fallBackWithdraw isOpen⟩,
    fun r s => exec_modeSelect, fun r s => exec_tileClockLimit⟩
  cases replica with
  | none => exact exec_clockFront front nvFails none s
  | some x => exact exec_clockFront front nvFails (some x) s
end

namespace Sys2Proof.Machine

/-! ### Power (R381 to R383, R470 to R475) -/

section
variable {s : State}

theorem exec_tilePowerEstimate {t : Nat} (total dyn : Nat) (clocked : (clockedTiles s).contains t = true) :
    exec (.tilePowerEstimate t total dyn) s = .next
      { s with pow := { s.pow with tileEst := Tab.mod [] s.pow.tileEst t (fun l => lastN 5 (l ++ [(total, dyn)])) } } :=
  if_neg (by rw [clocked]; decide)

section
variable (rails : s.boot.mainOn = true)
include rails

theorem exec_packagePowerEstimate (fixed : Nat) :
    let p := (((tilesPower s (·.1) + fixed : Nat) : Int) + s.pow.offset).toNat
    let u := wrE s 0x2100 3 p
    let w := u.pow
    let v := { u with pow := { w with pkgEst := lastN 10 (w.pkgEst ++ [(p, tilesPower u (·.2))]), estSum := w.estSum + p, estN := w.estN + 1 } }
    exec (.packagePowerEstimate fixed) s = .next
      (if modeNow v = 3 then stillSkip v p else if 11 * capNow v < 10 * p then outOfTurn v else v) := by
  intro p u w v
  have estimates : exec (.packagePowerEstimate fixed) s = if modeNow v = 3 then .next (stillSkip v p)
      else if 11 * capNow v < 10 * p then .next (outOfTurn v) else .next v := if_neg (by rw [rails]; decide)
  rw [estimates]
  split_ifs <;> rfl

theorem exec_capLoopIteration :
    let u := atCount s ((s.pow.iterAt + 15625) % 2 ^ 64)
    let v := if modeNow u = 3 then u else iterate u
    exec .capLoopIteration s = .next
      { v with pow := { v.pow with iterAt := epoch v, capUsed := some (capInForce v), pkgEst := [] } } :=
  if_neg (by rw [rails]; decide)

end

theorem exec_capSkipEnd (set : s.pow.skipEnd ≠ 0) :
    let u := advanceTo s s.pow.skipEnd
    exec .capSkipEnd s = .next (settleSkip { u with pow := { u.pow with skipEnd := 0 } }) := if_neg set

theorem exec_powerCap {r : VdpReq} (ok : granted s (atEntry r 0x2100 1) = true) (low : 1000 ≤ leNat r.data) (high : leNat r.data ≤ 8000) :
    exec (.powerCap r) s = .next (served { s := wrE s 0x2100 1 (leNat r.data) } (atEntry r 0x2100 1)) := by
  have inRange : (decide (1000 ≤ leNat r.data) && decide (leNat r.data ≤ 8000)) = true := by rw [decide_eq_true low, decide_eq_true high]; rfl
  exact congrArg Host.Outcome.next (vdpEntry_accepted ok inRange rfl rfl)

theorem exec_housekeepingRound (mv ma : Nat) (standby : s.boot.standby = true) :
    let u := wrE (wrE s 0x2200 3 (mv % 2 ^ 32)) 0x2200 4 (ma % 2 ^ 32)
    exec (.housekeepingRound mv ma) s = .next (readSensors (noteInput (settleOffset (countEnergy u mv ma) mv ma) mv)) :=
  if_neg (by rw [standby]; decide)

end

end Sys2Proof.Machine

section
open Sys2Proof Sys2Proof.Machine

/-- Settles O38: each command of the cap loop by its guard, the cap by what its entry's rules do with a granted value. The
sum of the tiles' means and the window of an iteration out of turn are the model's choices (log 69). -/
theorem powerIsEstimatedAndCapped : Obligations.PowerIsEstimatedAndCapped := by
  unfold Obligations.PowerIsEstimatedAndCapped
  exact ⟨fun t total dyn s => exec_tilePowerEstimate total dyn, fun fixed s rails => exec_packagePowerEstimate rails fixed,
    fun s => exec_capLoopIteration, fun s => exec_capSkipEnd, fun r s => exec_powerCap, fun mv ma s => exec_housekeepingRound mv ma⟩
end

namespace Sys2Proof.Machine

/-! ### Laser samples and gaps (R526 to R530) -/

section
variable {s : State} {g : Nat}

section
variable (inModule : g < 4) (rails : s.boot.mainOn = true) (noGap : laserGap s g = none) (lit : bit s.las.lost g = false)
variable (active : laserDie s (laserOwner s g) = 1)
include inModule rails noGap lit active

/-- A sample of a lit group outside a gap is a cause of switch-over where it is the second low one in turn. -/
theorem exec_laserMonitorSample (low : Nat) :
    let isLow := decide (low &&& laserLines g ≠ 0)
    let second := isLow && bit s.las.low g
    let u := { s with las := { s.las with low := setBit s.las.low g (isLow && !second) } }
    exec (.laserMonitorSample g low) s = .next (if second then laserCause u g else u) := by
  change execLaserMonitorSample g low s = _
  simp only [execLaserMonitorSample, Nat.not_le.2 inModule, rails, noGap, lit, active, Option.isSome_none, ne_eq, not_true, decide_false,
    Bool.not_true, Bool.or_self, Bool.false_eq_true, if_false]

theorem exec_laserMonitorSample_second {low : Nat} (isLow : low &&& laserLines g ≠ 0) (wasLow : bit s.las.low g = true) :
    exec (.laserMonitorSample g low) s = .next
      (laserCause { s with las := { s.las with low := setBit s.las.low g false } } g) := by
  rw [exec_laserMonitorSample inModule rails noGap lit active]
  simp only [isLow, wasLow, ne_eq, not_false_eq_true, decide_true, Bool.and_self, Bool.not_true, Bool.and_false, if_true]

theorem exec_laserMonitorSample_first {low : Nat} (isLow : low &&& laserLines g ≠ 0) (wasHigh : bit s.las.low g = false) :
    exec (.laserMonitorSample g low) s = .next { s with las := { s.las with low := setBit s.las.low g true } } := by
  rw [exec_laserMonitorSample inModule rails noGap lit active]
  simp only [isLow, wasHigh, ne_eq, not_false_eq_true, decide_true, Bool.and_false, Bool.not_false, Bool.and_self, Bool.false_eq_true,
    if_false]

theorem exec_laserMonitorSample_good {low : Nat} (good : ¬ low &&& laserLines g ≠ 0) :
    exec (.laserMonitorSample g low) s = .next { s with las := { s.las with low := setBit s.las.low g false } } := by
  rw [exec_laserMonitorSample inModule rails noGap lit active]
  simp only [good, decide_false, Bool.false_and, Bool.false_eq_true, if_false]

end

section
variable {x : Gap} (gap : laserGap s g = some x)
include gap

theorem exec_laserDriveApply (waits : x.drive = false) : exec (.laserDriveApply g) s = .next
    (setGap (atCount s ((x.g0 + 16) % 2 ^ 64)) g (some { x with drive := true })) := by
  change execLaserDriveApply g s = _
  simp only [execLaserDriveApply, gap, waits, Bool.false_eq_true, if_false]

theorem exec_laserLineCheck (bad : Nat) (driven : x.drive = true) (unchecked : x.checked = false) :
    let u := setGap (atCount s ((x.g0 + 2400) % 2 ^ 64)) g (some { x with checked := true, failed := bad &&& laserLines g })
    exec (.laserLineCheck g bad) s = .next
      (if bad &&& laserLines g ≠ 0 || x.hit then laserReport u 0x4A 9 (2 * g + x.die) g x.g0 else u) := by
  change execLaserLineCheck g bad s = _
  simp only [execLaserLineCheck, gap, driven, unchecked, Bool.not_true, Bool.or_self, Bool.false_eq_true, if_false]

theorem exec_laserGapEnd (checked : x.checked = true) :
    let u := setGap (atCount s ((x.g0 + 2500) % 2 ^ 64)) g none
    exec (.laserGapEnd g) s = .next (nextWaiting (if x.failed = 0 && !x.hit then completeGap u g x else failGap u g x)) := by
  change execLaserGapEnd g s = _
  simp only [execLaserGapEnd, gap, checked, Bool.not_true, Bool.false_eq_true, if_false]

end

end

/-! ### Commanded switch-overs and restarts (R388, R485, R531) -/

section
variable {s : State} {sel : Tab Nat} {v : List Byte}

theorem switchGroup_starts (noGap : laserGap s (leNat v) = none) (standby : (standbyDie s (leNat v)).isSome = true)
    (noneWaits : s.las.waiting.any (fun w => w % 4 = leNat v) = false) (rails : s.boot.mainOn = true) :
    switchGroup s sel v = { s := switchOver s (leNat v) true } := by
  simp only [switchGroup, noGap, ← Option.not_isSome, standby, noneWaits, rails, Option.isSome_none, Bool.not_true, Bool.or_self,
    Bool.false_eq_true, if_false]

theorem switchGroup_refused (cannot : (laserGap s (leNat v)).isSome = true ∨ standbyDie s (leNat v) = none
    ∨ s.las.waiting.any (fun w => w % 4 = leNat v) = true ∨ s.boot.mainOn = false) :
    switchGroup s sel v = { s := s, status := stRefused } := by
  refine if_pos ?_
  simp only [Bool.or_eq_true, Bool.not_eq_true', Option.isNone_iff_eq_none, or_assoc]
  exact cannot

theorem restartDie_checked (inactive : laserDie s (leNat v) ≠ 1) (unchecked : Tab.get false s.las.checks (leNat v) = false)
    (noGap : laserGap s (leNat v / 2) = none) :
    restartDie s sel v = { s := { s with las := { s.las with checks := Tab.put false s.las.checks (leNat v) true } } } := by
  simp only [restartDie, inactive, unchecked, noGap, Option.isSome_none, decide_false, Bool.or_self, Bool.false_eq_true, if_false]

end

section
variable {r : VdpReq} {s : State}

section
variable (ok : granted s (atEntry r 0x4200 6) = true) (group : leNat r.data < 4)
include ok group

theorem exec_switchLaserGroup (noGap : laserGap s (leNat r.data) = none) (standby : (standbyDie s (leNat r.data)).isSome = true)
    (noneWaits : s.las.waiting.any (fun w => w % 4 = leNat r.data) = false) (rails : s.boot.mainOn = true) :
    exec (.switchLaserGroup r) s = .next (served { s := switchOver s (leNat r.data) true } (atEntry r 0x4200 6)) :=
  congrArg Host.Outcome.next (vdpEntry_accepted ok (decide_eq_true group) (switchGroup_starts noGap standby noneWaits rails) rfl)

theorem exec_switchLaserGroup_refused (cannot : (laserGap s (leNat r.data)).isSome = true ∨ standbyDie s (leNat r.data) = none
    ∨ s.las.waiting.any (fun w => w % 4 = leNat r.data) = true ∨ s.boot.mainOn = false) : exec (.switchLaserGroup r) s = .next
      (answer s (atEntry r 0x4200 6) (respOf (atEntry r 0x4200 6) stRefused 0 [])) :=
  congrArg Host.Outcome.next (vdpEntry_rejected ok (decide_eq_true group) (switchGroup_refused cannot) (by decide : stRefused ≠ 0))

end

theorem exec_restartLaserDie (ok : granted s (atEntry r 0x4200 7) = true) (die : leNat r.data < 8)
    (inactive : laserDie s (leNat r.data) ≠ 1) (unchecked : Tab.get false s.las.checks (leNat r.data) = false)
    (noGap : laserGap s (leNat r.data / 2) = none) : exec (.restartLaserDie r) s = .next (served
      { s := { s with las := { s.las with checks := Tab.put false s.las.checks (leNat r.data) true } } } (atEntry r 0x4200 7)) :=
  congrArg Host.Outcome.next (vdpEntry_accepted ok (decide_eq_true die) (restartDie_checked inactive unchecked noGap) rfl)

end

section
variable {s : State} {k : Nat} (underCheck : Tab.get false s.las.checks k = true)
include underCheck

theorem exec_laserRestartCheckDone_passes :
    let u := { s with las := { s.las with checks := Tab.put false s.las.checks k false } }
    exec (.laserRestartCheckDone k true) s = .next (setLaserDie u k 2) := if_neg (by rw [underCheck]; decide)

theorem exec_laserRestartCheckDone_fails :
    let u := { s with las := { s.las with checks := Tab.put false s.las.checks k false } }
    exec (.laserRestartCheckDone k false) s = .next
      (nextFree (laserReport (setLaserDie u k 3) 0x48 9 k (k / 2) (openValue (setLaserDie u k 3)))) := if_neg (by rw [underCheck]; decide)

end

end Sys2Proof.Machine

section
open Sys2Proof Sys2Proof.Machine

/-- Settles O41: a sample by whether it and the last one are low, a gap by its progress, a commanded switch-over and a
restart by what their entries' rules do with a granted value. The open Tag of class 0x48 (logs 6, 64) and what a lost group
keeps (log 75) are the model's choices. -/
theorem laserGroupsSwitchOverAndRestart : Obligations.LaserGroupsSwitchOverAndRestart := by
  unfold Obligations.LaserGroupsSwitchOverAndRestart
  refine ⟨fun g low s inModule rails noGap lit active => ?_, fun g x s gap => ⟨exec_laserDriveApply gap, exec_laserLineCheck gap,
    exec_laserGapEnd gap⟩, fun r s => exec_switchLaserGroup, fun r s => exec_switchLaserGroup_refused, fun r s => exec_restartLaserDie,
    fun k s underCheck => ⟨exec_laserRestartCheckDone_passes underCheck, exec_laserRestartCheckDone_fails underCheck⟩⟩
  exact ⟨exec_laserMonitorSample_second inModule rails noGap lit active, exec_laserMonitorSample_first inModule rails noGap lit active,
    exec_laserMonitorSample_good inModule rails noGap lit active⟩
end

namespace Sys2Proof.Machine

/-! ### Temperature samples and the throttle (R477, R481, R484) -/

section
variable {s : State} {die : Nat} (temp : Int) (standby : s.boot.standby = true)
include standby

theorem exec_temperatureSample_judged (staged : die < 132) (powered : diePowered s die = true) (works : sensorFailed s die = false) :
    exec (.temperatureSample die temp) s = .next (settleCool (judgeSample s die temp)) := by
  have inModule : ¬ 139 ≤ die := by omega
  change execTemperatureSample die temp s = _
  simp only [execTemperatureSample, standby, inModule, Nat.not_le.2 staged, powered, works, decide_false, Bool.not_true, Bool.or_self,
    Bool.false_eq_true, if_false]

/-- A die without stages, or without power, is not judged. -/
theorem exec_temperatureSample_kept (inModule : die < 139) (unjudged : 132 ≤ die ∨ diePowered s die = false) :
    exec (.temperatureSample die temp) s = .next
      (settleCool { s with pow := { s.pow with temps := Tab.put none s.pow.temps die (some temp) } }) := by
  have kept : (decide (132 ≤ die) || !diePowered s die) = true := by
    rw [Bool.or_eq_true, decide_eq_true_eq, Bool.not_eq_true']
    exact unjudged
  change execTemperatureSample die temp s = _
  simp only [execTemperatureSample, standby, Nat.not_le.2 inModule, kept, decide_false, Bool.not_true, Bool.or_self, Bool.false_eq_true,
    if_false, if_true]

end

section
variable {s : State} {t c : Nat} (ceiling : (getTile s t).thr.ceiling = some c) (awake : modeNow s ≠ 3)
include ceiling awake

section
variable (on : (getTile s t).thr.on = true)
include on

theorem exec_throttleCeilingDrop :
    let x := (getTile s t).thr
    let u := advanceTo s (x.since + 10 * msPs)
    let y : Throttle := { x with since := u.now, temp := throttleTemp u t }
    let z : Throttle := { y with post := some (max 800 (c - 200), frontAt (epoch u + 1)), drop := true }
    exec (.throttleCeilingDrop t) s = .next (modTile u t (fun tl =>
      { tl with thr := if throttleTemp u t + 10 ≤ x.temp then y else z })) := by
  change execThrottleCeilingDrop t s = _
  simp only [execThrottleCeilingDrop, ceiling, on, awake, ne_eq, not_false_eq_true, decide_true, Bool.and_self]

/-- A fall of 1 degree starts the time again. -/
theorem exec_throttleCeilingDrop_cooler :
    let x := (getTile s t).thr
    let u := advanceTo s (x.since + 10 * msPs)
    throttleTemp u t + 10 ≤ x.temp → exec (.throttleCeilingDrop t) s = .next
      (modTile u t (fun tl => { tl with thr := { x with since := u.now, temp := throttleTemp u t } })) := by
  intro x u cooler
  rw [exec_throttleCeilingDrop ceiling awake on]
  simp only [show throttleTemp (advanceTo s ((getTile s t).thr.since + 10 * msPs)) t + 10 ≤ (getTile s t).thr.temp from cooler, if_true]
  rfl

theorem exec_throttleCeilingDrop_lower :
    let x := (getTile s t).thr
    let u := advanceTo s (x.since + 10 * msPs)
    ¬ throttleTemp u t + 10 ≤ x.temp → exec (.throttleCeilingDrop t) s = .next (modTile u t (fun tl => { tl with
      thr := { x with since := u.now, temp := throttleTemp u t, post := some (max 800 (c - 200), frontAt (epoch u + 1)), drop := true } })) := by
  intro x u hot
  rw [exec_throttleCeilingDrop ceiling awake on]
  simp only [show ¬ throttleTemp (advanceTo s ((getTile s t).thr.since + 10 * msPs)) t + 10 ≤ (getTile s t).thr.temp from hot, if_false]
  rfl

end

theorem exec_throttleRecoveryStep (ended : (getTile s t).thr.on = false) :
    let x := (getTile s t).thr
    let u := advanceTo s (x.since + 10 * msPs)
    exec (.throttleRecoveryStep t) s = .next (modTile u t (fun tl => { tl with
      thr := { x with since := u.now, post := some (c + 100, frontAt (epoch u + 1)), drop := false } })) := by
  change execThrottleRecoveryStep t s = _
  simp only [execThrottleRecoveryStep, ceiling, ended, awake, ne_eq, not_false_eq_true, decide_true, Bool.not_false, Bool.and_self]

end

/-! ### The latch, rail faults and input faults (R482, R483, R486 to R488) -/

section
variable {r : VdpReq} {s : State} (ok : granted s (atEntry r 0x2300 7) = true)
include ok

theorem exec_releaseThermalLatch (cool : allCool s = true) : exec (.releaseThermalLatch r) s = .next (served
    { s := persist (wrE { s with pow := { s.pow with cool := some s.now } } 0x2300 6 0) 0x2300 6 } (atEntry r 0x2300 7)) := by
  have releases : releaseLatch s (selects s (atEntry r 0x2300 7)) r.data = _ := if_neg (by rw [cool]; decide)
  exact congrArg Host.Outcome.next (vdpEntry_accepted ok rfl releases rfl)

theorem exec_releaseThermalLatch_refused (hot : allCool s = false) : exec (.releaseThermalLatch r) s = .next
    (answer s (atEntry r 0x2300 7) (respOf (atEntry r 0x2300 7) stRefused 0 [])) := by
  have refuses : releaseLatch s (selects s (atEntry r 0x2300 7)) r.data = _ := if_pos (by rw [hot]; rfl)
  exact congrArg Host.Outcome.next (vdpEntry_rejected ok rfl refuses (by decide : stRefused ≠ 0))

end

section
variable {s : State} {t : Nat}

section
variable (clocked : (clockedTiles s).contains t = true)
include clocked

theorem exec_railFault : exec (.railFault t) s = .next (settleTimers (tileReset
    (modTile (tileReport s 0x1A t 0 0) t (fun tl => { tl with railLow := true, thr := {} })) t 2 0)) :=
  if_neg (by rw [clocked]; decide)

theorem exec_railRecovery (low : (getTile s t).railLow = true) : exec (.railRecovery t) s = .next
    (settleTimers (settleThrottle (finishReset (modTile s t (fun tl => { tl with railLow := false })) t) t)) :=
  if_neg (by rw [clocked, low]; decide)

end

theorem exec_inputFault_on (rails : s.boot.mainOn = true) :
    let u := mainOff s false
    let v := { u with pow := { u.pow with inputOff := u.boot.standby, inputGood := none } }
    exec .inputFault s = .next (nextFree (report v { cls := 0x63, detail := openValue v % 2 ^ 32, tag := openNth v 1 })) :=
  congrArg Host.Outcome.next (if_pos rails)

theorem exec_inputFault_off (down : s.boot.mainOn = false) :
    let u := mainOff s false
    exec .inputFault s = .next { u with pow := { u.pow with inputOff := u.boot.standby, inputGood := none } } :=
  congrArg Host.Outcome.next (if_neg (ne_true_of_eq_false down))

theorem exec_thaw (cool : s.pow.cool = some t) (off : s.pow.thermalOff = true) (released : rdE s 0x2300 6 = 0)
    (input : s.pow.inputOff = false) :
    let u := advanceTo s (t + 60 * secPs)
    let v := { u with pow := { u.pow with thermalOff := false }, boot := { u.boot with cause := 3 } }
    exec .thaw s = .next (if mayStart v && v.boot.mainEnable then startMains v 3 else v) := by
  change execThaw s = _
  simp only [execThaw, cool, off, released, input, ne_eq, not_true, decide_false, Bool.not_true, Bool.or_self, Bool.false_eq_true, if_false]

theorem exec_inputRecovery (good : s.pow.inputGood = some t) (off : s.pow.inputOff = true) :
    let u := advanceTo s (t + secPs)
    let v := { u with pow := { u.pow with inputOff := false }, boot := { u.boot with cause := 4 } }
    exec .inputRecovery s = .next (if mayStart v && v.boot.mainEnable then startMains v 4 else v) := by
  change execInputRecovery s = _
  simp only [execInputRecovery, good, off, Bool.not_true, Bool.false_eq_true, if_false]

end

end Sys2Proof.Machine

section
open Sys2Proof Sys2Proof.Machine

/-- Settles O39: a sample by its die, a throttled tile by its ceiling and whether it cools, the latch by the diodes, rail
and input faults by their guards. The class and the open fields of the input fault's record (logs 63, 69) and the times of
the throttle (log 70) are the model's choices. -/
theorem heatThrottlesAndRailFaultsReset : Obligations.HeatThrottlesAndRailFaultsReset := by
  unfold Obligations.HeatThrottlesAndRailFaultsReset
  refine ⟨fun die temp s standby inModule => ⟨exec_temperatureSample_judged temp standby, exec_temperatureSample_kept temp standby inModule⟩,
    fun t c s ceiling awake => ⟨exec_throttleCeilingDrop_cooler ceiling awake, exec_throttleCeilingDrop_lower ceiling awake,
      exec_throttleRecoveryStep ceiling awake⟩, fun r s => exec_releaseThermalLatch, fun r s => exec_releaseThermalLatch_refused,
    fun t s clocked => ⟨exec_railFault clocked, exec_railRecovery clocked⟩, fun s => ⟨exec_inputFault_on, exec_inputFault_off⟩,
    fun t s => exec_thaw, fun t s => exec_inputRecovery⟩
end

namespace Sys2Proof.Machine

/-! ### Samples and decisions of the Forecast unit (R536 to R538) -/

section
variable {s : State} (standby : s.boot.standby = true) (running : s.fc.restartAt ≤ s.now)
include standby running

theorem exec_channelSample {ch : Nat} (x : Int) (channel : ch < 22) :
    let u := { s with fc := { s.fc with samples := Tab.mod [] s.fc.samples ch (fun l => lastN 5 (l ++ [signed 16 (unsigned 16 x)])) } }
    let old := bit u.fc.flags ch
    let new := flagAfter (channelRec u ch) (lowBand ch) old (filtered u ch)
    let fresh := setBit u.fc.fresh ch (new && (!old || bit u.fc.fresh ch))
    exec (.channelSample ch x) s =
      .next (coolByChannel { u with fc := { u.fc with flags := setBit u.fc.flags ch new, fresh := fresh } } ch x) := by
  change execChannelSample ch x s = _
  simp only [execChannelSample, standby, Nat.not_le.2 channel, Nat.not_lt.2 running, Bool.not_true, decide_false, Bool.or_self,
    Bool.false_eq_true, if_false]

theorem exec_forecastDecision_off (off : s.pow.thermalOff = true ∨ s.pow.inputOff = true) :
    exec .forecastDecision s = .next { s with fc := { s.fc with fresh := 0 } } := by
  change execForecastDecision s = _
  simp only [execForecastDecision, standby, Nat.not_lt.2 running, Bool.or_eq_true_iff.2 off, Bool.not_true, decide_false,
    Bool.or_self, Bool.false_eq_true, if_false, if_true]

section
variable (cool : s.pow.thermalOff = false) (input : s.pow.inputOff = false)
include cool input

theorem exec_forecastDecision_stays (stay : s.fc.flags &&& actionMask s 2 ≠ 0) :
    exec .forecastDecision s = .next { s with fc := { s.fc with stay := true, fresh := 0 } } := by
  change execForecastDecision s = _
  simp only [execForecastDecision, standby, Nat.not_lt.2 running, cool, input, stay, ne_eq, not_false_eq_true, Bool.not_true,
    decide_false, Bool.or_self, Bool.false_eq_true, if_false, if_true]

/-- With no flag of action stay, STAY ends, and a sleeping module wakes for a fresh wake flag or a held request. -/
theorem exec_forecastDecision_wakes (noStay : s.fc.flags &&& actionMask s 2 = 0) :
    let fresh := (if s.fc.stay then s.fc.flags else s.fc.fresh) &&& actionMask s 1
    let u := { s with fc := { s.fc with stay := false, fresh := 0 } }
    exec .forecastDecision s =
      .next (if s.fc.sleep ≠ 0 && (fresh ≠ 0 || s.fc.held.isSome) then decideWake u fresh else u) := by
  intro fresh u
  change execForecastDecision s = _
  simp only [execForecastDecision, standby, Nat.not_lt.2 running, cool, input, noStay, ne_eq, not_true, Bool.not_true,
    decide_false, Bool.or_self, Bool.false_eq_true, if_false, apply_ite Host.Outcome.next, fresh, u]

end

end

/-! ### Sleep requests (R539, R540) -/

section
variable {r : VdpReq} {s : State} (ok : granted s (atEntry r 0x9000 2) = true)
include ok

/-- A granted sleep request that its entry's rules accept. -/
theorem exec_sleepRequest_accepted {u : State} (inRange : leNat r.data ≤ 3)
    (takes : sleepRequest s (selects s (atEntry r 0x9000 2)) r.data = { s := u }) :
    exec (.sleepRequest r) s = .next (served { s := u } (atEntry r 0x9000 2)) :=
  congrArg Host.Outcome.next (vdpEntry_accepted ok (decide_eq_true inRange) takes rfl)

theorem exec_sleepRequest_wake (zero : leNat r.data = 0) :
    exec (.sleepRequest r) s = .next (served { s := requestWake s } (atEntry r 0x9000 2)) :=
  exec_sleepRequest_accepted ok (by omega) (if_pos zero)

theorem exec_sleepRequest_busy (deep : 1 ≤ leNat r.data) (inRange : leNat r.data ≤ 3) (changes : changing s = true) :
    exec (.sleepRequest r) s = .next (answer s (atEntry r 0x9000 2) (respOf (atEntry r 0x9000 2) stBusy 0 [])) := by
  have takes : sleepRequest s (selects s (atEntry r 0x9000 2)) r.data = { s := s, status := stBusy } := by
    simp only [sleepRequest, changes, Nat.ne_of_gt deep, if_false, if_true]
  exact congrArg Host.Outcome.next (vdpEntry_rejected ok (decide_eq_true inRange) takes (by decide : stBusy ≠ 0))

section
variable (steady : changing s = false)
include steady

theorem exec_sleepRequest_same (deep : 1 ≤ leNat r.data) (inRange : leNat r.data ≤ 3) (same : leNat r.data = s.fc.sleep) :
    exec (.sleepRequest r) s = .next (served { s := s } (atEntry r 0x9000 2)) := by
  refine exec_sleepRequest_accepted ok inRange ?_
  simp only [sleepRequest, steady, same ▸ Nat.ne_of_gt deep, same, Bool.false_eq_true, if_false, if_true]

theorem exec_sleepRequest_refused (inRange : leNat r.data ≤ 3) (deeper : s.fc.sleep < leNat r.data)
    (kept : s.fc.stay = true ∨ s.fc.flags &&& actionMask s 1 ≠ 0) :
    exec (.sleepRequest r) s = .next (answer s (atEntry r 0x9000 2) (respOf (atEntry r 0x9000 2) stRefused 1 [])) := by
  have keeps : (s.fc.stay && decide (s.fc.sleep < leNat r.data) || decide (s.fc.flags &&& actionMask s 1 ≠ 0)) = true := by
    rw [decide_eq_true deeper, Bool.and_true, Bool.or_eq_true, decide_eq_true_iff]
    exact kept
  have takes : sleepRequest s (selects s (atEntry r 0x9000 2)) r.data = { s := s, status := stRefused, detail := 1 } := by
    simp only [sleepRequest, steady, Nat.ne_of_gt (Nat.zero_lt_of_lt deeper), Nat.ne_of_gt deeper, keeps, Bool.false_eq_true, if_false,
      if_true]
  exact congrArg Host.Outcome.next (vdpEntry_rejected ok (decide_eq_true inRange) takes (by decide : stRefused ≠ 0))

section
variable (noWake : s.fc.flags &&& actionMask s 1 = 0)
include noWake

theorem exec_sleepRequest_shallower (deep : 1 ≤ leNat r.data) (shallower : leNat r.data < s.fc.sleep) (sleep : s.fc.sleep ≤ 3) :
    exec (.sleepRequest r) s = .next (served
      { s := requestWake { s with fc := { s.fc with next := some (leNat r.data) } } } (atEntry r 0x9000 2)) := by
  refine exec_sleepRequest_accepted ok (by omega) ?_
  simp only [sleepRequest, steady, noWake, Nat.ne_of_gt deep, Nat.ne_of_lt shallower, Nat.not_lt_of_gt shallower, shallower, ne_eq,
    not_true, decide_false, Bool.and_false, Bool.or_self, Bool.false_eq_true, if_false, if_true]

theorem exec_sleepRequest_deeper (inRange : leNat r.data ≤ 3) (deeper : s.fc.sleep < leNat r.data) (noStay : s.fc.stay = false)
    (ready : s.boot.readyAt.isSome = true) :
    exec (.sleepRequest r) s = .next (served
      { s := { s with fc := { s.fc with entry := some (leNat r.data), front := frontAt (epoch s + 8192) } } } (atEntry r 0x9000 2)) := by
  refine exec_sleepRequest_accepted ok inRange ?_
  simp only [sleepRequest, acceptEntry, steady, noWake, noStay, Nat.ne_of_gt (Nat.zero_lt_of_lt deeper), Nat.ne_of_gt deeper,
    Nat.not_lt_of_gt deeper, ← Option.not_isSome, ready, ne_eq, not_true, Bool.not_true, decide_false, Bool.false_and, Bool.or_self,
    Bool.false_eq_true, if_false]

end

end

end

/-! ### Stages of an entry and the end of a wake (R541, R542, R544) -/

section
variable {s : State}

theorem exec_dozeStageDone (entering : s.fc.entry.isSome = true) (closed : s.fc.closed = true) (awake : s.fc.sleep = 0) :
    exec .dozeStageDone s = .next (stageEnds (drainTiles s) 1) := by
  refine if_neg ?_
  rw [← Option.not_isSome, entering, closed, awake]
  decide

theorem exec_napStageDone {v : Nat} (entering : s.fc.entry = some v) (deep : 2 ≤ v) (closed : s.fc.closed = true)
    (doze : s.fc.sleep = 1) :
    exec .napStageDone s = .next (stageEnds (circuitsDark (squelchGroups s (fun l => !wakeLink s l))) 2) := by
  change execNapStageDone s = _
  simp only [execNapStageDone, entering, closed, doze, Nat.not_lt.2 deep, ne_eq, not_true, decide_false, Bool.not_true, Bool.or_self,
    Bool.false_eq_true, if_false]

theorem exec_hibernateStageDone (entering : s.fc.entry = some 3) (nap : s.fc.sleep = 2) :
    let u := pldmEvent (mainOff (squelchGroups s (fun _ => true)) true) 12 2 3
    exec .hibernateStageDone s = .next { u with fc := { s.fc with sleep := 3, closed := true, entry := none } } := by
  refine if_neg ?_
  rw [entering, nap]
  decide

theorem exec_wakeComplete (waking : s.fc.waking = true) (noEntry : s.fc.entry = none)
    (ready : s.fc.sleep = 3 → s.boot.readyAt.isSome = true) (awake : diesAsleep s = false) :
    let u := setSleep (openTiles s) 0
    let v := { u with fc := { u.fc with waking := false, closed := false } }
    exec .wakeComplete s = .next (match v.fc.next with
      | some k => acceptEntry { v with fc := { v.fc with next := none } } k
      | none => v) := by
  refine if_neg ?_
  have up : (decide (s.fc.sleep = 3) && s.boot.readyAt.isNone) = false := by
    rw [← Option.not_isSome, Bool.and_eq_false_imp, decide_eq_true_iff]
    exact fun hibernates => by rw [ready hibernates]; rfl
  rw [waking, noEntry, up, awake]
  decide

end

end Sys2Proof.Machine

section
open Sys2Proof Sys2Proof.Machine

/-- Settles O43: a decision by what holds the module off and by the flags of action stay, a sleep request by the state it
asks for against the present one, an entry's stages by the depth reached. That READY is required of a sleep request, and that
a held request is named before a channel as a wake's cause, are the model's choices (log 76). -/
theorem theForecastUnitDecidesSleepsAndWakes : Obligations.TheForecastUnitDecidesSleepsAndWakes := by
  unfold Obligations.TheForecastUnitDecidesSleepsAndWakes
  refine ⟨fun ch x s standby channel running => exec_channelSample standby running x channel, fun s standby running => ⟨?_, ?_, ?_⟩,
    fun r s ok => ⟨exec_sleepRequest_wake ok, exec_sleepRequest_busy ok, ?_, ?_, ?_, ?_⟩, fun s => ⟨?_, ?_, ?_, ?_⟩⟩
  · exact exec_forecastDecision_off standby running
  · exact exec_forecastDecision_stays standby running
  · exact exec_forecastDecision_wakes standby running
  · exact fun deep inRange steady => exec_sleepRequest_same ok steady deep inRange
  · exact fun inRange steady => exec_sleepRequest_refused ok steady inRange
  · exact fun deep steady shallower sleep noWake => exec_sleepRequest_shallower ok steady noWake deep shallower sleep
  · exact fun inRange steady deeper noStay noWake => exec_sleepRequest_deeper ok steady noWake inRange deeper noStay
  · exact exec_dozeStageDone
  · exact fun v => exec_napStageDone
  · exact exec_hibernateStageDone
  · exact exec_wakeComplete

end

namespace Sys2Proof.Machine

/-! ### Rails and Mantles at power-up (R547, R549, R550, R552) -/

section
variable {s : State}

theorem exec_standbyRailUp (down : s.boot.standby = false) :
    let boots := if s.boot.resetHigh then 1 else 0
    exec .standbyRailUp s = .next { s with
      boot := { s.boot with standby := true, stage := 0, result := 0, cause := 0, warm := false, alert := true }
      mantle := { s.mantle with dieA := boots, dieB := boots, idle := some s.now }
      pow := { s.pow with inputGood := some s.now }
      log := {} } :=
  if_neg (by rw [down]; decide)

section
variable {m : Nat} (inModule : m < 2) (standby : s.boot.standby = true)
include inModule standby

section
variable (bad0 bad1 : Bool) (boots : dieState s m = 1) (flash : s.boot.spiSel = false)
include boots flash

theorem mantleBoot_may : (decide (2 ≤ m) || decide (dieState s m ≠ 1) || !s.boot.standby || s.boot.spiSel) = false := by
  rw [decide_eq_false (Nat.not_le.2 inModule), boots, standby, flash]
  decide

theorem exec_mantleBootDone_active (active : mantleActive s = true) : exec (.mantleBootDone m bad0 bad1) s = .next
    (if (imageAt s s.boot.running).state = 1 then mantleReady s m else setDieState s m 5) := by
  change execMantleBootDone m bad0 bad1 s = _
  simp only [execMantleBootDone, mantleBoot_may inModule standby boots flash, active, Bool.false_eq_true, if_false, if_true]

section
variable (noneActive : mantleActive s = false)
include noneActive

theorem exec_mantleBootDone_image :
    let c0 := s.mantle.copy0
    let c1 := s.mantle.copy1
    let m1 := { s.mantle with copy0 := { c0 with valid := c0.valid && !bad0 }, copy1 := { c1 with valid := c1.valid && !bad1 } }
    let u := { s with mantle := m1 }
    ∀ i, bootImage u = some i →
      let v := mantleReady { u with boot := { u.boot with running := i, other := i ≠ bootSelect u } } m
      exec (.mantleBootDone m bad0 bad1) s = .next (if m = 0 && v.mantle.freeSince.isNone then becomeActive v 0 else v) := by
  intro c0 c1 m1 u i image v
  change execMantleBootDone m bad0 bad1 s = _
  simp only [execMantleBootDone, mantleBoot_may inModule standby boots flash, noneActive, Bool.false_eq_true, if_false]
  rw [show bootImage _ = some i from image]

theorem exec_mantleBootDone_none :
    let c0 := s.mantle.copy0
    let c1 := s.mantle.copy1
    let m1 := { s.mantle with copy0 := { c0 with valid := c0.valid && !bad0 }, copy1 := { c1 with valid := c1.valid && !bad1 } }
    let u := { s with mantle := m1 }
    bootImage u = none → exec (.mantleBootDone m bad0 bad1) s = .next { u with boot := { u.boot with alert := true } } := by
  intro c0 c1 m1 u noImage
  change execMantleBootDone m bad0 bad1 s = _
  simp only [execMantleBootDone, mantleBoot_may inModule standby boots flash, noneActive, Bool.false_eq_true, if_false]
  rw [show bootImage _ = none from noImage]

end

end

theorem exec_mantleRestartN (freed : s.boot.resetHigh = true) :
    let u := cutMantle s m
    exec (.mantleRestartN m) s = .next (setDieState (if u.mantle.owner = some m then releaseLine u none else u) m 1) :=
  if_neg (by rw [decide_eq_false (Nat.not_le.2 inModule), standby, freed]; decide)

end

theorem exec_spiSel_high (a b : Option (List Byte)) :
    exec (.spiSel true a b) s = .next { s with boot := { s.boot with spiSel := true } } := if_pos (Bool.or_true _)

theorem exec_spiSel_low (a b : Option (List Byte)) (given : s.boot.spiSel = true) : exec (.spiSel false a b) s = .next { s with boot :=
    { s.boot with
      spiSel := false, imageA := (a.map imageOf).getD s.boot.imageA, imageB := (b.map imageOf).getD s.boot.imageB } } :=
  if_neg (by rw [given]; decide)

theorem exec_mainRailsStart :
    let u := { s with boot := { s.boot with mainEnable := true, cause := if s.boot.mainEnable then s.boot.cause else 6 } }
    exec .mainRailsStart s = .next (if mayStart u then startMains u u.boot.cause else u) := by
  change execMainRailsStart s = _
  cases high : s.boot.mainEnable with
  | false => simp only [execMainRailsStart, high, Bool.not_false, Bool.false_eq_true, if_false, if_true]
  | true => simp only [execMainRailsStart, high, Bool.not_true, Bool.false_eq_true, if_false, if_true]

end

/-! ### Start-up stages and guests (R553 to R555, R558, R565, R566) -/

section
variable {s : State}

section
variable (start : starting s = true)
include start

section
variable (dies : Nat) (failed : List (Nat × Nat)) (mats : List MatRef)

/-- The work of a start-up stage at its end, by the stage's number. -/
theorem exec_startUpStageDone :
    let c := exec (.startUpStageDone dies failed mats) s
    (s.boot.stage = 2 → c = .next (setStage (stageRails s) 3)) ∧ (s.boot.stage = 3 → c = .next (setStage (stageLasers s dies) 4)) ∧
    (s.boot.stage = 4 → c = .next (stagePattern s failed mats)) ∧ (s.boot.stage = 6 → c = .next (setStage (stageClear s) 7)) ∧
    (s.boot.stage = 7 → c = .next (setStage (stageConfigure s) 8)) ∧ (s.boot.stage = 8 → s.part ≠ 1 → c = .next (stageReady s)) ∧
    (s.boot.stage = 9 → c = .next (stageReady s)) := by
  intro c
  have runs : c = execStartUpStageDone dies failed mats s := rfl
  simp only [runs, execStartUpStageDone, start, Bool.not_true, Bool.false_eq_true, if_false]
  refine ⟨fun at2 => ?_, fun at3 => ?_, fun at4 => ?_, fun at6 => ?_, fun at7 => ?_, fun at8 other => ?_, fun at9 => ?_⟩
  · simp only [at2]
  · simp only [at3]
  · simp only [at4]
  · simp only [at6]
  · simp only [at7]
  · simp only [at8, other, if_false]
  · simp only [at9]

end

theorem exec_guestDiscovery (sites : List GuestSite) (part : s.part = 1) (stage : s.boot.stage = 8) :
    let empty := fun (s : State) (g : Nat) =>
      wrB (wrE (wrE (wrE (wrE s (0x1040 + g) 1 0) (0x1040 + g) 2 0) (0x1040 + g) 3 0) (0x1040 + g) 5 0) (0x1040 + g) 4 []
    exec (.guestDiscovery sites) s = .next
      (setStage (settleRoles (sites.foldl foundGuest ((List.range 4).foldl empty { s with guestSites := 0 }))) 9) :=
  if_neg (by rw [start, part, stage]; decide)

end

section
variable {g : Nat} (site : g < 4) (present : bit s.guestSites (24 + g) = true)
include site present

theorem exec_guestLinkFailure (up : (getTile s (24 + g)).reset = none) : exec (.guestLinkFailure g) s = .next
    (modTile s (24 + g) (fun tl => { tl with reset := some { cause := 0, since := s.now } })) :=
  if_neg (by rw [decide_eq_false (Nat.not_le.2 site), present, up]; decide)

theorem exec_guestLinkRetrained (down : (getTile s (24 + g)).reset.isSome = true) :
    let u := modTile s (24 + g) (fun tl => { tl with reset := none })
    exec (.guestLinkRetrained g) s = .next (guestReport (wrE u (0x1040 + g) 5 ((rdE u (0x1040 + g) 5 + 1) % 2 ^ 32)) g) :=
  if_neg (by rw [decide_eq_false (Nat.not_le.2 site), present, ← Option.not_isSome, down]; decide)

end

end

end Sys2Proof.Machine

section
open Sys2Proof Sys2Proof.Machine

/-- Settles O44: a Mantle's boot by whether another is active and an image can boot, a start of the rails by what
MAIN_ENABLE was, a stage by its number, a guest by its link. The rise of MAIN_ENABLE as cause 6 (log 77), the record of a
guest's failure (log 79) and the alert (log 60) are the model's choices. -/
theorem theModulePowersUpAndStarts : Obligations.TheModulePowersUpAndStarts := by
  unfold Obligations.TheModulePowersUpAndStarts
  refine ⟨fun s => exec_standbyRailUp, fun m bad0 bad1 s inModule boots standby flash => ⟨?_, fun noneActive => ⟨?_, ?_⟩⟩,
    fun m s => exec_mantleRestartN, fun a b s => ⟨exec_spiSel_high a b, exec_spiSel_low a b⟩, fun s => ⟨fun may => ?_, fun mayNot => ?_⟩,
    fun dies failed mats s start => exec_startUpStageDone start dies failed mats, fun sites s start => exec_guestDiscovery start sites,
    fun g s site present => ⟨exec_guestLinkFailure site present, exec_guestLinkRetrained site present⟩⟩
  · exact exec_mantleBootDone_active inModule standby bad0 bad1 boots flash
  · exact exec_mantleBootDone_image inModule standby bad0 bad1 boots flash noneActive
  · exact exec_mantleBootDone_none inModule standby bad0 bad1 boots flash noneActive
  · exact exec_mainRailsStart.trans (congrArg Host.Outcome.next (if_pos may))
  · exact exec_mainRailsStart.trans (congrArg Host.Outcome.next (if_neg (Bool.not_eq_true _ ▸ mayNot)))

end

namespace Sys2Proof.Machine

/-! ### Orderly shutdown (R573, R574) -/

section
variable {s : State}

theorem exec_mainEnableDeassert (on : s.boot.mainOn = true ∨ s.fc.sleep = 3) :
    exec .mainEnableDeassert s = .next (beginShutdown { s with boot := { s.boot with mainEnable := false } }) :=
  congrArg Host.Outcome.next (if_pos (Bool.or_eq_true_iff.2 (on.imp_right (decide_eq_true (p := s.fc.sleep = 3)))))

/-- The work of a shutdown step by its number; after the fifth the rails go off, and a restart asked for boots the Mantles. -/
theorem exec_orderlyShutdownStep {k : Nat} (step : s.boot.shutdown = some k) :
    let u := { s with boot := { s.boot with shutdown := some (k + 1) } }
    (k = 0 → exec .orderlyShutdownStep s = .next ((jobs u).foldl (fun s j => finishTeardown (startTeardown s j.1) j.1) u)) ∧
    (k = 1 → exec .orderlyShutdownStep s = .next { drainTiles u with fc := { (drainTiles u).fc with closed := true } }) ∧
    (k = 2 → exec .orderlyShutdownStep s = .next (squelchGroups u (fun _ => true))) ∧
    (k = 3 → exec .orderlyShutdownStep s = .next (hostDown u)) ∧
    (k = 4 → exec .orderlyShutdownStep s = .next { u with las := { u.las with stored := u.las.own } }) ∧
    (5 ≤ k →
      let v := mainOff u false
      let w := { v with boot := { v.boot with shutdown := none, restart := false } }
      let x := freeMantles (holdMantles w)
      exec .orderlyShutdownStep s = .next (if s.boot.restart then { x with boot := { x.boot with cause := 2 } } else w)) := by
  have runs : exec .orderlyShutdownStep s = execOrderlyShutdownStep s := rfl
  simp only [runs, execOrderlyShutdownStep, step]
  refine ⟨fun at0 => ?_, fun at1 => ?_, fun at2 => ?_, fun at3 => ?_, fun at4 => ?_, fun last => ?_⟩
  · simp only [at0]
  · simp only [at1]
  · simp only [at2]
  · simp only [at3]
  · simp only [at4]
  · obtain ⟨n, rfl⟩ := Nat.exists_eq_add_of_le' last
    rfl

end

section
variable {r : VdpReq} {s : State} (idle : s.boot.shutdown = none)
include idle

theorem exec_restartModule (ok : granted s (atEntry r 0x1100 7) = true) :
    let u := beginShutdown s
    exec (.restartModule r) s = .next (served { s := { u with boot := { u.boot with restart := true } } } (atEntry r 0x1100 7)) :=
  congrArg Host.Outcome.next (vdpEntry_accepted ok rfl (if_neg (by rw [idle]; decide)) rfl)

theorem exec_erasePersistentStore (ok : granted s (atEntry r 0xF000 9) = true) (key : leNat r.data = 0x45524153) :
    let u := beginShutdown (forgetAll s)
    exec (.erasePersistentStore r) s = .next
      (served { s := { u with boot := { u.boot with restart := true } } } (atEntry r 0xF000 9)) :=
  congrArg Host.Outcome.next (vdpEntry_accepted ok (decide_eq_true key) (if_neg (by rw [idle]; decide)) rfl)

end

/-! ### Resets and the loss of the standby rail (R398, R482, R548, R578) -/

/-- A fold of tile updates touches nothing but the tiles. -/
theorem onlyTiles_foldl_modTile (f : Tile → Tile) (l : List Nat) (s : State) :
    onlyTiles s (l.foldl (fun s t => modTile s t f) s) := by
  induction l generalizing s with
  | nil => rfl
  | cons t l ih => exact (onlyTiles_modTile s t f).trans (ih (modTile s t f))

section
variable {s : State}

theorem exec_moduleResetNRelease (held : s.boot.resetHigh = false) :
    let u := { s with boot := { s.boot with resetHigh := true } }
    exec .moduleResetNRelease s = .next (if u.boot.standby then freeMantles u else u) := if_neg (by rw [held]; decide)

/-- What is left after the loss of the standby rail: the state after reset, with what the module keeps in its flash, its fuses
and its store. -/
theorem exec_standbyRailLoss (standby : s.boot.standby = true) : ∃ tiles, exec .standbyRailLoss s = .next { State.reset with
    pending := s.pending, now := s.now, part := s.part, out := s.out, free := s.free
    fusedTiles := s.fusedTiles, retiredTiles := s.retiredTiles, pendingTiles := s.pendingTiles, tiles := tiles
    dict := s.dict.filter (fun e => factoryKey e.1), blobs := s.blobs.filter (fun e => factoryKey e.1)
    mantle := { copy0 := s.mantle.copy0, copy1 := s.mantle.copy1 }
    las := { stored := if s.boot.mainOn then s.las.own else s.las.stored }
    boot := { mainEnable := s.boot.mainEnable, resetHigh := s.boot.resetHigh, spiSel := s.boot.spiSel
              imageA := s.boot.imageA, imageB := s.boot.imageB }
    host := { perst := s.host.perst, perstAt := s.host.perstAt } } := by
  have only : onlyTiles s _ := onlyTiles_foldl_modTile (darkTile false) (List.range 24) s
  rw [onlyTiles] at only
  change ∃ tiles, execStandbyRailLoss s = _
  simp only [execStandbyRailLoss, standby, Bool.not_true, Bool.false_eq_true, if_false]
  rw [only]
  exact ⟨_, rfl⟩

end

end Sys2Proof.Machine

section
open Sys2Proof Sys2Proof.Machine

/-- Settles O45: a shutdown step by its number, a restart and an erase by what their entries' rules do with a granted value,
the loss of the standby rail by the state it leaves. The laser owners kept through it (log 75), the details of reset and
shutdown (log 77) and the factory's entries (log 78) are the model's choices. -/
theorem theModuleShutsDownAndResets : Obligations.TheModuleShutsDownAndResets := by
  unfold Obligations.TheModuleShutsDownAndResets
  refine ⟨fun s => exec_mainEnableDeassert, fun k s => exec_orderlyShutdownStep, fun r s ok idle => exec_restartModule idle ok,
    fun r s ok key idle => exec_erasePersistentStore idle ok key, fun s => ⟨rfl, rfl⟩, fun s => exec_moduleResetNRelease,
    fun s standby => ?_⟩
  obtain ⟨tiles, lost⟩ := exec_standbyRailLoss standby
  exact ⟨_, lost, rfl, rfl, rfl, rfl, rfl, rfl, rfl, rfl, rfl, rfl, rfl, rfl, rfl, rfl⟩

end

namespace Sys2Proof.Machine

/-! ### A calibration's start, stages and end (R489 to R497, R507) -/

section
variable {r : VdpReq} {s : State} (ok : granted s (atEntry r 0x4000 2) = true)
include ok

theorem exec_startCalibration (idle : opRunning s 1 = false) (rails : s.boot.mainOn = true)
    (may : s.boot.readyAt.isSome = true ∨ s.boot.result = 3) :
    let u := startOp (clearMarks (lanesOut s)) 1 (unitsTotal (clearMarks (lanesOut s))) 0
    let v := { u with cal := { u.cal with stage := 1, since := u.now, fatal := false, step := none } }
    exec (.startCalibration r) s = .next (served { s := putOp v 1 { getOp v 1 with result := 1 } } (atEntry r 0x4000 2)) := by
  have allowed : (!s.boot.mainOn || (s.boot.readyAt.isNone && decide (s.boot.result ≠ 3))) = false := by
    rw [rails, ← Option.not_isSome]
    rcases may with ready | failed
    · rw [ready]; rfl
    · rw [decide_eq_false (not_not_intro failed), Bool.and_false]; rfl
  have takes : startCalibration s (selects s (atEntry r 0x4000 2)) r.data = { s := beginCalibration (clearMarks (lanesOut s)) } := by
    simp only [startCalibration, idle, allowed, Bool.false_eq_true, if_false]
  exact congrArg Host.Outcome.next (vdpEntry_accepted ok rfl takes rfl)

theorem exec_startCalibration_busy (runs : opRunning s 1 = true) :
    exec (.startCalibration r) s = .next (answer s (atEntry r 0x4000 2) (respOf (atEntry r 0x4000 2) stBusy 0 [])) := by
  have takes : startCalibration s (selects s (atEntry r 0x4000 2)) r.data = { s := s, status := stBusy } := if_pos runs
  exact congrArg Host.Outcome.next (vdpEntry_rejected ok rfl takes (by decide : stBusy ≠ 0))

end

/-- What every end of a calibration stores: the outcome and the time it took, and operation 1 ended by the outcome. -/
def calibrationJudged (s : State) (outcome : Nat) : State :=
  let o := getOp s 1
  let u := wrE (wrE s 0x4000 1 outcome) 0x4000 8 ((s.now - s.cal.since) / msPs % 2 ^ 32)
  let w := endOp u 1 (if outcome = 3 then 3 else 2) (outcome * 2 ^ 24) (if outcome = 3 then o.position else o.total)
  { w with cal := { w.cal with stage := 0 } }

section
variable {s : State} (runs : opRunning s 1 = true)
include runs

/-- A stage's end takes its own measures: the fatal ones end the calibration, a spare may stand in for a receiver, each of the
others is applied or marks its unit, and those whose passes differ count a third one. -/
theorem exec_calibrationStageDone (fields lines groups : List Measure) (first : 1 ≤ s.cal.stage) (last : s.cal.stage ≤ 6) :
    let k := s.cal.stage
    let ms := (fields ++ lines ++ groups).filter (fun m => stageOfMeasure m = k)
    let fatal := ms.any fatalMeasure
    let x := spareReceivers s (ms.filter (fun m => !fatalMeasure m))
    let u := countThird (x.2.foldl calibrateOne x.1) (thirdPasses ms)
    let o := getOp u 1
    let next := if fatal || k = 6 then 7 else k + 1
    let v := putOp u 1 { o with position := o.position + unitsOfStage u k, result := if next = 7 then k else next }
    let w := { v with cal := { v.cal with stage := next, fatal := v.cal.fatal || fatal } }
    exec (.calibrationStageDone fields lines groups) s = .next (if k = 1 then squelchGroups w (fun _ => true) else w) :=
  if_neg (by rw [runs, decide_eq_false (Nat.ne_of_gt first), decide_eq_false (Nat.not_lt.2 last)]; decide)

section
variable (stage : s.cal.stage = 7)
include stage

theorem calibrationDone_may : (!opRunning s 1 || decide (s.cal.stage ≠ 7)) = false := by
  rw [runs, stage]
  decide

/-- A calibration without a fatal failure is PASSED where nothing is marked and DEGRADED elsewhere. -/
theorem exec_calibrationDone_passes (good : s.cal.fatal = false) :
    let v := if s.cal.marked.isEmpty then 1 else 2
    let u := releaseHeld (calibrationJudged s v)
    exec .calibrationDone s = .next (if s.boot.readyAt.isSome then u
      else { u with boot := { u.boot with stage := max u.boot.stage 6, result := 0, degraded := u.boot.degraded || v = 2 } }) := by
  have notFailed : (if s.cal.marked.isEmpty then 1 else 2) ≠ 3 := by split <;> decide
  change execCalibrationDone s = _
  simp only [execCalibrationDone, calibrationJudged, calibrationDone_may runs stage, good, notFailed, Bool.false_eq_true, if_false]

theorem exec_calibrationDone_fails (fatal : s.cal.fatal = true) :
    let u := report (squelchAll (calibrationJudged s 3))
      { cls := 0x69, detail := (getOp s 1).result % 256 + (if (getOp s 1).result = 1 then 0 else 256), tag := (getOp s 1).position }
    exec .calibrationDone s = .next (if s.boot.readyAt.isSome then u else { u with boot := { u.boot with result := 3 } }) := by
  change execCalibrationDone s = _
  simp only [execCalibrationDone, calibrationJudged, calibrationDone_may runs stage, fatal, Bool.false_eq_true, if_false, if_true]

end

end

/-! ### Rotation, seam taps and recalibrated dies (R499, R503, R504, R506) -/

section
variable {s : State}

theorem exec_rotationStepEnd (inner links : List Measure) {x : RecalStep} (step : s.cal.step = some x) :
    let ms := (inner ++ links).filter (fun m => idKind m.id < 3 && idDetail m.id % 32 = x.line && 2 ≤ m.quantity && m.quantity ≤ 5)
    let u := countThird (ms.foldl recalibrateOne s) (thirdPasses ms)
    let back : Port → Port := fun p => { p with recal := none }
    let v := { u with bas := { u.bas with ports := u.bas.ports.map (fun e => (e.1, back e.2)) }, cal := { u.cal with step := none } }
    exec (.rotationStepEnd inner links) s = .next
      (if x.line = 16 then wrE v 0x4000 4 ((epoch v - v.cal.rotation) * countPs / msPs % 2 ^ 32) else v) := by
  change execRotationStepEnd inner links s = _
  simp only [execRotationStepEnd, step]

section
variable {id low high : Nat} (tracks : tracked s id = true)
include tracks

theorem exec_seamTapSweep_none (lost : tapCentre (low + 2 ^ 32 * high) = none) : exec (.seamTapSweep id low high) s = .next
    (sweepLost { s with cal := { s.cal with sweeps := Tab.put 0 s.cal.sweeps id 0 } } id) := by
  change execSeamTapSweep id low high s = _
  simp only [execSeamTapSweep, tracks, lost, Bool.not_true, Bool.false_eq_true, if_false]

theorem exec_seamTapSweep {c : Nat} (centre : tapCentre (low + 2 ^ 32 * high) = some c) :
    let last := Tab.get 0 s.cal.sweeps id
    let u := { s with cal := { s.cal with sweeps := Tab.put 0 s.cal.sweeps id (c + 1) } }
    exec (.seamTapSweep id low high) s = .next (if last = 0 then u else sweepPair u id (last - 1) c) := by
  change execSeamTapSweep id low high s = _
  simp only [execSeamTapSweep, tracks, centre, Bool.not_true, Bool.false_eq_true, if_false]

end

/-- Two sweeps agree on a tap: their centres differ by at most 1, and their mean lies within 4 of the tap. -/
def sweepsAgree (s : State) (id last centre : Nat) : Prop :=
  tapGap last centre ≤ 1 ∧ tapGap (tapMean last centre) (Tab.get 0 s.cal.taps id) ≤ 4

section
variable {id last centre : Nat}

theorem sweepPair_agrees (agrees : sweepsAgree s id last centre) : sweepPair s id last centre =
    { s with cal := { s.cal with taps := Tab.put 0 s.cal.taps id (tapMean last centre) } } := by
  obtain ⟨near, small⟩ := agrees
  refine if_neg ?_
  rw [decide_eq_false (Nat.not_lt.2 near), decide_eq_false (Nat.not_lt.2 small)]
  decide

theorem sweepPair_disagrees (disagrees : ¬ sweepsAgree s id last centre) : sweepPair s id last centre = sweepLost s id := by
  refine if_pos ?_
  rw [Bool.or_eq_true, decide_eq_true_iff, decide_eq_true_iff, ← Nat.not_le, ← Nat.not_le, ← not_and_or]
  exact disagrees

end

theorem exec_channelRecalibration {t die : Nat} (all : List Measure) (tile : t < 24) (dies : die < 3)
    (recalibrates : (getDie s t die).state = 3) :
    let ms := all.filter (fun m => idPlace m.id = t && (idKind m.id = 8 || idKind m.id = 9) && idUnit m.id / 6 = die && m.quantity = 6)
    let u := modDie s t die (fun d => { d with state := if ms.all (fun m => (settingOf m).isSome) then 1 else 4, draining := false })
    exec (.channelRecalibration t die all) s = .next (countThird (ms.foldl calibrateOne u) (thirdPasses ms)) :=
  if_neg (by rw [decide_eq_false (Nat.not_le.2 tile), decide_eq_false (Nat.not_le.2 dies), recalibrates]; decide)

end

end Sys2Proof.Machine

section
open Sys2Proof Sys2Proof.Machine

/-- Settles O40: a start by whether a calibration runs, the end of a stage measure by measure, the end by whether a failure
was fatal, a sweep by whether it agrees with the one before. That a group's spare stands in for a receiver (log 103), the
refusals and marks (log 74) and the precision and ties of a setting (log 98) are the model's choices. -/
theorem calibrationRunsItsStagesAndTracksChannels : Obligations.CalibrationRunsItsStagesAndTracksChannels := by
  unfold Obligations.CalibrationRunsItsStagesAndTracksChannels
  refine ⟨fun r s ok => ⟨exec_startCalibration ok, exec_startCalibration_busy ok⟩,
    fun fields lines groups s runs => exec_calibrationStageDone runs fields lines groups, fun s runs stage => ?_, fun inner links x s => exec_rotationStepEnd inner links, fun id low high s tracks => ⟨exec_seamTapSweep_none tracks,
    fun c centre => ⟨fun first => ?_, fun again agrees => ?_, fun again disagrees => ?_⟩⟩,
    fun t die all s => exec_channelRecalibration all⟩
  · intro o ready out
    have judged : out = calibrationJudged s := rfl
    refine ⟨fun good => ?_, fun fatal => ?_⟩
    · rw [judged]
      exact exec_calibrationDone_passes runs stage good
    · rw [judged]
      exact exec_calibrationDone_fails runs stage fatal
  · exact (exec_seamTapSweep tracks centre).trans (congrArg Host.Outcome.next (if_pos first))
  · exact (exec_seamTapSweep tracks centre).trans (congrArg Host.Outcome.next ((if_neg again).trans (sweepPair_agrees agrees)))
  · exact (exec_seamTapSweep tracks centre).trans (congrArg Host.Outcome.next ((if_neg again).trans (sweepPair_disagrees disagrees)))

end
